-- ==== Sys2Proof/Word.lean ====
section
/-! DEFINITION. The word types of Jalair (JH2400), the coherence home agent of the Hykar fabric. The spec treats
register contents, node IDs, line addresses and message fields as bits (spec/00_scope.md, "Bits, fields and
signals"; spec/02_olfer_messages.md, Table OLF-4), so these are bit vectors of the widths it gives. -/

namespace Sys2Proof

/-- A register (spec/12_control_plane.md: the LMB carries a 32-bit data word). -/
abbrev Word := BitVec 32

/-- One byte of memory, of a message or of an image. -/
abbrev Byte := BitVec 8

/-- A node ID: 16 bits, every value legal (R34). -/
abbrev NodeId := BitVec 16

/-- A line address: physical address bits [51:6] (Table OLF-4, header bits [95:50]). -/
abbrev LineAddr := BitVec 46

/-- The 64 bytes of a line; byte `i` of the line stands in bits [8i+7 : 8i]. -/
abbrev LineData := BitVec 512

/-- A byte mask of a line: bit `i` selects byte `i` (Table OLF-4). -/
abbrev ByteMask := BitVec 64

/-- An HTE index (Table ARC-4: 4,096 HTEs). -/
abbrev HteIx := Fin 4096

/-- A port number, 0 to 15 (R44: x8 port p bifurcates into p and p + 8). -/
abbrev PortIx := Fin 16

/-- A table held sparsely: key and value pairs, keys strictly rising, no value equal to the table's default. -/
abbrev Tab (α : Type) := List (Nat × α)

end Sys2Proof
end

