-- ==== Sys2Proof/Syntax.lean ====
section
/-! DEFINITION. The syntax of Jalair: the Olfer opcodes and messages (spec/02_olfer_messages.md), the operands of the
commands, and `Instr`, the commands themselves, one constructor per row of spec/opcode_table.json.
An operand that names what the environment did (a flit received, a fault a read met, a sensor's reading) is an
input of the block: the spec does not compute it (assumption log, entry 2). -/

namespace Sys2Proof

/-- The Olfer opcodes of Table OLF-8 (R72). -/
inductive Op where
  | rds | rdo | rdc | upg | wrl | wrp | wst | atm | fls
  | wbd | wbe | wbs
  | sfs | sfo | sfc | sin | src | spu | ssu | swp
  | cmp | gnt | ria | rsa | rwp | acc | dec | err
  | dsh | dex | dmo | dhm
  | cpl | ucp | thr | tha | clm | sma | cfg | evt | jrc | ttd
  deriving DecidableEq, Repr

/-- The message classes of Table OLF-6. -/
inductive MClass where
  | dat | rsp | snp | wbk | req | mgt
  deriving DecidableEq, Repr

/-- An Olfer message: the header fields of Table OLF-4 (R66) and the payload. Line data, a `WRP`'s mask, an `ATM`'s
operands and a MGT payload stand in `data` (message byte 24 + i is byte i) and `mask` (message bytes 88 to 95). -/
structure Msg where
  op : Op
  dest : NodeId := 0
  src : NodeId := 0
  tag : BitVec 12 := 0
  htag : BitVec 12 := 0
  fnode : NodeId := 0
  ftag : BitVec 12 := 0
  line : LineAddr := 0
  epoch : Bool := false
  poison : Bool := false
  staff : Bool := false
  dateline : Bool := false
  broadcast : Bool := false
  status : BitVec 8 := 0
  aux : BitVec 16 := 0
  hop : BitVec 8 := 0
  rsv : BitVec 13 := 0
  data : LineData := 0
  mask : ByteMask := 0
  deriving DecidableEq, Repr

/-- A flit as it is presented to the link layer (R46 to R48): its 256 bytes, byte 0 most significant, so that the
trailer is bits [127:0]; whether the FEC could correct it (R47); whether its messages arrive in the CORE cycle of the
flit before it (R154); and Jalair's own global time, bits [15:0], when its first symbol arrived (R531). -/
structure Flit where
  bits : BitVec 2048
  fecOk : Bool := true
  sameCycle : Bool := false
  stamp : BitVec 16 := 0
  deriving DecidableEq, Repr

/-- What the physical layer reports at L0 (Table OLF-1; OLF.PORT_STATUS, Table RGF-8): whether Alternate Protocol
Negotiation agreed on Olfer (R45), the lanes in use, the rate, lane reversal and downtraining onto lanes 4 to 7, and
whether the partner made the port a loopback follower in place of L0. -/
structure PhyTrain where
  olfer : Bool
  lanes : BitVec 4
  speed : BitVec 2
  reversed : Bool := false
  upper : Bool := false
  loopback : Bool := false
  deriving DecidableEq, Repr

/-- An LMB access (R587): the master ID and the privilege bit presented. -/
structure Lmb where
  mid : BitVec 3
  priv : Bool
  deriving DecidableEq, Repr

/-- A row of the Deck directory: the set that names it and whether it is the mirror row (R332, Table RGF-11). -/
structure DeckRow where
  mirror : Bool
  set : BitVec 18
  deriving DecidableEq, Repr

/-- The straps of R933. -/
structure Straps where
  chassis : BitVec 8
  slot : BitVec 6
  trust : Bool
  mbist : Bool
  deriving DecidableEq, Repr

/-- The two edges of a cold reset: PWRGD falls and the reset is held, or PWRGD has risen with RESET_N high and it
ends, sampling the straps (R933). -/
inductive ColdPhase where
  | hold
  | release (s : Straps)
  deriving DecidableEq, Repr

/-- The two edges of a warm reset (RESET_N low with PWRGD high, then high again). -/
inductive WarmPhase where
  | hold
  | release
  deriving DecidableEq, Repr

/-- What a DRAM read meets (R446 to R450): nothing, a correctable or an uncorrectable error with the failing device's
position. The poison syndrome is no input: memory holds it. -/
inductive ReadFault where
  | clean
  | correctable (dev : Fin 10)
  | uncorrectable (dev : Fin 10)
  deriving DecidableEq, Repr

/-- An error in one entry of a directory set, or in its tag in the mirror row, as a read meets it (R324, R341, R343).
`word4 mirrorBad` is an uncorrectable word 4, with the mirror row able to give the tag or not; `stateBad` is a reserved
state encoding in a readable word 4; `mirrorCorrected` is a correctable error of the way's mirror tag, which counts where
the mirror row is read. -/
inductive DeckFault where
  | corrected
  | word4 (mirrorBad : Bool)
  | stateBad
  | vector (word : Fin 4)
  | mirrorCorrected
  deriving DecidableEq, Repr

/-- What an HLC lookup meets (R405 to R408). -/
inductive HlcFault where
  | clean
  | corrected
  | uncorrectable
  | tagParity (way : Fin 16)
  | pointerParity
  deriving DecidableEq, Repr, Inhabited

/-- What an ALC lookup meets (R412 to R416): a bad tag copy of the entry read, both copies of an entry bad, a
correctable or an uncorrectable data word. -/
inductive AlcFault where
  | clean
  | copyBad
  | doubleFault (entry : Fin 48)
  | dataCorrected
  | dataUncorrectable (word : Fin 8)
  deriving DecidableEq, Repr

/-- The faults that the arrays present to one command. `Env.clean` is the fault-free case. `hlc` and `alc` are what the
lookups for the command's own line meet; `hlcOther` and `alcOther` what they meet for another line that the command
writes back: the line of a replaced ALC entry, of a victim or of a recovered entry. `retiredUpset` gives the retired
copies of the set read that a fault has set (R361). -/
structure Env where
  deck : List (Fin 16 × DeckFault) := []
  hlc : HlcFault := .clean
  hlcWay : Fin 16 := 0
  hlcOther : HlcFault := .clean
  alc : AlcFault := .clean
  alcOther : AlcFault := .clean
  ptrParity : Bool := false
  retiredUpset : BitVec 3 := 0
  mbUncorrectable : Option (Fin 8) := none
  deriving DecidableEq, Repr

/-- The fault-free environment. -/
def Env.clean : Env := {}

/-- Which writeback a WBK command serves: one that took an HTE at admission, or the oldest of those that are decided
at once without one (R167, R261). -/
inductive WbSel where
  | hte (h : HteIx)
  | atOnce
  deriving DecidableEq, Repr

/-- The fields of a FAB.SLOT_EDIT write beside its op (R557). -/
structure SlotEdit where
  slot : BitVec 8
  node : NodeId
  cls : BitVec 3 := 0
  junction : Bool := false
  member : Bool := false
  deriving DecidableEq, Repr

/-- The operands of a window command (Table RGF-1): sequence tag, set, table code and index. -/
structure WinCmd where
  seq : BitVec 4
  set : Bool := false
  table : BitVec 4 := 0
  index : BitVec 22
  deriving DecidableEq, Repr

/-- The windows of Table CTL-2 and R896. -/
inductive WinId where
  | cfg | trk | dir | atm | fab | ppr | eic | pmc | whs
  deriving DecidableEq, Repr

/-- How a journal device write ended (R729, R730). -/
inductive DevOutcome where
  | ok
  | latchClear
  | mismatch
  deriving DecidableEq, Repr

/-- How an SPB slave frame ended (R828, R829): after its last request bit, before it, or with an unknown command. -/
inductive FrameEnd where
  | whole
  | truncated
  | unknown
  deriving DecidableEq, Repr

/-- A TAP operation (R953 to R955): the level of TRST_N, or one TCK with its TMS and TDI. -/
inductive TapOp where
  | trst (low : Bool)
  | tck (tms tdi : Bool)
  deriving DecidableEq, Repr

/-- The commands of the block: one constructor per row of spec/opcode_table.json. -/
inductive Instr where
  /-- COLD_RESET (R949): PWRGD low or its rise ends a cold reset, which resets registers, samples straps, initialises the directory and ALC and loads the Kalpor image. -/
  | coldReset (ph : ColdPhase)
  /-- WARM_RESET (R949): RESET_N held low with PWRGD high warm-resets the device, keeping DRAM and MEM.CFG but resetting registers, directory, ALC and link layers. -/
  | warmReset (ph : WarmPhase)
  /-- LINK_RESET (R949): Setting OLF.PORT_CTL_p.link_reset holds port p in link-only reset, clearing its link layer, replay buffer and credits. -/
  | linkReset (a : Lmb) (p : PortIx)
  /-- VDD_AON_RISE (R898): VDD_AON rising into range initialises the always-on domain, including journal queue, tail buffer, JNL and CKP.RESET_CAUSE registers. -/
  | vddAonRise
  /-- VDD_AON_LOSS (R964): VDD_AON leaving its range loses the always-on contents, so the next rise starts a journal head search. -/
  | vddAonLoss
  /-- PLL_LOCK (R937): The main PLL locks and the VCO-derived clock domains start running. -/
  | pllLock
  /-- PLL_LOCK_LOSS (R962): Loss of main PLL lock sets lock_lost, asserts FAULT_N, stops the VCO-derived domains and drops every link. -/
  | pllLockLoss
  /-- MBIST_DONE (R317): Deck MBIST ends after exactly 216,000,000 DECK cycles, maps failing rows to spares, and sets mbist_fail and FAULT_N if spares run out. -/
  | mbistDone (fails : List DeckRow)
  /-- INIT_DONE (R314): Directory initialisation completes after 262,144 DECK cycles and sets DIR.STATUS.init_done, allowing admissions. -/
  | initDone
  /-- THERMTRIP (R946): Junction temperature reaching 125 °C asserts THERMTRIP_N by analog logic until PWRGD falls. -/
  | thermtrip
  /-- SENSOR_SAMPLE (R914): Every 100 µs the die temperature and every supply rail are sampled into CKP.TEMP and CKP.SUPPLY_k. -/
  | sensorSample (temp : BitVec 16) (mv : List (BitVec 16))
  /-- CLOCK_STOP (R692): A clock-stop monitor detects that STMP or DMTO has stopped. -/
  | clockStop (dmto : Bool)
  /-- PFAIL_ASSERT (R744): Recognition of PFAIL_N raises source 22 and starts the journal power-fail flush of up to 8 records. -/
  | pfailAssert
  /-- PFAIL_FLUSH_DONE (R745): The power-fail flush ends, source 149 is raised and no further record is written while PFAIL_N stays asserted. -/
  | pfailFlushDone
  /-- PFAIL_DEASSERT (R747): PFAIL_N deasserting without loss of VDD_AON resumes the journal engine. -/
  | pfailDeassert
  /-- IMAGE_COPY_READ (R633): A Kalpor image copy has been read whole from flash and is validated; copy B is read if copy A fails. -/
  | imageCopyRead (bytes : List Byte)
  /-- IMAGE_WRITE_RECORD (R634): An image WRITE record is applied as a privileged register write of the image loader. -/
  | imageWriteRecord
  /-- IMAGE_POLL_RECORD (R636): An image POLL record waits until the masked register value equals its value. -/
  | imagePollRecord
  /-- IMAGE_POLL_TIMEOUT (R636): A POLL whose value is not met within its timeout ends the apply and sets poll_timeout. -/
  | imagePollTimeout
  /-- IMAGE_TABLE_LOAD (R634): An image table-load section writes configuration-set table entries through the window layout. -/
  | imageTableLoad
  /-- IMAGE_NODE_PLAN (R513): The node-plan section loads GEN.NODE_ID from the entry matching the sampled chassis and slot pins. -/
  | imageNodePlan
  /-- IMAGE_END_SECTION (R742): The end section finishes the image apply, after which the journal head search and PHY training may start. -/
  | imageEndSection
  /-- BOOT_RELOAD (R639): A write of 1 to GEN.BOOT_CMD.reload loads the Kalpor image again before any link start. -/
  | bootReload (a : Lmb)
  /-- PHY_TRAINING_START (R951): Olfer ports start PHY training once the image apply has ended and init_done is set. -/
  | phyTrainingStart
  /-- PHY_L0 (R44): A port's physical layer reaches L0 at its traffic rate and the link layer begins sending start flits. -/
  | phyL0 (p : PortIx) (t : PhyTrain)
  /-- START_FLIT (R54): Receipt of an error-free start flit makes the port switch to sequenced flits from seq 0. -/
  | startFlit (p : PortIx)
  /-- FLIT_RECEIVE (R88): A whole flit is received, CRC and sequence checked, acks and credit returns taken, and its messages written to VC buffers. -/
  | flitReceive (p : PortIx) (f : Flit)
  /-- BROADCAST_ENTRY_EXPIRY (R85): A kept broadcast identity expires 1 ms after acceptance. -/
  | broadcastEntryExpiry
  /-- FLIT_SEND (R90): An outgoing flit closes at the start of its transmission with the messages granted, credit returns, ack and time-stamp fields. -/
  | flitSend (p : PortIx) (picks : List (Fin 12))
  /-- REPLAY_TIMER (R63): The replay timer expires on the oldest unacknowledged flit and every unacknowledged flit is sent again. -/
  | replayTimer (p : PortIx)
  /-- LINK_LOSS (R563): A port's link is lost on loss of signal, failed Recovery or flit silence. -/
  | linkLoss (p : PortIx)
  /-- UCP_RESEND (R564): An unanswered UCP surprise report is sent again every 1 ms. -/
  | ucpResend (node : NodeId)
  /-- TIME_SAMPLE_SEND (R530): Every FAB.TIME_CFG.period a flit with ts_kind sample is sent on each port. -/
  | timeSampleSend
  /-- PASS_THROUGH (R30): The crossbar steers a whole message for another node through the route table to an output port without directory action. -/
  | passThrough (p : PortIx) (vc : Fin 12)
  /-- ADMISSION (R156): The home tracker arbiter admits one eligible arrival per CORE cycle in round-robin order over ports and the local position. -/
  | admission
  /-- QUEUE_HEAD_DECISION (R165): When a line's transaction completes or becomes a chain HTE, the head of its platform queue takes its directory decision. -/
  | queueHeadDecision (l : LineAddr) (e : Env)
  /-- RDS (R113): A shared read is decided at the home per Table COH-4, supplying DSH or DEX or forwarding SFS to the owner. -/
  | rds (h : HteIx) (e : Env)
  /-- RDO (R113): An ownership read is decided at the home, invalidating sharers or forwarding SFO, possibly with staff under owner ordering. -/
  | rdo (h : HteIx) (e : Env)
  /-- RDC (R113): A read-current is decided at the home, supplying DSH without state change or forwarding SFC. -/
  | rdc (h : HteIx) (e : Env)
  /-- UPG (R113): An upgrade is decided at the home, granting GNT after invalidations or served as RDO. -/
  | upg (h : HteIx) (e : Env)
  /-- WRL (R113): A full-line write is decided at the home, recalling copies and writing memory before CMP. -/
  | wrl (h : HteIx) (e : Env)
  /-- WRP (R113): A partial write is decided at the home, merging masked bytes into memory before CMP. -/
  | wrp (h : HteIx) (e : Env)
  /-- WST (R113): A stash write is decided at the home, pushing SPU to the target slot or writing memory. -/
  | wst (h : HteIx) (e : Env)
  /-- ATM (R218): An atomic is decided at the home and placed in the ALC or a memory-side unit by region and predictor. -/
  | atm (h : HteIx) (e : Env)
  /-- FLS (R113): A flush is decided at the home, recalling copies and issuing merging-buffer data before CMP. -/
  | fls (h : HteIx) (e : Env)
  /-- WBD (R119): A dirty writeback is served at the home, writing memory and answering CMP. -/
  | wbd (w : WbSel) (e : Env)
  /-- WBE (R119): A clean-exclusive eviction notice is served at the home with CMP. -/
  | wbe (w : WbSel) (e : Env)
  /-- WBS (R119): A shared eviction notice removes the slot from the vector and is answered CMP. -/
  | wbs (w : WbSel) (e : Env)
  /-- CMP (R108): A CMP arriving at Jalair is matched to its HTE and counted as an awaited reply. -/
  | cmp (e : Env)
  /-- GNT (R486): An upstream GNT arriving at a junction is relayed to the member. -/
  | gnt
  /-- RIA (R145): An invalidate acknowledgement arriving at the home ends that slot's part of its round. -/
  | ria (e : Env)
  /-- RSA (R113): A shared acknowledgement from an owner or holder arrives at the home. -/
  | rsa (e : Env)
  /-- RWP (R188): A writeback-pending reply makes the home await the slot's writeback and pair it. -/
  | rwp (e : Env)
  /-- ACC (R113): A stash accept makes the line X at the target and lets the home send CMP. -/
  | acc
  /-- DEC (R113): A stash decline makes the home write the stash data to memory and send CMP. -/
  | dec
  /-- ERR (R512): An ERR arriving at Jalair ends its upstream or dump transaction and is relayed where applicable. -/
  | err
  /-- DSH (R486): Shared data arriving at a junction is relayed to the member. -/
  | dsh
  /-- DEX (R486): Exclusive data arriving at a junction is relayed to the member. -/
  | dex
  /-- DMO (R486): Modified-ownership data arriving at a junction is relayed to the member. -/
  | dmo
  /-- DHM (R194): Data returned to the home by a holder is written to memory where dirty and ends a recall or recovery step. -/
  | dhm (e : Env)
  /-- TRANSACTION_COMPLETE (R106): A transaction completes once all its messages are sent and replies received, writing the directory state and freeing the HTE. -/
  | transactionComplete (h : HteIx)
  /-- WAY_RETRY (R195): A request waiting for a directory way chooses a victim again when an HTE holding a way of its set completes. -/
  | wayRetry (h : HteIx) (e : Env)
  /-- ALC_RETRY (R221): An atomic waiting for an ALC entry chooses again when an HTE holding an ALC line completes. -/
  | alcRetry (h : HteIx) (e : Env)
  /-- HTE_EXPIRY (R282): An HTE exceeding TRK.TIMEOUT.limit ends per Table PRG-5 and is quarantined. -/
  | hteExpiry (h : HteIx)
  /-- QUARANTINE_END (R283): A quarantined HTE frees after one further age-limit period. -/
  | quarantineEnd (h : HteIx)
  /-- ATOMIC_QUEUE_GRANT (R224): A memory-placed atomic waiting for a full unit queue gets a freed queue entry. -/
  | atomicQueueGrant (ch : Fin 8)
  /-- MEMORY_ATOMIC_START (R459): A memory-side atomic unit starts its next queued operation by reading the line. -/
  | memoryAtomicStart (ch : Fin 8) (rf : ReadFault)
  /-- MEMORY_ATOMIC_RESULT (R225): The unit returns the old value and queues its write, and the atomic completes with DSH. -/
  | memoryAtomicResult (ch : Fin 8)
  /-- DECAY_PASS (R234): Every ATM.DECAY.period the decay engine decrements every nonzero predictor counter. -/
  | decayPass
  /-- MIRROR_WRITE (R310): A posted mirror-tag write takes the first DECK cycle its mirror bank is idle. -/
  | mirrorWrite (layer : Fin 4)
  /-- DECK_GROOM_VISIT (R313): The Deck groom reads a directory set and its mirror row and rewrites corrected words. -/
  | deckGroomVisit (set : BitVec 18) (e : Env)
  /-- WALK_CLEAR (R318): A write to DIR.WALK_CMD gives the directory walk a CLEAR order for a slot. -/
  | walkClear (a : Lmb) (slot : BitVec 8)
  /-- WALK_VISIT (R320): The walk visits a set and submits local arrivals for entries that pending orders concern. -/
  | walkVisit (e : Env)
  /-- WALK_ARRIVAL (R321): A walk arrival at its decision acts on the entry per Table DIR-5. -/
  | walkArrival (h : HteIx) (e : Env)
  /-- WALK_ORDER_DONE (R323): A walk order completes after a full revolution and its arrivals, setting its done bit and raising walk-done. -/
  | walkOrderDone
  /-- BUCKET_LEAK (R327): Every leak_period STMP ticks each nonzero leaky bucket falls by 1. -/
  | bucketLeak
  /-- SPARE_CMD (R332): A write to DIR.SPARE_CMD orders a named Deck row to be spared. -/
  | spareCmd (a : Lmb) (mirror : Bool) (set : BitVec 18)
  /-- SPARE_COPY_DONE (R333): A sparing copy ends and the bank's remap switches to the spare row. -/
  | spareCopyDone (uncorrectable : Bool)
  /-- DRAM_READ_RETURN (R374): Data for a DRAM read returns and frees its miss register for the waiting reads. -/
  | dramReadReturn (r : Fin 256) (rf : ReadFault)
  /-- MISS_REGISTER_GRANT (R377): A read waiting for a miss register takes a freed one in decision order. -/
  | missRegisterGrant (e : Env)
  /-- MB_AGE_CLOSE (R383): An open merging-buffer entry whose age reaches age_limit closes. -/
  | mbAgeClose (i : Fin 128)
  /-- MB_PRESSURE_CLOSE (R384): While occupancy is at or above the pressure mark the oldest open entry closes each MEMC cycle. -/
  | mbPressureClose
  /-- MB_ISSUE (R975): A closed entry is issued to its channel's write queue, after its merge base where partial. -/
  | mbIssue (i : Fin 128) (e : Env)
  /-- MB_ENTRY_FREE (R387): A merging-buffer entry frees when the channel write queue accepts its line. -/
  | mbEntryFree (i : Fin 128)
  /-- MB_ENTRY_GRANT (R389): A write waiting for a merging-buffer entry takes a freed one in decision order. -/
  | mbEntryGrant
  /-- HLC_ENABLE (R399): A write to HLC.CTL.enable enables the HLC after invalidation or disables it, clearing inv_done. -/
  | hlcEnable (a : Lmb) (v : Word)
  /-- HLC_INV_START (R400): A write of 1 to HLC.INV.start begins invalidating every HLC way, the siding and the trackers. -/
  | hlcInvStart (a : Lmb)
  /-- HLC_INV_DONE (R400): The HLC invalidation finishes after 65,536 DECK cycles and sets inv_done. -/
  | hlcInvDone
  /-- HLC_CE_WRITEBACK (R405): A corrected HLC word is written back in the first DECK cycle its bank is idle. -/
  | hlcCeWriteback (set : BitVec 16) (way : Fin 16)
  /-- MEM_TRAIN_START (R432): A write of 1 to MEM.TRAIN_CMD.start trains the channels that MEM.CFG describes. -/
  | memTrainStart (a : Lmb)
  /-- MEM_TRAIN_DONE (R432): Training ends, setting MEM.STATUS.ready on success. -/
  | memTrainDone (fails : List (Fin 8 × BitVec 8))
  /-- REFRESH (R444): A due refresh or RFM command takes the next channel command slot. -/
  | refresh (ch : Fin 8)
  /-- PPR_COPY_DONE (R453): The 128 lines of a row are in the repair buffer and sPPR is issued. -/
  | pprCopyDone (faults : List (Fin 128 × ReadFault))
  /-- SPPR_WAIT_END (R453): After sppr_wait MEMC cycles the buffered lines are written back to the repaired row. -/
  | spprWaitEnd
  /-- PPR_DONE (R456): A repair completes, frees the buffer, is journaled and recorded in the PPR window. -/
  | pprDone (refused : Bool)
  /-- HPPR (R457): A write to MEM.PPR_CMD requests hPPR of a named row before ready is first set. -/
  | hppr (a : Lmb) (v : Word)
  /-- GROOM_READ (R466): A channel's groom reads its next line at its interval. -/
  | groomRead (ch : Fin 8) (rf : ReadFault)
  /-- GROOM_REPAIR (R467): A groom repair arrival rereads the line at its decision and rewrites or poisons it per Table MEM-6. -/
  | groomRepair (h : HteIx) (rf : ReadFault)
  /-- GROOM_PERIOD_END (R469): GROOM.PERIOD elapsing with the pass unfinished sets overrun and raises groom-overrun. -/
  | groomPeriodEnd (ch : Fin 8)
  /-- DDR_ALERT (R474): ALERT_n for a command/address parity error reissues commands, failing the channel after a fourth failure. -/
  | ddrAlert (ch : Fin 8)
  /-- WRITE_QUEUE_STALL (R477): A write queue accepting no entry for 100 µs marks its channel failed. -/
  | writeQueueStall (ch : Fin 8)
  /-- JCT_MEMBER_REQUEST (R486): A junction serves a member request per Table JCT-2, sending upstream requests or member snoops. -/
  | jctMemberRequest (h : HteIx) (e : Env)
  /-- JCT_MEMBER_WRITEBACK (R489): A junction serves a member writeback per Table JCT-3, relaying upstream where required. -/
  | jctMemberWriteback (w : WbSel) (e : Env)
  /-- SIN (R493): An upstream SIN at a junction invalidates members and answers RIA upstream. -/
  | sin (e : Env)
  /-- SFS (R493): An upstream SFS at a junction is relayed to the owner member. -/
  | sfs (e : Env)
  /-- SFO (R493): An upstream SFO at a junction is relayed to the owner member. -/
  | sfo (e : Env)
  /-- SFC (R493): An upstream SFC at a junction is relayed to the owner member. -/
  | sfc (e : Env)
  /-- SRC (R493): An upstream SRC at a junction recalls the line from its members. -/
  | src (e : Env)
  /-- SWP (R493): An upstream SWP at a junction sweeps the line from its members. -/
  | swp (e : Env)
  /-- JCT_SNOOP_DEFERRED (R492): A deferred upstream snoop acts when the member transaction or relay it waited for completes. -/
  | jctSnoopDeferred (h : HteIx) (e : Env)
  /-- JCT_SNOOP_HTE_GRANT (R491): An upstream snoop waiting at u = 256 takes a freed snoop HTE. -/
  | jctSnoopHteGrant
  /-- NODE_ID_WRITE (R514): A write to GEN.NODE_ID sets the node ID and its valid bit within the reset window. -/
  | nodeIdWrite (a : Lmb) (v : Word)
  /-- ROLE_WRITE (R23): A write to GEN.ROLE selects the role, sets DIR.SPLIT and sets or clears MEM.STATUS.ready. -/
  | roleWrite (a : Lmb) (v : Word)
  /-- LISTEN_END (R520): A device that heard no SMA for 2 ms after its first link start becomes a candidate. -/
  | listenEnd
  /-- CLM (R522): A received claim is ranked, and a candidate hearing a higher claim stops claiming. -/
  | clm
  /-- CLAIM_RESEND (R521): A candidate floods CLM again every 100 µs. -/
  | claimResend
  /-- CLAIM_WAIT_TIMEOUT (R522): A stopped candidate that hears no SMA within settle + 2 ms becomes a candidate again. -/
  | claimWaitTimeout
  /-- SETTLE_END (R523): A candidate hearing no higher claim for settle becomes master with a new term. -/
  | settleEnd
  /-- BEACON (R524): A master floods SMA every FAB.SM_CFG.beacon. -/
  | beacon
  /-- SMA (R525): A received SMA is ranked and the device follows the highest, taking its term. -/
  | sma
  /-- BEACON_LOSS (R527): No SMA for lost_beats periods makes every eligible device a candidate. -/
  | beaconLoss
  /-- FABRIC_THROW_START (R540): A write to FAB.THROW_CMD.start at the master sends PREPARE to every roster node. -/
  | fabricThrowStart (a : Lmb)
  /-- THR_PREPARE (R538): A THR PREPARE from the master starts the check of the standby set. -/
  | thrPrepare
  /-- PREPARE_CHECK_DONE (R974): The PREPARE check ends, THA is sent and Jalair becomes prepared unless aborted meanwhile. -/
  | prepareCheckDone
  /-- THR_FLIP (R628): A THR FLIP flips the epoch of a prepared Jalair, or is refused with WRONG_STATE if unprepared. -/
  | thrFlip
  /-- THR_ABORT (R631): A THR ABORT leaves the prepared state without flipping and is answered 0x00. -/
  | thrAbort
  /-- THA (R540): A THA at the master records a device's answer, and FLIP or ABORT follows when all are in. -/
  | tha
  /-- THROW_TIMEOUT (R540): THAs missing at FAB.THROW_CFG.timeout abort the throw, or are journaled after FLIP. -/
  | throwTimeout
  /-- CPL (R550): A CPL at the master is checked per Table FAB-4 and admitted with slot edits or refused. -/
  | cpl
  /-- CPL_RESEND (R544): An uncoupled follower after cold reset sends CPL again every 1 ms. -/
  | cplResend
  /-- CPL_START (R573): A write of 1 to FAB.CPL_CMD.start sends CPL with the rejoin flag clear. -/
  | cplStart (a : Lmb)
  /-- ADMIT_TARGET_TIMEOUT (R554): A target that gives no CMP within 10 ms fails the admission with TARGET_FAILED. -/
  | admitTargetTimeout
  /-- UCP_PLANNED (R562): A planned UCP makes the master write CLEAR to each target and answer CMP when done. -/
  | ucpPlanned
  /-- UCP_SURPRISE (R566): A surprise report adds 1 to the node's down count at the master. -/
  | ucpSurprise
  /-- UCP_RESTORED (R566): A restored report subtracts 1 from the node's down count. -/
  | ucpRestored
  /-- LOST_EDIT_RESEND (R584): A LOST edit unanswered for 10 ms is sent again every 1 ms. -/
  | lostEditResend (node : NodeId)
  /-- SLOT_EDIT_ADMIT (R557): FAB.SLOT_EDIT op ADMIT makes an EMPTY slot LIVE in both sets. -/
  | slotEditAdmit (a : Lmb) (f : SlotEdit)
  /-- SLOT_EDIT_CLEAR (R557): FAB.SLOT_EDIT op CLEAR makes a LIVE slot LEAVING and gives the walk CLEAR. -/
  | slotEditClear (a : Lmb) (f : SlotEdit)
  /-- SLOT_EDIT_LOST (R557): FAB.SLOT_EDIT op LOST marks a slot LOST and gives the walk LOST. -/
  | slotEditLost (a : Lmb) (f : SlotEdit)
  /-- SLOT_EMPTY (R558): A LEAVING or LOST slot becomes EMPTY when its walks end and nothing is held, sending the pending CMP. -/
  | slotEmpty (slot : BitVec 8)
  /-- REGISTER_WRITE (R10): An accepted write to a register without behaviour of its own sets its fields per access type. -/
  | registerWrite (a : Lmb) (addr : BitVec 14) (v : Word)
  /-- REJECT_CLEAR (R599): A write of 1 to GEN.REJECT_CTL.clear clears the first record and the count. -/
  | rejectClear (a : Lmb)
  /-- LOCK (R601): A privileged write of 1 to GEN.LOCK.set locks RWL fields until cold reset. -/
  | lock (a : Lmb)
  /-- PORT_CFG_WRITE (R869): A write to OLF.PORT_CFG changes bifurcate, dateline or speed, loading credit defaults on a bifurcate change. -/
  | portCfgWrite (a : Lmb) (p : PortIx) (v : Word)
  /-- COUNTER_LOW_READ (R611): A read of a 48-bit counter's low half latches bits [47:32] into the master's holding register. -/
  | counterLowRead (a : Lmb) (i : Fin 8)
  /-- COUNTER_HIGH_READ (R612): A read of a 48-bit counter's high half returns the master's holding register. -/
  | counterHighRead (a : Lmb) (i : Fin 8)
  /-- TIME_LO_READ (R879): A read of FAB.TIME_LO latches global time bits [63:32] for the master. -/
  | timeLoRead (a : Lmb)
  /-- CFG_READ_REQUEST (R591): A CFG read message is checked against the allow list, queued and performed as a MID 7 read. -/
  | cfgReadRequest
  /-- CFG_WRITE_REQUEST (R591): A CFG write message is checked against the allow list, queued and performed as a MID 7 write. -/
  | cfgWriteRequest
  /-- CFG_QUEUE_ENTRY (R981): A waiting allowed CFG enters the queue when an entry frees. -/
  | cfgQueueEntry
  /-- CFG_TABLE_READ (R859): A CFG window read command reads a configuration-set table entry. -/
  | cfgTableRead (a : Lmb) (w : WinCmd)
  /-- CFG_TABLE_WRITE (R856): A CFG window write command writes a configuration-set table entry. -/
  | cfgTableWrite (a : Lmb) (w : WinCmd)
  /-- TRK_PROBE (R871): A TRK probe command reads one HTE. -/
  | trkProbe (a : Lmb) (w : WinCmd)
  /-- DIR_PROBE (R873): A DIR probe command reads one directory entry by set and way. -/
  | dirProbe (a : Lmb) (w : WinCmd)
  /-- PREDICTOR_READ (R877): An ATM predictor window read returns a predictor counter. -/
  | predictorRead (a : Lmb) (w : WinCmd)
  /-- PREDICTOR_WRITE (R886): An ATM predictor window write sets a predictor counter. -/
  | predictorWrite (a : Lmb) (w : WinCmd)
  /-- FAB_TABLE_READ (R883): A FAB window read returns a roster, admission, profile or attach entry. -/
  | fabTableRead (a : Lmb) (w : WinCmd)
  /-- FAB_TABLE_WRITE (R885): A FAB window write sets an admission, profile or attach entry. -/
  | fabTableWrite (a : Lmb) (w : WinCmd)
  /-- PPR_WINDOW_READ (R609): A MEM PPR window read returns a repair record. -/
  | pprWindowRead (a : Lmb) (w : WinCmd)
  /-- EIC_SOURCE_READ (R900): An EIC source window read returns a source's level, target and state. -/
  | eicSourceRead (a : Lmb) (w : WinCmd)
  /-- EIC_SOURCE_WRITE (R657): An EIC source window write sets a source's level and target. -/
  | eicSourceWrite (a : Lmb) (w : WinCmd)
  /-- PMC_COUNTER_READ (R905): A PMC counter window read returns a counter's configuration entry. -/
  | pmcCounterRead (a : Lmb) (w : WinCmd)
  /-- PMC_COUNTER_WRITE (R906): A PMC counter window write sets a counter's enable, event and overflow-interrupt bit. -/
  | pmcCounterWrite (a : Lmb) (w : WinCmd)
  /-- SNAPSHOT_READ (R910): A WHS snapshot window read returns one snapshot word or audit term. -/
  | snapshotRead (a : Lmb) (w : WinCmd)
  /-- WINDOW_COMPLETE (R607): A window command completes and its result registers show valid, the tag and the entry. -/
  | windowComplete (w : WinId) (e : Env)
  /-- COPY_START (R617): A write of 1 to CFG.COPY.start copies the active set into the standby set. -/
  | copyStart (a : Lmb)
  /-- COPY_DONE (R617): The configuration copy completes and sets copy_done. -/
  | copyDone
  /-- THROW_START (R622): A write of 1 to CFG.THROW.start checks the standby set before any link start. -/
  | throwStart (a : Lmb)
  /-- THROW_CHECK_DONE (R624): A passed throw check flips CFG.STATUS.epoch and sets drain. -/
  | throwCheckDone
  /-- DRAIN_END (R625): The drain ends when no previous-epoch HTE remains, applying allotment changes and raising drain-done. -/
  | drainEnd
  /-- EVIN_CHANGE (R659): An EVIN pin's filtered value changes, raising or clearing its source by sense. -/
  | evinChange (n : Fin 16) (level : Bool)
  /-- EVIN_CFG_WRITE (R660): A write to EIC.EVIN_CFG_n changes filtering and restarts that pin's filter. -/
  | evinCfgWrite (a : Lmb) (n : Fin 16) (v : Word)
  /-- DOORBELL (R664): A write of 192 to 255 to EIC.DOORBELL.source raises that source. -/
  | doorbell (a : Lmb) (source : BitVec 8)
  /-- PENDING_CLEAR (R653): A W1C write to EIC.PENDING clears pending bits of sources. -/
  | pendingClear (a : Lmb) (k : Fin 8) (v : Word)
  /-- CLAIM (R667): A write to EIC.Tn_CLAIM.go claims the selected source for target n. -/
  | claim (a : Lmb) (n : Fin 4)
  /-- EOI (R669): A write to EIC.Tn_EOI completes the top-of-stack source in STACK mode. -/
  | eoi (a : Lmb) (n : Fin 4) (source : BitVec 8)
  /-- COMPLETE (R671): A write to EIC.Tn_COMPLETE completes an active source in THRESH mode. -/
  | complete (a : Lmb) (n : Fin 4) (source : BitVec 8)
  /-- EVT_SEND (R676): An EVT for a target is sent to its node when the MGMT channel takes it. -/
  | evtSend (n : Fin 4)
  /-- EVT_RESEND (R676): Every resend microseconds an EVT falls due while the target has an eligible source. -/
  | evtResend (n : Fin 4)
  /-- EVT_STALL (R680): An EVT waiting 1 ms sets stalled and is journaled. -/
  | evtStall (n : Fin 4)
  /-- DMT_ENABLE (R697): A write of 1 to DMT.CTL.enable loads DMT.COUNT with DMT.PERIOD and arms the timer. -/
  | dmtEnable (a : Lmb) (v : Word)
  /-- FIRST_KEY (R703): The first key written to DMT.SERVICE arms the service sequence for that master. -/
  | firstKey (a : Lmb)
  /-- SECOND_KEY (R704): The second key completes a service, reloading the count or entering stage 1 if early. -/
  | secondKey (a : Lmb) (cycles : Nat)
  /-- DMT_EXPIRY (R699): DMT.COUNT reaching 0 in stage 0 enters stage 1. -/
  | dmtExpiry
  /-- GRACE_EXPIRY (R709): DMT.COUNT reaching 0 in stage 1 enters stage 2. -/
  | graceExpiry
  /-- RECORD_TAKE (R727): The journal engine takes the oldest queued record, assigns sequence and crc, and starts writing it. -/
  | recordTake
  /-- DEVICE_WRITE_DONE (R729): A journal device write finishes with its read-back check. -/
  | deviceWriteDone (o : DevOutcome)
  /-- WIP_TIMEOUT (R730): Write-in-progress staying set for 100 µs fails the journal write. -/
  | wipTimeout
  /-- RESTORE_PRIMARY (R734): A write of 1 to JNL.CMD.restore_primary clears the primary's failed mark. -/
  | restorePrimary (a : Lmb)
  /-- RESTORE_MIRROR (R734): A write of 1 to JNL.CMD.restore_mirror clears the mirror's failed mark. -/
  | restoreMirror (a : Lmb)
  /-- SOFTWARE_RECORD (R737): A write to JNL.SW_CMD.severity queues a SOFTWARE record. -/
  | softwareRecord (a : Lmb) (severity : BitVec 4)
  /-- TAIL_LATCH (R903): A write to JNL.TAIL_IDX latches a tail-buffer record into JNL.TAIL_DATA. -/
  | tailLatch (a : Lmb) (index : BitVec 4)
  /-- JRC (R739): A JRC reaching a Jalair is discarded and counted. -/
  | jrc
  /-- HEAD_SEARCH_START (R742): After a VDD_AON rise the journal head search starts when the image apply ends. -/
  | headSearchStart
  /-- HEAD_SEARCH_DONE (R741): The head search ends and the journal continues from the higher head with a POWER_UP record. -/
  | headSearchDone
  /-- PERIODIC_CAPTURE (R766): A periodic capture latches every counter into set P and starts a dump record when enabled. -/
  | periodicCapture
  /-- CAPTURE (R767): A write of 1 to PMC.CAPTURE.go captures counters into W at the next STMP tick. -/
  | capture (a : Lmb)
  /-- DUMP_ENABLE (R769): Setting PMC.DUMP_CFG.enable restarts record numbering and counts. -/
  | dumpEnable (a : Lmb) (v : Word)
  /-- DUMP_PIECE_SEND (R773): A dump record piece is sent as TTD or a local WRL arrival. -/
  | dumpPieceSend
  /-- DUMP_ABANDON (R801): A record not complete 10 ms after its capture edge, or with an ERR piece, is abandoned. -/
  | dumpAbandon
  /-- TTD (R776): A TTD addressed to Jalair is served as a local WRL of the piece. -/
  | ttd
  /-- WHISTLE_TRIGGER (R780): A write to WHS.TRIGGER triggers a whistle, driving the pin or capturing locally. -/
  | whistleTrigger (a : Lmb)
  /-- WHISTLE_FALL (R781): A falling edge of WHISTLE_N is recognised as a whistle. -/
  | whistleFall
  /-- WHISTLE_DRIVE_END (R782): The 8-tick drive of WHISTLE_N ends and the pin is released. -/
  | whistleDriveEnd
  /-- WHISTLE_CAPTURE (R784): At the capture edge every block latches its snapshot words and armed clears. -/
  | whistleCapture
  /-- CAPTURE_DONE (R786): Every snapshot word has reached MGMT, setting capture_done and raising source 179. -/
  | captureDone
  /-- AUDIT_COMPLETE (R276): The audit of the latched books completes and writes TRK.AUDIT. -/
  | auditComplete
  /-- WHISTLE_ARM (R785): A write of 1 to WHS.CTL.arm sets armed. -/
  | whistleArm (a : Lmb)
  /-- CLR_MISSED (R908): A write of 1 to WHS.CTL.clr_missed sets WHS.STATUS.missed to 0. -/
  | clrMissed (a : Lmb)
  /-- LEVEL_MARK_CROSS_UP (R792): A monitored level exceeding its high mark sets above and crossed_up and raises source 96 + 2m. -/
  | levelMarkCrossUp (n : Fin 16)
  /-- LEVEL_MARK_CROSS_DOWN (R792): A monitored level falling below its low mark clears above, sets crossed_down and raises source 97 + 2m. -/
  | levelMarkCrossDown (n : Fin 16)
  /-- LEVEL_MARK_CLEAR (R794): A write to WHS.LMn_CLR.go resets the crossing count and the peak. -/
  | levelMarkClear (a : Lmb) (n : Fin 16)
  /-- LEVEL_MARK_SELECT (R795): A write to WHS.LMn_SEL or LMn_MARKS recomputes above without a crossing. -/
  | levelMarkSelect (a : Lmb) (n : Fin 16) (marks : Bool) (v : Word)
  /-- SPA_START (R809): A write of 1 to SPA.CTL.start queues a software SPA frame. -/
  | spaStart (a : Lmb) (v : Word)
  /-- SPA_FRAME_DONE (R814): A software SPA frame ends, setting done and raising source 160. -/
  | spaFrameDone (rx : List Word)
  /-- SPA_RELEASE (R817): A write of 1 to SPA.CTL.release deasserts the held select. -/
  | spaRelease (a : Lmb)
  /-- SPB_WRITE (R820): An SPB slave WRITE frame submits one register write. -/
  | spbWrite (addr : BitVec 16) (v : Word) (ready : Bool)
  /-- SPB_READ (R820): An SPB slave READ frame submits one register read. -/
  | spbRead (addr : BitVec 16) (ready : Bool)
  /-- SPB_RESULT (R824): An SPB RESULT frame reports the status of the latest access. -/
  | spbResult (ready : Bool)
  /-- SPB_PAIR (R826): An SPB PAIR frame submits two writes to one address back to back. -/
  | spbPair (addr : BitVec 16) (v1 v2 : Word) (cycles : Nat) (ready : Bool)
  /-- SPB_FRAME_END (R829): SPB_SEL_N deasserting ends a slave frame, counting a frame error if truncated. -/
  | spbFrameEnd (end_ : FrameEnd)
  /-- SPB_ROLE_WRITE (R832): A write changing SPB.CFG.role switches SPB between slave and master. -/
  | spbRoleWrite (a : Lmb) (v : Word)
  /-- SPB_START (R834): A write of 1 to SPB.CTL.start begins an SPB master transfer. -/
  | spbStart (a : Lmb) (v : Word)
  /-- SPB_TRANSFER_DONE (R834): An SPB master transfer ends, setting done and raising source 161. -/
  | spbTransferDone (rx : List Word)
  /-- MODE_FAULT (R837): SPB_SEL_N asserted in master role stops driving, clears role and raises source 162. -/
  | modeFault (bits : BitVec 9) (rx : List Word)
  /-- SOFT_RESET_HLC (R404): CKP.SOFT_RST.hlc soft-resets the HLC block, clearing enable and emptying siding and trackers. -/
  | softResetHlc (a : Lmb)
  /-- SOFT_RESET_EIC (R683): CKP.SOFT_RST.eic makes every source inactive and empties every stack. -/
  | softResetEic (a : Lmb)
  /-- SOFT_RESET_PMC (R760): CKP.SOFT_RST.pmc zeroes counters, clears dump enable and abandons a record. -/
  | softResetPmc (a : Lmb)
  /-- SOFT_RESET_SPI (R841): CKP.SOFT_RST.spi ends frames, deasserts selects and clears SPB role. -/
  | softResetSpi (a : Lmb)
  /-- SOFT_RESET_DONE (R916): A block's soft reset completes and its CKP.SOFT_RST bit reads 0. -/
  | softResetDone (blk : Fin 4)
  /-- RECOVERY_EXIT (R65): The physical layer leaves Recovery and returns the port to L0 within 24 ms, so the link stays up and OLF.PORT_STATUS.recovery clears. -/
  | recoveryExit (p : PortIx)
  /-- SPU (R135): An SPU reaching the junction function from an upstream home, as the target of a stash write, must be answered with ACC or DEC. -/
  | spu (e : Env)
  /-- TAP (R953): A TCK-clocked operation of the IEEE 1149.1 and 1149.6 TAP, including its reset to Test-Logic-Reset while TRST_N is low, runs the boundary-scan instructions. -/
  | tap (op : TapOp)
  deriving DecidableEq, Repr

end Sys2Proof
end

