-- ==== Sys2Proof/Decode.lean ====
section
/-! DEFINITION. The commands that a word of spec/opcode_table.json spells: no row of the table gives bits, so there is
nothing to decode. -/

namespace Sys2Proof

/-- The command that a word of `nbits` bits spells by the table: none, since every row of the table is a command
without an encoding. -/
def decodeTableWord (nbits w : Nat) : Option Instr :=
  match nbits, w with
  | _, _ => none

end Sys2Proof
end

