-- ==== Sys2Proof/Machine/State.lean ====
section
/-! DEFINITION. The state of Jalair as plain data: every register, table, buffer, queue, counter, mode and pin that
the spec gives the block, the content of its DRAM, and the queue of the commands that wait. `State.reset` is the
block right after a cold reset that followed a rise of VDD_AON has ended (spec/19_board_power_reset.md). -/

namespace Sys2Proof.Machine

/-- No meaning of this model ends in a fault: the spec answers every misuse of the block with a reject, an `ERR`, a
discard or a report (assumption log, entry 3). The type is closed and empty. -/
inductive Fault where
  deriving DecidableEq, Repr

/-- Why a command has no meaning yet. -/
inductive Refusal where
  /-- Raised by a dispatch arm whose command has no meaning in the model yet. Safe: the machine stops. -/
  | notModelled (mnemonic : String)
  deriving DecidableEq, Repr

/-! ### Configuration sets (spec/12_control_plane.md, spec/17_registers_fabric.md) -/

/-- A region-table entry (Table RGF-5). -/
structure Region where
  valid : Bool := false
  basePn : BitVec 40 := 0
  limitPn : BitVec 40 := 0
  prio : BitVec 2 := 0
  owner : Bool := false
  placement : BitVec 2 := 0
  exclGrant : Bool := false
  classEn : Bool := false
  cls : BitVec 3 := 0
  deriving DecidableEq, Repr

/-- The status of a slot-map entry (Table RGF-6). -/
inductive SlotStatus where
  | empty | live | leaving | lost
  deriving DecidableEq, Repr

/-- A slot-map entry (Table RGF-6). -/
structure SlotEnt where
  cls : BitVec 3 := 0
  junction : Bool := false
  member : Bool := false
  status : SlotStatus := .empty
  node : NodeId := 0
  deriving DecidableEq, Repr

/-- A home-map entry (Table RGF-7): n − 1, k, base and limit bits [51:8], local base bits [39:8], sixteen nodes. -/
structure HomeRange where
  valid : Bool := false
  n1 : BitVec 4 := 0
  k : BitVec 5 := 0
  b8 : BitVec 44 := 0
  l8 : BitVec 44 := 0
  lb8 : BitVec 32 := 0
  nodes : List NodeId := List.replicate 16 0
  deriving DecidableEq, Repr

/-- One configuration set (spec/12_control_plane.md, "Configuration sets"). -/
structure CfgSet where
  regions : Tab Region := []
  wayMasks : Tab (BitVec 16) := []
  slots : Tab SlotEnt := []
  home : Tab HomeRange := []
  allot : Tab Nat := []
  route : Tab (BitVec 4) := []
  deriving DecidableEq, Repr

/-- The check of a standby set that runs (R622, R538). -/
inductive ThrowCheck where
  | idle
  | throwCmd
  | prepare (sender : NodeId) (tag : BitVec 12) (number : BitVec 16) (epoch aborted : Bool)
  deriving DecidableEq, Repr

/-- The configuration-set machinery: `ackEpoch` is the epoch of the last `THR` acknowledged, none before the first
(R481); `thrAcc` is the CFG.THROW write that completes when its check ends (R594): master ID,
image loader, and the `CFG` to answer (CFG.STATUS, Table RGF-3; R616, R622 to R631, R950). -/
structure Cfg where
  set0 : CfgSet := {}
  set1 : CfgSet := {}
  epoch : Bool := false
  drain : Bool := false
  prepared : Bool := false
  copying : Bool := false
  copyDone : Bool := false
  throwNum : BitVec 16 := 0
  check : ThrowCheck := .idle
  ackEpoch : Option Bool := none
  thrAcc : Option (Nat × Bool × Option Msg) := none
  startedWarm : Bool := false
  startedCold : Bool := false
  deriving DecidableEq, Repr

/-! ### Ports (spec/02_olfer_messages.md, spec/06_progress.md) -/

/-- The credit book of one virtual channel of one port, both directions (R252 to R257, R274). -/
structure VcBook where
  c : Nat := 0
  ssent : Nat := 0
  crcv : Nat := 0
  o : Nat := 0
  p : Nat := 0
  sacc : Nat := 0
  cret : Nat := 0
  g : Nat := 0
  withhold : Nat := 0
  deriving DecidableEq, Repr

/-- A message that waits at an output port: its source (input ports 0 to 15; 16 the home tracker; 17 the management
engines), its virtual channel, and the HTE whose transaction it belongs to (R31, R106). -/
structure XItem where
  src : Nat
  vc : Nat
  msg : Msg
  owner : Option Nat := none
  deriving DecidableEq, Repr

/-- A message in a virtual-channel buffer; `at_` is its place in the channel: the slots accepted up to it. -/
structure RxMsg where
  vc : Nat
  msg : Msg
  at_ : Nat := 0
  deriving DecidableEq, Repr

/-- The link state of OLF.PORT_STATUS_p (Table RGF-8). -/
inductive LinkState where
  | down | training | starting | complete
  deriving DecidableEq, Repr

/-- A flit in the replay buffer (R57). -/
structure SentFlit where
  seq : BitVec 12
  bits : BitVec 2048
  deriving DecidableEq, Repr

/-- One Olfer port (R48 to R65, R529 to R532). `wire` is what the port put on the wire last; `act` is OLF.PORT_CFG_p as
it stood at the port's last entry to link training (R869); `loop` says that the port is a loopback follower (Table
OLF-1). `rr` holds the grant pointers of R31: that each starts at source 0, and returns there when the link layer is
cleared, is the model's choice (assumption log, entry 66). -/
structure Port where
  link : LinkState := .down
  act : Word := 2
  loop : Bool := false
  width : BitVec 4 := 0
  speed : BitVec 2 := 0
  reversed : Bool := false
  upper : Bool := false
  recovery : Bool := false
  replay : Bool := false
  gotStart : Bool := false
  nextTx : BitVec 12 := 0
  nextRx : BitVec 12 := 0
  rxZero : Bool := false
  ackZero : Bool := false
  everLost : Bool := false
  replayBuf : List SentFlit := []
  replays : Nat := 0
  vcs : Tab VcBook := []
  txq : List XItem := []
  rr : Tab Nat := []
  rxq : List RxMsg := []
  echoDue : Option (BitVec 16) := none
  sampleDue : Bool := false
  lastEcho : Option (BitVec 16) := none
  lastSample : Option (BitVec 16 × BitVec 16) := none
  wire : List (BitVec 2048) := []
  deriving DecidableEq, Repr

/-- A kept broadcast identity (R85). -/
structure BcastId where
  src : NodeId
  op : Op
  tag : BitVec 12
  deriving DecidableEq, Repr

/-- A message for Jalair that its engine has not taken yet. -/
structure InMsg where
  port : Nat
  vc : Nat
  msg : Msg
  slots : Bool := true
  deriving DecidableEq, Repr

/-! ### The home tracker (spec/03_coherence_flows.md to spec/06_progress.md) -/

/-- What an arrival is for: a message from a port, or one of the engines that take HTEs themselves (R154, R618). An
arrival that recovers an entry names the set, and the walk's serial number where the walk submitted it (R320, R342);
`again` says that the groom's visit was the second one of R464. -/
inductive Job where
  | external
  | walk (serial : Nat)
  | recover (set : Nat) (serial : Option Nat)
  | groom (ch : Nat) (lla : Nat) (again : Bool)
  | dump (piece : Nat)
  | ttd
  | snoop
  deriving DecidableEq, Repr

/-- An arrival that waits for admission (R154): its position (16 is the local one), its arrival cycle, and whether a
WBK has its writeback buffer (R263: the slot whose reservation or shared buffer it counts against, 256 for none).
`slots` says whether it holds slots of its port's receive buffer, and `at_` is its place in its virtual channel. -/
structure Arrival where
  port : Nat
  cyc : Nat
  msg : Msg
  job : Job := .external
  wb : Option Nat := none
  grant : Bool := false
  slots : Bool := true
  at_ : Nat := 0
  deriving DecidableEq, Repr

/-- What a transaction awaits (Table RGF-10, word 6; Tables ORD-10 and PRG-5). -/
inductive Await where
  | ria (slot : Nat)
  | owner (slot : Nat) (snoop : Op)
  | reqCmp (node : NodeId)
  | wb (slot : Nat) (staff : Bool)
  | acc (slot : Nat)
  | ssu (slot : Nat)
  | staffCmp
  | unit
  | mem
  | swp (slot : Nat)
  | up (home : NodeId)
  | chains
  | mbIn
  | flush
  deriving DecidableEq, Repr

/-- Why an HTE makes no progress although it awaits no reply. -/
inductive Wait where
  | none
  | decision
  | queue
  | way
  | alcEntry
  | heldOrder
  | unitQueue (ch : Nat)
  | deferred
  deriving DecidableEq, Repr

/-- What a transaction does when the last thing it awaits is in. -/
inductive Cont where
  | idle
  | answer
  | serveI
  | finish
  | chainGrant
  | declined
  | surrendered
  | recallX
  | recallEnd
  | sweep
  | recovered
  | dirFree
  | jctRelay
  | jctCleanRead
  | jctRelease
  | jctReleased
  | jctRecallUp
  | jctRecallEnd
  | wbDone
  | jctEmptied
  | jctWalkUp
  | snoopAnswer
  | snoopData
  deriving DecidableEq, Repr

/-- The kinds of an HTE (Table RGF-10, word 0). -/
inductive HKind where
  | active | queued | chain | quarantined
  deriving DecidableEq, Repr

/-- The directory states of Table DIR-3. -/
inductive DSt where
  | i | s | x | k | u
  deriving DecidableEq, Repr

/-- A directory entry (R294, Table DIR-2); the tag gives the line with the set (R303, R304). -/
structure DirEnt where
  tag : BitVec 24 := 0
  st : DSt := .i
  owner : BitVec 8 := 0
  homeHeld : Bool := false
  staff : Bool := false
  epoch : Bool := false
  vec : BitVec 256 := 0
  deriving DecidableEq, Repr

/-- A recovery that an HTE runs (R341 to R352): the line, the entry's key, whether the mirror gave the tag, and the dirty
`DHM` replies so far. -/
structure Recov where
  line : LineAddr
  key : Nat
  fromMirror : Bool
  dirty : Nat := 0
  deriving DecidableEq, Repr

/-- A home tracker entry (R105, R262, Table RGF-10). `pool` is the key of the book it counts in (`Tracker.hteUse`); `cmps`
are the writebacks served by this HTE whose `CMP` follows when their data has entered the merging buffer (R264);
`holds` says that a chain HTE keeps its line busy because the line's staff has ended (R268); `alcIx` is the ALC entry
that an atomic has taken and not filled yet (R220), `counted` that its decision has been made (R229, R231). -/
structure Hte where
  kind : HKind
  msg : Msg
  port : Nat
  job : Job := .external
  slot : Option Nat := none
  epoch : Bool := false
  adm : Nat := 0
  seq : Nat := 0
  dseq : Nat := 0
  wbFrom : Option Nat := none
  awaits : List Await := []
  wait : Wait := .none
  cont : Cont := .idle
  buf : LineData := 0
  bufPoison : Bool := false
  haveBuf : Bool := false
  ovData : LineData := 0
  ovMask : ByteMask := 0
  held : List Arrival := []
  cmps : List Arrival := []
  pool : Nat := 256
  holds : Bool := false
  surr : Option Bool := none
  got : Option Msg := none
  lost : Bool := false
  predLost : Bool := false
  expired : Bool := false
  atUnit : Bool := false
  alcIx : Option Nat := none
  counted : Bool := false
  fin : Option DirEnt := none
  key : Option Nat := none
  pred : Option Nat := none
  vline : Option LineAddr := none
  recov : Option Recov := none
  up : Option Msg := none
  upEpoch : Bool := false
  reply : Option Msg := none
  ended : Bool := false
  done : Bool := false
  deriving DecidableEq, Repr

/-- The home tracker: HTEs, arrivals, the arbiter and the books (R154 to R161, R258 to R269). `hteUse` and `wbUse`
count by slot, key 256 for the HTEs and buffers that belong to no slot, and in `hteUse` key 257 for those that upstream
snoops hold (R491). `ptr` is the arbiter's pointer (R156): that it starts at position 0, port 0, is the model's choice
(assumption log, entry 66). `counts` holds, by rule number, the events that a rule has Jalair count and that no
register shows (R150 to R153, R207 to R209, R284, R979; assumption log, entry 67). -/
structure Tracker where
  htes : Tab Hte := []
  arrivals : List Arrival := []
  atOnce : List Arrival := []
  core : Nat := 0
  ptr : Nat := 0
  seq : Nat := 0
  hteUse : Tab Nat := []
  wbUse : Tab Nat := []
  staffCreated : Nat := 0
  staffEnded : Nat := 0
  counts : Tab Nat := []
  deriving DecidableEq, Repr

/-! ### The directory and the Deck (spec/07_directory_deck.md) -/

/-- The kinds of walk order (R318). -/
inductive WalkKind where
  | clear | lost | held
  deriving DecidableEq, Repr

/-- A pending walk order: sets still to visit, and the last walk arrival it must see completed (R323). -/
structure WalkOrder where
  kind : WalkKind
  slot : Nat
  left : Nat
  need : Nat := 0
  deriving DecidableEq, Repr

/-- The lost-slot summary in the making (Table FAB-6). -/
structure LostSum where
  node : NodeId
  time : BitVec 64
  poisoned : Nat := 0
  staffs : Nat := 0
  lines : List LineAddr := []
  deriving DecidableEq, Repr

/-- The directory, its mirror, the set status array, the walk, the leaky buckets and row sparing. An entry's key is
16 × set + way. `mchk` holds word 4's bits [25:20] by entry key (Table DIR-2, R302), `retired` the three retired copies of
a set (R356, R361). `groomSeen` holds the sets that the Deck groom's pass has visited, `groomSkip` the entries that it left
and has still to revisit (R313, R464). `spareQ` holds the rows whose sparing waits for the copy that runs (R331). -/
structure Deck where
  ents : Tab DirEnt := []
  mirror : Tab (BitVec 24) := []
  posted : Tab (List (Nat × BitVec 24)) := []
  hptr : Tab Nat := []
  jptr : Tab Nat := []
  retired : Tab (BitVec 3) := []
  mchk : Tab (BitVec 6) := []
  initDone : Bool := false
  mbistRan : Bool := false
  mbistFail : Bool := false
  mbistRunning : Bool := false
  pos : Nat := 0
  orders : List WalkOrder := []
  walkOut : List Nat := []
  walkSerial : Nat := 0
  summaries : Tab LostSum := []
  buckets : Tab Nat := []
  raised : Tab Bool := []
  rows : List (DeckRow × Nat) := []
  copying : Option DeckRow := none
  spareQ : List DeckRow := []
  spares : Tab Nat := []
  remapped : List DeckRow := []
  groomSeen : List Nat := []
  groomSkip : List Nat := []
  deriving DecidableEq, Repr

/-! ### Line caches (spec/08_line_caches.md) -/

/-- A line held by the HLC, the siding or the ALC. -/
structure CLine where
  line : LineAddr
  data : LineData
  poison : Bool := false
  deriving DecidableEq, Repr

/-- A stream tracker (R390 to R394); `far` is the number of lines already prefetched beyond the last. -/
structure Stream where
  last : LineAddr
  stride : Int := 0
  conf : Nat := 0
  far : Int := 0
  deriving DecidableEq, Repr

/-- Who a DRAM read is for (R374). -/
inductive Reader where
  | hte (h : Nat)
  | drain (i : Nat)
  | prefetch
  deriving DecidableEq, Repr

/-- A miss register (R374 to R378). `install` says whether the return installs the line in the HLC (Table LCA-2); `cls`
is the class of the read, plus 8 where its way mask comes from set 1; `fill` is false once the HLC was disabled (R403). -/
structure MissReg where
  line : LineAddr
  reader : Reader
  install : Bool := false
  cls : Nat := 0
  stale : Bool := false
  fill : Bool := true
  secs : List (Reader × Bool × Nat) := []
  deriving DecidableEq, Repr

/-- A read that waits for a miss register (R376, R377); `alc` says that it is an ALC fill. -/
structure MissWait where
  reader : Reader
  line : LineAddr
  install : Bool
  cls : Nat
  alc : Bool := false
  deriving DecidableEq, Repr

/-- A merging-buffer entry (R380 to R389, R975). -/
structure MbEnt where
  line : LineAddr
  data : LineData := 0
  mask : ByteMask := 0
  poison : Bool := false
  isOpen : Bool := true
  born : Nat := 0
  order : Nat := 0
  epoch : Bool := false
  basePending : Bool := false
  issued : Bool := false
  deriving DecidableEq, Repr

/-- A write that waits for a merging-buffer entry (R389), with the HTE that it belongs to; `req` says that it is the
write that the HTE's request asks for (Table PRG-5). -/
structure MbWrite where
  hte : Nat
  line : LineAddr
  data : LineData
  mask : ByteMask
  poison : Bool
  order : Nat
  epoch : Bool
  req : Bool := false
  deriving DecidableEq, Repr

/-- The HLC with its siding, trackers, miss registers and merging buffer, and the ALC. `sidFreed` and `alcFreed` name
the siding and ALC entries that a demand hit or a recall freed, with the CORE cycle (R242, R421). -/
structure Caches where
  hlc : Tab CLine := []
  hptr : Tab Nat := []
  invDone : Bool := false
  invRunning : Bool := false
  siding : Tab CLine := []
  sptr : Nat := 0
  streams : Tab Stream := []
  tptr : Nat := 0
  miss : Tab MissReg := []
  missWait : List MissWait := []
  mb : Tab MbEnt := []
  mbSeq : Nat := 0
  mbWait : List MbWrite := []
  ceWb : List Nat := []
  alc : Tab CLine := []
  alcDisabled : Tab Bool := []
  alcPtr : Nat := 0
  alcDouble : Bool := false
  sidFreed : List (Nat × Nat) := []
  alcFreed : List (Nat × Nat) := []
  deriving DecidableEq, Repr

/-- An operation in a memory-side unit's queue (R459): `dropped` when its HTE has expired (R246); `order` places it among
the writes of its line that enter the merging buffer; `poison` and `ue` say what its read met (R244, R245). -/
structure UnitOp where
  hte : Nat
  line : LineAddr
  lla : Nat
  msg : Msg
  order : Nat
  dropped : Bool := false
  started : Bool := false
  old : LineData := 0
  poison : Bool := false
  ue : Bool := false
  deriving DecidableEq, Repr

/-- The predictor, the recent-atomic list and the memory-side units (spec/05_atomics.md). -/
structure Atomics where
  pred : Tab Nat := []
  recent : List (LineAddr × Nat) := []
  decayPos : Nat := 0
  units : Tab (List UnitOp) := []
  deriving DecidableEq, Repr

/-! ### Memory (spec/09_memory_groom.md) -/

/-- A DRAM row by its coordinates (Table MEM-3). -/
structure RowId where
  ch : Nat
  sub : Nat
  rank : Nat
  group : Nat
  bank : Nat
  row : Nat
  deriving DecidableEq, Repr

/-- A record of the MEM PPR window (Table RGF-15). -/
structure PprRec where
  hard : Bool
  refused : Bool
  row : RowId
  deriving DecidableEq, Repr

/-- The repair that runs (R453): its step, and the buffered lines by local line address with their poison flags. -/
structure Repair where
  row : RowId
  hard : Bool
  phase : Nat := 0
  buf : Tab (LineData × Bool) := []
  deriving DecidableEq, Repr

/-- The memory channels but for their content. `wq` is a channel's write queue, the local lines of its writes oldest
first, `wdrain` whether it drains ahead of foreground reads (R443); `groomLate` says that the pass under way began in an
earlier period (R469). -/
structure Mem where
  ready : Bool := false
  training : Bool := false
  trainFail : BitVec 8 := 0
  failed : BitVec 8 := 0
  cfgFrozen : Bool := false
  everReady : Bool := false
  warmSeen : Bool := false
  rows : Tab (List (RowId × Nat)) := []
  repair : Option Repair := none
  repairQ : List (RowId × Bool) := []
  repaired : Tab Nat := []
  ppr : Tab PprRec := []
  pprNext : Nat := 0
  caFails : Tab Nat := []
  groomPos : Tab Nat := []
  groomSkip : Tab (List Nat) := []
  groomFin : Tab Bool := []
  groomLate : Tab Bool := []
  wq : Tab (List Nat) := []
  wdrain : Tab Bool := []
  deriving DecidableEq, Repr

/-! ### Fabric management (spec/11_bringup_coupling.md) -/

/-- The election states. -/
inductive SmState where
  | listener | candidate | master
  deriving DecidableEq, Repr

/-- An admission-table entry (Table RGF-19). -/
structure Admission where
  valid : Bool := false
  target : BitVec 2 := 0
  links1 : BitVec 2 := 0
  profile : BitVec 5 := 0
  cls : BitVec 3 := 0
  junction : Bool := false
  member : Bool := false
  count1 : BitVec 12 := 0
  slotBase : BitVec 8 := 0
  nodeBase : NodeId := 0
  jnode : NodeId := 0
  deriving DecidableEq, Repr

/-- A profile-table entry (Table RGF-19): GEN.ID, GEN.PART, GEN.REV, CAPS0 to CAPS3. -/
structure Profile where
  valid : Bool := false
  superset : Bool := false
  role : BitVec 3 := 0
  vals : List Word := List.replicate 7 0
  deriving DecidableEq, Repr

/-- An attach-list entry: four nodes with valid bits (Table RGF-19). -/
structure Attach where
  nodes : List (Bool × NodeId) := List.replicate 4 (false, 0)
  deriving DecidableEq, Repr

/-- What the master records for a node it admits (R552). -/
structure RosterRec where
  port : Nat
  plate : BitVec 256
  deriving DecidableEq, Repr

/-- A slot edit that the master writes to a target (R553, R555, R556, R562, R567). -/
structure EditJob where
  target : NodeId
  slot : Nat
  node : NodeId
  op : Nat
  cls : BitVec 3 := 0
  junction : Bool := false
  member : Bool := false
  tag : BitVec 12 := 0
  sent : Bool := false
  deriving DecidableEq, Repr

/-- A `CPL` in the admission queue (R548). -/
structure CplReq where
  node : NodeId
  port : Nat
  tag : BitVec 12
  rejoin : Bool
  plate : BitVec 256
  epoch : Bool := false
  deriving DecidableEq, Repr

/-- The admission in progress: the edits still to make, the first of them awaited, and those accepted (R553 to R556). -/
structure Admit where
  req : CplReq
  todo : List EditJob
  done : List EditJob := []
  deriving DecidableEq, Repr

/-- A planned uncoupling in progress (R562, R579). -/
structure Leaving where
  node : NodeId
  src : NodeId
  tag : BitVec 12
  epoch : Bool
  waiting : List (NodeId × BitVec 12)
  deriving DecidableEq, Repr

/-- Fabric management: election, time, coupling, roster and tables (FAB bank, Table RGF-17). -/
structure Fab where
  sm : SmState := .listener
  termValid : Bool := false
  term : BitVec 16 := 0
  master : NodeId := 0
  masterPrio : BitVec 8 := 0
  masterSerial : BitVec 64 := 0
  heardTerm : Option (BitVec 16) := none
  claimTerm : Option (BitVec 16) := none
  listening : Bool := false
  stopped : Bool := false
  seq : BitVec 12 := 0
  mtag : BitVec 12 := 0
  parent : Option Nat := none
  offset : BitVec 16 := 0
  synced : Bool := false
  cplState : BitVec 2 := 0
  cplCode : BitVec 8 := 0
  afterWarm : Bool := false
  cplTag : BitVec 12 := 0
  cplRejoin : Bool := false
  roster : Tab RosterRec := []
  admission : Tab Admission := []
  profiles : Tab Profile := []
  attach : Tab Attach := []
  queue : List CplReq := []
  admitting : Option Admit := none
  deriving DecidableEq, Repr

/-- The rest of fabric management: containment, reports, throws, pending slot edits. -/
structure Fab2 where
  down : Tab Nat := []
  reports : List (NodeId × BitVec 12) := []
  leaving : List Leaving := []
  lostJobs : List EditJob := []
  lostLate : Tab Bool := []
  thrPhase : Nat := 0
  thrNum : BitVec 16 := 0
  thrWait : List NodeId := []
  thrBad : Bool := false
  thrCode : BitVec 8 := 0
  thrNode : NodeId := 0
  pendCmp : List (Nat × Nat × NodeId × BitVec 12 × Bool) := []
  spent : List (NodeId × BitVec 12) := []
  deriving DecidableEq, Repr

/-! ### Service blocks (spec/13_interrupts.md to spec/16_serial_ports.md) -/

/-- The states of an event source (R649). -/
inductive SrcSt where
  | inactive | pending | active | both
  deriving DecidableEq, Repr

/-- A target's `EVT` machinery (R676 to R681). -/
structure EvtSt where
  waiting : Bool := false
  source : Nat := 0
  level : Nat := 0
  lastLevel : Nat := 0
  sent : BitVec 32 := 0
  since : Nat := 0
  stalled : Bool := false
  deriving DecidableEq, Repr

/-- The event interrupt controller. A source's configuration is its level and its target; `evin` holds the filtered
values of the EVIN pins, `evinKnown` whether a pin's filter has taken its first value (R660). -/
structure Eic where
  st : Tab SrcSt := []
  cfg : Tab (Nat × Nat) := []
  stack : Tab (List (Nat × Nat)) := []
  evin : Tab Bool := []
  evinKnown : Tab Bool := []
  evt : Tab EvtSt := []
  irq : Tab Bool := []
  deriving DecidableEq, Repr

/-- A journal record before it is taken from the queue: type, severity, time and payload (R725), and the action that
R723 gave it. -/
structure QRec where
  typ : BitVec 7
  sev : BitVec 4
  time : BitVec 52
  payload : BitVec 128
  action : Nat
  deriving DecidableEq, Repr

/-- The journal's write in progress (R729): the record, its slot, the device being written, and whether it is the
repeat of R730; `prev` is the crc that its own crc starts from (R718), `wrote` whether a device holds it. -/
structure JWrite where
  bytes : BitVec 256
  prev : BitVec 32
  slot : Nat
  mirror : Bool
  repeated : Bool := false
  wrote : Bool := false
  deriving DecidableEq, Repr

/-- A record that the power-fail flush writes (R744): its slot, its bytes, the crc that its own starts from, and the
record as it stood in the queue. -/
structure FlushRec where
  slot : Nat
  bytes : BitVec 256
  prev : BitVec 32
  qrec : QRec
  deriving DecidableEq, Repr

/-- The black-box journal (spec/14_deadman_journal.md), its always-on part and its two devices. -/
structure Jnl where
  queue : List QRec := []
  tail : List (BitVec 256) := []
  nextSeq : BitVec 32 := 0
  lastCrc : BitVec 32 := 0
  slot : Nat := 0
  cur : Option JWrite := none
  dev0 : Tab (BitVec 256) := []
  dev1 : Tab (BitVec 256) := []
  needSearch : Bool := true
  searching : Bool := false
  searched : Bool := false
  pfail : Bool := false
  flushed : Bool := false
  flushing : List FlushRec := []
  lost : Nat := 0
  lostSev : BitVec 4 := 0
  headSlots : Tab Nat := []
  jrcQuiet : Tab Bool := []
  faultBefore : Word := 0
  deriving DecidableEq, Repr

/-- A counter's configuration (R905). -/
structure CtrCfg where
  enable : Bool := false
  ovfInt : Bool := false
  event : BitVec 10 := 0
  deriving DecidableEq, Repr

/-- A dump record in progress (R773): its number, its capture time, its seventeen 64-byte pieces, the pieces sent with
their tags and those acknowledged, and whether an `ERR` has met it. -/
structure DumpRec where
  num : BitVec 32
  pieces : List LineData
  sent : List (Nat × BitVec 12) := []
  acked : List Nat := []
  bad : Bool := false
  deriving DecidableEq, Repr

/-- Performance monitoring (spec/15_observability.md). -/
structure Pmc where
  ctr : Tab Nat := []
  cfg : Tab CtrCfg := []
  capP : Tab Nat := []
  capW : Tab Nat := []
  wrapped : Tab Bool := []
  dump : Option DumpRec := none
  abandonedTags : List (BitVec 12) := []
  capDue : Bool := false
  lastTime : BitVec 64 := 0
  stepped : Bool := false
  deriving DecidableEq, Repr

/-- A level-mark monitor (R788 to R795). -/
structure LevelMark where
  above : Bool := false
  up : Bool := false
  down : Bool := false
  count : Nat := 0
  level : Nat := 0
  peak : Nat := 0
  deriving DecidableEq, Repr

/-- The whistle and the level marks. `recog` is a whistle recognised whose capture edge is to come (R783). -/
structure Whs where
  armed : Bool := true
  captureDone : Bool := false
  captured : Bool := false
  missed : Nat := 0
  drivePend : Bool := false
  driving : Bool := false
  recog : Bool := false
  auditDue : Bool := false
  snap : Tab Word := []
  lm : Tab LevelMark := []
  deriving DecidableEq, Repr

/-- The result of a register access as a master sees it. -/
structure AccRes where
  ok : Bool
  code : BitVec 8
  data : Word
  deriving DecidableEq, Repr

/-- A software frame of SPA, or a master transfer of SPB. -/
structure SpiFrame where
  sel : Nat
  unitLen : Nat
  units : Nat
  hold : Bool := false
  cont : Bool := false
  deriving DecidableEq, Repr

/-- The serial ports (spec/16_serial_ports.md). `own` is the engine that holds SPA (R807): 1 the journal, 2 the image
loader, 3 software, 0 none. `miso` is what SPB drives on SPB_MISO in the frame under way, bit by bit from the frame's
first one, zero after the last; none while it drives nothing (R827, R833). -/
structure Spi where
  own : Nat := 0
  spaFrame : Option SpiFrame := none
  held : Option Nat := none
  spbFrame : Option SpiFrame := none
  spbLast : Option AccRes := none
  spbWait : Bool := false
  spbSel : Bool := false
  spbBlocked : Bool := false
  spbStatus : BitVec 4 := 0
  spbData : Word := 0
  miso : Option (List Bool) := none
  deriving DecidableEq, Repr

/-- A record or section of the image being applied (Table CTL-5). -/
inductive ImgRec where
  | write (addr : BitVec 16) (v : Word)
  | poll (ms : Nat) (addr : BitVec 16) (mask v : Word)
  | table (code set : Nat) (first : Nat) (entries : List (List Word))
  | plan (ents : List (BitVec 8 × BitVec 6 × NodeId))
  | fin
  deriving DecidableEq, Repr

/-- The image loader (R632 to R639): the copy being read (1 A, 2 B), the bytes of it that ended read frames have brought,
so that the next frame starts at the next address, whether PFAIL_N was recognised during the frame under way (R808), the
records still to apply, and whether a node plan has been applied. -/
structure Boot where
  loading : Nat := 0
  read : List Byte := []
  cut : Bool := false
  applying : Bool := false
  recs : List ImgRec := []
  serial : Word := 0
  warm : Bool := false
  planned : Bool := false
  ended : Bool := false
  deriving DecidableEq, Repr

/-- The states of the IEEE 1149.1 TAP controller. -/
inductive TapSt where
  | reset | idle | drSelect | drCapture | drShift | drExit1 | drPause | drExit2 | drUpdate
  | irSelect | irCapture | irShift | irExit1 | irPause | irExit2 | irUpdate
  deriving DecidableEq, Repr

/-- The instructions that the TAP offers (R953). -/
inductive TapInstr where
  | bypass | idcode | samplePreload | extest | extestPulse | extestTrain | clamp | highz
  deriving DecidableEq, Repr

/-- The TAP: its controller, the current instruction, the shifted instruction and data bits, and TDO. -/
structure Tap where
  st : TapSt := .reset
  trst : Bool := false
  instr : TapInstr := .idcode
  irBits : List Bool := []
  drBits : List Bool := []
  boundary : List Bool := []
  tdo : Option Bool := none
  deriving DecidableEq, Repr

/-- A CFG access in the queue of R591. -/
structure CfgAcc where
  port : Nat
  msg : Msg
  deriving DecidableEq, Repr

/-- A window command that is pending (R606): sequence tag, write, set, table and index. -/
structure WinPend where
  seq : BitVec 4
  write : Bool
  set : Bool
  table : Nat
  index : Nat
  words : List Word := []
  deriving DecidableEq, Repr

/-- A window's results: the pending command if any, and what the result registers hold once one has completed. -/
structure Window where
  pend : Option WinPend := none
  seq : BitVec 4 := 0
  valid : Bool := false
  res : List Word := []
  deriving DecidableEq, Repr

/-- The pins that Jalair drives and the board-level inputs it has sampled (spec/19_board_power_reset.md). A flag of an
output says whether the pin is asserted. `cause` is the latch of reset causes (Table RGS-8); `warmAfterFlush` is a warm
reset that waits for the power-fail flush (R956), and whether RESET_N has risen again meanwhile; `peakSeen` says that a
temperature has been sampled since the cold reset. -/
structure Pins where
  straps : Straps := ⟨0, 0, false, false⟩
  faultN : Bool := false
  jfailN : Bool := false
  dmtRstN : Bool := false
  thermtripN : Bool := false
  resetHeld : Bool := false
  warmHeld : Bool := false
  vddAon : Bool := true
  locked : Bool := false
  refclkStopped : Bool := false
  lockLostReport : Bool := false
  cause : Nat := 0
  warmAfterFlush : Option Bool := none
  peakSeen : Bool := false
  deriving DecidableEq, Repr

/-- The dead-man timer (spec/14_deadman_journal.md): its stage, the master whose first key is armed and the STMP
tick of that key. -/
structure Dmt where
  count : Word := 0
  stage : Nat := 0
  fence : Bool := false
  armed : Option (BitVec 3 × NodeId) := none
  armedAt : Nat := 0
  deriving DecidableEq, Repr

/-- Everything but the DRAM content and the command queue. -/
structure Core where
  stmp : Nat := 0
  time : BitVec 64 := 0
  regs : Tab Word := []
  hold : Tab Word := []
  timeHold : Tab Word := []
  lmb : AccRes := ⟨true, 0, 0⟩
  cfgq : List CfgAcc := []
  wins : Tab Window := []
  cfg : Cfg := {}
  ports : Tab Port := []
  bcasts : List BcastId := []
  inbox : List InMsg := []
  trk : Tracker := {}
  deck : Deck := {}
  ca : Caches := {}
  atm : Atomics := {}
  mem : Mem := {}
  fab : Fab := {}
  fab2 : Fab2 := {}
  eic : Eic := {}
  dmt : Dmt := {}
  jnl : Jnl := {}
  pmc : Pmc := {}
  whs : Whs := {}
  spi : Spi := {}
  boot : Boot := {}
  tap : Tap := {}
  pins : Pins := {}
  free : Nat := 0
  deriving DecidableEq, Repr

/-- The content of the DRAM by local byte address, in one canonical form (addresses strictly rising, no zero byte
listed), and the local line addresses whose lines carry the poison encoding (R447), strictly rising. -/
structure Dram where
  cells : List Host.Cell := []
  poison : List Nat := []
  deriving DecidableEq, Repr

/-- The state of the block. -/
structure State where
  dram : Dram := {}
  m : Core := {}
  pending : List Instr := []
  deriving DecidableEq, Repr

/-- The block right after a cold reset that followed a rise of VDD_AON has ended: every register at its table
value (CKP.RESET_CAUSE: kind cold, `aon` set), the RESET record of that cause in the always-on queue (Table DMJ-6), straps sampled low, the
main PLL not locked yet, the directory not initialised, no image loaded, no command waiting. -/
def State.reset : State :=
  { m := {
      jnl := { queue := [⟨0x02#7, 1#4, 0#52, 0x01000000010000000000000000000000#128, 0⟩] } } }

end Sys2Proof.Machine
end

