-- ==== Sys2Proof/Machine/Bits.lean ====
section
/-! DEFINITION. The named operations under everything else: bit fields, byte order, sparse tables, line data under a
byte mask, and the two CRCs of the spec. -/

namespace Sys2Proof.Machine

/-- Bits [hi:lo] of a register or message word, as a number. -/
def fld {w : Nat} (x : BitVec w) (hi lo : Nat) : Nat := (x.toNat >>> lo) % 2 ^ (hi + 1 - lo)

/-- Bit `i`. -/
def bit {w : Nat} (x : BitVec w) (i : Nat) : Bool := x.getLsbD i

/-- `x` with bits [hi:lo] set to `v`. -/
def putFld (x : Word) (hi lo v : Nat) : Word :=
  let msk : Word := BitVec.ofNat 32 ((2 ^ (hi + 1 - lo) - 1) <<< lo)
  (x &&& ~~~msk) ||| (BitVec.ofNat 32 (v <<< lo) &&& msk)

/-- One bit as a number. -/
def b1 (b : Bool) : Nat := if b then 1 else 0

/-- Count of set bits of a number, over `n` bit positions. -/
def popCount (x : Nat) : Nat → Nat
  | 0 => 0
  | n + 1 => b1 (x.testBit n) + popCount x n

/-! ### Sparse tables -/

/-- The value at key `k`, if one is listed. -/
def tfind {α : Type} (t : Tab α) (k : Nat) : Option α :=
  match t with
  | [] => none
  | (k', v) :: r => if k' = k then some v else tfind r k

/-- The value at key `k`, `d` where none is listed. -/
def tget {α : Type} (d : α) (t : Tab α) (k : Nat) : α := (tfind t k).getD d

/-- The table without key `k`. -/
def tdel {α : Type} (t : Tab α) (k : Nat) : Tab α := t.filter (fun e => e.1 != k)

/-- The table with `v` at key `k`, keys rising. -/
def tset {α : Type} (t : Tab α) (k : Nat) (v : α) : Tab α :=
  match t with
  | [] => [(k, v)]
  | (k', v') :: r => if k < k' then (k, v) :: (k', v') :: r
                     else if k = k' then (k, v) :: r
                     else (k', v') :: tset r k v

/-- The table with `v` at key `k`, in its canonical form for default `d`: writing the default removes the entry. -/
def tput {α : Type} [DecidableEq α] (d : α) (t : Tab α) (k : Nat) (v : α) : Tab α :=
  if v = d then tdel t k else tset t k v

/-- The lowest key from `n` up that the table does not list (keys rising). -/
def tfree {α : Type} (t : Tab α) (n : Nat) : Nat :=
  match t with
  | [] => n
  | (k, _) :: r => if k = n then tfree r (n + 1) else if k < n then tfree r n else n

/-- The first of a list's elements that satisfies `p`, and the list without it. -/
def takeFirst {α : Type} (p : α → Bool) : List α → Option (α × List α)
  | [] => none
  | a :: r => if p a then some (a, r) else
    match takeFirst p r with
    | none => none
    | some (b, r') => some (b, a :: r')

/-- The first of the keys `n`, `n + 1`, …, taken modulo `m`, that satisfies `p`, over `fuel` keys. -/
def firstFrom (p : Nat → Bool) (m n : Nat) : Nat → Option Nat
  | 0 => none
  | fuel + 1 => if p (n % m) then some (n % m) else firstFrom p m (n + 1) fuel

/-! ### Bytes and lines -/

/-- The number with the bytes of `x`, `n` of them, in the other order. -/
def revBytes (x : Nat) : Nat → Nat
  | 0 => 0
  | n + 1 => (x % 256) * 256 ^ n + revBytes (x / 256) n

/-- Byte `i` of a line. -/
def lineByte (d : LineData) (i : Nat) : Byte := BitVec.ofNat 8 (d.toNat >>> (8 * i))

/-- `n` bytes of a message payload from byte `i` on, most significant byte first. -/
def beAt (d : LineData) (i n : Nat) : Nat := revBytes (d.toNat >>> (8 * i)) n

/-- A payload of `n` bytes with value `v`, most significant byte first, from byte `i` on. -/
def bePut (v i n : Nat) : LineData := BitVec.ofNat 512 (revBytes v n <<< (8 * i))

/-- The bits of a line that a byte mask selects. -/
def expandMask (mask : Nat) : Nat → Nat
  | 0 => 0
  | n + 1 => expandMask mask n + (if mask.testBit n then 255 * 2 ^ (8 * n) else 0)

/-- The line with the bytes that `mask` selects taken from `new` and the others from `old`. -/
def mergeBytes (mask : ByteMask) (new old : LineData) : LineData :=
  let e := BitVec.ofNat 512 (expandMask mask.toNat 64)
  (new &&& e) ||| (old &&& ~~~e)

/-- Every byte of the line. -/
def fullMask : ByteMask := BitVec.allOnes 64

/-! ### CRCs -/

/-- `k n`, with `n` evaluated to a numeral first, so that a long computation does not pile up unevaluated. -/
def strictly {α : Type} (n : Nat) (k : Nat → α) : α :=
  match n with
  | 0 => k 0
  | n + 1 => k (n + 1)

/-- A number changed by each element of a list in turn. -/
def foldNat {α : Type} (f : Nat → α → Nat) (l : List α) (n : Nat) : Nat :=
  match l with
  | [] => n
  | a :: r => strictly (f n a) (foldNat f r)

/-- One bit of a reflected 32-bit CRC with the Castagnoli polynomial 0x1EDC_6F41 (R718). -/
def crc32Bit (c : Nat) : Nat := if c % 2 = 1 then (c / 2) ^^^ 0x82F63B78 else c / 2

/-- One byte of it. -/
def crc32Byte (c b : Nat) : Nat :=
  crc32Bit (crc32Bit (crc32Bit (crc32Bit (crc32Bit (crc32Bit (crc32Bit (crc32Bit (c ^^^ b))))))))

/-- CRC-32C over bytes, from register value `init`, with final inversion (R718). -/
def crc32c (init : Nat) (bytes : List Nat) : Nat := (foldNat crc32Byte bytes init) ^^^ 0xFFFFFFFF

/-- One bit of the CRC-64 of Table OLF-3, most significant bit first: `c` the register, `x` the data bit. -/
def crc64Bit (c : Nat) (x : Bool) : Nat :=
  let c' := (c * 2) % 2 ^ 64
  if (c.testBit 63) != x then c' ^^^ 0x42F0E1EBA9EA3693 else c'

/-- The CRC-64 over the low `n` bits of `x`, highest first. -/
def crc64 (x : Nat) : Nat → Nat → Nat
  | 0, c => c
  | n + 1, c => strictly (crc64Bit c (x.testBit n)) (crc64 x n)

/-- The bytes of a number of `n` bytes, most significant first. -/
def beBytes (x : Nat) : Nat → List Nat
  | 0 => []
  | n + 1 => (x >>> (8 * n)) % 256 :: beBytes x n

/-- The number that bytes spell, most significant first. -/
def ofBytes (bs : List Nat) : Nat := bs.foldl (fun a b => a * 256 + b) 0

end Sys2Proof.Machine
end

