-- ==== Sys2Proof/Machine/Memory.lean ====
section
/-! DEFINITION. The content of the DRAM: bytes at local addresses in one canonical form, and the lines that carry the
poison encoding (R446, R447). A byte that nothing has written reads as 0 (assumption log, entry 5). -/

namespace Sys2Proof.Machine

/-- Keys strictly rising, all at or above `lo`. -/
def rising (lo : Nat) : List Nat → Bool
  | [] => true
  | k :: r => decide (lo ≤ k) && rising (k + 1) r

/-- The canonical form of the DRAM: byte addresses strictly rising, no listed byte zero, poisoned lines rising. -/
def Memory.wf (d : Dram) : Bool :=
  rising 0 (d.cells.map (·.1)) && d.cells.all (fun c => c.2 != 0#8) && rising 0 d.poison

/-- The byte at a local address. -/
def readByte (d : Dram) (a : Nat) : Byte :=
  match d.cells.find? (fun c => c.1 = a) with
  | some c => c.2
  | none => 0

/-- The cells with the byte at an address set; a zero byte is not listed. -/
def putByte (cs : List Host.Cell) (a : Nat) (b : Byte) : List Host.Cell :=
  match cs with
  | [] => if b = 0 then [] else [(a, b)]
  | (k, v) :: r =>
    if a < k then (if b = 0 then (k, v) :: r else (a, b) :: (k, v) :: r)
    else if a = k then (if b = 0 then r else (a, b) :: r)
    else (k, v) :: putByte r a b

/-- The line with `n` of its bytes read, byte 0 lowest. -/
def readBytes (d : Dram) (a : Nat) : Nat → Nat
  | 0 => 0
  | n + 1 => readBytes d a n + (readByte d (a + n)).toNat * 256 ^ n

/-- The 64 bytes of a local line. -/
def readLine (d : Dram) (lla : Nat) : LineData := BitVec.ofNat 512 (readBytes d (64 * lla) 64)

/-- Whether a local line carries the poison encoding. -/
def isPoisoned (d : Dram) (lla : Nat) : Bool := d.poison.contains lla

/-- `n` bytes of a line written, byte 0 at address `a`. -/
def putBytes (cs : List Host.Cell) (a : Nat) (x : LineData) : Nat → List Host.Cell
  | 0 => cs
  | n + 1 => putByte (putBytes cs a x n) (a + n) (lineByte x n)

/-- A rising list with a key in it or out of it. -/
def putKey (ks : List Nat) (k : Nat) (on : Bool) : List Nat :=
  match ks with
  | [] => if on then [k] else []
  | j :: r =>
    if k < j then (if on then k :: j :: r else j :: r)
    else if k = j then (if on then j :: r else r)
    else j :: putKey r k on

/-- A whole line written to DRAM, with the poison encoding or without it (R447). -/
def writeLine (d : Dram) (lla : Nat) (x : LineData) (poison : Bool) : Dram :=
  { cells := putBytes d.cells (64 * lla) x 64, poison := putKey d.poison lla poison }

end Sys2Proof.Machine
end

