-- ==== Sys2Proof/Config.lean ====
section
/-! DEFINITION. What one part or one implementation fixes, and the free values: constants without a body, so that no
proof can see what they are (assumption log, entry 4). -/

namespace Sys2Proof

/-- The 64-bit serial number fused at manufacture (GEN.SERIAL; spec/11_bringup_coupling.md, "Node identity"). -/
opaque Config.serial : BitVec 64

/-- The fused VDD_CORE target that CORE_VID[3:0] presents (R939). -/
opaque Config.coreVid : BitVec 4

/-- The data that a DRAM read with an uncorrectable error returns (R449), and what a row holds after an hPPR, which
does not keep its content (R457): free values, one for each value of the model's counter. -/
opaque Config.freeLine : Nat → LineData

/-- The instruction that the bits of the TAP's instruction register select, as a number 0 to 7 in the order of R953:
the spec gives no encodings. -/
opaque Config.tapDecode : List Bool → Nat

/-- The bits above the lowest two that the TAP's instruction register captures: the spec gives neither its length nor
their values. -/
opaque Config.tapIrRest : List Bool

/-- The boundary-scan register as captured at the pins, one for each value of the model's counter: the spec leaves its
length and order to the BSDL file. -/
opaque Config.boundary : Nat → List Bool

/-- What the HLC lookup of a write meets where its command has no operand that says so (DEC, MB_ENTRY_GRANT; R405 to R408),
one for each value of the model's counter. -/
opaque Config.lookupFault : Nat → HlcFault

/-- Whether a flit is being built at a port in the cycle of a whistle's capture edge, so that its returns stand in the
merge window of R288, one for each value of the model's counter: a flit is one step here. -/
opaque Config.building : Nat → Nat → Bool

/-- Whether an edge of the DMTO oscillator falls in an STMP tick: it runs at 32.768 kHz ± 10 % on its own, and the spec
places its edges nowhere (Table BRD-9, R691). -/
opaque Config.dmtoEdge : Nat → Bool

end Sys2Proof
end

