-- ==== Sys2Proof/Machine/RegMap.lean ====
section
/-! DEFINITION. The register map: every register of spec/17_registers_fabric.md (R850, Tables RGF-2 to RGF-17) and
spec/18_registers_service.md (R895, Tables RGS-1 to RGS-8), with each field's bits, access type, reset value,
collision rule and, where the spec states a plain range, that range. The window command registers have the layout of
Table RGF-1 (R852, R896). -/

namespace Sys2Proof.Machine

/-- The access types of Table SCP-3 (R9, R10). -/
inductive Acc where
  | rw | ro | wo | w1c | w1s | rwl | wk
  deriving DecidableEq, Repr

/-- The collision rules of Table SCP-4 (R17). -/
inductive Coll where
  | hw | sw | set | sum | cmd
  deriving DecidableEq, Repr

/-- One field: bits [hi:lo], access, reset value, collision rule, and its stated range (R13). -/
structure FieldDesc where
  hi : Nat
  lo : Nat
  acc : Acc
  reset : Nat
  coll : Coll
  range : Option (Nat × Nat)
  deriving DecidableEq, Repr

/-- A register, or `count` registers `stride` bytes apart. -/
structure RegDesc where
  base : Nat
  count : Nat
  stride : Nat
  fields : List FieldDesc
  deriving DecidableEq, Repr

/-- The GEN bank (Table RGF-2). -/
def genBank : List RegDesc := [
  -- GEN.ID
  ⟨0x0000, 1, 0x4, [⟨31, 0, .ro, 1280197210, .hw, none⟩]⟩,
  -- GEN.PART
  ⟨0x0004, 1, 0x4, [⟨31, 0, .ro, 9216, .hw, none⟩]⟩,
  -- GEN.REV
  ⟨0x0008, 1, 0x4, [⟨31, 16, .ro, 1, .hw, none⟩,
    ⟨15, 0, .ro, 0, .hw, none⟩]⟩,
  -- GEN.CAPS0
  ⟨0x000C, 1, 0x4, [⟨6, 0, .ro, 127, .hw, none⟩]⟩,
  -- GEN.CAPS1 to GEN.CAPS3
  ⟨0x0010, 3, 0x4, [⟨31, 0, .ro, 0, .hw, none⟩]⟩,
  -- GEN.ROLE
  ⟨0x001C, 1, 0x4, [⟨1, 0, .rw, 0, .sw, some (0, 2)⟩]⟩,
  -- GEN.NODE_ID
  ⟨0x0020, 1, 0x4, [⟨31, 31, .ro, 0, .hw, none⟩,
    ⟨15, 0, .rw, 0, .sw, none⟩]⟩,
  -- GEN.SERIAL_LO
  ⟨0x0024, 2, 0x4, [⟨31, 0, .ro, 0, .hw, none⟩]⟩,
  -- GEN.LOCK
  ⟨0x002C, 1, 0x4, [⟨0, 0, .w1s, 0, .sw, none⟩]⟩,
  -- GEN.REJECT
  ⟨0x0030, 1, 0x4, [⟨31, 24, .ro, 0, .hw, none⟩,
    ⟨23, 21, .ro, 0, .hw, none⟩,
    ⟨20, 20, .ro, 0, .hw, none⟩,
    ⟨19, 19, .ro, 0, .hw, none⟩,
    ⟨15, 0, .ro, 0, .hw, none⟩]⟩,
  -- GEN.REJECT_FIRST
  ⟨0x0034, 1, 0x4, [⟨31, 24, .ro, 0, .hw, none⟩,
    ⟨23, 21, .ro, 0, .hw, none⟩,
    ⟨20, 20, .ro, 0, .hw, none⟩,
    ⟨19, 19, .ro, 0, .hw, none⟩,
    ⟨15, 0, .ro, 0, .hw, none⟩]⟩,
  -- GEN.REJECT_COUNT
  ⟨0x0038, 1, 0x4, [⟨31, 0, .ro, 0, .hw, none⟩]⟩,
  -- GEN.REJECT_CTL
  ⟨0x003C, 1, 0x4, [⟨0, 0, .wo, 0, .sw, none⟩]⟩,
  -- GEN.BOOT_STATUS
  ⟨0x0040, 1, 0x4, [⟨31, 30, .ro, 0, .hw, none⟩,
    ⟨29, 29, .ro, 0, .hw, none⟩,
    ⟨28, 28, .ro, 0, .hw, none⟩,
    ⟨23, 20, .ro, 0, .hw, none⟩,
    ⟨19, 16, .ro, 0, .hw, none⟩,
    ⟨15, 0, .ro, 0, .hw, none⟩]⟩,
  -- GEN.BOOT_CMD
  ⟨0x0044, 1, 0x4, [⟨0, 0, .wo, 0, .sw, none⟩]⟩]

/-- The CFG bank (Table RGF-3). -/
def cfgBank : List RegDesc := [
  -- CFG.STATUS
  ⟨0x0400, 1, 0x4, [⟨31, 16, .ro, 0, .hw, none⟩,
    ⟨4, 4, .ro, 0, .hw, none⟩,
    ⟨3, 3, .ro, 0, .hw, none⟩,
    ⟨2, 2, .ro, 0, .hw, none⟩,
    ⟨1, 1, .ro, 0, .hw, none⟩,
    ⟨0, 0, .ro, 0, .hw, none⟩]⟩,
  -- CFG.THROW
  ⟨0x0404, 1, 0x4, [⟨0, 0, .wo, 0, .sw, none⟩]⟩,
  -- CFG.COPY
  ⟨0x0408, 1, 0x4, [⟨0, 0, .wo, 0, .sw, none⟩]⟩,
  -- CFG.CHECK_RESULT
  ⟨0x040C, 1, 0x4, [⟨31, 31, .ro, 0, .hw, none⟩,
    ⟨30, 28, .ro, 0, .hw, none⟩,
    ⟨27, 24, .ro, 0, .hw, none⟩,
    ⟨15, 0, .ro, 0, .hw, none⟩]⟩,
  -- CFG.REGION_STATUS
  ⟨0x0410, 1, 0x4, [⟨0, 0, .w1c, 0, .set, none⟩]⟩,
  -- CFG.REGION_TIE_COUNT
  ⟨0x0414, 1, 0x4, [⟨31, 0, .rw, 0, .sum, none⟩]⟩,
  -- CFG.REGION_TIE_LAST
  ⟨0x0418, 1, 0x4, [⟨13, 8, .ro, 0, .hw, none⟩,
    ⟨5, 0, .ro, 0, .hw, none⟩]⟩,
  -- CFG.REGION_MISS_COUNT
  ⟨0x041C, 1, 0x4, [⟨31, 0, .rw, 0, .sum, none⟩]⟩,
  -- CFG.ALLOW_0 to CFG.ALLOW_15
  ⟨0x0420, 16, 0x4, [⟨31, 31, .rwl, 0, .sw, none⟩,
    ⟨15, 0, .rwl, 0, .sw, none⟩]⟩,
  -- CFG.TBL_CMD
  ⟨0x0460, 1, 0x4, [⟨31, 31, .wo, 0, .sw, none⟩,
    ⟨30, 30, .wo, 0, .sw, none⟩,
    ⟨29, 26, .wo, 0, .sw, none⟩,
    ⟨25, 22, .wo, 0, .sw, none⟩,
    ⟨21, 0, .wo, 0, .sw, none⟩]⟩,
  -- CFG.TBL_DIN_0 to CFG.TBL_DIN_21
  ⟨0x0464, 22, 0x4, [⟨26, 0, .rw, 0, .sw, none⟩]⟩,
  -- CFG.TBL_RES_0 to CFG.TBL_RES_21
  ⟨0x04C0, 22, 0x4, [⟨31, 31, .ro, 0, .hw, none⟩,
    ⟨30, 27, .ro, 0, .hw, none⟩,
    ⟨26, 0, .ro, 0, .hw, none⟩]⟩]

/-- The OLF bank (Table RGF-8). -/
def olfBank : List RegDesc := [
  -- OLF.PORT_CFG_p (ports 0 to 7)
  ⟨0x0800, 8, 0x4, [⟨8, 8, .rw, 0, .sw, none⟩,
    ⟨4, 4, .rw, 0, .sw, none⟩,
    ⟨1, 0, .rw, 2, .sw, some (0, 2)⟩]⟩,
  -- OLF.PORT_CFG_p (ports 8 to 15)
  ⟨0x0820, 8, 0x4, [⟨4, 4, .rw, 0, .sw, none⟩,
    ⟨1, 0, .rw, 2, .sw, some (0, 2)⟩]⟩,
  -- OLF.LINK_CTL
  ⟨0x0840, 1, 0x4, [⟨27, 16, .rw, 600, .sw, some (120, 4095)⟩,
    ⟨7, 0, .rw, 32, .sw, some (1, 255)⟩]⟩,
  -- OLF.PORT_STATUS_p
  ⟨0x0880, 16, 0x4, [⟨31, 30, .ro, 0, .hw, none⟩,
    ⟨29, 29, .ro, 0, .hw, none⟩,
    ⟨28, 28, .ro, 0, .hw, none⟩,
    ⟨27, 24, .ro, 0, .hw, none⟩,
    ⟨23, 22, .ro, 0, .hw, none⟩,
    ⟨21, 21, .ro, 0, .hw, none⟩,
    ⟨20, 20, .ro, 0, .hw, none⟩]⟩,
  -- OLF.PORT_EVENT_p
  ⟨0x08C0, 16, 0x4, [⟨4, 4, .w1c, 0, .set, none⟩,
    ⟨3, 3, .w1c, 0, .set, none⟩,
    ⟨2, 2, .w1c, 0, .set, none⟩,
    ⟨1, 1, .w1c, 0, .set, none⟩,
    ⟨0, 0, .w1c, 0, .set, none⟩]⟩,
  -- OLF.PORT_CTL_p
  ⟨0x0900, 16, 0x4, [⟨0, 0, .rw, 0, .sw, none⟩]⟩]

/-- The TRK bank (Table RGF-9). -/
def trkBank : List RegDesc := [
  -- TRK.TIMEOUT
  ⟨0x0C00, 1, 0x4, [⟨19, 0, .rw, 20000, .sw, some (100, 1000000)⟩]⟩,
  -- TRK.AUDIT
  ⟨0x0C04, 1, 0x4, [⟨31, 31, .ro, 0, .hw, none⟩,
    ⟨23, 20, .ro, 0, .hw, none⟩,
    ⟨19, 16, .ro, 0, .hw, none⟩,
    ⟨4, 0, .ro, 0, .hw, none⟩]⟩,
  -- TRK.POOL_HTE
  ⟨0x0C08, 1, 0x4, [⟨27, 16, .ro, 3072, .hw, none⟩,
    ⟨12, 0, .ro, 0, .hw, none⟩]⟩,
  -- TRK.POOL_WB
  ⟨0x0C0C, 1, 0x4, [⟨25, 16, .ro, 512, .hw, none⟩,
    ⟨10, 0, .ro, 0, .hw, none⟩]⟩,
  -- TRK.QUARANTINE
  ⟨0x0C10, 1, 0x4, [⟨12, 0, .ro, 0, .hw, none⟩]⟩,
  -- TRK.EXPIRY_COUNT
  ⟨0x0C14, 1, 0x4, [⟨31, 0, .rw, 0, .sum, none⟩]⟩,
  -- TRK.EPOCH_MISMATCH_COUNT
  ⟨0x0C18, 1, 0x4, [⟨31, 0, .rw, 0, .sum, none⟩]⟩,
  -- TRK.PROBE_CMD
  ⟨0x0C20, 1, 0x4, [⟨31, 31, .wo, 0, .sw, none⟩,
    ⟨29, 26, .wo, 0, .sw, none⟩,
    ⟨21, 0, .wo, 0, .sw, none⟩]⟩,
  -- TRK.PROBE_RES_0 to TRK.PROBE_RES_6
  ⟨0x0C24, 7, 0x4, [⟨31, 31, .ro, 0, .hw, none⟩,
    ⟨30, 27, .ro, 0, .hw, none⟩,
    ⟨26, 0, .ro, 0, .hw, none⟩]⟩]

/-- The DIR bank (Table RGF-11). -/
def dirBank : List RegDesc := [
  -- DIR.SPLIT
  ⟨0x1000, 1, 0x4, [⟨3, 0, .rw, 8, .sw, none⟩]⟩,
  -- DIR.STATUS
  ⟨0x1004, 1, 0x4, [⟨31, 16, .ro, 0, .hw, none⟩,
    ⟨2, 2, .ro, 0, .hw, none⟩,
    ⟨1, 1, .ro, 0, .hw, none⟩,
    ⟨0, 0, .ro, 0, .hw, none⟩]⟩,
  -- DIR.WALK_CMD
  ⟨0x1008, 1, 0x4, [⟨7, 0, .wo, 0, .sw, none⟩]⟩,
  -- DIR.WALK_CFG
  ⟨0x100C, 1, 0x4, [⟨4, 0, .rw, 4, .sw, some (1, 16)⟩]⟩,
  -- DIR.WALK_STATUS
  ⟨0x1010, 1, 0x4, [⟨31, 31, .w1c, 0, .set, none⟩,
    ⟨30, 30, .w1c, 0, .set, none⟩,
    ⟨29, 29, .w1c, 0, .set, none⟩,
    ⟨28, 28, .ro, 0, .hw, none⟩,
    ⟨23, 16, .ro, 0, .hw, none⟩,
    ⟨9, 0, .ro, 0, .hw, none⟩]⟩,
  -- DIR.BUCKET_CFG word 0
  ⟨0x1014, 1, 0x4, [⟨31, 0, .rw, 100000000, .sw, some (1000, 4294967295)⟩]⟩,
  -- DIR.BUCKET_CFG word 1
  ⟨0x1018, 1, 0x4, [⟨15, 0, .rw, 64, .sw, some (1, 65535)⟩]⟩,
  -- DIR.BUCKETS_0 to DIR.BUCKETS_3
  ⟨0x101C, 4, 0x4, [⟨31, 16, .ro, 0, .hw, none⟩,
    ⟨15, 0, .ro, 0, .hw, none⟩]⟩,
  -- DIR.SPARE_CFG
  ⟨0x102C, 1, 0x4, [⟨3, 0, .rw, 3, .sw, none⟩]⟩,
  -- DIR.SPARE_CMD
  ⟨0x1030, 1, 0x4, [⟨31, 31, .wo, 0, .sw, none⟩,
    ⟨17, 0, .wo, 0, .sw, none⟩]⟩,
  -- DIR.SPARE_STATUS
  ⟨0x1034, 1, 0x4, [⟨1, 1, .w1c, 0, .set, none⟩,
    ⟨0, 0, .ro, 0, .hw, none⟩]⟩,
  -- DIR.SPARES_0, DIR.SPARES_1
  ⟨0x1038, 2, 0x4, [⟨31, 24, .ro, 128, .hw, none⟩,
    ⟨23, 16, .ro, 128, .hw, none⟩,
    ⟨15, 8, .ro, 128, .hw, none⟩,
    ⟨7, 0, .ro, 128, .hw, none⟩]⟩,
  -- DIR.CE_COUNT
  ⟨0x1040, 1, 0x4, [⟨31, 0, .rw, 0, .sum, none⟩]⟩,
  -- DIR.RECOVERY_COUNT
  ⟨0x1044, 1, 0x4, [⟨31, 0, .rw, 0, .sum, none⟩]⟩,
  -- DIR.PTR_ERR_COUNT
  ⟨0x1048, 1, 0x4, [⟨31, 0, .rw, 0, .sum, none⟩]⟩,
  -- DIR.PROBE_CMD
  ⟨0x1050, 1, 0x4, [⟨31, 31, .wo, 0, .sw, none⟩,
    ⟨29, 26, .wo, 0, .sw, none⟩,
    ⟨21, 0, .wo, 0, .sw, none⟩]⟩,
  -- DIR.PROBE_RES_0 to DIR.PROBE_RES_12
  ⟨0x1054, 13, 0x4, [⟨31, 31, .ro, 0, .hw, none⟩,
    ⟨30, 27, .ro, 0, .hw, none⟩,
    ⟨26, 0, .ro, 0, .hw, none⟩]⟩]

/-- The HLC bank (Table RGF-13). -/
def hlcBank : List RegDesc := [
  -- HLC.CTL
  ⟨0x1400, 1, 0x4, [⟨10, 8, .rw, 7, .sw, none⟩,
    ⟨0, 0, .rw, 0, .sw, none⟩]⟩,
  -- HLC.STATUS
  ⟨0x1404, 1, 0x4, [⟨1, 1, .ro, 0, .hw, none⟩,
    ⟨0, 0, .ro, 0, .hw, none⟩]⟩,
  -- HLC.INV
  ⟨0x1408, 1, 0x4, [⟨0, 0, .wo, 0, .sw, none⟩]⟩,
  -- HLC.MB_CFG
  ⟨0x140C, 1, 0x4, [⟨22, 16, .rw, 2, .sw, some (1, 64)⟩,
    ⟨6, 0, .rw, 96, .sw, some (16, 127)⟩]⟩,
  -- HLC.PF_CFG
  ⟨0x1410, 1, 0x4, [⟨12, 8, .rw, 4, .sw, some (1, 16)⟩,
    ⟨0, 0, .rw, 1, .sw, none⟩]⟩,
  -- HLC.ERR_COUNT
  ⟨0x1414, 1, 0x4, [⟨31, 0, .rw, 0, .sum, none⟩]⟩,
  -- HLC.ALC_STATUS
  ⟨0x1420, 1, 0x4, [⟨21, 16, .ro, 0, .hw, none⟩,
    ⟨13, 8, .ro, 0, .hw, none⟩,
    ⟨0, 0, .ro, 0, .hw, none⟩]⟩,
  -- HLC.ALC_TAG_COUNT
  ⟨0x1424, 1, 0x4, [⟨31, 0, .rw, 0, .sum, none⟩]⟩]

/-- The MEM bank (Table RGF-14). -/
def memBank : List RegDesc := [
  -- MEM.CFG
  ⟨0x1800, 1, 0x4, [⟨31, 20, .rw, 256, .sw, some (16, 4095)⟩,
    ⟨7, 7, .rw, 0, .sw, none⟩,
    ⟨6, 6, .rw, 0, .sw, none⟩,
    ⟨5, 4, .rw, 2, .sw, some (0, 2)⟩,
    ⟨3, 0, .rw, 0, .sw, some (0, 8)⟩]⟩,
  -- MEM.TRAIN_CMD
  ⟨0x1804, 1, 0x4, [⟨0, 0, .wo, 0, .sw, none⟩]⟩,
  -- MEM.STATUS
  ⟨0x1808, 1, 0x4, [⟨23, 16, .ro, 0, .hw, none⟩,
    ⟨15, 8, .ro, 0, .hw, none⟩,
    ⟨1, 1, .ro, 0, .hw, none⟩,
    ⟨0, 0, .ro, 0, .hw, none⟩]⟩,
  -- MEM.CE_COUNT_0 to MEM.CE_COUNT_7
  ⟨0x180C, 8, 0x4, [⟨31, 0, .rw, 0, .sum, none⟩]⟩,
  -- MEM.UE_COUNT
  ⟨0x182C, 1, 0x4, [⟨31, 0, .rw, 0, .sum, none⟩]⟩,
  -- MEM.POISON_COUNT
  ⟨0x1830, 1, 0x4, [⟨31, 0, .rw, 0, .sum, none⟩]⟩,
  -- MEM.ERR_LOG word 0
  ⟨0x1834, 1, 0x4, [⟨31, 0, .ro, 0, .hw, none⟩]⟩,
  -- MEM.ERR_LOG word 1
  ⟨0x1838, 1, 0x4, [⟨25, 24, .ro, 0, .hw, none⟩,
    ⟨23, 20, .ro, 0, .hw, none⟩,
    ⟨19, 19, .ro, 0, .hw, none⟩,
    ⟨18, 16, .ro, 0, .hw, none⟩,
    ⟨13, 0, .ro, 0, .hw, none⟩]⟩,
  -- MEM.PPR_CFG
  ⟨0x183C, 1, 0x4, [⟨26, 16, .rw, 800, .sw, some (64, 1600)⟩,
    ⟨10, 8, .rw, 1, .sw, some (1, 4)⟩,
    ⟨3, 0, .rw, 4, .sw, none⟩]⟩,
  -- MEM.PPR_CMD
  ⟨0x1840, 1, 0x4, [⟨31, 29, .wo, 0, .sw, none⟩,
    ⟨28, 28, .wo, 0, .sw, none⟩,
    ⟨27, 27, .wo, 0, .sw, none⟩,
    ⟨26, 24, .wo, 0, .sw, none⟩,
    ⟨23, 22, .wo, 0, .sw, none⟩,
    ⟨16, 0, .wo, 0, .sw, none⟩]⟩,
  -- MEM.GROOM_CFG
  ⟨0x1844, 1, 0x4, [⟨29, 20, .rw, 64, .sw, some (1, 1000)⟩,
    ⟨18, 8, .rw, 256, .sw, some (16, 1024)⟩,
    ⟨7, 0, .rw, 24, .sw, some (1, 168)⟩]⟩,
  -- MEM.GROOM_STATUS
  ⟨0x1848, 1, 0x4, [⟨31, 31, .w1c, 0, .set, none⟩,
    ⟨15, 0, .ro, 0, .hw, none⟩]⟩,
  -- MEM.GROOM_SKIP_COUNT
  ⟨0x184C, 1, 0x4, [⟨31, 0, .rw, 0, .sum, none⟩]⟩,
  -- MEM.GROOM_DEFER_COUNT
  ⟨0x1850, 1, 0x4, [⟨31, 0, .rw, 0, .sum, none⟩]⟩,
  -- MEM.PPR_WIN_CMD
  ⟨0x1860, 1, 0x4, [⟨31, 31, .wo, 0, .sw, none⟩,
    ⟨29, 26, .wo, 0, .sw, none⟩,
    ⟨21, 0, .wo, 0, .sw, none⟩]⟩,
  -- MEM.PPR_WIN_RES_0, MEM.PPR_WIN_RES_1
  ⟨0x1864, 2, 0x4, [⟨31, 31, .ro, 0, .hw, none⟩,
    ⟨30, 27, .ro, 0, .hw, none⟩,
    ⟨26, 0, .ro, 0, .hw, none⟩]⟩]

/-- The ATM bank (Table RGF-16). -/
def atmBank : List RegDesc := [
  -- ATM.DECAY
  ⟨0x1C00, 1, 0x4, [⟨15, 0, .rw, 1000, .sw, none⟩]⟩,
  -- ATM.STATUS
  ⟨0x1C04, 1, 0x4, [⟨25, 16, .ro, 0, .hw, none⟩,
    ⟨6, 0, .ro, 0, .hw, none⟩]⟩,
  -- ATM.PRED_CMD
  ⟨0x1C10, 1, 0x4, [⟨31, 31, .wo, 0, .sw, none⟩,
    ⟨29, 26, .wo, 0, .sw, none⟩,
    ⟨21, 0, .wo, 0, .sw, none⟩]⟩,
  -- ATM.PRED_DIN_0
  ⟨0x1C14, 1, 0x4, [⟨26, 0, .rw, 0, .sw, none⟩]⟩,
  -- ATM.PRED_RES_0
  ⟨0x1C18, 1, 0x4, [⟨31, 31, .ro, 0, .hw, none⟩,
    ⟨30, 27, .ro, 0, .hw, none⟩,
    ⟨26, 0, .ro, 0, .hw, none⟩]⟩]

/-- The FAB bank (Table RGF-17). -/
def fabBank : List RegDesc := [
  -- FAB.SM_PRIO
  ⟨0x2000, 1, 0x4, [⟨7, 0, .rwl, 0, .sw, none⟩]⟩,
  -- FAB.SM_CFG
  ⟨0x2004, 1, 0x4, [⟨30, 26, .rw, 5, .sw, some (2, 16)⟩,
    ⟨25, 16, .rw, 1000, .sw, some (100, 1000)⟩,
    ⟨13, 0, .rw, 500, .sw, some (100, 10000)⟩]⟩,
  -- FAB.SM_STATUS word 0
  ⟨0x2008, 1, 0x4, [⟨31, 30, .ro, 0, .hw, none⟩,
    ⟨29, 29, .ro, 0, .hw, none⟩]⟩,
  -- FAB.SM_STATUS word 1
  ⟨0x200C, 1, 0x4, [⟨31, 16, .ro, 0, .hw, none⟩,
    ⟨15, 0, .ro, 0, .hw, none⟩]⟩,
  -- FAB.TIME_CFG
  ⟨0x2010, 1, 0x4, [⟨9, 0, .rw, 100, .sw, some (10, 1000)⟩]⟩,
  -- FAB.TIME_STATUS
  ⟨0x2014, 1, 0x4, [⟨31, 16, .ro, 0, .hw, none⟩,
    ⟨8, 8, .ro, 0, .hw, none⟩,
    ⟨7, 4, .ro, 0, .hw, none⟩,
    ⟨0, 0, .ro, 0, .hw, none⟩]⟩,
  -- FAB.TIME_LO
  ⟨0x2018, 1, 0x4, [⟨31, 0, .ro, 0, .hw, none⟩]⟩,
  -- FAB.TIME_HI
  ⟨0x201C, 1, 0x4, [⟨31, 0, .ro, 0, .hw, none⟩]⟩,
  -- FAB.THROW_CMD
  ⟨0x2020, 1, 0x4, [⟨0, 0, .wo, 0, .sw, none⟩]⟩,
  -- FAB.THROW_CFG
  ⟨0x2024, 1, 0x4, [⟨16, 0, .rw, 1000, .sw, some (100, 100000)⟩]⟩,
  -- FAB.THROW_STATUS word 0
  ⟨0x2028, 1, 0x4, [⟨31, 29, .ro, 0, .hw, none⟩,
    ⟨15, 0, .ro, 0, .hw, none⟩]⟩,
  -- FAB.THROW_STATUS word 1
  ⟨0x202C, 1, 0x4, [⟨23, 16, .ro, 0, .hw, none⟩,
    ⟨15, 0, .ro, 0, .hw, none⟩]⟩,
  -- FAB.SLOT_EDIT
  ⟨0x2030, 1, 0x4, [⟨31, 0, .wo, 0, .sw, none⟩]⟩,
  -- FAB.SLOT_STATUS
  ⟨0x2034, 1, 0x4, [⟨31, 31, .ro, 0, .hw, none⟩,
    ⟨24, 16, .ro, 0, .hw, none⟩,
    ⟨8, 0, .ro, 0, .hw, none⟩]⟩,
  -- FAB.LOSS_CFG
  ⟨0x2038, 1, 0x4, [⟨16, 0, .rw, 1000, .sw, some (100, 100000)⟩]⟩,
  -- FAB.KEEPER_0, FAB.KEEPER_1
  ⟨0x203C, 2, 0x4, [⟨31, 31, .rw, 0, .sw, none⟩,
    ⟨15, 0, .rw, 0, .sw, none⟩]⟩,
  -- FAB.CPL_STATUS
  ⟨0x2044, 1, 0x4, [⟨31, 30, .ro, 0, .hw, none⟩,
    ⟨7, 0, .ro, 0, .hw, none⟩]⟩,
  -- FAB.CPL_CMD
  ⟨0x2048, 1, 0x4, [⟨0, 0, .wo, 0, .sw, none⟩]⟩,
  -- FAB.TBL_CMD
  ⟨0x2050, 1, 0x4, [⟨31, 31, .wo, 0, .sw, none⟩,
    ⟨29, 26, .wo, 0, .sw, none⟩,
    ⟨25, 22, .wo, 0, .sw, none⟩,
    ⟨21, 0, .wo, 0, .sw, none⟩]⟩,
  -- FAB.TBL_DIN_0 to FAB.TBL_DIN_14
  ⟨0x2054, 15, 0x4, [⟨26, 0, .rw, 0, .sw, none⟩]⟩,
  -- FAB.TBL_RES_0 to FAB.TBL_RES_14
  ⟨0x2090, 15, 0x4, [⟨31, 31, .ro, 0, .hw, none⟩,
    ⟨30, 27, .ro, 0, .hw, none⟩,
    ⟨26, 0, .ro, 0, .hw, none⟩]⟩]

/-- The EIC bank (Table RGS-1). -/
def eicBank : List RegDesc := [
  -- EIC.PENDING_0 to EIC.PENDING_7
  ⟨0x2400, 8, 0x4, [⟨31, 0, .w1c, 0, .set, none⟩]⟩,
  -- EIC.ACTIVE_0 to EIC.ACTIVE_7
  ⟨0x2420, 8, 0x4, [⟨31, 0, .ro, 0, .hw, none⟩]⟩,
  -- EIC.COALESCE_COUNT
  ⟨0x2440, 1, 0x4, [⟨31, 0, .rw, 0, .sum, none⟩]⟩,
  -- EIC.COALESCE_LAST
  ⟨0x2444, 1, 0x4, [⟨7, 0, .ro, 0, .hw, none⟩]⟩,
  -- EIC.DOORBELL
  ⟨0x2448, 1, 0x4, [⟨7, 0, .wo, 0, .sw, some (192, 255)⟩]⟩,
  -- EIC.SRC_CMD
  ⟨0x2450, 1, 0x4, [⟨31, 31, .wo, 0, .sw, none⟩,
    ⟨29, 26, .wo, 0, .sw, none⟩,
    ⟨21, 0, .wo, 0, .sw, none⟩]⟩,
  -- EIC.SRC_DIN_0
  ⟨0x2454, 1, 0x4, [⟨26, 0, .rw, 0, .sw, none⟩]⟩,
  -- EIC.SRC_RES_0
  ⟨0x2458, 1, 0x4, [⟨31, 31, .ro, 0, .hw, none⟩,
    ⟨30, 27, .ro, 0, .hw, none⟩,
    ⟨26, 0, .ro, 0, .hw, none⟩]⟩,
  -- EIC.Tn_CTL
  ⟨0x2480, 4, 0x20, [⟨25, 16, .rw, 100, .sw, some (1, 1000)⟩,
    ⟨2, 2, .rw, 0, .sw, none⟩,
    ⟨1, 1, .rw, 1, .sw, none⟩,
    ⟨0, 0, .rw, 0, .sw, none⟩]⟩,
  -- EIC.Tn_THRESH
  ⟨0x2484, 4, 0x20, [⟨3, 0, .rw, 0, .sw, none⟩]⟩,
  -- EIC.Tn_NODE
  ⟨0x2488, 4, 0x20, [⟨15, 0, .rw, 0, .sw, none⟩]⟩,
  -- EIC.Tn_CLAIM
  ⟨0x248C, 4, 0x20, [⟨0, 0, .wo, 0, .sw, none⟩]⟩,
  -- EIC.Tn_CLAIMED
  ⟨0x2490, 4, 0x20, [⟨23, 20, .ro, 0, .hw, none⟩,
    ⟨18, 16, .ro, 0, .hw, none⟩,
    ⟨15, 12, .ro, 0, .hw, none⟩,
    ⟨8, 0, .ro, 256, .hw, none⟩]⟩,
  -- EIC.Tn_EOI
  ⟨0x2494, 4, 0x20, [⟨7, 0, .wo, 0, .sw, none⟩]⟩,
  -- EIC.Tn_COMPLETE
  ⟨0x2498, 4, 0x20, [⟨7, 0, .wo, 0, .sw, none⟩]⟩,
  -- EIC.Tn_STATUS
  ⟨0x249C, 4, 0x20, [⟨31, 31, .ro, 0, .hw, none⟩,
    ⟨15, 12, .ro, 0, .hw, none⟩,
    ⟨11, 8, .ro, 0, .hw, none⟩,
    ⟨7, 0, .ro, 0, .hw, none⟩]⟩,
  -- EIC.EVIN_CFG_k
  ⟨0x2500, 16, 0x4, [⟨31, 16, .rw, 10, .sw, some (1, 65535)⟩,
    ⟨1, 1, .rw, 0, .sw, none⟩,
    ⟨0, 0, .rw, 0, .sw, none⟩]⟩]

/-- The DMT bank (Table RGS-2). -/
def dmtBank : List RegDesc := [
  -- DMT.CTL
  ⟨0x2800, 1, 0x4, [⟨7, 7, .rw, 0, .sw, none⟩,
    ⟨6, 6, .rw, 0, .sw, none⟩,
    ⟨5, 4, .rw, 1, .sw, some (1, 3)⟩,
    ⟨3, 2, .rw, 0, .sw, none⟩,
    ⟨1, 1, .rw, 0, .sw, none⟩,
    ⟨0, 0, .rw, 0, .sw, none⟩]⟩,
  -- DMT.PERIOD
  ⟨0x2804, 1, 0x4, [⟨31, 0, .rw, 100000000, .sw, some (1000, 4294967295)⟩]⟩,
  -- DMT.GRACE
  ⟨0x2808, 1, 0x4, [⟨31, 0, .rw, 10000000, .sw, some (1, 4294967295)⟩]⟩,
  -- DMT.COUNT
  ⟨0x280C, 1, 0x4, [⟨31, 0, .ro, 0, .hw, none⟩]⟩,
  -- DMT.SERVICE
  ⟨0x2810, 1, 0x4, [⟨31, 0, .wk, 0, .sw, none⟩]⟩,
  -- DMT.SERVICE_MASTERS
  ⟨0x2814, 1, 0x4, [⟨5, 0, .rwl, 0, .sw, none⟩]⟩,
  -- DMT.STATUS
  ⟨0x2818, 1, 0x4, [⟨8, 8, .ro, 0, .hw, none⟩,
    ⟨7, 7, .w1c, 0, .set, none⟩,
    ⟨5, 5, .w1c, 0, .set, none⟩,
    ⟨4, 4, .ro, 0, .hw, none⟩,
    ⟨3, 3, .w1c, 0, .set, none⟩,
    ⟨2, 2, .w1c, 0, .set, none⟩,
    ⟨1, 1, .ro, 0, .hw, none⟩,
    ⟨0, 0, .ro, 0, .hw, none⟩]⟩,
  -- DMT.REFUSE_COUNT
  ⟨0x281C, 1, 0x4, [⟨31, 0, .rw, 0, .sum, none⟩]⟩]

/-- The JNL bank (Table RGS-3). -/
def jnlBank : List RegDesc := [
  -- JNL.CFG
  ⟨0x2C00, 1, 0x4, [⟨8, 8, .rw, 0, .sw, none⟩,
    ⟨2, 0, .rw, 0, .sw, some (0, 6)⟩]⟩,
  -- JNL.CMD
  ⟨0x2C04, 1, 0x4, [⟨1, 1, .wo, 0, .sw, none⟩,
    ⟨0, 0, .wo, 0, .sw, none⟩]⟩,
  -- JNL.FAULT word 0
  ⟨0x2C08, 1, 0x4, [⟨11, 8, .ro, 0, .hw, none⟩,
    ⟨7, 4, .ro, 0, .hw, none⟩,
    ⟨2, 2, .ro, 0, .hw, none⟩,
    ⟨1, 1, .ro, 0, .hw, none⟩,
    ⟨0, 0, .ro, 0, .hw, none⟩]⟩,
  -- JNL.FAULT word 1
  ⟨0x2C0C, 1, 0x4, [⟨31, 0, .ro, 0, .hw, none⟩]⟩,
  -- JNL.HEAD word 0
  ⟨0x2C10, 1, 0x4, [⟨31, 0, .ro, 0, .hw, none⟩]⟩,
  -- JNL.HEAD words 1 and 2
  ⟨0x2C14, 2, 0x4, [⟨17, 0, .ro, 0, .hw, none⟩]⟩,
  -- JNL.STATUS word 0
  ⟨0x2C1C, 1, 0x4, [⟨31, 31, .ro, 0, .hw, none⟩,
    ⟨30, 30, .ro, 0, .hw, none⟩,
    ⟨22, 16, .ro, 0, .hw, none⟩]⟩,
  -- JNL.STATUS word 1
  ⟨0x2C20, 1, 0x4, [⟨31, 0, .rw, 0, .sum, none⟩]⟩,
  -- JNL.STATUS word 2
  ⟨0x2C24, 1, 0x4, [⟨31, 0, .rw, 0, .sum, none⟩]⟩,
  -- JNL.RULE_0 to JNL.RULE_15
  ⟨0x2C40, 16, 0x4, [⟨31, 31, .rw, 0, .sw, none⟩,
    ⟨25, 24, .rw, 0, .sw, none⟩,
    ⟨19, 16, .rw, 0, .sw, some (0, 4)⟩,
    ⟨14, 8, .rw, 0, .sw, none⟩,
    ⟨6, 0, .rw, 0, .sw, none⟩]⟩,
  -- JNL.SW_CMD
  ⟨0x2C80, 1, 0x4, [⟨3, 0, .wo, 0, .sw, some (0, 4)⟩]⟩,
  -- JNL.SW_DATA_0 to JNL.SW_DATA_3
  ⟨0x2C84, 4, 0x4, [⟨31, 0, .rw, 0, .sw, none⟩]⟩,
  -- JNL.TAIL_IDX
  ⟨0x2CA0, 1, 0x4, [⟨15, 12, .ro, 0, .hw, none⟩,
    ⟨3, 0, .rw, 0, .sw, none⟩]⟩,
  -- JNL.TAIL_DATA_0 to JNL.TAIL_DATA_7
  ⟨0x2CA4, 8, 0x4, [⟨31, 0, .ro, 0, .hw, none⟩]⟩]

/-- The PMC bank (Table RGS-4). -/
def pmcBank : List RegDesc := [
  -- PMC.CTR_CMD
  ⟨0x3000, 1, 0x4, [⟨31, 31, .wo, 0, .sw, none⟩,
    ⟨29, 26, .wo, 0, .sw, none⟩,
    ⟨21, 0, .wo, 0, .sw, none⟩]⟩,
  -- PMC.CTR_DIN_0
  ⟨0x3004, 1, 0x4, [⟨26, 0, .rw, 0, .sw, none⟩]⟩,
  -- PMC.CTR_RES_0
  ⟨0x3008, 1, 0x4, [⟨31, 31, .ro, 0, .hw, none⟩,
    ⟨30, 27, .ro, 0, .hw, none⟩,
    ⟨26, 0, .ro, 0, .hw, none⟩]⟩,
  -- PMC.OVF_0 to PMC.OVF_3
  ⟨0x3010, 4, 0x4, [⟨31, 0, .w1c, 0, .set, none⟩]⟩,
  -- PMC.VIEW_SEL_m
  ⟨0x3020, 8, 0x4, [⟨5, 4, .rw, 0, .sw, some (0, 2)⟩,
    ⟨3, 0, .rw, 0, .sw, none⟩]⟩,
  -- PMC.VIEW_LO_0 to PMC.VIEW_LO_7
  ⟨0x3040, 8, 0x4, [⟨31, 0, .rw, 0, .sum, none⟩]⟩,
  -- PMC.VIEW_HI_0 to PMC.VIEW_HI_7
  ⟨0x3060, 8, 0x4, [⟨15, 0, .rw, 0, .sum, none⟩]⟩,
  -- PMC.USER_MASK
  ⟨0x3080, 1, 0x4, [⟨15, 0, .rw, 0, .sw, none⟩]⟩,
  -- PMC.PERIOD
  ⟨0x3084, 1, 0x4, [⟨19, 0, .rw, 1000, .sw, some (10, 1000000)⟩]⟩,
  -- PMC.CAPTURE
  ⟨0x3088, 1, 0x4, [⟨0, 0, .wo, 0, .sw, none⟩]⟩,
  -- PMC.CAPT_STATUS word 0
  ⟨0x308C, 1, 0x4, [⟨31, 31, .ro, 0, .hw, none⟩,
    ⟨23, 16, .ro, 0, .hw, none⟩,
    ⟨0, 0, .ro, 0, .hw, none⟩]⟩,
  -- PMC.CAPT_STATUS words 1 and 2
  ⟨0x3090, 2, 0x4, [⟨31, 0, .ro, 0, .hw, none⟩]⟩,
  -- PMC.DUMP_CFG
  ⟨0x30A0, 1, 0x4, [⟨1, 1, .rw, 0, .sw, none⟩,
    ⟨0, 0, .rw, 0, .sw, none⟩]⟩,
  -- PMC.RING_BASE_LO
  ⟨0x30A4, 1, 0x4, [⟨31, 6, .rw, 0, .sw, none⟩]⟩,
  -- PMC.RING_BASE_HI
  ⟨0x30A8, 1, 0x4, [⟨15, 0, .rw, 0, .sw, none⟩]⟩,
  -- PMC.RING_COUNT
  ⟨0x30AC, 1, 0x4, [⟨15, 0, .rw, 16, .sw, some (1, 65535)⟩]⟩,
  -- PMC.DUMP_NODE
  ⟨0x30B0, 1, 0x4, [⟨15, 0, .rw, 0, .sw, none⟩]⟩,
  -- PMC.RING_READ
  ⟨0x30B4, 1, 0x4, [⟨15, 0, .rw, 0, .sw, none⟩]⟩,
  -- PMC.STATUS
  ⟨0x30B8, 1, 0x4, [⟨20, 16, .ro, 0, .hw, none⟩,
    ⟨1, 1, .ro, 0, .hw, none⟩,
    ⟨0, 0, .w1c, 0, .set, none⟩]⟩,
  -- PMC.RECORD
  ⟨0x30BC, 1, 0x4, [⟨31, 0, .ro, 0, .hw, none⟩]⟩,
  -- PMC.OVERRUN_COUNT
  ⟨0x30C0, 1, 0x4, [⟨31, 0, .ro, 0, .hw, none⟩]⟩,
  -- PMC.ABANDON_COUNT
  ⟨0x30C4, 1, 0x4, [⟨31, 0, .ro, 0, .hw, none⟩]⟩]

/-- The WHS bank (Table RGS-5). -/
def whsBank : List RegDesc := [
  -- WHS.TRIGGER
  ⟨0x3400, 1, 0x4, [⟨0, 0, .wo, 0, .sw, none⟩]⟩,
  -- WHS.CTL
  ⟨0x3404, 1, 0x4, [⟨2, 2, .wo, 0, .sw, none⟩,
    ⟨1, 1, .rw, 0, .sw, none⟩,
    ⟨0, 0, .wo, 0, .sw, none⟩]⟩,
  -- WHS.STATUS
  ⟨0x3408, 1, 0x4, [⟨31, 31, .ro, 1, .hw, none⟩,
    ⟨30, 30, .ro, 0, .hw, none⟩,
    ⟨15, 0, .ro, 0, .hw, none⟩]⟩,
  -- WHS.EVT_SEL_0 to WHS.EVT_SEL_3
  ⟨0x3410, 4, 0x4, [⟨31, 31, .rw, 0, .sw, none⟩,
    ⟨7, 0, .rw, 0, .sw, none⟩]⟩,
  -- WHS.SNAP_CMD
  ⟨0x3420, 1, 0x4, [⟨31, 31, .wo, 0, .sw, none⟩,
    ⟨29, 26, .wo, 0, .sw, none⟩,
    ⟨21, 0, .wo, 0, .sw, none⟩]⟩,
  -- WHS.SNAP_RES_0, WHS.SNAP_RES_1
  ⟨0x3424, 2, 0x4, [⟨31, 31, .ro, 0, .hw, none⟩,
    ⟨30, 27, .ro, 0, .hw, none⟩,
    ⟨26, 0, .ro, 0, .hw, none⟩]⟩,
  -- WHS.LMn_SEL
  ⟨0x3480, 16, 0x20, [⟨15, 12, .rw, 0, .sw, none⟩,
    ⟨11, 8, .rw, 0, .sw, some (0, 11)⟩,
    ⟨7, 0, .rw, 0, .sw, some (0, 10)⟩]⟩,
  -- WHS.LMn_MARKS
  ⟨0x3484, 16, 0x20, [⟨31, 16, .rw, 65535, .sw, none⟩,
    ⟨15, 0, .rw, 0, .sw, none⟩]⟩,
  -- WHS.LMn_STATE
  ⟨0x3488, 16, 0x20, [⟨31, 31, .ro, 0, .hw, none⟩,
    ⟨30, 30, .w1c, 0, .set, none⟩,
    ⟨29, 29, .w1c, 0, .set, none⟩,
    ⟨23, 16, .ro, 0, .hw, none⟩,
    ⟨15, 0, .ro, 0, .hw, none⟩]⟩,
  -- WHS.LMn_PEAK
  ⟨0x348C, 16, 0x20, [⟨15, 0, .ro, 0, .hw, none⟩]⟩,
  -- WHS.LMn_CLR
  ⟨0x3490, 16, 0x20, [⟨0, 0, .wo, 0, .sw, none⟩]⟩]

/-- The SPI bank (Table RGS-7). -/
def spiBank : List RegDesc := [
  -- SPA.SEL_0, SPA.SEL_1
  ⟨0x3800, 2, 0x4, [⟨23, 16, .ro, 4, .hw, none⟩,
    ⟨15, 12, .ro, 2, .hw, none⟩,
    ⟨9, 8, .ro, 0, .hw, none⟩,
    ⟨7, 0, .ro, 1, .hw, none⟩]⟩,
  -- SPA.SEL_2, SPA.SEL_3
  ⟨0x3808, 2, 0x4, [⟨23, 16, .rw, 4, .sw, some (1, 255)⟩,
    ⟨15, 12, .rw, 2, .sw, some (1, 15)⟩,
    ⟨9, 8, .rw, 0, .sw, none⟩,
    ⟨7, 0, .rw, 1, .sw, some (1, 255)⟩]⟩,
  -- SPA.CTL
  ⟨0x3810, 1, 0x4, [⟨19, 16, .rw, 1, .sw, some (1, 8)⟩,
    ⟨13, 8, .rw, 8, .sw, some (4, 32)⟩,
    ⟨5, 4, .rw, 0, .sw, none⟩,
    ⟨3, 3, .wo, 0, .sw, none⟩,
    ⟨2, 2, .rw, 0, .sw, none⟩,
    ⟨1, 1, .rw, 0, .sw, none⟩,
    ⟨0, 0, .wo, 0, .sw, none⟩]⟩,
  -- SPA.STATUS
  ⟨0x3814, 1, 0x4, [⟨7, 6, .ro, 0, .hw, none⟩,
    ⟨4, 4, .ro, 0, .hw, none⟩,
    ⟨3, 3, .ro, 0, .hw, none⟩,
    ⟨2, 2, .w1c, 0, .set, none⟩,
    ⟨1, 1, .ro, 0, .hw, none⟩,
    ⟨0, 0, .w1c, 0, .set, none⟩]⟩,
  -- SPA.DATA_0 to SPA.DATA_7
  ⟨0x3820, 8, 0x4, [⟨31, 0, .rw, 0, .sw, none⟩]⟩,
  -- SPB.CFG
  ⟨0x3840, 1, 0x4, [⟨23, 16, .rw, 3, .sw, some (3, 255)⟩,
    ⟨13, 8, .rw, 16, .sw, none⟩,
    ⟨5, 4, .rw, 0, .sw, none⟩,
    ⟨0, 0, .rw, 0, .sw, none⟩]⟩,
  -- SPB.CTL
  ⟨0x3844, 1, 0x4, [⟨19, 16, .rw, 1, .sw, some (1, 8)⟩,
    ⟨13, 8, .rw, 8, .sw, some (4, 32)⟩,
    ⟨4, 4, .wo, 0, .sw, none⟩,
    ⟨1, 1, .rw, 0, .sw, none⟩,
    ⟨0, 0, .wo, 0, .sw, none⟩]⟩,
  -- SPB.STATUS
  ⟨0x3848, 1, 0x4, [⟨31, 31, .ro, 0, .hw, none⟩,
    ⟨30, 30, .ro, 0, .hw, none⟩,
    ⟨29, 29, .w1c, 0, .set, none⟩,
    ⟨28, 28, .w1c, 0, .set, none⟩,
    ⟨27, 27, .w1c, 0, .set, none⟩,
    ⟨24, 16, .ro, 0, .hw, none⟩,
    ⟨15, 0, .ro, 0, .hw, none⟩]⟩,
  -- SPB.DATA_0 to SPB.DATA_7
  ⟨0x3860, 8, 0x4, [⟨31, 0, .rw, 0, .sw, none⟩]⟩]

/-- The CKP bank (Table RGS-8). -/
def ckpBank : List RegDesc := [
  -- CKP.PLL_STATUS
  ⟨0x3C00, 1, 0x4, [⟨1, 1, .w1c, 0, .set, none⟩,
    ⟨0, 0, .ro, 0, .hw, none⟩]⟩,
  -- CKP.TEMP
  ⟨0x3C04, 1, 0x4, [⟨15, 0, .ro, 0, .hw, none⟩]⟩,
  -- CKP.THERM_CFG
  ⟨0x3C08, 1, 0x4, [⟨11, 8, .rw, 5, .sw, some (1, 15)⟩,
    ⟨7, 0, .rw, 100, .sw, some (50, 120)⟩]⟩,
  -- CKP.THERM_STATUS
  ⟨0x3C0C, 1, 0x4, [⟨31, 16, .ro, 0, .hw, none⟩,
    ⟨1, 1, .w1c, 0, .set, none⟩,
    ⟨0, 0, .ro, 0, .hw, none⟩]⟩,
  -- CKP.SUPPLY_k
  ⟨0x3C10, 7, 0x4, [⟨15, 0, .ro, 0, .hw, none⟩]⟩,
  -- CKP.SUPPLY_STATUS
  ⟨0x3C2C, 1, 0x4, [⟨22, 16, .w1c, 0, .set, none⟩,
    ⟨6, 0, .ro, 0, .hw, none⟩]⟩,
  -- CKP.RESET_CAUSE
  ⟨0x3C30, 1, 0x4, [⟨31, 28, .ro, 1, .hw, none⟩,
    ⟨11, 8, .w1c, 0, .set, none⟩,
    ⟨4, 4, .ro, 0, .hw, none⟩,
    ⟨3, 3, .ro, 0, .hw, none⟩,
    ⟨2, 2, .ro, 0, .hw, none⟩,
    ⟨1, 1, .ro, 0, .hw, none⟩,
    ⟨0, 0, .ro, 1, .hw, none⟩]⟩,
  -- CKP.SOFT_RST
  ⟨0x3C34, 1, 0x4, [⟨3, 3, .w1s, 0, .cmd, none⟩,
    ⟨2, 2, .w1s, 0, .cmd, none⟩,
    ⟨1, 1, .w1s, 0, .cmd, none⟩,
    ⟨0, 0, .w1s, 0, .cmd, none⟩]⟩]

/-- The bank that holds a byte address: sixteen banks of 0x400 bytes. -/
def bankOf (addr : Nat) : List RegDesc :=
  match addr / 0x400 with
  | 0 => genBank | 1 => cfgBank | 2 => olfBank | 3 => trkBank
  | 4 => dirBank | 5 => hlcBank | 6 => memBank | 7 => atmBank
  | 8 => fabBank | 9 => eicBank | 10 => dmtBank | 11 => jnlBank
  | 12 => pmcBank | 13 => whsBank | 14 => spiBank | 15 => ckpBank
  | _ => []

/-- Whether a register description covers a byte address. -/
def RegDesc.covers (r : RegDesc) (addr : Nat) : Bool :=
  decide (r.base ≤ addr) && decide ((addr - r.base) % r.stride = 0) && decide ((addr - r.base) / r.stride < r.count)

/-- The register at a byte address; none where the address is unmapped (R595, R850, R895). -/
def regAt (addr : Nat) : Option RegDesc := (bankOf addr).find? (fun r => r.covers addr)

/-- The bits of a field. -/
def FieldDesc.mask (f : FieldDesc) : Nat := (2 ^ (f.hi + 1 - f.lo) - 1) <<< f.lo

/-- The bits that the fields of a register satisfying `p` occupy. -/
def RegDesc.maskOf (r : RegDesc) (p : FieldDesc → Bool) : Nat :=
  (r.fields.filter p).foldl (fun a f => a ||| f.mask) 0

/-- A register's value after reset. -/
def RegDesc.resetVal (r : RegDesc) : Word := BitVec.ofNat 32 (r.fields.foldl (fun a f => a ||| (f.reset <<< f.lo)) 0)

/-- The reset value of the register at a byte address, 0 where there is none. -/
def regReset (addr : Nat) : Word :=
  match regAt addr with
  | some r => r.resetVal
  | none => 0

end Sys2Proof.Machine
end

