-- ==== Sys2Proof/Machine/Ops.lean ====
section
/-! DEFINITION. The shared operations: the register store, the configuration lookups, the journal queue, event
sources, counters and the sending of messages. Every meaning reads and writes the machine through these. -/

namespace Sys2Proof.Machine

/-! ### Registers -/

/-- The register at a byte address. -/
def rget (m : Core) (a : Nat) : Word := tget (regReset a) m.regs a

/-- The machine with the register at a byte address set. -/
def rset (m : Core) (a : Nat) (v : Word) : Core := { m with regs := tput (regReset a) m.regs a v }

/-- Bits [hi:lo] of a register. -/
def rfld (m : Core) (a hi lo : Nat) : Nat := fld (rget m a) hi lo

/-- The machine with bits [hi:lo] of a register set. -/
def rsetf (m : Core) (a hi lo v : Nat) : Core := rset m a (putFld (rget m a) hi lo v)

/-- Bit `i` of a register. -/
def rbit (m : Core) (a i : Nat) : Bool := bit (rget m a) i

/-- A saturating 32-bit count register plus `n` (R851). -/
def rinc (m : Core) (a n : Nat) : Core :=
  rset m a (BitVec.ofNat 32 (min ((rget m a).toNat + n) 0xFFFFFFFF))

/-- Jalair's own node ID (GEN.NODE_ID.node). -/
def nodeId (m : Core) : NodeId := BitVec.ofNat 16 (rfld m 0x20 15 0)

/-- GEN.NODE_ID.valid. -/
def nodeValid (m : Core) : Bool := rbit m 0x20 31

/-- GEN.ROLE (Table ARC-1): 0 home, 1 junction, 2 home-and-junction. -/
def role (m : Core) : Nat := rfld m 0x1C 1 0

/-- Whether the role has a home function. -/
def isHome (m : Core) : Bool := role m != 1

/-- Whether the role has a junction function. -/
def isJunction (m : Core) : Bool := role m != 0

/-- DIR.SPLIT. -/
def split (m : Core) : Nat := rfld m 0x1000 3 0

/-- Whether a block that a soft reset holds is CKP.SOFT_RST bit `j` (R916). -/
def softHeld (m : Core) (j : Nat) : Bool := rbit m 0x3C34 j

/-- Whether the domains that derive from the main PLL run: no reset is held and the PLL is locked (R938, R944, R961, R962). -/
def running (m : Core) : Bool :=
  !m.pins.resetHeld && !m.pins.warmHeld && m.pins.locked && !m.pins.refclkStopped

/-- Whether the domains that need no PLL but are reset run: no cold or warm reset is held (R938). -/
def awake (m : Core) : Bool := !m.pins.resetHeld && !m.pins.warmHeld

/-! ### Commands -/

/-- A command that acts whatever the clocks do. -/
def always (f : Core → Core) (s : State) : Host.Outcome State Fault Refusal := .next { s with m := f s.m }

/-- A command of the domains that derive from the main PLL: without that clock nothing happens (R938, R962). -/
def clocked (f : Core → Core) (s : State) : Host.Outcome State Fault Refusal :=
  .next { s with m := if running s.m then f s.m else s.m }

/-- A command of the STMP, AON and DMTO domains, which run without the main PLL (R938). -/
def awakened (f : Core → Core) (s : State) : Host.Outcome State Fault Refusal :=
  .next { s with m := if awake s.m then f s.m else s.m }

/-- A command that also writes the DRAM. -/
def clockedDram (f : Dram → Core → Dram × Core) (s : State) : Host.Outcome State Fault Refusal :=
  if running s.m then .next { s with dram := (f s.dram s.m).1, m := (f s.dram s.m).2 } else .next s

/-! ### Ports and HTEs -/

/-- Port `p`. -/
def port (m : Core) (p : Nat) : Port := tget {} m.ports p

/-- The machine with port `p` set. -/
def setPort (m : Core) (p : Nat) (x : Port) : Core := { m with ports := tput {} m.ports p x }

/-- The credit book of virtual channel `v` of a port. -/
def vcb (x : Port) (v : Nat) : VcBook := tget {} x.vcs v

/-- The port with the book of `v` set. -/
def setVcb (x : Port) (v : Nat) (b : VcBook) : Port := { x with vcs := tput {} x.vcs v b }

/-- Whether the link-layer start of port `p` is complete (R55). -/
def started (m : Core) (p : Nat) : Bool := decide ((port m p).link = .complete)

/-- OLF.PORT_CFG_p.bifurcate of x8 port `p`, as the register holds it. -/
def bifurcated (m : Core) (p : Nat) : Bool := rbit m (0x800 + 4 * p) 8

/-- Whether x8 port `p` runs bifurcated: the bit as it stood when the port entered link training (R869). -/
def runsX4 (m : Core) (p : Nat) : Bool := bit (port m p).act 8

/-- Whether port `p` runs with its dateline flag set (R87, R869). -/
def dateline (m : Core) (p : Nat) : Bool := bit (port m p).act 4

/-- HTE `h`, if it is not free. -/
def hte (m : Core) (h : Nat) : Option Hte := tfind m.trk.htes h

/-- The machine with HTE `h` set. -/
def setHte (m : Core) (h : Nat) (x : Hte) : Core := { m with trk := { m.trk with htes := tset m.trk.htes h x } }

/-- The machine with HTE `h`, if not free, changed. -/
def modHte (m : Core) (h : Nat) (f : Hte → Hte) : Core :=
  match hte m h with
  | some x => setHte m h (f x)
  | none => m

/-! ### Messages -/

/-- The class of an opcode (Table OLF-8). -/
def clsOf : Op → MClass
  | .rds | .rdo | .rdc | .upg | .wrl | .wrp | .wst | .atm | .fls => .req
  | .wbd | .wbe | .wbs => .wbk
  | .sfs | .sfo | .sfc | .sin | .src | .spu | .ssu | .swp => .snp
  | .cmp | .gnt | .ria | .rsa | .rwp | .acc | .dec | .err => .rsp
  | .dsh | .dex | .dmo | .dhm => .dat
  | .cpl | .ucp | .thr | .tha | .clm | .sma | .cfg | .evt | .jrc | .ttd => .mgt

/-- The code of a class (Table OLF-6). -/
def clsCode : MClass → Nat
  | .dat => 0 | .rsp => 1 | .snp => 2 | .wbk => 3 | .req => 4 | .mgt => 5

/-- The code of an opcode within its class (Table OLF-8). -/
def opCode : Op → Nat
  | .rds => 1 | .rdo => 2 | .rdc => 3 | .upg => 4 | .wrl => 5 | .wrp => 6 | .wst => 7 | .atm => 8 | .fls => 9
  | .wbd => 1 | .wbe => 2 | .wbs => 3
  | .sfs => 1 | .sfo => 2 | .sfc => 3 | .sin => 4 | .src => 5 | .spu => 6 | .ssu => 7 | .swp => 8
  | .cmp => 1 | .gnt => 2 | .ria => 3 | .rsa => 4 | .rwp => 5 | .acc => 6 | .dec => 7 | .err => 8
  | .dsh => 1 | .dex => 2 | .dmo => 3 | .dhm => 4
  | .cpl => 1 | .ucp => 2 | .thr => 3 | .tha => 4 | .clm => 5 | .sma => 6 | .cfg => 7 | .evt => 8 | .jrc => 9
  | .ttd => 10

/-- The size of a message in 8-byte slots (Table OLF-8). -/
def slotsOf (x : Msg) : Nat :=
  match x.op with
  | .wrl | .wst | .wbd | .spu | .dsh | .dex | .dmo | .dhm | .ttd => 11
  | .wrp => 12
  | .atm => if fld x.aux 11 10 = 2 then 7 else 5
  | .cpl | .jrc => 7
  | .clm | .sma => 5
  | .cfg | .evt => 4
  | .cmp => if bit x.status 0 then 4 else 3
  | _ => 3

/-- The virtual channel of a message: 2 × class + dateline (R68). -/
def vcOf (x : Msg) : Nat := 2 * clsCode (clsOf x.op) + b1 x.dateline

/-! ### Configuration lookups -/

/-- The configuration set of an epoch. -/
def setOf (m : Core) (e : Bool) : CfgSet := if e then m.cfg.set1 else m.cfg.set0

/-- The machine with the configuration set of an epoch changed. -/
def modSet (m : Core) (e : Bool) (f : CfgSet → CfgSet) : Core :=
  if e then { m with cfg := { m.cfg with set1 := f m.cfg.set1 } }
  else { m with cfg := { m.cfg with set0 := f m.cfg.set0 } }

/-- The epoch under which a message that carries `e` is looked up: its own while that epoch is active or draining,
the active one once its drain has ended (R200, R206, R504). -/
def epochFor (m : Core) (e : Bool) : Bool := if m.cfg.drain then e else m.cfg.epoch

/-- The slot-map entry of slot `s`. -/
def slotEnt (m : Core) (e : Bool) (s : Nat) : SlotEnt := tget {} (setOf m e).slots s

/-- The slot of a node: the lowest-numbered LIVE entry that names it (R104). -/
def slotOf (m : Core) (e : Bool) (n : NodeId) : Option Nat :=
  ((setOf m e).slots.find? (fun x => decide (x.2.status = .live) && decide (x.2.node = n))).map (·.1)

/-- The slot of a node whatever its status, EMPTY excepted: how replies of a LEAVING slot are still matched. -/
def anySlotOf (m : Core) (e : Bool) (n : NodeId) : Option Nat :=
  match slotOf m e n with
  | some s => some s
  | none => ((setOf m e).slots.find? (fun x => decide (x.2.status ≠ .empty) && decide (x.2.node = n))).map (·.1)

/-- The node of a slot. -/
def nodeOf (m : Core) (e : Bool) (s : Nat) : NodeId := (slotEnt m e s).node

/-- The physical address of a line. -/
def paOf (l : LineAddr) : Nat := l.toNat * 64

/-- The granularity of a home-map range. -/
def HomeRange.g (r : HomeRange) : Nat := 2 ^ r.k.toNat

/-- The interleave count of a home-map range. -/
def HomeRange.n (r : HomeRange) : Nat := r.n1.toNat + 1

/-- The base of a range. -/
def HomeRange.base (r : HomeRange) : Nat := r.b8.toNat * 256

/-- The inclusive limit of a range. -/
def HomeRange.limit (r : HomeRange) : Nat := r.l8.toNat * 256 + 255

/-- Whether a range holds a physical address. -/
def HomeRange.has (r : HomeRange) (pa : Nat) : Bool := r.valid && decide (r.base ≤ pa) && decide (pa ≤ r.limit)

/-- The range that holds a physical address: the lowest-indexed (R497). -/
def rangeOf (m : Core) (e : Bool) (pa : Nat) : Option HomeRange :=
  ((setOf m e).home.find? (fun x => x.2.has pa)).map (·.2)

/-- The home of a line (R497). -/
def homeOf (m : Core) (e : Bool) (l : LineAddr) : Option NodeId :=
  (rangeOf m e (paOf l)).map fun r => (r.nodes[((paOf l - r.base) / r.g) % r.n]?).getD 0

/-- The local address of a line of a range (R438). -/
def HomeRange.localAddr (r : HomeRange) (pa : Nat) : Nat :=
  r.lb8.toNat * 256 + ((pa - r.base) / (r.n * r.g)) * r.g + (pa - r.base) % r.g

/-- The local line address of a line under a configuration set. -/
def llaOf (m : Core) (e : Bool) (l : LineAddr) : Nat :=
  match rangeOf m e (paOf l) with
  | some r => r.localAddr (paOf l) / 64
  | none => 0

/-- The populated channels (MEM.CFG.channels). -/
def channels (m : Core) : Nat := rfld m 0x1800 3 0

/-- The installed capacity in bytes (Table MEM-1). -/
def capacity (m : Core) : Nat := channels m * (32 * 2 ^ 30 * 2 ^ (rfld m 0x1800 6 6 + rfld m 0x1800 7 7))

/-- log2 of the populated channels. -/
def chanBits (m : Core) : Nat :=
  match channels m with
  | 2 => 1 | 4 => 2 | 8 => 3 | _ => 0

/-- The DRAM coordinates of a local line address (R440, Table MEM-3), and its column. -/
def coords (m : Core) (lla : Nat) : RowId × Nat :=
  let c := chanBits m
  let x := lla / 2
  let chF := x % 2 ^ c
  let x := x / 2 ^ c
  let col := x % 128
  let x := x / 128
  let bgF := x % 8
  let x := x / 8
  let baF := x % 4
  let x := x / 4
  let rk := rfld m 0x1800 7 7
  let rank := if rk = 1 then x % 2 else 0
  let row := (if rk = 1 then x / 2 else x) % 2 ^ (16 + rfld m 0x1800 6 6)
  (⟨chF ^^^ (row % 2 ^ c), lla % 2, rank, bgF ^^^ (row / 8 % 8), baF ^^^ (row / 64 % 4), row⟩, col)

/-- The local line address of a column of a DRAM row: the inverse of `coords`. -/
def llaAt (m : Core) (r : RowId) (col : Nat) : Nat :=
  let c := chanBits m
  let rk := rfld m 0x1800 7 7
  let x := if rk = 1 then r.row * 2 + r.rank else r.row
  let x := x * 4 + (r.bank ^^^ (r.row / 64 % 4))
  let x := x * 8 + (r.group ^^^ (r.row / 8 % 8))
  let x := x * 128 + col
  let x := x * 2 ^ c + (r.ch ^^^ (r.row % 2 ^ c))
  x * 2 + r.sub

/-- The channel of a local line address. -/
def chanOf (m : Core) (lla : Nat) : Nat := (coords m lla).1.ch

/-- The valid regions that hold a physical address, with their indices. -/
def regionHits (m : Core) (e : Bool) (l : LineAddr) : List (Nat × Region) :=
  (setOf m e).regions.filter fun x =>
    x.2.valid && decide (x.2.basePn.toNat ≤ l.toNat / 64) && decide (l.toNat / 64 ≤ x.2.limitPn.toNat)

/-- Among the matching entries, those of the highest priority, lowest index first (R619). -/
def topHits (hits : List (Nat × Region)) : List (Nat × Region) :=
  hits.filter fun x => hits.all fun y => decide (y.2.prio.toNat ≤ x.2.prio.toNat)

/-- The region that governs a line: order mode HOME, placement HOME, exclusive grant clear and no class override where
none matches (R619, R621). -/
def regionOf (m : Core) (e : Bool) (l : LineAddr) : Region :=
  match topHits (regionHits m e l) with
  | [] => {}
  | x :: _ => x.2

/-! ### Event sources -/

/-- The state of source `n`. -/
def srcSt (m : Core) (n : Nat) : SrcSt := tget .inactive m.eic.st n

/-- The machine with source `n` in a state. -/
def setSrc (m : Core) (n : Nat) (x : SrcSt) : Core :=
  { m with eic := { m.eic with st := tput .inactive m.eic.st n x } }

/-- The level and the target of a source (R655). -/
def srcCfg (m : Core) (n : Nat) : Nat × Nat := tget (0, 0) m.eic.cfg n

/-- The pending bit of a source (R653). -/
def isPending (m : Core) (n : Nat) : Bool :=
  decide (srcSt m n = .pending) || decide (srcSt m n = .both)

/-- A target's mode bit: true THRESH. -/
def threshMode (m : Core) (t : Nat) : Bool := rbit m (0x2480 + 0x20 * t) 0

/-- The stack of a target. -/
def stackOf (m : Core) (t : Nat) : List (Nat × Nat) := tget [] m.eic.stack t

/-- The running priority of a target in STACK mode, its threshold in THRESH mode. -/
def runningPrio (m : Core) (t : Nat) : Nat :=
  if threshMode m t then rfld m (0x2484 + 0x20 * t) 3 0
  else match stackOf m t with
    | [] => 0
    | x :: _ => x.2

/-- A source is pending, its level is 1 or more, its target is `t`, and its level exceeds the running priority (R665).
Only a source in state pending can be selected: a claim moves it from pending to active (R651). -/
def eligible (m : Core) (t n : Nat) : Bool :=
  decide (srcSt m n = .pending) && decide (1 ≤ (srcCfg m n).1) && decide ((srcCfg m n).2 = t)
    && decide (runningPrio m t < (srcCfg m n).1)

/-- Target `t`'s selected source: highest level, then lowest number (R666). -/
def selected (m : Core) (t : Nat) : Option Nat :=
  m.eic.st.foldl (fun best x =>
    if eligible m t x.1 then
      match best with
      | none => some x.1
      | some b => if (srcCfg m b).1 < (srcCfg m x.1).1 then some x.1 else some b
    else best) none

/-- What an `EVT` for target `t` would carry now falls due (R676, R679). -/
def evtDue (m : Core) (t : Nat) : Core :=
  match selected m t with
  | none => m
  | some n =>
    let e := tget {} m.eic.evt t
    { m with eic := { m.eic with
        evt := tput {} m.eic.evt t { e with waiting := true, source := n, level := (srcCfg m n).1
                                            since := if e.waiting then e.since else m.stmp } } }

/-- The level of target `t`'s selected source, 0 where it has none. -/
def selLevel (m : Core) (t : Nat) : Nat :=
  match selected m t with
  | none => 0
  | some n => (srcCfg m n).1

/-- IRQ_N of a target follows its selection (R674). -/
def irqDrive (m : Core) (t : Nat) : Core :=
  { m with eic := { m.eic with
      irq := tput false m.eic.irq t (rbit m (0x2480 + 0x20 * t) 1 && (selected m t).isSome) } }

/-- An `EVT` falls due when the selected level exceeds the last one (R676). -/
def evtJudge (m : Core) (t lvl : Nat) : Core :=
  if rbit m (0x2480 + 0x20 * t) 2 && decide ((tget {} m.eic.evt t).lastLevel < lvl) then evtDue m t else m

/-- The selected level that the next change is judged against. -/
def evtLevel (m : Core) (t lvl : Nat) : Core :=
  { m with eic := { m.eic with evt := tput {} m.eic.evt t { tget {} m.eic.evt t with lastLevel := lvl } } }

/-- IRQ_N and the `EVT` of one target after a change of sources, levels or priorities (R674, R676). -/
def eicTarget (m : Core) (t : Nat) : Core :=
  evtLevel (evtJudge (irqDrive m t) t (selLevel m t)) t (selLevel m t)

/-- Delivery for the four targets. -/
def eicUpdate (m : Core) : Core := [0, 1, 2, 3].foldl eicTarget m

/-- A trigger of the whistle (R780, R782, R785). -/
def whistleTrigger (m : Core) : Core :=
  if !m.whs.armed then { m with whs := { m.whs with missed := min (m.whs.missed + 1) 0xFFFF } }
  else if rbit m 0x3404 1 then { m with whs := { m.whs with drivePend := true } }
  else { m with whs := { m.whs with recog := true } }

/-- Whether WHS.EVT_SEL names a source (R780). -/
def evtSelects (m : Core) (n : Nat) : Bool :=
  [0, 1, 2, 3].any fun i => rbit m (0x3410 + 4 * i) 31 && decide (rfld m (0x3410 + 4 * i) 7 0 = n)

/-- A raise moves a source on; a raise of a pending one is counted (R649, R650). -/
def srcRaise (m : Core) (n : Nat) : Core :=
  match srcSt m n with
  | .inactive => setSrc m n .pending
  | .active => setSrc m n .both
  | _ => rset (rinc m 0x2440 1) 0x2444 (BitVec.ofNat 32 n)

/-- A raised source that WHS.EVT_SEL names triggers the whistle (R780). -/
def whistleCheck (m : Core) (n : Nat) : Core := if evtSelects m n then whistleTrigger m else m

/-- Source `n` is raised (R649, R650), and triggers the whistle where it is selected (R780). -/
def raiseRaw (m : Core) (n : Nat) : Core := eicUpdate (whistleCheck (srcRaise m n) n)

/-! ### Counters -/

/-- The blocks that have counters (Table OBS-1). -/
inductive Blk where
  | olf | xbr | trk | dir | hlc | mem | fab | atm | eic | jnl | spi
  deriving DecidableEq, Repr

/-- The block of a counter (R757). -/
def blkOf (k : Nat) : Blk :=
  if k < 32 then .olf else if k < 48 then .xbr else if k < 56 then .trk else if k < 64 then .dir
  else if k < 72 then .hlc else if k < 104 then .mem else if k < 112 then .fab else if k < 116 then .atm
  else if k < 120 then .eic else if k < 124 then .jnl else .spi

/-- Whether Table OBS-2 lists an event number for a block (R758). -/
def eventListed (b : Blk) (e : Nat) : Bool :=
  match b with
  | .olf => decide (16 ≤ e) && decide (e < 208)
  | .xbr => (decide (1 ≤ e) && decide (e ≤ 3)) || (decide (16 ≤ e) && decide (e ≤ 21))
      || (decide (32 ≤ e) && decide (e ≤ 47))
  | .trk => decide (1 ≤ e) && decide (e ≤ 9)
  | .dir => decide (1 ≤ e) && decide (e ≤ 10)
  | .hlc => (decide (1 ≤ e) && decide (e ≤ 9)) || (decide (16 ≤ e) && decide (e ≤ 31))
  | .mem => decide (8 ≤ e) && decide (e < 104)
  | .fab => decide (1 ≤ e) && decide (e ≤ 8)
  | .atm => decide (1 ≤ e) && decide (e ≤ 7)
  | .eic => decide (1 ≤ e) && decide (e ≤ 5)
  | .jnl => decide (1 ≤ e) && decide (e ≤ 4)
  | .spi => decide (1 ≤ e) && decide (e ≤ 4)

/-- Counter `k` takes a value modulo 2^48. -/
def ctrStore (m : Core) (k v : Nat) : Core := { m with pmc := { m.pmc with ctr := tput 0 m.pmc.ctr k (v % 2 ^ 48) } }

/-- The overflow flag of counter `k` in PMC.OVF_0 to PMC.OVF_3, and its mark in the next capture (R759). -/
def ctrWrap (m : Core) (k : Nat) : Core :=
  rsetf { m with pmc := { m.pmc with wrapped := tput false m.pmc.wrapped k true } }
    (0x3010 + 4 * (k / 32 % 4)) (k % 32) (k % 32) 1

/-- Counter `k` reaches `v`, with its overflow flag and interrupt where that exceeds 48 bits (R759). -/
def ctrReach (k : Nat) (c : CtrCfg) (v : Nat) (m : Core) : Core :=
  if v < 2 ^ 48 then ctrStore m k v
  else if c.ovfInt then raiseRaw (ctrWrap (ctrStore m k v) k) 176
  else ctrWrap (ctrStore m k v) k

/-- Counter `k` adds `n` (R758). -/
def ctrAdd (k : Nat) (c : CtrCfg) (n : Nat) (m : Core) : Core := ctrReach k c (tget 0 m.pmc.ctr k + n) m

/-- `n` occurrences of an event of a block, counted by every enabled counter that selects it (R758, R759, R761). -/
def tally (b : Blk) (e n : Nat) (m : Core) : Core :=
  m.pmc.cfg.foldl (fun m x =>
    if x.2.enable && decide (blkOf x.1 = b) && decide (x.2.event.toNat = e) && decide (e ≠ 0) then ctrAdd x.1 x.2 n m
    else m) m

/-- A raise of a source that is pending already is an event of the EIC's counters (Table OBS-2). -/
def countRepeat (m : Core) (n : Nat) : Core := if isPending m n then tally .eic 2 1 m else m

/-- Jalair raises event source `n` (R648, R649). -/
def raise (m : Core) (n : Nat) : Core := raiseRaw (tally .eic 1 1 (countRepeat m n)) n

/-! ### Journal -/

/-- A payload of named fields, each a width and a value, packed from the most significant bit (Table DMJ-6). -/
def payload (fs : List (Nat × Nat)) : BitVec 128 :=
  let w := fs.foldl (fun a f => a + f.1) 0
  BitVec.ofNat 128 ((fs.foldl (fun a f => a * 2 ^ f.1 + f.2 % 2 ^ f.1) 0) <<< (128 - w))

/-- The action that the filter rules give a record of a type and severity (R723). -/
def ruleAction (m : Core) (typ sev : Nat) : Nat :=
  match (List.range 16).find? (fun i =>
      let r := rget m (0x2C40 + 4 * i)
      bit r 31 && decide (typ &&& fld r 14 8 = fld r 6 0 &&& fld r 14 8) && decide (fld r 19 16 ≤ sev)) with
  | some i => rfld m (0x2C40 + 4 * i) 25 24
  | none => 0

/-- The action a record takes (R723, R724): 0 RECORD, 1 LOCAL, 2 REMOTE, 3 DISCARD. -/
def recAction (m : Core) (typ sev : Nat) : Nat :=
  let a := ruleAction m typ sev
  if sev = 4 || typ = 5 || typ = 6 || typ = 7 then (if a = 3 then 1 else if a = 2 then 0 else a) else a

/-- The queue with its youngest record of severity below `sev` removed, if there is one (R728). -/
def displace (sev : Nat) (q : List QRec) : Option (QRec × List QRec) :=
  (takeFirst (fun r => decide (r.sev.toNat < sev)) q.reverse).map fun x => (x.1, x.2.reverse)

/-- What the next record says of the dropped ones: their number and highest severity (R728). -/
def noteLost (m : Core) (sev : BitVec 4) : Core :=
  { m with jnl := { m.jnl with lost := m.jnl.lost + 1
                               lostSev := if m.jnl.lostSev.toNat < sev.toNat then sev else m.jnl.lostSev } }

/-- One record counted as dropped (R728). -/
def dropRec (m : Core) (sev : BitVec 4) : Core := noteLost (tally .jnl 3 1 (rinc m 0x2C20 1)) sev

/-- A record has entered the queue, which now is `q`. -/
def queueRecs (m : Core) (q : List QRec) : Core := tally .jnl 1 1 { m with jnl := { m.jnl with queue := q } }

/-- The record of an event of a type and severity, with the action that the rules give it (R723, R725). -/
def eventRec (m : Core) (typ sev : Nat) (p : BitVec 128) : QRec :=
  ⟨BitVec.ofNat 7 typ, BitVec.ofNat 4 sev, m.time.extractLsb' 8 52, p, recAction m typ sev⟩

/-- A record enters the queue at the place that `put` gives it; a full queue displaces its youngest record of lower
severity, or drops the new one (R728). -/
def enqueueRec (m : Core) (r : QRec) (put : List QRec → List QRec) : Core :=
  if m.jnl.queue.length < 64 then queueRecs m (put m.jnl.queue)
  else match displace r.sev.toNat m.jnl.queue with
    | some (d, q) => dropRec (queueRecs m (put q)) d.sev
    | none => dropRec m r.sev

/-- A record filled at its event and placed in the pending queue (R725, R728). -/
def journal (m : Core) (typ sev : Nat) (p : BitVec 128) : Core :=
  if recAction m typ sev = 3 then m
  else enqueueRec m (eventRec m typ sev p) (fun q => q ++ [eventRec m typ sev p])

/-- A record placed at the head of the queue (R731). -/
def journalHead (m : Core) (typ sev : Nat) (p : BitVec 128) : Core :=
  enqueueRec m (eventRec m typ sev p) (fun q => eventRec m typ sev p :: q)

/-! ### Reports -/

/-- A bit of OLF.PORT_EVENT_p is set and the link event of the port is raised (R868). -/
def linkEvent (m : Core) (p bit : Nat) : Core := raise (rsetf m (0x8C0 + 4 * p) bit bit 1) (64 + p)

/-- FAULT_N is asserted (R934). -/
def assertFault (m : Core) : Core := { m with pins := { m.pins with faultN := true } }

/-- The next free value of the model (assumption log, entry 4). -/
def freeLine (m : Core) : LineData × Core := (Config.freeLine m.free, { m with free := m.free + 1 })

/-- What the HLC lookup of a write meets that no operand gives: a free value (assumption log, entry 4). -/
def freeFault (m : Core) : HlcFault × Core := (Config.lookupFault m.free, { m with free := m.free + 1 })

/-! ### Sending -/

/-- Table OLF-7's codes that Jalair sends. -/
def errNoSlot : Nat := 0x01
/-- UNMAPPED. -/
def errUnmapped : Nat := 0x02
/-- NOT_HOME. -/
def errNotHome : Nat := 0x03
/-- HOP_EXPIRED. -/
def errHop : Nat := 0x04
/-- ROUTE_DROP. -/
def errRoute : Nat := 0x05
/-- TIMEOUT. -/
def errTimeout : Nat := 0x06
/-- UNCORRECTABLE. -/
def errUncorr : Nat := 0x07
/-- MALFORMED. -/
def errMalformed : Nat := 0x08
/-- CFG_DENIED. -/
def errDenied : Nat := 0x09

/-- The port that the route-table entry of a node names, drop or not (R500). -/
def namedPort (m : Core) (e : Bool) (n : NodeId) : Nat := (tget 0xF (setOf m e).route n.toNat).toNat

/-- The output port of a node under the set of an epoch; none where the entry is drop (R500, R502). -/
def routeOf (m : Core) (e : Bool) (n : NodeId) : Option Nat :=
  let p := namedPort m e n
  if (decide (8 ≤ p) && !runsX4 m (p - 8)) || !started m p then none else some p

/-- A dropped message is journaled (R83, R97). -/
def journalDrop (m : Core) (x : Msg) (code : Nat) : Core :=
  journal m 0x11 2 (payload [(8, opCode x.op), (8, clsCode (clsOf x.op)), (16, x.src.toNat), (16, x.dest.toNat),
    (8, code), (46, x.line.toNat)])

/-- A message that broke a rule is journaled (Table DMJ-6, PROTOCOL). -/
def journalProto (m : Core) (x : Msg) (rule : Nat) : Core :=
  journal m 0x12 2 (payload [(8, opCode x.op), (8, clsCode (clsOf x.op)), (16, x.src.toNat), (46, x.line.toNat),
    (16, rule)])

/-- An event that a rule has Jalair count (assumption log, entry 67). -/
def countRule (m : Core) (rule : Nat) : Core :=
  { m with trk := { m.trk with counts := tput 0 m.trk.counts rule (tget 0 m.trk.counts rule + 1) } }

/-- A message that broke a rule is counted and journaled (R150 to R152, R207 to R209, R284). -/
def countProto (m : Core) (x : Msg) (rule : Nat) : Core := journalProto (countRule m rule) x rule

/-- A message for Jalair is placed where its engine takes it. -/
def deliver (m : Core) (p v : Nat) (x : Msg) : Core := { m with inbox := m.inbox ++ [{ port := p, vc := v, msg := x }] }

/-- A message joins the queue of output port `p` for its virtual channel; crossing a dateline port moves it to VC1 of
its class (R87). -/
def enqueue (m : Core) (p src : Nat) (owner : Option Nat) (x : Msg) : Core :=
  let x := if dateline m p then { x with dateline := true } else x
  let q := port m p
  setPort m p { q with txq := q.txq ++ [⟨src, vcOf x, x, owner⟩] }

/-- Jalair originates a message from source `src` (16 the home tracker, 17 a management engine) under the routes of an
epoch: the hop count is OLF.LINK_CTL.hop_init (R80), the source its own node. A message for its own node is delivered
locally (R501); a route that drops is handled under R97, and counted at the port that its entry names (assumption log,
entry 66). -/
def send (m : Core) (src : Nat) (owner : Option Nat) (e : Bool) (x : Msg) : Core :=
  let x := { x with src := nodeId m, hop := BitVec.ofNat 8 (rfld m 0x840 7 0), dateline := false }
  let m := tally .xbr 3 1 m
  if x.dest = nodeId m then deliver m 16 (vcOf x) x
  else match routeOf m e x.dest with
    | some p => enqueue m p src owner x
    | none =>
      let m := journalDrop (tally .olf (160 + namedPort m e x.dest) 1 m) x errRoute
      if clsOf x.op = .req || x.op = .cfg then
        deliver m 16 2 { op := .err, dest := nodeId m, src := nodeId m, tag := x.tag, line := x.line, epoch := x.epoch
                         status := BitVec.ofNat 8 errRoute }
      else m

/-- A message of the management engines, under the active set. They compete for a port as one source, 17, which stands
after the home tracker in the round of R31 (assumption log, entry 66). -/
def sendMgt (m : Core) (x : Msg) : Core := send m 17 none m.cfg.epoch { x with epoch := m.cfg.epoch }

/-- A reply to a management message: it carries the epoch bit of the message it answers (R78). -/
def sendReply (m : Core) (x : Msg) : Core := send m 17 none (epochFor m x.epoch) x

/-- A broadcast is flooded on every port whose link-layer start is complete, but one (R84). -/
def flood (m : Core) (except : Nat) (src : Nat) (x : Msg) : Core :=
  (List.range 16).foldl (fun m p =>
    if started m p && decide (p ≠ except) then enqueue m p src none x else m) m

/-- Jalair originates a broadcast. -/
def originateBcast (m : Core) (x : Msg) : Core :=
  flood (tally .xbr 3 1 m) 99 17
    { x with src := nodeId m, hop := BitVec.ofNat 8 (rfld m 0x840 7 0), broadcast := true, dest := 0
             epoch := m.cfg.epoch }

/-- An `ERR` in answer to a message, from the management side. No HTE sends it, so its home tag is 0 (assumption log,
entry 66). -/
def sendErr (m : Core) (x : Msg) (code : Nat) : Core :=
  sendReply m { op := .err, dest := x.src, tag := x.tag, line := x.line, epoch := x.epoch
                status := BitVec.ofNat 8 code }

/-- A `CMP` in answer to a management message. No HTE sends it, so its home tag is 0 (assumption log, entry 66). -/
def sendCmp (m : Core) (x : Msg) : Core :=
  sendReply m { op := .cmp, dest := x.src, tag := x.tag, line := x.line, epoch := x.epoch }

/-- The slots of a message leave the virtual-channel buffer of port `p`: they count as freed (R252), or are withheld
while an allotment falls (R257). Messages from Jalair itself hold no slots. -/
def freeSlots (m : Core) (p v n : Nat) : Core :=
  if 16 ≤ p then m else
    let q := port m p
    let b := vcb q v
    let n := min n b.o
    let w := min n b.withhold
    setPort m p (setVcb q v { b with o := b.o - n, p := b.p + (n - w), withhold := b.withhold - w, g := b.g - w })

/-- The oldest message in the inbox that satisfies `f`; its slots are freed as its engine takes it. -/
def takeInbox (m : Core) (f : Msg → Bool) : Option (InMsg × Core) :=
  match takeFirst (fun i => f i.msg) m.inbox with
  | none => none
  | some (i, r) =>
    let m : Core := { m with inbox := r }
    some (i, if clsOf i.msg.op = .rsp || clsOf i.msg.op = .dat || !i.slots then m
             else freeSlots m i.port i.vc (slotsOf i.msg))

end Sys2Proof.Machine
end

