-- ==== Sys2Proof/Machine/Wire.lean ====
section
/-! DEFINITION. The wire formats of spec/02_olfer_messages.md: the 24-byte header (Table OLF-4), messages in the
8-byte slots of a flit (R49 to R51), the flit trailer and its CRC-64 (Table OLF-3), and the rules that a readable
message can break (R96). -/

namespace Sys2Proof.Machine

/-- The opcode with a class code and an opcode code (Table OLF-8). -/
def opOf (cls code : Nat) : Option Op :=
  match cls, code with
  | 4, 1 => some .rds | 4, 2 => some .rdo | 4, 3 => some .rdc | 4, 4 => some .upg | 4, 5 => some .wrl
  | 4, 6 => some .wrp | 4, 7 => some .wst | 4, 8 => some .atm | 4, 9 => some .fls
  | 3, 1 => some .wbd | 3, 2 => some .wbe | 3, 3 => some .wbs
  | 2, 1 => some .sfs | 2, 2 => some .sfo | 2, 3 => some .sfc | 2, 4 => some .sin | 2, 5 => some .src
  | 2, 6 => some .spu | 2, 7 => some .ssu | 2, 8 => some .swp
  | 1, 1 => some .cmp | 1, 2 => some .gnt | 1, 3 => some .ria | 1, 4 => some .rsa | 1, 5 => some .rwp
  | 1, 6 => some .acc | 1, 7 => some .dec | 1, 8 => some .err
  | 0, 1 => some .dsh | 0, 2 => some .dex | 0, 3 => some .dmo | 0, 4 => some .dhm
  | 5, 1 => some .cpl | 5, 2 => some .ucp | 5, 3 => some .thr | 5, 4 => some .tha | 5, 5 => some .clm
  | 5, 6 => some .sma | 5, 7 => some .cfg | 5, 8 => some .evt | 5, 9 => some .jrc | 5, 10 => some .ttd
  | _, _ => none

/-- The 192 header bits of a message (Table OLF-4). -/
def headerBits (x : Msg) : Nat :=
  [(4, clsCode (clsOf x.op)), (8, opCode x.op), (16, x.dest.toNat), (16, x.src.toNat), (12, x.tag.toNat),
    (12, x.htag.toNat), (16, x.fnode.toNat), (12, x.ftag.toNat), (46, x.line.toNat), (1, b1 x.epoch),
    (1, b1 x.poison), (1, b1 x.staff), (1, b1 x.dateline), (1, b1 x.broadcast), (8, x.status.toNat),
    (16, x.aux.toNat), (8, x.hop.toNat), (13, x.rsv.toNat)].foldl (fun a f => a * 2 ^ f.1 + f.2) 0

/-- The bytes of a message after its header, as a number, first byte most significant: line data, payload or
operands, and for a `WRP` the byte mask with byte 88 carrying mask bits [63:56]. -/
def bodyBits (x : Msg) : Nat :=
  match x.op with
  | .wrp => revBytes x.data.toNat 64 * 2 ^ 64 + x.mask.toNat
  | _ => revBytes x.data.toNat (8 * slotsOf x - 24)

/-- A message as the number its bytes spell, first byte most significant. -/
def msgBits (x : Msg) : Nat := headerBits x * 256 ^ (8 * slotsOf x - 24) + bodyBits x

/-- The message whose header bits are `h`, without its body; none where the class is reserved or the opcode is
undefined for it (R95). -/
def parseHeader (h : Nat) : Option Msg :=
  let f (hi lo : Nat) : Nat := (h >>> lo) % 2 ^ (hi + 1 - lo)
  (opOf (f 191 188) (f 187 180)).map fun op =>
    { op := op, dest := BitVec.ofNat 16 (f 179 164), src := BitVec.ofNat 16 (f 163 148)
      tag := BitVec.ofNat 12 (f 147 136), htag := BitVec.ofNat 12 (f 135 124), fnode := BitVec.ofNat 16 (f 123 108)
      ftag := BitVec.ofNat 12 (f 107 96), line := BitVec.ofNat 46 (f 95 50), epoch := h.testBit 49
      poison := h.testBit 48, staff := h.testBit 47, dateline := h.testBit 46, broadcast := h.testBit 45
      status := BitVec.ofNat 8 (f 44 37), aux := BitVec.ofNat 16 (f 36 21), hop := BitVec.ofNat 8 (f 20 13)
      rsv := BitVec.ofNat 13 (f 12 0) }

/-- `n` slots from slot `s` of a message area of thirty, as a number. -/
def areaSlots (area s n : Nat) : Nat := (area >>> (64 * (30 - s - n))) % 2 ^ (64 * n)

/-- The message that begins at slot `s` of a message area (R49, R50). -/
def parseMsg (area s : Nat) : Option Msg :=
  if 30 < s + 3 then none else
    match parseHeader (areaSlots area s 3) with
    | none => none
    | some x =>
      let n := slotsOf x
      if 30 < s + n then none else
        let body := areaSlots area (s + 3) (n - 3)
        some (match x.op with
          | .wrp => { x with data := BitVec.ofNat 512 (revBytes (body / 2 ^ 64) 64), mask := BitVec.ofNat 64 body }
          | _ => { x with data := BitVec.ofNat 512 (revBytes body (8 * n - 24)) })

/-- The messages of a payload flit from slot `s` on, and whether the reading ended at something unreadable (R51,
R95). -/
def parseFrom (area s : Nat) : Nat → List Msg × Bool
  | 0 => ([], false)
  | fuel + 1 =>
    if 30 ≤ s then ([], false)
    else if areaSlots area s 1 / 2 ^ 60 = 15 then ([], false)
    else match parseMsg area s with
      | none => ([], true)
      | some x =>
        let r := parseFrom area (s + slotsOf x) fuel
        (x :: r.1, r.2)

/-- The messages of a payload flit. -/
def parseArea (area : Nat) : List Msg × Bool := parseFrom area 0 11

/-- The message area that holds messages from slot 0 on, closed by the end marker where slots remain (R49, R51). -/
def packArea (xs : List Msg) : Nat :=
  let r := xs.foldl (fun (a : Nat × Nat) x =>
    (a.1 + msgBits x * 2 ^ (64 * (30 - a.2 - slotsOf x)), a.2 + slotsOf x)) (0, 0)
  if r.2 < 30 then r.1 + 15 * 2 ^ (64 * (29 - r.2) + 60) else r.1

/-- The trailer fields other than the CRC (Table OLF-3). -/
structure Trailer where
  seq : BitVec 12
  ack : BitVec 12
  vcA : BitVec 4 := 15
  cntA : BitVec 6 := 0
  vcB : BitVec 4 := 15
  cntB : BitVec 6 := 0
  tsValue : BitVec 16 := 0
  tsKind : BitVec 2 := 0
  kind : BitVec 2
  deriving DecidableEq, Repr

/-- The low 64 bits of the trailer. -/
def trailerBits (t : Trailer) : Nat :=
  [(12, t.seq.toNat), (12, t.ack.toNat), (4, t.vcA.toNat), (6, t.cntA.toNat), (4, t.vcB.toNat), (6, t.cntB.toNat),
    (16, t.tsValue.toNat), (2, t.tsKind.toNat), (2, t.kind.toNat)].foldl (fun a f => a * 2 ^ f.1 + f.2) 0

/-- The trailer fields that low 64 bits spell. -/
def parseTrailer (x : Nat) : Trailer :=
  let f (hi lo : Nat) : Nat := (x >>> lo) % 2 ^ (hi + 1 - lo)
  ⟨BitVec.ofNat 12 (f 63 52), BitVec.ofNat 12 (f 51 40), BitVec.ofNat 4 (f 39 36), BitVec.ofNat 6 (f 35 30),
    BitVec.ofNat 4 (f 29 26), BitVec.ofNat 6 (f 25 20), BitVec.ofNat 16 (f 19 4), BitVec.ofNat 2 (f 3 2),
    BitVec.ofNat 2 (f 1 0)⟩

/-- The CRC of a flit: over bytes 0 to 239 followed by bytes 248 to 255, initial value all ones (Table OLF-3). -/
def flitCrc (area low : Nat) : Nat := crc64 (area * 2 ^ 64 + low) 1984 (2 ^ 64 - 1)

/-- A flit with its CRC. -/
def packFlit (area : Nat) (t : Trailer) : BitVec 2048 :=
  let low := trailerBits t
  BitVec.ofNat 2048 (area * 2 ^ 128 + flitCrc area low * 2 ^ 64 + low)

/-- The message area of a flit. -/
def flitArea (b : BitVec 2048) : Nat := b.toNat >>> 128

/-- The trailer of a flit. -/
def flitTrailer (b : BitVec 2048) : Trailer := parseTrailer (b.toNat % 2 ^ 64)

/-- Whether a flit passes its CRC. -/
def flitCrcOk (b : BitVec 2048) : Bool :=
  decide (flitCrc (flitArea b) (b.toNat % 2 ^ 64) = (b.toNat >>> 64) % 2 ^ 64)

/-- The flit sent again: its seq, message area and credit returns kept, the current ack, ts_kind none (R64). That its
ts_value is then 0 is the model's choice (assumption log, entry 66). -/
def refit (b : BitVec 2048) (ack : BitVec 12) : BitVec 2048 :=
  let t := flitTrailer b
  packFlit (flitArea b) { t with ack := ack, tsKind := 0, tsValue := 0 }

/-! ### The rules a readable message can break (R96) -/

/-- The size in bytes of an `ATM` (Table OLF-5). -/
def atmSize (x : Msg) : Nat := 4 * 2 ^ fld x.aux 11 10

/-- The byte offset of an `ATM` (Table OLF-5). -/
def atmOffset (x : Msg) : Nat := fld x.aux 9 4

/-- The operation of an `ATM` (Table OLF-5). -/
def atmOp (x : Msg) : Nat := fld x.aux 15 12

/-- Operands of an `ATM` that break R66: the upper four bytes of a 32-bit operand, or operand B of an operation other
than `CAS`, are not zero. -/
def operandBad (x : Msg) : Bool :=
  let hi (i : Nat) : Bool := decide ((x.data.toNat >>> (64 * i + 32)) % 2 ^ 32 ≠ 0)
  (decide (atmSize x = 4) && (hi 0 || hi 1))
    || (decide (atmOp x ≠ 2) && decide ((x.data.toNat >>> 64) % 2 ^ 64 ≠ 0))

/-- An `ATM` whose operation, size, offset or operands the chapter does not allow (Table OLF-5, R66). -/
def atmBad (x : Msg) : Bool :=
  decide (9 < atmOp x) || decide (fld x.aux 11 10 = 3) || (decide (fld x.aux 11 10 = 2) && decide (atmOp x ≠ 2))
    || decide (atmOffset x % atmSize x ≠ 0) || decide (fld x.aux 3 0 ≠ 0) || decide (x.status ≠ 0) || operandBad x

/-- Whether message bytes 28 to 31, which follow a register value, are not zero (Table OLF-5). -/
def valueTailBad (x : Msg) : Bool := decide ((x.data.toNat >>> 32) % 2 ^ 32 ≠ 0)

/-- The lowest set bit of a mask, 64 where it has none. -/
def lowBit (k : Nat) : Nat := ((List.range 64).find? (fun i => k.testBit i)).getD 64

/-- The highest set bit of a mask, 64 where it has none. -/
def highBit (k : Nat) : Nat := ((List.range 64).reverse.find? (fun i => k.testBit i)).getD 64

/-- A `WRP` without a mask bit, or whose extent does not match its mask (Table OLF-5). -/
def wrpBad (x : Msg) : Bool :=
  decide (x.mask = 0) || decide (fld x.aux 15 10 ≠ lowBit x.mask.toNat) || decide (fld x.aux 9 4 ≠ highBit x.mask.toNat)
    || decide (fld x.aux 3 0 ≠ 0) || decide (x.status ≠ 0)

/-- The `ERR` codes of Table OLF-7. -/
def errCodeOk (c : Nat) : Bool :=
  (decide (1 ≤ c) && decide (c ≤ 9)) || (decide (0x20 ≤ c) && decide (c ≤ 0x2B))
    || (decide (0x41 ≤ c) && decide (c ≤ 0x4C))

/-- Status, auxiliary and payload outside Table OLF-5 and the tables it refers to (R517, R536, R537, R677, R969). -/
def statusAuxBad (x : Msg) : Bool :=
  match x.op with
  | .atm => atmBad x
  | .wrp => wrpBad x
  | .wst | .spu => decide (fld x.aux 7 0 ≠ 0) || decide (x.status ≠ 0)
  | .cfg => decide (fld x.aux 1 0 ≠ 0) || (decide (x.status ≠ 0) && decide (x.status ≠ 2)) || valueTailBad x
  | .cmp => decide (1 < x.status.toNat) || decide (x.aux ≠ 0) || (bit x.status 0 && valueTailBad x)
  | .rwp | .dhm | .dsh => decide (1 < x.status.toNat) || decide (x.aux ≠ 0)
  | .err => !errCodeOk x.status.toNat || decide (x.aux ≠ 0)
  | .ucp => decide (2 < x.status.toNat) || (decide (x.status = 0) && decide (x.aux ≠ 0))
  | .cpl => decide (1 < x.status.toNat) || decide (x.aux ≠ 0)
  | .thr => decide (x.status = 0) || decide (3 < x.status.toNat)
  | .tha => !(decide (x.status = 0) || decide (x.status = 5) || decide (x.status = 6) || decide (x.status = 8))
  | .evt => decide (3 < x.status.toNat) || decide (511 < x.aux.toNat) || decide ((x.data.toNat >>> 40) % 2 ^ 24 ≠ 0)
  | .clm => decide ((x.data.toNat >>> 64) % 2 ^ 64 ≠ 0)
  | .sma => false
  | _ => decide (x.status ≠ 0) || decide (x.aux ≠ 0)

/-- Poison on an opcode that R76 does not list. -/
def poisonBad (x : Msg) : Bool :=
  x.poison && !(match x.op with
    | .wrl | .wrp | .wst | .wbd | .spu | .dsh | .dex | .dmo | .dhm => true
    | _ => false)

/-- Staff on an opcode that R77 does not list. -/
def staffBad (x : Msg) : Bool :=
  x.staff && !(match x.op with
    | .sfo | .dex | .dmo | .wbd | .cmp | .rwp => true
    | _ => false)

/-- A readable message that breaks another rule of the chapter (R96, R968). -/
def malformed (x : Msg) : Bool :=
  decide (x.rsv ≠ 0) || decide (x.hop = 0) || poisonBad x || staffBad x || statusAuxBad x
    || (x.broadcast && decide (x.op ≠ .clm) && decide (x.op ≠ .sma))
    || ((decide (clsOf x.op = .req) || decide (clsOf x.op = .wbk)) && decide (x.htag ≠ 0))
    || (!(decide (x.op = .sfs) || decide (x.op = .sfo) || decide (x.op = .sfc))
        && (decide (x.fnode ≠ 0) || decide (x.ftag ≠ 0)))

/-- Whether R96 answers a malformed message with `ERR` MALFORMED. -/
def malformedAnswered (x : Msg) : Bool :=
  match clsOf x.op, x.op with
  | .req, _ => true
  | _, .cpl | _, .ucp | _, .cfg | _, .ttd => true
  | _, _ => false

end Sys2Proof.Machine
end

