-- ==== Sys2Proof/Machine/Tracker.lean ====
section
/-! DEFINITION. The home tracker: arrivals, the books of HTEs and writeback buffers, the arbiter and the platform
queues (spec/04_ordering_races.md, "Arbitration" and "Platform queues"; spec/06_progress.md, "The books"). -/

namespace Sys2Proof.Machine

/-- Shared entries in use: those of a slot beyond its reservation, and those of no slot (R260, R266). -/
def sharedUsed (use : Tab Nat) (resv : Nat) : Nat :=
  use.foldl (fun a x => a + (if x.1 < 256 then x.2 - resv else x.2)) 0

/-- Entries in use (R260, R266). -/
def totalUsed (use : Tab Nat) : Nat := use.foldl (fun a x => a + x.2) 0

/-- Reservations unused (R260, R266). -/
def reservedUnused (use : Tab Nat) (resv : Nat) : Nat :=
  256 * resv - use.foldl (fun a x => a + (if x.1 < 256 then min resv x.2 else 0)) 0

/-- Free entries of the shared pool of HTEs. -/
def hteSharedFree (m : Core) : Nat := 3072 - sharedUsed m.trk.hteUse 4

/-- Free entries of the shared pool of writeback buffers. -/
def wbSharedFree (m : Core) : Nat := 512 - sharedUsed m.trk.wbUse 2

/-- The key of the HTE book for upstream snoops. -/
def snoopPool : Nat := 257

/-- HTEs that upstream snoops hold (R491), the quarantined ones included (R283). -/
def snoopHtes (m : Core) : Nat := tget 0 m.trk.hteUse snoopPool

/-- The key of the HTE and writeback books: the slot, 256 for none. -/
def poolKey (slot : Option Nat) : Nat := slot.getD 256

/-- The HTE book with one entry more, or one less, under a key. -/
def hteTaken (m : Core) (k : Nat) : Tab Nat := tput 0 m.trk.hteUse k (tget 0 m.trk.hteUse k + 1)

/-- The slot of an arrival's sender; a local engine belongs to no slot (R258). -/
def arrSlot (m : Core) (a : Arrival) : Option Nat :=
  match a.job with
  | .external => slotOf m (epochFor m a.msg.epoch) a.msg.src
  | _ => none

/-- Whether an arrival needs a shared HTE (R258). -/
def needsShared (m : Core) (a : Arrival) : Bool :=
  match arrSlot m a with
  | some s => decide (4 ≤ tget 0 m.trk.hteUse s)
  | none => true

/-- The shared HTEs that arrivals may not take: with a junction function, 256 less those that upstream snoops hold
(R491). -/
def snoopReserve (m : Core) : Nat := if isJunction m then 256 - snoopHtes m else 0

/-- Shared entries that freed for arrivals not yet admitted (R259). -/
def grantsOut (m : Core) : Nat := (m.trk.arrivals.filter (·.grant)).length

/-- Shared entries that an arrival may take: those free beyond the snoops' reserve and the grants (R258, R259, R491). -/
def sharedForArrivals (m : Core) : Nat := hteSharedFree m - (snoopReserve m + grantsOut m)

/-- Whether an arrival can take an HTE (R258, R259, R491). -/
def hteAvailable (m : Core) (a : Arrival) : Bool :=
  !needsShared m a || a.grant || decide (0 < sharedForArrivals m)

/-- Whether an HTE holds its own line busy (R163): chain, queued and quarantined HTEs do not, nor does a deferred
upstream snoop (R492). -/
def holdsLine (x : Hte) : Bool := decide (x.kind = .active) && decide (x.wait ≠ .deferred)

/-- Whether an HTE keeps a line busy: its own, its victim's (R193) or the one it recovers (R344); a chain HTE keeps its
line busy once the line's staff has ended (R268). -/
def keepsBusy (x : Hte) (l : LineAddr) : Bool :=
  ((holdsLine x || (decide (x.kind = .chain) && x.holds)) && decide (x.msg.line = l))
    || (decide (x.kind = .active) && (decide (x.vline = some l) || decide (x.recov.map (·.line) = some l)))

/-- The HTE that keeps a line busy. -/
def lineHolder (m : Core) (l : LineAddr) : Option (Nat × Hte) := m.trk.htes.find? (fun x => keepsBusy x.2 l)

/-- Whether a line is busy (R163). -/
def lineBusy (m : Core) (l : LineAddr) : Bool := (lineHolder m l).isSome

/-- The head of a line's platform queue: the queued HTE admitted first. -/
def queueHead (m : Core) (l : LineAddr) : Option Nat :=
  (m.trk.htes.foldl (fun (best : Option (Nat × Nat)) x =>
    if decide (x.2.kind = .queued) && decide (x.2.msg.line = l) then
      match best with
      | none => some (x.1, x.2.seq)
      | some b => if x.2.seq < b.2 then some (x.1, x.2.seq) else some b
    else best) none).map (·.1)

/-- The length of a line's platform queue. -/
def queueLen (m : Core) (l : LineAddr) : Nat :=
  (m.trk.htes.filter (fun x => decide (x.2.kind = .queued) && decide (x.2.msg.line = l))).length

/-- Whether an HTE that is not quarantined holds a line: active, chain or queued (R192). -/
def lineHeld (m : Core) (l : LineAddr) : Bool :=
  m.trk.htes.any fun x => decide (x.2.kind ≠ .quarantined)
    && (decide (x.2.msg.line = l) || decide (x.2.vline = some l) || decide (x.2.recov.map (·.line) = some l))

/-- The chain HTEs of a line, in the order of their admission. -/
def chainsOf (m : Core) (l : LineAddr) : List (Nat × Hte) :=
  m.trk.htes.filter fun x => decide (x.2.kind = .chain) && decide (x.2.msg.line = l)

/-- Whether an arrival may go ahead of another: R158 and R159. -/
def olderThan (i j : Nat × Arrival) : Bool :=
  decide (i.2.cyc < j.2.cyc) ||
    (decide (i.2.cyc = j.2.cyc) && (decide (i.2.port < j.2.port) || (decide (i.2.port = j.2.port) && decide (i.1 < j.1))))

/-- Whether an HTE has sent a snoop to the source of a writeback and still awaits the reply, or the writeback that the
reply announced (R167, R189). -/
def awaitsWb (m : Core) (h : Hte) (src : NodeId) : Bool :=
  match anySlotOf m h.epoch src with
  | none => false
  | some s => h.awaits.any fun a =>
      match a with
      | .ria t => decide (s = t)
      | .owner t _ => decide (s = t)
      | .ssu t => decide (s = t)
      | .swp t => decide (s = t)
      | .wb t _ => decide (s = t)
      | _ => false

/-- The line that an HTE's snoops are about: the one it recovers, its victim, or its own. -/
def awaitLine (x : Hte) : LineAddr := (x.recov.map (·.line)).getD (x.vline.getD x.msg.line)

/-- The HTE that keeps a line busy and awaits a writeback of a node for it. -/
def wbTaker (m : Core) (l : LineAddr) (src : NodeId) : Option (Nat × Hte) :=
  m.trk.htes.find? fun x => keepsBusy x.2 l && decide (awaitLine x.2 = l) && awaitsWb m x.2 src

/-- Whether a chain HTE awaits the writeback that its predecessor's `RWP` announced (R185, R189). -/
def chainAwaitsWb (x : Hte) : Bool := decide (x.kind = .chain) && x.awaits.any fun b => match b with
  | .wb _ _ => true
  | _ => false

/-- Whether a chain HTE of a line awaits a writeback of a node. -/
def chainTaker (m : Core) (l : LineAddr) (src : NodeId) : Bool :=
  m.trk.htes.any fun x => chainAwaitsWb x.2 && decide (x.2.msg.line = l) && awaitsWb m x.2 src

/-- Whether a `WBD` or `WBE` is decided at once, without an HTE of its own (R167): its line is busy, and it carries the
staff or meets the transaction, or the chain HTE, that awaits it (R189). -/
def wbAtOnce (m : Core) (x : Msg) : Bool :=
  (decide (x.op = .wbd) || decide (x.op = .wbe)) && lineBusy m x.line
    && (x.staff || (wbTaker m x.line x.src).isSome || chainTaker m x.line x.src)

/-- Whether an arrival is eligible (R154, R158, R160, R712). -/
def arrEligible (m : Core) (all : List (Nat × Arrival)) (i : Nat × Arrival) : Bool :=
  decide (i.2.cyc < m.trk.core)
    && !(all.any fun j => decide (j.1 ≠ i.1) && decide (j.2.msg.line = i.2.msg.line) && olderThan j i)
    && (if clsOf i.2.msg.op = .wbk then i.2.wb.isSome && (wbAtOnce m i.2.msg || hteAvailable m i.2)
        else hteAvailable m i.2)
    && !(m.dmt.fence && decide (i.2.job = .external) && decide (clsOf i.2.msg.op = .req))

/-- The arrivals with their positions in arrival order. -/
def numbered {α : Type} (n : Nat) : List α → List (Nat × α)
  | [] => []
  | a :: r => (n, a) :: numbered (n + 1) r

/-- The arbiter's choice: the first position from its pointer with an eligible arrival, and its oldest (R156, R157). -/
def arbitrate (m : Core) : Option (Nat × Arrival) :=
  let all := numbered 0 m.trk.arrivals
  let el := all.filter (arrEligible m all)
  match firstFrom (fun p => el.any fun x => decide (x.2.port = p)) 17 m.trk.ptr 17 with
  | none => none
  | some p => el.foldl (fun best x =>
      if x.2.port = p then
        match best with
        | none => some x
        | some b => if olderThan x b then some x else some b
      else best) none

/-! ### Writeback buffers (R263 to R266) -/

/-- Whether a writeback buffer is available to a WBK of a slot (R263). -/
def wbAvailable (m : Core) (slot : Option Nat) : Bool :=
  match slot with
  | some s => decide (tget 0 m.trk.wbUse s < 2) || decide (0 < wbSharedFree m)
  | none => decide (0 < wbSharedFree m)

/-- Waiting WBKs take the buffers available to them, oldest first; one that waits at the head of its virtual channel
keeps those behind it waiting (R265). `blocked` lists the port and channel pairs that wait. -/
def grantWb (m : Core) (blocked : List (Nat × Nat)) : List Arrival → List Arrival → Core
  | done, [] => { m with trk := { m.trk with arrivals := done.reverse } }
  | done, a :: r =>
    if clsOf a.msg.op = .wbk && a.wb.isNone && decide (a.port < 16) then
      if blocked.contains (a.port, vcOf a.msg) then grantWb m blocked (a :: done) r
      else if wbAvailable m (arrSlot m a) then
        let k := poolKey (arrSlot m a)
        let m := if a.slots then freeSlots m a.port (vcOf a.msg) (slotsOf a.msg) else m
        let m := { m with trk := { m.trk with wbUse := tput 0 m.trk.wbUse k (tget 0 m.trk.wbUse k + 1) } }
        grantWb m blocked ({ a with wb := some k } :: done) r
      else grantWb m ((a.port, vcOf a.msg) :: blocked) (a :: done) r
    else grantWb m blocked (a :: done) r

/-- The waiting WBKs are offered the buffers that are free. -/
def wbGrants (m : Core) : Core := grantWb m [] [] m.trk.arrivals

/-- A writeback buffer frees (R264). -/
def freeWb (m : Core) (k : Option Nat) : Core :=
  match k with
  | none => m
  | some k => wbGrants { m with trk := { m.trk with wbUse := tput 0 m.trk.wbUse k (tget 0 m.trk.wbUse k - 1) } }

/-! ### HTEs -/

/-- A message from a port, or a local engine's job, becomes an arrival (R154). -/
def arrive (m : Core) (a : Arrival) : Core :=
  wbGrants { m with trk := { m.trk with arrivals := m.trk.arrivals ++ [a] } }

/-- A local engine's arrival, at the local position; it takes its epoch at its admission (R618). -/
def arriveLocal (m : Core) (job : Job) (x : Msg) : Core :=
  arrive m { port := 16, cyc := m.trk.core, job := job, msg := { x with epoch := m.cfg.epoch, src := nodeId m } }

/-- The oldest arrival that waits for a shared HTE is granted the one that frees while none is left for arrivals (R259). -/
def grantShared (m : Core) : List Arrival → List Arrival → List Arrival
  | done, [] => done.reverse
  | done, a :: r =>
    if !a.grant && needsShared m a then done.reverse ++ ({ a with grant := true } :: r)
    else grantShared m (a :: done) r

/-- HTE `h` frees. -/
def freeHte (m : Core) (h : Nat) : Core :=
  match hte m h with
  | none => m
  | some x =>
    let was := sharedForArrivals m
    let m := { m with trk := { m.trk with htes := tdel m.trk.htes h
                                          hteUse := tput 0 m.trk.hteUse x.pool (tget 0 m.trk.hteUse x.pool - 1) } }
    if was = 0 && decide (0 < sharedForArrivals m) then
      { m with trk := { m.trk with arrivals := grantShared m [] m.trk.arrivals } }
    else m

/-- The head of a line's queue becomes the transaction that holds the line, unless the line is busy (R165). -/
def promote (m : Core) (l : LineAddr) : Core :=
  if lineBusy m l then m else
    match queueHead m l with
    | none => m
    | some h => modHte m h fun x => { x with kind := .active, wait := .decision }

/-- An arrival takes the lowest free HTE (R978) with its epoch (R196); on a busy line it joins the queue (R164). -/
def takeHte (m : Core) (a : Arrival) (e : Bool) : Core :=
  let h := tfree m.trk.htes 0
  let slot := arrSlot m a
  let busy := lineBusy m a.msg.line
  let k := poolKey slot
  let x : Hte :=
    { kind := if busy then .queued else .active, msg := a.msg, port := a.port, job := a.job, slot := slot, epoch := e
      adm := m.stmp, seq := m.trk.seq, wbFrom := a.wb, pool := k, wait := if busy then .queue else .decision }
  let m := if busy then tally .trk 2 1 m else m
  { m with trk := { m.trk with htes := tset m.trk.htes h x, seq := m.trk.seq + 1
                               hteUse := hteTaken m k } }

/-- The epoch that an admitted arrival takes: a local engine's the current one (R618); a request's its own while it is
current or draining, otherwise the current one, with the mismatch counted, raised and journaled (R196, R200, R206). -/
def admitEpoch (m : Core) (a : Arrival) : Bool × Core :=
  let x := a.msg
  if a.job ≠ .external then (m.cfg.epoch, m)
  else if x.epoch = m.cfg.epoch || m.cfg.drain then (x.epoch, m)
  else
    let m := tally .trk 7 1 (rinc m 0xC18 1)
    (m.cfg.epoch, journal (raise m 129) 0x13 2 (payload [(8, 1), (8, opCode x.op), (16, x.src.toNat), (46, x.line.toNat)]))

/-- The HTE whose sweep of a line still awaits the `SWP` reply of an `RDS`, `RDO` or `UPG`'s sender (R346). -/
def sweptBy (m : Core) (a : Arrival) : Bool :=
  (decide (a.msg.op = .rds) || decide (a.msg.op = .rdo) || decide (a.msg.op = .upg)) &&
    (m.trk.htes.any fun x => decide (x.2.recov.map (·.line) = some a.msg.line) &&
      (match anySlotOf m x.2.epoch a.msg.src with
        | some s => x.2.awaits.contains (.swp s)
        | none => false))

/-- ADMISSION: one CORE cycle of the arbiter (R155 to R160). -/
def admission (m : Core) : Core :=
  let m := { m with trk := { m.trk with core := m.trk.core + 1 } }
  if !m.deck.initDone then m else
    match arbitrate m with
    | none => if m.trk.arrivals.isEmpty then m else tally .trk 3 1 m
    | some (i, a) =>
      let m := { m with trk := { m.trk with ptr := (a.port + 1) % 17, arrivals := m.trk.arrivals.eraseIdx i } }
      let m := tally .trk 1 1 m
      let m := if clsOf a.msg.op = .req && decide (a.job = .external) && a.slots then
          freeSlots m a.port (vcOf a.msg) (slotsOf a.msg) else m
      let r := admitEpoch m a
      if clsOf a.msg.op = .wbk && wbAtOnce m a.msg then
        { r.2 with trk := { r.2.trk with atOnce := r.2.trk.atOnce ++ [{ a with msg := { a.msg with epoch := r.1 } }] } }
      else
        if sweptBy m a then
          send r.2 16 none r.1 { op := .err, dest := a.msg.src, tag := a.msg.tag, line := a.msg.line, epoch := r.1
                                 htag := BitVec.ofNat 12 (tfree r.2.trk.htes 0), status := BitVec.ofNat 8 errUncorr }
        else takeHte r.2 a r.1

end Sys2Proof.Machine
end

