-- ==== Sys2Proof/Machine/Caches.lean ====
section
/-! DEFINITION. The home line cache with its siding, stream trackers and miss registers, the merging buffer, and the
atomic line cache (spec/08_line_caches.md), as operations that the decisions and the commands call. -/

namespace Sys2Proof.Machine

/-- The machine with its caches changed. -/
def modCa (m : Core) (f : Caches → Caches) : Core := { m with ca := f m.ca }

/-! ### Leaky buckets (R326 to R329) -/

/-- Bucket `b` (0 to 3 DIR, 4 to 7 HLC) takes one correctable error (R326, R328, R329). -/
def bucketAdd (m : Core) (b : Nat) : Core :=
  let v := min (tget 0 m.deck.buckets b + 1) 65535
  let m : Core := { m with deck := { m.deck with buckets := tput 0 m.deck.buckets b v } }
  if rfld m 0x1018 15 0 < v && !(tget false m.deck.raised b) then
    raise { m with deck := { m.deck with raised := tput false m.deck.raised b true } } (37 + b)
  else m

/-! ### The HLC -/

/-- HLC.CTL.enable. -/
def hlcOn (m : Core) : Bool := rbit m 0x1400 0

/-- The HLC set of a line (R363). -/
def hlcSetIx (l : LineAddr) : Nat :=
  let x := l.toNat
  let t := x / 2 ^ 32 % 2 ^ 14
  (x % 65536) ^^^ (x / 65536 % 65536) ^^^ ((t * 32) % 65536 + t / 2048)

/-- The key (16 × set + way) of the way that holds a line. -/
def hlcKey (m : Core) (l : LineAddr) : Option Nat :=
  ((List.range 16).map (fun w => 16 * hlcSetIx l + w)).find? fun k =>
    decide ((tfind m.ca.hlc k).map (·.line) = some l)

/-- A way is invalidated. -/
def hlcDrop (m : Core) (k : Nat) : Core :=
  modCa m fun c => { c with hlc := tdel c.hlc k, ceWb := c.ceWb.filter (· != k) }

/-- An HLC event of R406: counted and raised. -/
def hlcError (m : Core) : Core := raise (rinc m 0x1414 1) 48

/-- What an HLC lookup for a line gives, with what it meets (R366, R405 to R407). -/
def hlcLookup (m : Core) (l : LineAddr) (f : HlcFault) : Option CLine × Core :=
  if !hlcOn m then (none, m) else
    let set := hlcSetIx l
    let m := match f with
      | .pointerParity => rinc (modCa m fun c => { c with hptr := tdel c.hptr set }) 0x1414 1
      | .tagParity w => hlcError (hlcDrop m (16 * set + w.val))
      | _ => m
    match hlcKey m l with
    | none => (none, m)
    | some k =>
      match f with
      | .uncorrectable => (none, hlcError (hlcDrop m k))
      | .corrected => (tfind m.ca.hlc k, bucketAdd (modCa m fun c => { c with ceWb := c.ceWb ++ [k] }) (4 + set % 4))
      | _ => (tfind m.ca.hlc k, m)

/-- What an access to a line's HLC set meets in its tags and pointer; an access that reads no data meets no data error. -/
def tagOnly (f : HlcFault) : HlcFault :=
  match f with
  | .corrected | .uncorrectable => .clean
  | f => f

/-- The HLC copy of a line is invalidated (Table LCA-2); the lookup that finds it checks the set's tags (R406). -/
def hlcInval (m : Core) (l : LineAddr) (f : HlcFault) : Core :=
  match (hlcLookup m l (tagOnly f)).1.bind fun _ => hlcKey m l with
  | some k => hlcDrop (hlcLookup m l (tagOnly f)).2 k
  | none => (hlcLookup m l (tagOnly f)).2

/-- The siding entry of a line. -/
def sidingKey (m : Core) (l : LineAddr) : Option Nat := (m.ca.siding.find? fun x => decide (x.2.line = l)).map (·.1)

/-- Any siding copy of a line is invalidated. -/
def sidingInval (m : Core) (l : LineAddr) : Core :=
  modCa m fun c => { c with siding := c.siding.filter fun x => decide (x.2.line ≠ l) }

/-- A demand hit frees the siding entry of a line (R397, R421). -/
def sidingFree (m : Core) (l : LineAddr) : Core :=
  match sidingKey m l with
  | some i => modCa (sidingInval m l) fun c => { c with
      sidFreed := (c.sidFreed.filter fun x => decide (x.2 = m.trk.core)) ++ [(i, m.trk.core)] }
  | none => m

/-- The way that an install takes under a way mask, and the pointer after it (R372). -/
def installWay (m : Core) (set mask : Nat) : Option (Nat × Nat) :=
  let ptr := tget 0 m.ca.hptr set
  match (List.range 16).find? (fun w => mask.testBit w && (tfind m.ca.hlc (16 * set + w)).isNone) with
  | some w => some (w, ptr)
  | none => (firstFrom (fun w => mask.testBit w) 16 ptr 16).map fun w => (w, (w + 1) % 16)

/-- A line is installed in the HLC for a class (R372, R373); poisoned lines never are (R368). -/
def hlcInstall (m : Core) (x : CLine) (cls : Nat) : Core :=
  if !hlcOn m || x.poison || (hlcKey m x.line).isSome then m else
    let set := hlcSetIx x.line
    let mask := (tget 0xFFFF (setOf m (decide (8 ≤ cls))).wayMasks (cls % 8)).toNat
    match installWay m set mask with
    | none => m
    | some (w, p) =>
      modCa m fun c => { c with hlc := tset c.hlc (16 * set + w) x, hptr := tput 0 c.hptr set p
                                ceWb := c.ceWb.filter (· != 16 * set + w) }

/-- The class of a request, plus 8 for set 1 (R370, R371). -/
def classOf (m : Core) (e : Bool) (l : LineAddr) (slot : Option Nat) : Nat :=
  let r := regionOf m e l
  let c := if r.classEn then r.cls.toNat else
    match slot with
    | some s => (slotEnt m e s).cls.toNat
    | none => rfld m 0x1400 10 8
  c + 8 * b1 e

/-! ### The merging buffer -/

/-- Bytes laid over bytes: the data, the mask of bytes held, and the poison that results (R382, R388). -/
def layOver (a : LineData × ByteMask × Bool) (d : LineData) (k : ByteMask) (p : Bool) : LineData × ByteMask × Bool :=
  (mergeBytes k d a.1, a.2.1 ||| k, if p then true else if k = fullMask then false else a.2.2)

/-- An entry placed in a list of entries by the order of their opening. -/
def mbInsert (x : Nat × MbEnt) : List (Nat × MbEnt) → List (Nat × MbEnt)
  | [] => [x]
  | y :: r => if x.2.order ≤ y.2.order then x :: y :: r else y :: mbInsert x r

/-- The entries of a line in the order of their opening, with their indices. -/
def mbOf (m : Core) (l : LineAddr) : List (Nat × MbEnt) :=
  (m.ca.mb.filter fun x => decide (x.2.line = l)).foldl (fun a x => mbInsert x a) []

/-- The bytes held for a line in the merging buffer, newest on top, the writes that wait for an entry included (R379,
R388, R389). -/
def mbOverlay (m : Core) (l : LineAddr) : LineData × ByteMask × Bool :=
  let a := (mbOf m l).foldl (fun a x => layOver a x.2.data x.2.mask x.2.poison) (0, 0, false)
  (m.ca.mbWait.filter fun w => decide (w.line = l)).foldl (fun a w => layOver a w.data w.mask w.poison) a

/-- A base with the overlaid bytes on it: data and poison. -/
def overBase (o : LineData × ByteMask × Bool) (base : LineData) (poison : Bool) : LineData × Bool :=
  (mergeBytes o.2.1 o.1 base, o.2.2 || (poison && decide (o.2.1 ≠ fullMask)))

/-- Miss registers of a line are marked stale (R378). -/
def markStale (m : Core) (l : LineAddr) : Core :=
  modCa m fun c => { c with miss := c.miss.map fun x => if x.2.line = l then (x.1, { x.2 with stale := true }) else x }

/-- What a write that enters the merging buffer does to the HLC, the siding and the miss registers (Table LCA-2, R378,
R408): a copy that is rewritten needs no write-back any more (R405). -/
def mbTouch (m : Core) (l : LineAddr) (d : LineData) (k : ByteMask) (p : Bool) (f : HlcFault) : Core :=
  let m := match hlcLookup m l f with
    | (none, m) => m
    | (some _, m) =>
      match hlcKey m l with
      | none => m
      | some i =>
        if p then hlcDrop m i else
          modCa m fun c => { c with
            ceWb := c.ceWb.filter (· != i)
            hlc := c.hlc.map fun x => if x.1 = i then (x.1, { x.2 with data := mergeBytes k d x.2.data }) else x }
  markStale (sidingInval m l) l

/-- Whether a memory-side unit holds an atomic to a line that came after order `n`. -/
def unitAfter (m : Core) (l : LineAddr) (n : Nat) : Bool :=
  m.atm.units.any fun u => u.2.any fun o => decide (o.line = l) && decide (n < o.order)

/-- The next order of the writes and memory-side atomics of lines. -/
def nextOrder (m : Core) : Core := modCa m fun c => { c with mbSeq := c.mbSeq + 1 }

/-- A write enters the merging buffer: it merges into the line's open entry or opens a free one (R380 to R383); none
where all 128 entries are in use (R389). -/
def mbPut (m : Core) (l : LineAddr) (d : LineData) (k : ByteMask) (p : Bool) (ord : Nat) (ep : Bool) : Option Core :=
  match m.ca.mb.find? fun x => x.2.isOpen && decide (x.2.line = l) with
  | some (i, x) =>
    let k' := x.mask ||| k
    let x' := { x with data := mergeBytes k d x.data, mask := k', isOpen := decide (k' ≠ fullMask)
                       poison := if p then true else if k = fullMask then false else x.poison }
    some (tally .hlc 3 1 (modCa m fun c => { c with mb := tset c.mb i x' }))
  | none =>
    let i := tfree m.ca.mb 0
    if 128 ≤ i then none else
      some (modCa m fun c => { c with
        mb := tset c.mb i { line := l, data := mergeBytes k d 0, mask := k, poison := p
                            isOpen := decide (k ≠ fullMask) && !unitAfter m l ord, born := m.stmp, order := ord, epoch := ep } })

/-- HTE `h` writes bytes of a line to memory (R110): they enter the merging buffer, or wait for an entry (R389). `req`
says that it is the write that its request asks for. -/
def memWriteAs (req : Bool) (m : Core) (h : Nat) (l : LineAddr) (d : LineData) (k : ByteMask) (p : Bool) (f : HlcFault) :
    Core :=
  let ep := ((hte m h).map (·.epoch)).getD m.cfg.epoch
  let ord := m.ca.mbSeq
  let m := nextOrder m
  let queue : Core := tally .hlc 6 1 (modHte (modCa m fun c => { c with mbWait := c.mbWait ++ [⟨h, l, d, k, p, ord, ep, req⟩] }) h
    fun x => if x.awaits.contains .mbIn then x else { x with awaits := x.awaits ++ [.mbIn] })
  let opened := m.ca.mb.any fun x => x.2.isOpen && decide (x.2.line = l)
  if m.ca.mbWait.any fun w => decide (w.line = l) then queue
  else if !opened && !m.ca.mbWait.isEmpty then queue
  else match mbPut (mbTouch m l d k p f) l d k p ord ep with
    | some m' => m'
    | none => queue

/-- A write to memory that a reply, a writeback or a replaced ALC line makes. -/
def memWrite (m : Core) (h : Nat) (l : LineAddr) (d : LineData) (k : ByteMask) (p : Bool) (f : HlcFault) : Core :=
  memWriteAs false m h l d k p f

/-- The memory copy of a line is written poisoned: a write with poison that changes no byte, so that the line drains
with the data that memory holds and the poison encoding (R386). -/
def memPoison (m : Core) (h : Nat) (l : LineAddr) : Core := memWrite m h l 0 0 true .clean

/-- The open entry of a line closes (R383). -/
def mbClose (m : Core) (l : LineAddr) : Core :=
  modCa m fun c => { c with mb := c.mb.map fun x => if x.2.line = l then (x.1, { x.2 with isOpen := false }) else x }

/-- Whether data held for a line waits to be issued to DRAM. -/
def mbUnissued (m : Core) (l : LineAddr) : Bool :=
  (m.ca.mb.any fun x => decide (x.2.line = l) && !x.2.issued) || m.ca.mbWait.any fun w => decide (w.line = l)

/-! ### Miss registers (R374 to R377) -/

/-- Whether a memory-side atomic of a line is queued whose order is below `n`. -/
def unitBefore (m : Core) (l : LineAddr) (n : Nat) : Bool :=
  m.atm.units.any fun u => u.2.any fun o => decide (o.line = l) && decide (o.order < n)

/-- Whether a read must wait for its line's register to free (R376), or for a memory-side atomic of its line to write
(R226). The merge base of bytes that came before such an atomic does not wait for it. -/
def missBlocked (m : Core) (w : MissWait) : Bool :=
  (m.ca.miss.any fun x => decide (x.2.line = w.line) && (x.2.stale || decide (16 ≤ x.2.secs.length)))
    || (match w.reader with
        | .drain _ => false
        | _ => unitBefore m w.line m.ca.mbSeq)

/-- Whether prefetch runs: both enables are set. -/
def prefetchOn (m : Core) : Bool := hlcOn m && rbit m 0x1410 0

/-- Whether the HLC or the siding holds a line, or a miss register is in flight for it (R395). -/
def lineNear (m : Core) (l : LineAddr) : Bool :=
  (hlcKey m l).isSome || (sidingKey m l).isSome || m.ca.miss.any fun x => decide (x.2.line = l)

/-- A waiting prefetch that is issued no more (R395, R398). -/
def prefetchDead (m : Core) (w : MissWait) : Bool :=
  decide (w.reader = .prefetch) && (!prefetchOn m || lineNear m w.line)

/-- Whether enough registers are free for a read: one, or 32 for a prefetch (R377). -/
def missFree (m : Core) (r : Reader) : Bool := decide (m.ca.miss.length + (if r = .prefetch then 32 else 1) ≤ 256)

/-- Whether a read that waits can go on: it attaches to its line's register, takes a free one, or is a prefetch that is
dropped. -/
def missRoom (m : Core) (w : MissWait) : Bool :=
  prefetchDead m w ||
    (!missBlocked m w && ((m.ca.miss.any fun x => decide (x.2.line = w.line)) || missFree m w.reader))

/-- A DRAM read attaches to its line's register or takes the lowest free register (R374, R375). -/
def missPlace (m : Core) (w : MissWait) : Core :=
  match m.ca.miss.find? fun x => decide (x.2.line = w.line) with
  | some (i, x) =>
    tally .hlc 7 1 (modCa m fun c => { c with
      miss := tset c.miss i { x with secs := x.secs ++ [(w.reader, w.install, w.cls)] } })
  | none =>
    modCa m fun c => { c with
      miss := tset c.miss (tfree m.ca.miss 0) { line := w.line, reader := w.reader, install := w.install, cls := w.cls } }

/-- A DRAM read attaches to its line's register at once (R375); a read that needs a register of its own waits behind the
reads that wait and could have one (R376, R377). -/
def missStart (m : Core) (w : MissWait) : Core :=
  if missRoom m w && ((m.ca.miss.any fun x => decide (x.2.line = w.line)) || !(m.ca.missWait.any fun v => missRoom m v)) then
    missPlace m w
  else modCa m fun c => { c with missWait := c.missWait ++ [w] }

/-! ### Stream prefetch (R390 to R395) -/

/-- Whether a line may be prefetched (R377, R395). -/
def prefetchOk (m : Core) (l : Int) : Bool :=
  let la : LineAddr := BitVec.ofNat 46 l.toNat
  prefetchOn m && decide (0 ≤ l) && decide (l < 2 ^ 42) && decide (homeOf m m.cfg.epoch la = some (nodeId m))
    && !lineNear m la && missFree m .prefetch

/-- A prefetch of one line. -/
def prefetch (m : Core) (l : Int) : Core :=
  tally .hlc 2 1 (missStart m { reader := .prefetch, line := BitVec.ofNat 46 l.toNat, install := false
                                cls := 8 * b1 m.cfg.epoch })

/-- The lines that a tracker prefetches, from `k` to the depth (R394): a line that may not be prefetched does not move the
furthest line. -/
def prefetchRun (m : Core) (la : Nat) (stride : Int) (far : Int) (depth : Nat) : Nat → Core × Int
  | 0 => (m, far)
  | fuel + 1 =>
    let k := depth - fuel
    let l := (la : Int) + k * stride
    if (k : Int) ≤ far || !prefetchOk m l then prefetchRun m la stride far depth fuel
    else prefetchRun (prefetch m l) la stride (k : Int) depth fuel

/-- A training read of a line (R390 to R394). `far` counts how many strides beyond the last line are prefetched. -/
def train (m : Core) (l : LineAddr) : Core :=
  if !hlcOn m then m else
    let dist (x : Stream) : Int := (l.toNat : Int) - x.last.toNat
    match (List.range 32).find? (fun i => match tfind m.ca.streams i with
        | some x => decide (dist x ≠ 0) && decide (-64 ≤ dist x) && decide (dist x ≤ 64)
        | none => false) with
    | none =>
      modCa m fun c => { c with streams := tset c.streams c.tptr { last := l }, tptr := (c.tptr + 1) % 32 }
    | some i =>
      let x := tget { last := l } m.ca.streams i
      let d := dist x
      let same := decide (d = x.stride)
      let conf := if same then min (x.conf + 1) 3 else 1
      let far := if same then max (x.far - 1) 0 else 0
      let r := if 2 ≤ conf then prefetchRun m l.toNat d far (rfld m 0x1410 12 8) (rfld m 0x1410 12 8) else (m, far)
      modCa r.1 fun c => { c with streams := tset c.streams i { last := l, stride := d, conf := conf, far := r.2 } }

/-! ### Reading memory (R109, Table LCA-2) -/

/-- The kinds of memory read of Table LCA-2 that a transaction makes. -/
inductive RdKind where
  | demand | other | alcFill
  deriving DecidableEq, Repr

/-- HTE `h` has its data. -/
def gotData (m : Core) (h : Nat) (d : LineData) (p : Bool) : Core :=
  modHte m h fun x => { x with buf := d, bufPoison := p, haveBuf := true }

/-- An HLC hit, counted for its class; an ALC fill invalidates the copy (Table LCA-2). -/
def hlcHit (m : Core) (l : LineAddr) (kind : RdKind) (cls : Nat) : Core :=
  let m := tally .hlc (0x10 + cls % 8) 1 m
  if kind = .alcFill then hlcInval m l .clean else m

/-- The siding's copy of a line, while lookups are made (R398). -/
def sidingLook (m : Core) (l : LineAddr) : Option CLine :=
  if hlcOn m then (sidingKey m l).bind (tfind m.ca.siding) else none

/-- A siding hit: a demand read moves the line into the HLC, an ALC fill invalidates it (Table LCA-2, R397). -/
def sidingHit (m : Core) (x : CLine) (kind : RdKind) (cls : Nat) : Core :=
  let m := tally .hlc 1 1 m
  match kind with
  | .demand => hlcInstall (sidingFree m x.line) x cls
  | .alcFill => sidingInval m x.line
  | .other => m

/-- HTE `h` reads a line from memory: the merging buffer, the HLC, the siding, or a DRAM read that it awaits (R109, Table
LCA-2). -/
def memRead (m : Core) (h : Nat) (l : LineAddr) (kind : RdKind) (cls : Nat) (f : HlcFault) : Core :=
  let o := mbOverlay m l
  match hlcLookup m l f with
  | (some x, m) =>
    let r := overBase o x.data x.poison
    hlcHit (gotData m h r.1 r.2) l kind cls
  | (none, m) =>
    let m := if hlcOn m then tally .hlc (0x18 + cls % 8) 1 m else m
    let m := if kind = .demand then train m l else m
    if o.2.1 = fullMask then gotData (if kind = .alcFill then sidingInval m l else m) h o.1 o.2.2 else
      match sidingLook m l with
      | some x =>
        let r := overBase o x.data x.poison
        sidingHit (gotData m h r.1 r.2) x kind cls
      | none =>
        let m := if kind = .alcFill then sidingInval m l else m
        let m := modHte m h fun x => { x with ovData := o.1, ovMask := o.2.1, bufPoison := o.2.2, haveBuf := false
                                              awaits := x.awaits ++ [.mem] }
        missStart m { reader := .hte h, line := l, install := decide (kind = .demand), cls := cls
                      alc := decide (kind = .alcFill) }

/-! ### The ALC -/

/-- The ALC entry of a line. -/
def alcKey (m : Core) (l : LineAddr) : Option Nat := (m.ca.alc.find? fun x => decide (x.2.line = l)).map (·.1)

/-- The walk is given an order (R318): an order already pending is joined. -/
def walkOrder (m : Core) (k : WalkKind) (slot : Nat) : Core :=
  if m.deck.orders.any fun o => decide (o.kind = k) && decide (o.slot = slot) then m
  else { m with deck := { m.deck with
    orders := m.deck.orders ++ [{ kind := k, slot := slot, left := 262144, need := m.deck.walkSerial }] } }

/-- No atomic keeps the ALC entry that it has taken and not filled (R416, R417; assumption log, entry 70). -/
def alcUntake (m : Core) : Core :=
  { m with trk := { m.trk with htes := m.trk.htes.map fun x => (x.1, { x.2 with alcIx := none }) } }

/-- A double tag fault in an ALC entry (R416). -/
def alcDoubleFault (m : Core) (n : Nat) : Core :=
  let k := m.ca.alc.length
  let m := alcUntake m
  let m := modCa m fun c => { c with alcDisabled := tput false c.alcDisabled n true, alc := [], alcDouble := true }
  let m := raise (assertFault (walkOrder m .held 0)) 36
  journal m 0x23 4 (payload [(8, n), (8, k)])

/-- Merging-buffer entry `i` has an uncorrectable word `w` (R409): what the word holds is a free value, and no copy of the
line stays in the HLC or the siding (R367, R368). -/
def mbBad (m : Core) (i : Nat) (w : Fin 8) : Core :=
  match tfind m.ca.mb i with
  | none => m
  | some x =>
    let v := freeLine m
    let keep : LineData := ~~~(BitVec.ofNat 512 ((2 ^ 64 - 1) * 2 ^ (64 * w.val)))
    let x := { x with poison := true, data := (x.data &&& keep) ||| (v.1 &&& ~~~keep) }
    let m := sidingInval (hlcInval (modCa v.2 fun c => { c with mb := tset c.mb i x }) x.line .clean) x.line
    journal (raise m 49) 0x25 3 (payload [(46, x.line.toNat)])

/-- What the merging buffer meets at a decision for a line: an uncorrectable word of its newest entry (R409). -/
def mbCheck (m : Core) (l : LineAddr) (f : Option (Fin 8)) : Core :=
  match f, (mbOf m l).getLast? with
  | some w, some x => mbBad m x.1 w
  | _, _ => m

/-- What the ALC's tags and data meet at a decision for a line (R412 to R416). What an uncorrectable word holds is a free
value (assumption log, entry 4). -/
def alcCheck (m : Core) (l : LineAddr) (f : AlcFault) : Core :=
  match f with
  | .clean | .dataCorrected => m
  | .copyBad => rinc m 0x1424 1
  | .doubleFault n => if (tfind m.ca.alc n.val).isSome then alcDoubleFault m n.val else m
  | .dataUncorrectable w =>
    let v := freeLine m
    let keep : LineData := ~~~(BitVec.ofNat 512 ((2 ^ 64 - 1) * 2 ^ (64 * w.val)))
    modCa v.2 fun c => { c with
      alc := c.alc.map fun x => if x.2.line = l then
        (x.1, { x.2 with poison := true, data := (x.2.data &&& keep) ||| (v.1 &&& ~~~keep) }) else x }

/-- Whether the HELD order is pending (R417). -/
def heldPending (m : Core) : Bool := m.deck.orders.any fun o => decide (o.kind = .held)

/-- HTE `h` has the ALC line written to memory and released (R112, R415); without its entry, after a double fault, the
line is written poisoned (R417, Table DIR-5). -/
def alcRelease (m : Core) (h : Nat) (l : LineAddr) (f : HlcFault) : Core :=
  match (alcKey m l).bind (tfind m.ca.alc) with
  | some x => memWrite (modCa m fun c => { c with alc := c.alc.filter fun y => decide (y.2.line ≠ l) }) h l x.data fullMask x.poison f
  | none => memPoison m h l

end Sys2Proof.Machine
end

