-- ==== Sys2Proof/Machine/Directory.lean ====
section
/-! DEFINITION. The directory and the Deck (spec/07_directory_deck.md): set index and tag, entry writes with their
mirror tags, victims, retirement, correctable errors and the repeat table. -/

namespace Sys2Proof.Machine

/-- The machine with its Deck changed. -/
def modDeck (m : Core) (f : Deck → Deck) : Core := { m with deck := f m.deck }

/-- The top six bits of a line address, rotated left by 7 in 18 bits (R303). -/
def dirRot (x : Nat) : Nat := (x / 2 ^ 36 % 64) * 128

/-- The set index of a line (R303). -/
def dirSet (l : LineAddr) : Nat :=
  (l.toNat % 2 ^ 18) ^^^ (l.toNat / 2 ^ 18 % 2 ^ 18) ^^^ dirRot l.toNat

/-- The tag of a line (R304). -/
def dirTag (l : LineAddr) : BitVec 24 := BitVec.ofNat 24 (l.toNat / 2 ^ 18)

/-- The line that a set and a tag give back (R304). -/
def lineOf (set : Nat) (tag : BitVec 24) : LineAddr :=
  let hi := tag.toNat * 2 ^ 18
  BitVec.ofNat 46 (hi + (set ^^^ (tag.toNat % 2 ^ 18) ^^^ dirRot hi))

/-- The entry at a key (16 × set + way). -/
def dirEnt (m : Core) (k : Nat) : DirEnt := tget {} m.deck.ents k

/-- The ways of a function: the home function's lowest 2 × DIR.SPLIT, the junction function's others (R33, R43). -/
def waysOf (m : Core) (home : Bool) : List Nat :=
  (List.range 16).filter fun w => if home then decide (w < 2 * split m) else decide (2 * split m ≤ w)

/-- Whether a way is free (R297). -/
def entFree (x : DirEnt) : Bool := decide (x.st = .i) && !x.homeHeld

/-- The key of a function's entry for a line. -/
def dirFind (m : Core) (home : Bool) (l : LineAddr) : Option Nat :=
  ((waysOf m home).map (fun w => 16 * dirSet l + w)).find? fun k =>
    !entFree (dirEnt m k) && decide ((dirEnt m k).tag = dirTag l)

/-- The layer of the mirror row of a set (R292). -/
def mirrorLayer (set : Nat) : Nat := (set + 2) % 4

/-- A mirror write is posted in its layer's 16-entry buffer; a full buffer first gives its oldest write its turn
(R310). -/
def mirrorPost (m : Core) (k : Nat) (t : BitVec 24) : Core :=
  modDeck m fun d =>
    let y := mirrorLayer (k / 16)
    match tget [] d.posted y with
    | [] => { d with posted := tput [] d.posted y [(k, t)] }
    | x :: r =>
      if r.length < 15 then { d with posted := tput [] d.posted y (x :: r ++ [(k, t)]) }
      else { d with mirror := tput 0 d.mirror x.1 x.2, posted := tput [] d.posted y (r ++ [(k, t)]) }

/-- The three retired copies of a set. -/
def retiredCopies (m : Core) (set : Nat) : BitVec 3 := tget 0 m.deck.retired set

/-- Whether a set is retired: two or more of its three copies are set (R361). -/
def retired (m : Core) (set : Nat) : Bool := decide (2 ≤ popCount (retiredCopies m set).toNat 3)

/-- The extended Hamming check of a mirror tag (R302): five check bits over the 24 tag bits at the code positions that
are no power of two, and an overall parity bit at the top (assumption log, entry 71). -/
def mchkOf (t : BitVec 24) : BitVec 6 :=
  let pos := (List.range 30).filter fun p => decide (p ∉ [0, 1, 2, 4, 8, 16])
  let set := (pos.zip (List.range 24)).filter fun x => t.getLsbD x.2
  let c := set.foldl (fun a x => a ^^^ x.1) 0
  BitVec.ofNat 6 (c + 32 * ((set.length + popCount c 5) % 2))

/-- The key of the partner way (R302). -/
def partner (k : Nat) : Nat := k ^^^ 1

/-- An entry is written whole, with its mirror tag and the check of that tag in the partner's word 4 (R301, R302); in a
retired set the write is discarded (R359). -/
def dirWrite (m : Core) (k : Nat) (x : DirEnt) : Core :=
  if retired m (k / 16) then m else
    let old := dirEnt m k
    let m := modDeck m fun d => { d with ents := tput {} d.ents k x }
    if old.tag = x.tag then m else
      mirrorPost (modDeck m fun d => { d with mchk := tput 0 d.mchk (partner k) (mchkOf x.tag) }) k x.tag

/-- An entry for a line in a state. -/
def entOf (l : LineAddr) (e : Bool) (st : DSt) : DirEnt := { tag := dirTag l, st := st, epoch := e }

/-- A set is retired: all three copies are set (R356). -/
def retireSet (m : Core) (set : Nat) : Core :=
  if retiredCopies m set = 7 then m else
    let m := assertFault (raise (modDeck m fun d => { d with retired := tput 0 d.retired set 7 }) 35)
    journal m 0x22 4 (payload [(8, 2), (24, set), (8, 0), (8, 0), (16, 0)])

/-- The spare rows left in an array of a layer (key 2 × layer + mirror). -/
def spareKey (r : DeckRow) : Nat := 2 * (if r.mirror then mirrorLayer r.set.toNat else r.set.toNat % 4) + b1 r.mirror

/-- Spare rows left for a row. -/
def sparesLeft (m : Core) (r : DeckRow) : Nat := tget 128 m.deck.spares (spareKey r)

/-- A row is mapped to a spare; the last spare of its array raises the spares-exhausted event (R335). -/
def useSpare (m : Core) (r : DeckRow) : Core :=
  let n := sparesLeft m r - 1
  let m := modDeck m fun d => { d with spares := tput 128 d.spares (spareKey r) n, remapped := d.remapped ++ [r] }
  if n = 0 then journal (raise m 45) 0x22 3 (payload [(8, 4), (24, r.set.toNat), (8, 0), (8, b1 r.mirror), (16, 0)])
  else m

/-- A copy of a row to a spare starts (R331 to R333), unless the set is retired or no spare is left; while a copy runs the
row waits for it. -/
def spareStart (m : Core) (r : DeckRow) : Core :=
  if retired m r.set.toNat || sparesLeft m r = 0 || m.deck.copying = some r || m.deck.spareQ.contains r then m
  else if m.deck.copying.isSome then modDeck m fun d => { d with spareQ := d.spareQ ++ [r] }
  else modDeck m fun d => { d with copying := some r }

/-- The rows that wait for the copy that ran are started, the first that can be (R331). -/
def spareNext (m : Core) : List DeckRow → Core
  | [] => modDeck m fun d => { d with spareQ := [] }
  | r :: q =>
    if retired m r.set.toNat || sparesLeft m r = 0 then spareNext m q
    else modDeck m fun d => { d with copying := some r, spareQ := q }

/-- The repeat table counts a correctable error of a row: 64 rows, the least recently updated one replaced (R330), and
a row at the count of DIR.SPARE_CFG.auto_count is spared (R331). -/
def repeatRow (m : Core) (r : DeckRow) : Core :=
  let n := match m.deck.rows.find? (fun x => decide (x.1 = r)) with
    | some x => x.2 + 1
    | none => 1
  let rest := m.deck.rows.filter fun x => decide (x.1 ≠ r)
  let rest := if 64 ≤ rest.length then rest.drop (rest.length - 63) else rest
  let m := modDeck m fun d => { d with rows := rest ++ [(r, n)] }
  let auto := rfld m 0x102C 3 0
  if auto ≠ 0 && auto ≤ n then spareStart m r else m

/-- A correctable error in a word of a set (R324, R326, R330). -/
def deckCe (m : Core) (r : DeckRow) : Core :=
  let layer := if r.mirror then mirrorLayer r.set.toNat else r.set.toNat % 4
  repeatRow (bucketAdd (tally .dir 4 1 (rinc m 0x1040 1)) layer) r

/-! ### Victims (R306 to R308, R192, R195) -/

/-- Whether a way may not be taken: its line is held by an HTE that is not quarantined, or an HTE has it reserved for
the entry it will write. -/
def wayHeld (m : Core) (h k : Nat) : Bool :=
  (m.trk.htes.any fun x => decide (x.1 ≠ h) && decide (x.2.key = some k) && decide (x.2.kind ≠ .quarantined))
    || (!entFree (dirEnt m k) && lineHeld m (lineOf (k / 16) (dirEnt m k).tag))

/-- The outcome of a choice of way. -/
inductive WayPick where
  | free (k : Nat)
  | victim (k : Nat)
  | none
  deriving DecidableEq, Repr

/-- The lowest free way of a function; else the first way at or after its pointer that no HTE holds, the pointer moving
past it (R306 to R308, R362). -/
def pickWay (m : Core) (h : Nat) (home : Bool) (set : Nat) (parity : Bool) : WayPick × Core :=
  let ways := waysOf m home
  match ways.find? fun w => entFree (dirEnt m (16 * set + w)) && !wayHeld m h (16 * set + w) with
  | some w => (.free (16 * set + w), m)
  | none =>
    let m := if parity then
        rinc (modDeck m fun d => { d with hptr := tdel d.hptr set, jptr := tdel d.jptr set }) 0x1048 1
      else m
    let lo := if home then 0 else 2 * split m
    let n := ways.length
    let p := tget 0 (if home then m.deck.hptr else m.deck.jptr) set
    let start := if ways.contains p then p - lo else 0
    match firstFrom (fun i => !entFree (dirEnt m (16 * set + lo + i)) && !wayHeld m h (16 * set + lo + i)) n start n with
    | none => (.none, m)
    | some i =>
      let q := lo + (i + 1) % n
      (.victim (16 * set + lo + i), modDeck m fun d =>
        if home then { d with hptr := tput 0 d.hptr set q } else { d with jptr := tput 0 d.jptr set q })

/-! ### Errors found at a lookup (R324, R341 to R343, R361, R982) -/

/-- The tag of a way that waits in the posting buffer, if one does (R310). -/
def postedTag (m : Core) (k : Nat) : Option (BitVec 24) :=
  ((tget [] m.deck.posted (mirrorLayer (k / 16))).reverse.find? fun x => decide (x.1 = k)).map (·.2)

/-- The tag that recovery takes for a way whose word 4 cannot be read: the posted one, or the mirror's (R310, R343). -/
def mirrorTag (m : Core) (k : Nat) : BitVec 24 := (postedTag m k).getD (tget 0 m.deck.mirror k)

/-- Whether a fault makes an entry need recovery, and whether its tag comes from the mirror (R341, R343). -/
def needsRecovery (m : Core) (k : Nat) (f : DeckFault) : Option Bool :=
  match f with
  | .corrected | .mirrorCorrected => none
  | .word4 _ => some true
  | .stateBad => some false
  | .vector _ => if (dirEnt m k).st = .s then some false else none

/-- The ways whose faults a read of a set concerns: a function reads its own ways (R33, R40), an agent all of them. -/
def inWays (ways : List Nat) (e : Env) : List (Fin 16 × DeckFault) := e.deck.filter fun f => ways.contains f.1.val

/-- Every way of a set. -/
def allWays : List Nat := List.range 16

/-- Whether a way's word 4 cannot be read. -/
def word4Bad (fs : List (Fin 16 × DeckFault)) (w : Nat) : Bool := fs.any fun f => decide (f.1.val = w) && match f.2 with
  | .word4 _ => true
  | _ => false

/-- Whether the tag of a way whose word 4 cannot be read is lost: it is not posted, and the mirror tag is uncorrectable
or its check, in the partner's word 4, cannot be read (R343). -/
def tagLost (m : Core) (set : Nat) (fs : List (Fin 16 × DeckFault)) (f : Fin 16 × DeckFault) : Bool :=
  match f.2 with
  | .word4 bad => (postedTag m (16 * set + f.1.val)).isNone && (bad || word4Bad fs (f.1.val ^^^ 1))
  | _ => false

/-- The first entry of a set that a lookup by HTE `h` (4096 for an agent) must recover, in ascending way order: its key,
its line, and whether the mirror gives the tag. An entry whose line another HTE holds is left (R982). -/
def recoverable (m : Core) (h : Nat) (set : Nat) (fs : List (Fin 16 × DeckFault)) : Option (Nat × LineAddr × Bool) :=
  allWays.findSome? fun w =>
    (fs.filter fun f => decide (f.1.val = w)).findSome? fun f =>
      let k := 16 * set + w
      match needsRecovery m k f.2 with
      | none => none
      | some fromMirror =>
        let l := lineOf set (if fromMirror then mirrorTag m k else (dirEnt m k).tag)
        if m.trk.htes.any fun x => decide (x.1 ≠ h) && decide (x.2.kind = .active)
            && decide (x.2.msg.line = l ∨ x.2.vline = some l ∨ x.2.recov.map (·.line) = some l) then none
        else some (k, l, fromMirror)

/-- What one faulty word of a set does at a read, apart from an entry that needs recovery: a corrected word, a mirror tag
corrected where the mirror row is read, a vector word rewritten as zero, or a tag that is lost (R324, R326, R341, R343).
`mirror` says that the read takes the mirror row. -/
def deckFault (set : Nat) (fs : List (Fin 16 × DeckFault)) (mirror : Bool) (m : Core) (f : Fin 16 × DeckFault) : Core :=
  let k := 16 * set + f.1.val
  match f.2 with
  | .corrected => deckCe m ⟨false, BitVec.ofNat 18 set⟩
  | .mirrorCorrected =>
    if mirror || (word4Bad fs f.1.val && (postedTag m k).isNone) then deckCe m ⟨true, BitVec.ofNat 18 set⟩ else m
  | .word4 _ => if tagLost m set fs f then retireSet m set else m
  | .stateBad => m
  | .vector n =>
    if (dirEnt m k).st = .s then m else
      let x := dirEnt m k
      let v := x.vec &&& ~~~(BitVec.ofNat 256 ((2 ^ 64 - 1) * 2 ^ (64 * n.val)))
      journal (raise (modDeck m fun d => { d with ents := tput {} d.ents k { x with vec := v } }) 47) 0x22 3
        (payload [(8, 3), (24, set), (8, f.1.val), (8, n.val), (16, 0)])

/-- The retired copies of a set that a fault has set: two or more of them retire the set at this read (R361). -/
def upsetRead (m : Core) (set : Nat) (u : BitVec 3) : Core :=
  if u = 0 || retired m set then m else
    let m := modDeck m fun d => { d with retired := tput 0 d.retired set (retiredCopies m set ||| u) }
    if retired m set then retireSet (modDeck m fun d => { d with retired := tput 0 d.retired set 3 }) set else m

/-- What a read of some ways of a set meets (R40, R324, R341, R343, R361). -/
def deckRead (m : Core) (ways : List Nat) (set : Nat) (mirror : Bool) (e : Env) : Core :=
  if retired m set then m else
    upsetRead ((inWays ways e).foldl (deckFault set (inWays ways e) mirror) m) set e.retiredUpset

/-- What a function's lookup of a line meets in its own ways. -/
def lookupRead (m : Core) (home : Bool) (l : LineAddr) (e : Env) : Core := deckRead m (waysOf m home) (dirSet l) false e

/-- The entry of its own ways that a function's lookup by HTE `h` must recover first (R40, R342). -/
def lookupRecover (m : Core) (home : Bool) (h : Nat) (l : LineAddr) (e : Env) : Option (Nat × LineAddr × Bool) :=
  recoverable m h (dirSet l) (inWays (waysOf m home) e)

end Sys2Proof.Machine
end

