-- ==== Sys2Proof/Machine/Channel.lean ====
section
/-! DEFINITION. The memory channels (spec/09_memory_groom.md): what a DRAM read meets and counts, the write queue,
lines written to DRAM, the repeat table, post-package repair, and failed channels. -/

namespace Sys2Proof.Machine

/-- The machine with its memory channels changed. -/
def modMem (m : Core) (f : Mem → Mem) : Core := { m with mem := f m.mem }

/-- Whether a channel has failed (R474, R475). -/
def chFailed (m : Core) (ch : Nat) : Bool := bit m.mem.failed ch

/-- A MEMORY record: event (0 uncorrectable, 1 channel failed, 2 training, 3 repair, 4 groom poison, 5 spares exhausted),
channel, line, device or code (Table DMJ-6). -/
def journalMem (m : Core) (sev ev ch line dev : Nat) : Core :=
  journal m 0x24 sev (payload [(8, ev), (8, ch), (46, line), (8, dev)])

/-- A channel is marked failed (R474, R477). -/
def channelFail (m : Core) (ch : Nat) : Core :=
  if chFailed m ch then m else
    let m := modMem m fun x => { x with failed := x.failed ||| (1#8 <<< ch) }
    journalMem (raise (assertFault m) 51) 4 1 ch 0 0

/-- The local addresses of this home that its home map gives a line: the physical line of a local line address under the
active set, if there is one (the inverse of R438). -/
def physOf (m : Core) (lla : Nat) : Option LineAddr :=
  (setOf m m.cfg.epoch).home.findSome? fun x =>
    let r := x.2
    let la := 64 * lla
    let lb := r.lb8.toNat * 256
    if !r.valid || la < lb then none else
      (List.range r.n).findSome? fun j =>
        let pa := r.base + (((la - lb) / r.g) * r.n + j) * r.g + (la - lb) % r.g
        if pa ≤ r.limit && decide (r.nodes[j]? = some (nodeId m))
            && decide (homeOf m m.cfg.epoch (BitVec.ofNat 46 (pa / 64)) = some (nodeId m)) then
          some (BitVec.ofNat 46 (pa / 64))
        else none

/-- The line address that stands for a local line: its physical line, or, where the home map maps none, an address above
every physical one (assumption log, entry 14). -/
def lineAt (m : Core) (lla : Nat) : LineAddr := (physOf m lla).getD (BitVec.ofNat 46 (2 ^ 45 + lla))

/-! ### Post-package repair (R451 to R458) -/

/-- The key of the count of R452: bank group, rank, subchannel and channel. -/
def groupKey (r : RowId) : Nat := ((r.ch * 2 + r.sub) * 2 + r.rank) * 8 + r.group

/-- Rows beyond which no further row of a row's bank group is repaired (R452). -/
def repairLimit (m : Core) (r : RowId) : Bool := decide (rfld m 0x183C 10 8 ≤ tget 0 m.mem.repaired (groupKey r))

/-- A repair starts, or waits for the one that runs (R456). -/
def repairStart (m : Core) (r : RowId) (hard : Bool) : Core :=
  match m.mem.repair with
  | none => modMem m fun x => { x with repair := some { row := r, hard := hard } }
  | some _ => modMem m fun x => { x with repairQ := x.repairQ ++ [(r, hard)] }

/-- The memory spares-exhausted event (R458). -/
def memSpares (m : Core) (r : RowId) : Core := journalMem (raise m 53) 3 5 r.ch r.row 0

/-- The next of the rows that wait is repaired; one over the limit is not, and the one after it follows (R456, R458). -/
def repairNext (m : Core) : List (RowId × Bool) → Core
  | [] => modMem m fun x => { x with repairQ := [] }
  | q :: rest =>
    if !q.2 && repairLimit m q.1 then repairNext (memSpares m q.1) rest
    else modMem m fun x => { x with repairQ := rest, repair := some { row := q.1, hard := q.2 } }

/-- A row takes a correctable error in its channel's repeat table, and is repaired at the threshold (R448, R451, R452,
R456, R458, R473). -/
def rowError (m : Core) (r : RowId) : Core :=
  let t := tget [] m.mem.rows r.ch
  let n := (((t.find? fun x => decide (x.1 = r)).map (·.2)).getD 0) + 1
  let t := (t.filter fun x => decide (x.1 ≠ r)) ++ [(r, n)]
  let m := modMem m fun x => { x with rows := tput [] x.rows r.ch (t.drop (t.length - 32)) }
  let th := rfld m 0x183C 3 0
  if th = 0 || n < th || decide (m.mem.repair.map (·.row) = some r) || m.mem.repairQ.any (fun x => decide (x.1 = r))
      || m.mem.ppr.any (fun x => x.2.refused && decide (x.2.row = r)) then m
  else if repairLimit m r then (if n = th then memSpares m r else m)
  else repairStart m r false

/-- The local lines of a row (Table MEM-3: 128 columns of one subchannel). -/
def rowLines (m : Core) (r : RowId) : List Nat := (List.range 128).map fun c => llaAt m r c

/-! ### The write queue (R441 to R443; assumption log, entry 72) -/

/-- The local lines of the writes that wait in a channel's write queue, oldest first. -/
def writeQueue (m : Core) (ch : Nat) : List Nat := tget [] m.mem.wq ch

/-- Whether a channel's write queue has no free entry. -/
def wqFull (m : Core) (ch : Nat) : Bool := decide (64 ≤ (writeQueue m ch).length)

/-- The write queue after a change: it drains ahead of foreground reads once it holds 48 entries, until it holds 16. -/
def setWq (m : Core) (ch : Nat) (q : List Nat) : Core :=
  modMem m fun x => { x with
    wq := tput [] x.wq ch q
    wdrain := tput false x.wdrain ch (decide (48 ≤ q.length) || (tget false x.wdrain ch && decide (16 < q.length))) }

/-- A write enters the queue of its channel. -/
def wqPush (m : Core) (ch lla : Nat) : Core := setWq m ch (writeQueue m ch ++ [lla])

/-- The oldest `n` writes of a channel take command slots, one in each MEMC cycle; those in write-drain mode are counted
(Table OBS-2, MEM kind 10). -/
def wqDrain (m : Core) (ch n : Nat) : Core :=
  if (writeQueue m ch).isEmpty then m else
    let m := if tget false m.mem.wdrain ch then tally .mem (80 + ch) (min n ((writeQueue m ch).length - 16)) m else m
    setWq m ch ((writeQueue m ch).drop n)

/-- A read of a channel comes after the writes that drain ahead of it (R443, Table MEM-4). -/
def wqAhead (m : Core) (ch : Nat) : Core :=
  if tget false m.mem.wdrain ch then wqDrain m ch ((writeQueue m ch).length - 16) else m

/-! ### Reading and writing DRAM -/

/-- MEM.ERR_LOG takes a read (Table RGF-14). -/
def errLog (m : Core) (l : LineAddr) (r : RowId) (kind dev : Nat) : Core :=
  let m := rset m 0x1834 (BitVec.ofNat 32 l.toNat)
  rset m 0x1838 (BitVec.ofNat 32 (kind * 2 ^ 24 + dev * 2 ^ 20 + r.sub * 2 ^ 19 + r.ch * 2 ^ 16 + l.toNat / 2 ^ 32))

/-- Whether a read of a local line takes its data from the repair buffer (R454). -/
def inBuffer (m : Core) (lla : Nat) : Option (LineData × Bool) := (m.mem.repair.map (·.buf)).bind fun b => tfind b lla

/-- What a read of a local line meets by its own syndrome: nothing where the line comes from the repair buffer or the write
queue, or carries the poison syndrome (R442, R447, R454, R976). -/
def readSees (d : Dram) (m : Core) (lla : Nat) (rf : ReadFault) : ReadFault :=
  let ch := chanOf m lla
  if chFailed m ch || (inBuffer m lla).isSome || (writeQueue (wqAhead m ch) ch).contains lla || isPoisoned d lla then .clean
  else rf

/-- What one read of a local line gives: its data, whether it is flagged poisoned, and whether it was uncorrectable
(R442, R446 to R450, R454, R475, R976). The poison syndrome decides before any further error of the read. -/
def dramRead (d : Dram) (m : Core) (l : LineAddr) (lla : Nat) (rf : ReadFault) : LineData × Bool × Bool × Core :=
  let r := (coords m lla).1
  let m := wqAhead (tally .mem (8 + r.ch) 1 m) r.ch
  if chFailed m r.ch then
    let v := freeLine m
    (v.1, true, false, v.2)
  else match inBuffer m lla with
    | some x => (x.1, x.2, false, m)
    | none =>
      if (writeQueue m r.ch).contains lla then (readLine d lla, isPoisoned d lla, false, m) else
      let m := modMem m fun x => { x with caFails := tput 0 x.caFails r.ch 0 }
      if isPoisoned d lla then (readLine d lla, true, false, tally .mem (64 + r.ch) 1 (rinc m 0x1830 1))
      else match rf with
        | .clean => (readLine d lla, false, false, m)
        | .correctable dev =>
          let m := tally .mem (48 + r.ch) 1 (errLog (rinc m (0x180C + 4 * r.ch) 1) l r 1 dev.val)
          (readLine d lla, false, false, rowError m r)
        | .uncorrectable dev =>
          let m := tally .mem (56 + r.ch) 1 (errLog (rinc m 0x182C 1) l r 2 dev.val)
          let v := freeLine (journalMem (raise m 50) 3 0 r.ch l.toNat dev.val)
          (v.1, true, true, v.2)

/-- A whole line is written: to the repair buffer while it holds the line, otherwise into the channel's write queue, which
every later read sees (R226, R442); a failed channel discards it (R447, R454, R475). -/
def dramWrite (d : Dram) (m : Core) (lla : Nat) (x : LineData) (p : Bool) : Dram × Core :=
  let ch := chanOf m lla
  let m := tally .mem (16 + ch) 1 m
  if chFailed m ch then (d, m)
  else match m.mem.repair with
    | some r =>
      if (tfind r.buf lla).isSome then
        (d, modMem m fun y => { y with repair := some { r with buf := tset r.buf lla (x, p) } })
      else (writeLine d lla x p, wqPush m ch lla)
    | none => (writeLine d lla x p, wqPush m ch lla)

/-- The lines of a repair buffer written to DRAM (R453, R455), unless the channel has failed (R475). -/
def bufferBack (m : Core) (d : Dram) (r : Repair) : Dram :=
  if chFailed m r.row.ch then d else r.buf.foldl (fun d x => writeLine d x.1 x.2.1 x.2.2) d

end Sys2Proof.Machine
end

