-- ==== Sys2Proof/Machine/Operands.lean ====
section
/-! DEFINITION. The operands of atomics: where they lie in the message, what each operation computes, and how the
result lies in a line (spec/02_olfer_messages.md, Table OLF-5; spec/05_atomics.md, Table ATM-1). -/

namespace Sys2Proof.Machine

/-- The size of an `ATM` in bits. -/
def atmBits (x : Msg) : Nat := 8 * atmSize x

/-- Operand A: message bytes from 24 on, least significant byte first. -/
def atmA (x : Msg) : Nat := x.data.toNat % 2 ^ atmBits x

/-- Operand B: message bytes from 32 on, from 40 on for a 128-bit `CAS`. -/
def atmB (x : Msg) : Nat := (x.data.toNat >>> (if atmBits x = 128 then 128 else 64)) % 2 ^ atmBits x

/-- A number of `n` bits taken as a two's-complement integer. -/
def signed (n v : Nat) : Int := if v < 2 ^ (n - 1) then v else (v : Int) - 2 ^ n

/-- The new value of an operation on `n` bits (R210, Table ATM-1). -/
def atmNew (op n old a b : Nat) : Nat :=
  match op with
  | 0 => (old + a) % 2 ^ n
  | 1 => a
  | 2 => if old = a then b else old
  | 3 => old &&& a
  | 4 => old ||| a
  | 5 => old ^^^ a
  | 6 => if signed n a < signed n old then a else old
  | 7 => if signed n old < signed n a then a else old
  | 8 => if a < old then a else old
  | _ => if old < a then a else old

/-- The target of an `ATM` in a line. -/
def atmOld (x : Msg) (d : LineData) : Nat := (d.toNat >>> (8 * atmOffset x)) % 2 ^ atmBits x

/-- The line with the atomic's new value in place of the target. -/
def atmLine (x : Msg) (d : LineData) : LineData :=
  let v := atmNew (atmOp x) (atmBits x) (atmOld x d) (atmA x) (atmB x)
  let k : LineData := BitVec.ofNat 512 ((2 ^ atmBits x - 1) <<< (8 * atmOffset x))
  (d &&& ~~~k) ||| (BitVec.ofNat 512 (v <<< (8 * atmOffset x)) &&& k)

/-- The payload of the `DSH` that answers an atomic: the old value at the offset of the target (R211). -/
def atmResult (x : Msg) (d : LineData) : LineData := BitVec.ofNat 512 (atmOld x d <<< (8 * atmOffset x))

end Sys2Proof.Machine
end

