-- ==== Sys2Proof/Machine/Home.lean ====
section
/-! DEFINITION. The home function: what the decision of a request does (spec/03_coherence_flows.md, Tables COH-4 and
COH-5; spec/04_ordering_races.md, Table ORD-1; spec/05_atomics.md, Table ATM-3). A decision notes in the HTE what the
transaction awaits and how it continues when the last awaited thing is in. -/

namespace Sys2Proof.Machine

/-! ### What an HTE awaits and sends -/

/-- HTE `h` awaits one thing more. -/
def await (m : Core) (h : Nat) (a : Await) : Core := modHte m h fun x => { x with awaits := x.awaits ++ [a] }

/-- HTE `h` awaits a thing no longer. -/
def unawait (m : Core) (h : Nat) (a : Await) : Core := modHte m h fun x => { x with awaits := x.awaits.erase a }

/-- How HTE `h` continues. -/
def andThen (m : Core) (h : Nat) (c : Cont) : Core := modHte m h fun x => { x with wait := .none, cont := c }

/-- HTE `h` waits for something other than a reply. -/
def waitFor (m : Core) (h : Nat) (w : Wait) : Core := modHte m h fun x => { x with wait := w }

/-- HTE `h` writes entry `e` into way `k` at its completion (R106). -/
def setFin (m : Core) (h : Nat) (k : Option Nat) (e : DirEnt) : Core :=
  modHte m h fun x => { x with key := k, fin := some e }

/-- A message of HTE `h`'s transaction: it carries the HTE's epoch (R197). -/
def sendH (m : Core) (h : Nat) (x : Hte) (g : Msg) : Core := send m 16 (some h) x.epoch { g with epoch := x.epoch }

/-- A message to the requester: its tag, and the HTE index as home tag (R75). -/
def toReq (x : Hte) (h : Nat) (op : Op) : Msg :=
  { op := op, dest := x.msg.src, tag := x.msg.tag, htag := BitVec.ofNat 12 h, line := x.msg.line }

/-- The message that ends a request is sent (R107). -/
def sendEnd (m : Core) (h : Nat) (x : Hte) (g : Msg) : Core :=
  modHte (sendH m h x g) h fun y => { y with ended := true, done := true, wait := .none, cont := .idle }

/-- A request ends with `ERR`. -/
def refuse (m : Core) (h code : Nat) : Core :=
  match hte m h with
  | none => m
  | some x => sendEnd m h x { toReq x h .err with status := BitVec.ofNat 8 code }

/-- A transaction ends with nothing more to send. -/
def endHte (m : Core) (h : Nat) : Core := modHte m h fun x => { x with done := true, wait := .none, cont := .idle }

/-- Whether a slot is snooped: its entry is LIVE or LEAVING (R560). -/
def snoopable (m : Core) (e : Bool) (s : Nat) : Bool :=
  match (slotEnt m e s).status with
  | .live | .leaving => true
  | _ => false

/-- A snoop from HTE `h` to a slot: tag and home tag carry the HTE index. -/
def snoop (m : Core) (h : Nat) (l : LineAddr) (op : Op) (s : Nat) : Core :=
  match hte m h with
  | none => m
  | some x =>
    let ev := match op with
      | .sin => 8
      | .swp => 10
      | _ => 9
    let m := if op = .src || op = .ssu then m else tally .dir ev 1 m
    sendH m h x { op := op, dest := nodeOf m x.epoch s, tag := BitVec.ofNat 12 h, htag := BitVec.ofNat 12 h, line := l }

/-- A forward from HTE `h` to an owner slot, with the requester as forward node (R169). -/
def forward (m : Core) (h : Nat) (op : Op) (o : Nat) (staff : Bool) : Core :=
  match hte m h with
  | none => m
  | some x => sendH (tally .dir 9 1 m) h x
      { op := op, dest := nodeOf m x.epoch o, tag := BitVec.ofNat 12 h, htag := BitVec.ofNat 12 h, line := x.msg.line
        fnode := x.msg.src, ftag := x.msg.tag, staff := staff }

/-- The slots of a vector. -/
def slotsIn (v : BitVec 256) : List Nat := (List.range 256).filter fun s => v.getLsbD s

/-- The vector of one slot. -/
def vecOf (s : Nat) : BitVec 256 := 1#256 <<< s

/-- An invalidation round: `SIN` to every snoopable slot of a vector; a lost slot counts as having answered. -/
def sinRound (m : Core) (h : Nat) (l : LineAddr) (v : BitVec 256) : Core :=
  match hte m h with
  | none => m
  | some x => (slotsIn v).foldl (fun m s =>
      if snoopable m x.epoch s then await (snoop m h l .sin s) h (.ria s) else m) m

/-- A staff ends (R267, R187). -/
def staffEnd (m : Core) : Core := { m with trk := { m.trk with staffEnded := m.trk.staffEnded + 1 } }

/-- Chain HTEs of a line that have not completed (R172, R173). -/
def openChains (m : Core) (l : LineAddr) : List (Nat × Hte) := (chainsOf m l).filter fun x => !x.2.done

/-- HTE `h` awaits the chain HTEs of a line, if any has not completed. -/
def awaitChains (m : Core) (h : Nat) (l : LineAddr) : Core :=
  if (openChains m l).isEmpty then m else await m h .chains

/-- The surrender of a line in K with tail `t` (R180, R181); a lost tail counts as in Table ORD-10. -/
def surrender (m : Core) (h : Nat) (l : LineAddr) (t : Nat) (c : Cont) : Core :=
  match hte m h with
  | none => m
  | some x =>
    let m := tally .trk 5 1 m
    let m := modHte m h fun y => { y with surr := none }
    let m := if snoopable m x.epoch t then await (snoop m h l .ssu t) h (.ssu t)
      else modHte (memPoison m h l) h fun y => { y with surr := some false }
    andThen (awaitChains m h l) h c

/-- A recall of the owner's copy; a lost owner leaves the memory copy poisoned (Table ORD-10). -/
def recallOwner (m : Core) (h : Nat) (l : LineAddr) (o : Nat) : Core :=
  match hte m h with
  | none => m
  | some x => if snoopable m x.epoch o then await (snoop m h l .src o) h (.owner o .src) else memPoison m h l

/-! ### Atomics: placement (spec/05_atomics.md) -/

/-- The machine with its atomics changed. -/
def modAtm (m : Core) (f : Atomics → Atomics) : Core := { m with atm := f m.atm }

/-- The predictor index of a line (R227). -/
def predIx (l : LineAddr) : Nat :=
  let x := l.toNat
  (x % 1024) ^^^ (x / 2 ^ 10 % 1024) ^^^ (x / 2 ^ 20 % 1024) ^^^ (x / 2 ^ 30 % 1024) ^^^ (x / 2 ^ 40)

/-- A predictor counter; it resets to 0b01 (R233). -/
def predCtr (m : Core) (i : Nat) : Nat := tget 1 m.atm.pred i

/-- The recent-atomic list takes a line and the time (R231). -/
def noteRecent (m : Core) (l : LineAddr) : Core :=
  modAtm m fun a =>
    let rest := a.recent.filter fun x => decide (x.1 ≠ l)
    { a with recent := (if 64 ≤ rest.length then rest.drop (rest.length - 63) else rest) ++ [(l, m.stmp)] }

/-- Whether an atomic finds its line contended at its decision (R230). -/
def contended (m : Core) (l : LineAddr) (st : DSt) : Bool :=
  (m.trk.htes.any fun x => decide (x.2.kind = .queued) && decide (x.2.msg.line = l) && decide (clsOf x.2.msg.op = .req)
      && decide (x.2.job = .external))
    || decide (st = .s) || decide (st = .x) || decide (st = .k)
    || m.atm.recent.any fun x => decide (x.1 = l) && decide (m.stmp < x.2 + 200)

/-- The ALC entry that a replacement takes: the first at or after the pointer that is not disabled, not taken by an atomic
that has still to fill it, not freed by a recall in this CORE cycle (R242), and whose line no HTE holds (R219, R418). -/
def alcPick (m : Core) : Option Nat :=
  firstFrom (fun i => !tget false m.ca.alcDisabled i
    && !(m.trk.htes.any fun x => decide (x.2.alcIx = some i))
    && !(m.ca.alcFreed.contains (i, m.trk.core)) &&
    (match tfind m.ca.alc i with
      | none => true
      | some x => !lineHeld m x.line)) 48 m.ca.alcPtr 48

/-- Whether every ALC entry is disabled (R427). -/
def alcAllOff (m : Core) : Bool := (List.range 48).all fun i => tget false m.ca.alcDisabled i

/-- HTE `h` takes ALC entry `i`; the old line is written to memory and its directory entry freed (R220). -/
def alcTake (m : Core) (h i : Nat) (e : Env) : Core :=
  let m := match tfind m.ca.alc i with
    | none => m
    | some x =>
      let m := alcRelease m h x.line e.hlcOther
      match dirFind m true x.line with
      | some k => dirWrite m k {}
      | none => m
  modHte (modCa m fun c => { c with alcPtr := (i + 1) % 48 }) h fun y => { y with alcIx := some i }

/-- An atomic takes an ALC entry for its line in its decision cycle, or waits for one (R219 to R221); while a HELD order
is pending, or where the choice meets a double tag fault, it waits for that order (R417, R424). The flag says whether it
has its entry. -/
def alcGet (m : Core) (h : Nat) (e : Env) : Bool × Core :=
  match hte m h with
  | none => (false, m)
  | some x =>
    if x.alcIx.isSome then (true, m)
    else if heldPending m then (false, waitFor m h .heldOrder)
    else match alcPick m with
      | none => (false, waitFor m h .alcEntry)
      | some i =>
        let m := match tfind m.ca.alc i with
          | some y => alcCheck m y.line e.alcOther
          | none => m
        if heldPending m then (false, waitFor m h .heldOrder) else (true, alcTake m h i e)

/-- The operation of HTE `h` enters its unit's queue (R222, R224); a copy that a prefetch brought while it waited is
invalidated, so that none outlives the unit's write (R367). -/
def unitEnter (m : Core) (h : Nat) (l : LineAddr) (x : Hte) (ch : Nat) : Core :=
  let ord := m.ca.mbSeq
  let m := markStale (sidingInval (hlcInval m l .clean) l) l
  waitFor (await (modAtm (nextOrder m) fun a => { a with units := tput [] a.units ch (tget [] a.units ch ++
    [{ hte := h, line := l, lla := llaOf m x.epoch l, msg := x.msg, order := ord }]) }) h .unit) h .none

/-- A memory-placed atomic goes to the unit of its line's channel: held bytes are issued ahead, the copies invalidated,
registers marked stale (R222, R223). It waits where the queue is full or another waits for it (R224). -/
def atmToUnit (m : Core) (h : Nat) (l : LineAddr) (f : HlcFault) : Core :=
  match hte m h with
  | none => m
  | some x =>
    let ch := chanOf m (llaOf m x.epoch l)
    let m := markStale (sidingInval (hlcInval (mbClose m l) l f) l) l
    let m := tally .atm 2 1 m
    let m := modHte m h fun y => { y with atUnit := true, dseq := m.trk.seq, cont := .answer }
    let m : Core := { m with trk := { m.trk with seq := m.trk.seq + 1 } }
    if (tget [] m.atm.units ch).length < 16 && !(m.trk.htes.any fun y => decide (y.2.wait = .unitQueue ch)) then
      unitEnter m h l x ch
    else waitFor (tally .atm 7 1 m) h (.unitQueue ch)

/-- Whether an atomic is placed in memory by its region and the predictor (R217, R228); one that surrendered its line is
not (R237). -/
def atmMemory (m : Core) (x : Hte) : Bool :=
  let r := regionOf m x.epoch x.msg.line
  !x.surr.isSome && (decide (r.placement = 1) || (decide (r.placement = 2) && decide (predCtr m (predIx x.msg.line) < 2)))

/-- The decision of an atomic is made on a line in state `st`, once: the predictor and the recent-atomic list (R229 to
R232). An atomic that waits for an ALC entry or a way has made none (R221). -/
def atmDecided (m : Core) (h : Nat) (st : DSt) : Core :=
  match hte m h with
  | none => m
  | some x =>
    if x.counted then m else
      let l := x.msg.line
      let i := predIx l
      let c := predCtr m i
      let con := contended m l st
      let m := if con then tally .atm 6 1 m else m
      let m := modHte (noteRecent m l) h fun y => { y with counted := true }
      if (regionOf m x.epoch l).placement = 2 then
        let m := modAtm m fun a => { a with pred := tput 1 a.pred i (if con then min (c + 1) 3 else c - 1) }
        if st = .k then m else tally .atm (if c < 2 then 4 else 3) 1 m
      else m

/-- A home-placed atomic whose line is in state I, its directory way reserved, takes an ALC entry if it has none and fills
it (Table ATM-3, R221, R417). With every entry disabled it is placed in memory (R427). -/
def atmFill (m : Core) (h : Nat) (e : Env) : Core :=
  match hte m h with
  | none => m
  | some x =>
    let l := x.msg.line
    if alcAllOff m then
      let m := if x.haveBuf then memWrite m h l x.buf fullMask x.bufPoison e.hlc else m
      let m := match x.key with
        | some k => if x.fin = some {} then dirWrite m k {} else m
        | none => m
      atmToUnit (modHte (atmDecided m h .i) h fun y => { y with key := none, fin := none, haveBuf := false }) h l e.hlc
    else match alcGet m h e with
      | (false, m) => m
      | (true, m) =>
        let m := modHte (atmDecided m h .i) h fun y => { y with fin := some { entOf l x.epoch .i with homeHeld := true } }
        let m := if x.haveBuf then m else memRead m h l .alcFill (classOf m x.epoch l x.slot) e.hlc
        andThen (tally .atm 1 1 (tally .hlc 9 1 m)) h .answer

/-! ### A request served as for I (Table COH-4) -/

/-- A stash is declined, or its target has no node: the data is written to memory (R118). -/
def stashToMem (m : Core) (h : Nat) (f : HlcFault) : Core :=
  match hte m h with
  | none => m
  | some x => andThen (memWrite m h x.msg.line x.msg.data fullMask x.msg.poison f) h .answer

/-- The I column of Table COH-4, in the way that the HTE holds. -/
def serveI (m : Core) (h : Nat) (e : Env) : Core :=
  match hte m h with
  | none => m
  | some x =>
    let l := x.msg.line
    let cls := classOf m x.epoch l x.slot
    let own := x.slot.getD 0
    match x.msg.op with
    | .rds =>
      let st := if (regionOf m x.epoch l).exclGrant then DSt.x else DSt.s
      let ent := if st = .x then { entOf l x.epoch .x with owner := BitVec.ofNat 8 own }
        else { entOf l x.epoch .s with vec := vecOf own }
      andThen (memRead (setFin m h x.key ent) h l .demand cls e.hlc) h .answer
    | .rdo | .upg =>
      let ent := { entOf l x.epoch .x with owner := BitVec.ofNat 8 own }
      andThen (memRead (setFin m h x.key ent) h l .demand cls e.hlc) h .answer
    | .rdc => andThen (memRead m h l .demand cls e.hlc) h .answer
    | .wrl => andThen (memWriteAs true m h l x.msg.data fullMask x.msg.poison e.hlc) h .answer
    | .wrp => andThen (memWriteAs true m h l x.msg.data x.msg.mask x.msg.poison e.hlc) h .answer
    | .wst =>
      let t := fld x.msg.aux 15 8
      if (slotEnt m x.epoch t).status = .live then
        let m := sendH m h x { op := .spu, dest := nodeOf m x.epoch t, tag := BitVec.ofNat 12 h
                               htag := BitVec.ofNat 12 h, line := l, poison := x.msg.poison, aux := x.msg.aux
                               data := x.msg.data }
        andThen (await m h (.acc t)) h .answer
      else stashToMem m h e.hlc
    | .fls =>
      let m := mbClose (hlcInval m l e.hlc) l
      andThen (if mbUnissued m l then await m h .flush else m) h .answer
    | .atm => atmFill m h e
    | _ => endHte m h

/-! ### Directory recall (R191 to R195) -/

/-- The recall of victim way `k` begins; the deciding request goes on in it. A home-held victim is written to memory from
its ALC entry, whose directory entry frees with it (R191, R411, R415); the entry is not given to another atomic in the same
CORE cycle (R242). -/
def recallVictim (m : Core) (h k : Nat) (e : Env) : Core :=
  let v := dirEnt m k
  let l := lineOf (k / 16) v.tag
  let m := modHte (tally .dir 2 1 m) h fun y => { y with key := some k, vline := some l }
  match v.st with
  | .s => andThen (sinRound m h l v.vec) h .recallEnd
  | .x => andThen (recallOwner m h l v.owner.toNat) h .recallEnd
  | .k => surrender m h l v.owner.toNat .recallX
  | _ =>
    let m := alcCheck m l e.alcOther
    let m := match alcKey m l with
      | some i => modCa m fun c => { c with
          alcFreed := (c.alcFreed.filter fun x => decide (x.2 = m.trk.core)) ++ [(i, m.trk.core)] }
      | none => m
    andThen (dirWrite (alcRelease m h l e.hlcOther) k {}) h .recallEnd

/-- A decision in state I without an entry takes a way where its request needs one (R306, R307, R191, R195). -/
def takeWay (m : Core) (h : Nat) (e : Env) : Core :=
  match hte m h with
  | none => m
  | some x =>
    match pickWay m h true (dirSet x.msg.line) e.ptrParity with
    | (.free k, m) => serveI (modHte m h fun y => { y with key := some k }) h e
    | (.victim k, m) => recallVictim m h k e
    | (.none, m) => waitFor (tally .dir 3 1 m) h .way

/-- An atomic to a line in state I with no entry: in memory by its placement, or where every ALC entry is disabled (R222,
R427); otherwise it takes an ALC entry and a way, or waits for them and makes no decision (R195, R218, R221). -/
def decideAtmNone (m : Core) (h : Nat) (e : Env) : Core :=
  match hte m h with
  | none => m
  | some x =>
    if atmMemory m x || alcAllOff m then atmToUnit (atmDecided m h .i) h x.msg.line e.hlc
    else if (pickWay m h true (dirSet x.msg.line) false).1 = .none then takeWay m h e
    else match alcGet m h e with
      | (false, m) => m
      | (true, m) => takeWay (atmDecided m h .i) h e

/-- State I with no entry. -/
def decideNone (m : Core) (h : Nat) (e : Env) : Core :=
  match hte m h with
  | none => m
  | some x =>
    match x.msg.op with
    | .rds | .rdo | .upg => takeWay m h e
    | .wst => if (slotEnt m x.epoch (fld x.msg.aux 15 8)).status = .live then takeWay m h e else serveI m h e
    | .atm => decideAtmNone m h e
    | _ => serveI m h e

/-- State I with home-held set, for a request other than `ATM`: the ALC line is written to memory, or poisoned while a
HELD order is pending, the bit is cleared, and the request is served as for I (R112, R417). -/
def decideHeld (m : Core) (h k : Nat) (e : Env) : Core :=
  match hte m h with
  | none => m
  | some x =>
    let m := if heldPending m then memPoison m h x.msg.line else alcRelease m h x.msg.line e.hlc
    serveI (modHte (dirWrite m k {}) h fun y => { y with key := some k }) h e

/-- State I with home-held set, for an `ATM`: it executes in the ALC entry (Table ATM-3). While a HELD order is pending its
HTE writes the line poisoned and clears the bit, and it waits for the order, or is placed in memory where no entry is left
(R417, R427). -/
def decideAtmHeld (m : Core) (h k : Nat) (e : Env) : Core :=
  match hte m h with
  | none => m
  | some x =>
    let l := x.msg.line
    if heldPending m then
      let m := dirWrite (memPoison m h l) k {}
      if alcAllOff m then atmToUnit (atmDecided m h .i) h l e.hlc else waitFor m h .heldOrder
    else match (alcKey m l).bind (tfind m.ca.alc) with
      | none => decideHeld m h k e
      | some c =>
        let m := if atmMemory m x then tally .atm 5 1 m else m
        andThen (tally .atm 1 1 (tally .hlc 8 1 (gotData (atmDecided m h .i) h c.data c.poison))) h .answer

/-! ### The S and X columns (Table COH-4) -/

/-- A line in state S with entry `d` in way `k`. -/
def decideS (m : Core) (h k : Nat) (d : DirEnt) (e : Env) : Core :=
  match hte m h with
  | none => m
  | some x =>
    let l := x.msg.line
    let cls := classOf m x.epoch l x.slot
    let own := x.slot.getD 0
    let inV := x.slot.isSome && d.vec.getLsbD own
    let others := d.vec &&& ~~~(vecOf own)
    let xr := { entOf l x.epoch .x with owner := BitVec.ofNat 8 own }
    match x.msg.op with
    | .rds =>
      let m := setFin m h (some k) { entOf l x.epoch .s with vec := d.vec ||| vecOf own }
      andThen (memRead m h l .demand cls e.hlc) h .answer
    | .rdc => andThen (memRead m h l .demand cls e.hlc) h .answer
    | .rdo => andThen (memRead (sinRound (setFin m h (some k) xr) h l others) h l .demand cls e.hlc) h .answer
    | .upg =>
      let m := sinRound (setFin m h (some k) xr) h l others
      andThen (if inV then m else memRead m h l .demand cls e.hlc) h .answer
    | .wrl =>
      andThen (memWriteAs true (sinRound (setFin m h (some k) {}) h l d.vec) h l x.msg.data fullMask x.msg.poison e.hlc) h .answer
    | .wrp =>
      andThen (memWriteAs true (sinRound (setFin m h (some k) {}) h l d.vec) h l x.msg.data x.msg.mask x.msg.poison e.hlc) h
        .answer
    | .wst => andThen (sinRound (setFin m h (some k) {}) h l d.vec) h .serveI
    | .fls => andThen (sinRound (mbClose (hlcInval (setFin m h (some k) {}) l e.hlc) l) h l d.vec) h .serveI
    | .atm =>
      andThen (memRead (sinRound (setFin m h (some k) {}) h l d.vec) h l .alcFill cls e.hlc) h .serveI
    | _ => endHte m h

/-- A request to a line in X of another slot `o`, in order mode HOME or of a junction (Table COH-4). -/
def decideX (m : Core) (h k : Nat) (d : DirEnt) (e : Env) : Core :=
  match hte m h with
  | none => m
  | some x =>
    let l := x.msg.line
    let o := d.owner.toNat
    let own := x.slot.getD 0
    let lost := !snoopable m x.epoch o
    let m := modHte m h fun y => { y with key := some k }
    let toI (m : Core) : Core := andThen (memPoison (setFin m h (some k) {}) h l) h .serveI
    match x.msg.op with
    | .rds =>
      if lost then toI m else
        let m := setFin m h (some k) { entOf l x.epoch .s with vec := vecOf o ||| vecOf own }
        andThen (await (await (forward m h .sfs o false) h (.owner o .sfs)) h (.reqCmp x.msg.src)) h .finish
    | .rdo | .upg =>
      if lost then toI m else
        let m := setFin m h (some k) { entOf l x.epoch .x with owner := BitVec.ofNat 8 own }
        andThen (await (await (forward m h .sfo o false) h (.owner o .sfo)) h (.reqCmp x.msg.src)) h .finish
    | .rdc =>
      if lost then toI m else
        andThen (await (await (forward m h .sfc o false) h (.owner o .sfc)) h (.reqCmp x.msg.src)) h .finish
    | .fls =>
      andThen (recallOwner (mbClose (hlcInval (setFin m h (some k) {}) l e.hlc) l) h l o) h .serveI
    | _ => andThen (recallOwner (setFin m h (some k) {}) h l o) h .serveI

/-- The request becomes a chain HTE of an owner-ordered line: `SFO` with staff to the tail, the requester the new tail,
the line free for the next request (R169, R172). -/
def joinChain (m : Core) (h k : Nat) (d : DirEnt) : Core :=
  match hte m h with
  | none => m
  | some x =>
    let l := x.msg.line
    let o := d.owner.toNat
    let own := x.slot.getD 0
    let m := if d.st = .x then { m with trk := { m.trk with staffCreated := m.trk.staffCreated + 1 } } else m
    let m := tally .trk 4 1 (forward m h .sfo o true)
    let m := dirWrite m k { entOf l x.epoch .k with owner := BitVec.ofNat 8 own, staff := true }
    let m := modHte m h fun y => { y with kind := .chain, pred := some o, key := none, wait := .none, cont := .finish
                                          awaits := [.staffCmp] }
    promote m l

/-- Whether a slot is a junction slot (R168). -/
def junctionSlot (m : Core) (e : Bool) (s : Nat) : Bool := (slotEnt m e s).junction

/-- Whether a request may enter or join a chain: `RDO` or `UPG` from a slot that is no junction slot, in a region of
order mode OWNER under its epoch (R169, R171, Table ORD-1). -/
def mayChain (m : Core) (x : Hte) : Bool :=
  (decide (x.msg.op = .rdo) || decide (x.msg.op = .upg)) &&
    (match x.slot with
      | some s => !junctionSlot m x.epoch s
      | none => false) && (regionOf m x.epoch x.msg.line).owner

/-! ### The decision of a request -/

/-- An atomic to a line with an entry in S, X or K takes its ALC entry before anything goes out, or waits for it (R221);
with every entry disabled it is answered `ERR` UNCORRECTABLE (R427). `f` is the decision. -/
def atmWithEntry (m : Core) (h : Nat) (st : DSt) (e : Env) (f : Core → Core) : Core :=
  match hte m h with
  | none => m
  | some x =>
    if alcAllOff m then refuse (atmDecided m h st) h errUncorr
    else match alcGet m h e with
      | (false, m) => m
      | (true, m) => f (atmDecided (if atmMemory m x then tally .atm 5 1 m else m) h st)

/-- A directory decision on the state that the lookup found. A line in K whose staff has returned waits for its chain
HTEs and becomes I (R184). -/
def decideState (m : Core) (h : Nat) (e : Env) : Core :=
  match hte m h with
  | none => m
  | some x =>
    let l := x.msg.line
    let atm := decide (x.msg.op = .atm)
    let m := mbCheck (alcCheck m l e.alc) l e.mbUncorrectable
    match dirFind m true l with
    | none => decideNone m h e
    | some k =>
      let d := dirEnt m k
      let own := x.slot.isSome && decide (d.owner.toNat = x.slot.getD 256)
      match d.st with
      | .i => if atm then decideAtmHeld m h k e else decideHeld m h k e
      | .u => m
      | .s => if atm then atmWithEntry m h .s e (fun m => decideS m h k d e) else decideS m h k d e
      | .x =>
        if own then refuse (journalProto m x.msg 147) h errMalformed
        else if mayChain m x && !junctionSlot m x.epoch d.owner.toNat && snoopable m x.epoch d.owner.toNat then
          joinChain m h k d
        else if atm then atmWithEntry m h .x e (fun m => decideX m h k d e)
        else decideX m h k d e
      | .k =>
        if !d.staff && !(openChains m l).isEmpty then andThen (await m h .chains) h .surrendered
        else if own then refuse (journalProto m x.msg 147) h errMalformed
        else if mayChain m x && snoopable m x.epoch d.owner.toNat then joinChain m h k d
        else if atm then atmWithEntry m h .k e (fun m => surrender m h l d.owner.toNat .surrendered)
        else surrender m h l d.owner.toNat .surrendered

/-- Whether an HTE recovers an entry of a set. -/
def recovering (x : Hte) (set : Nat) : Bool := decide (x.recov.map (·.key / 16) = some set)

/-- Recovery of an entry begins in HTE `h` (R342 to R345): the entry is written in state U with its tag, and a staff whose
chain HTEs exist counts as ended (R269, R351). While another HTE recovers an entry of the set it waits (R342). -/
def recoverStart (m : Core) (h k : Nat) (l : LineAddr) (fromMirror : Bool) : Core :=
  match hte m h with
  | none => m
  | some x =>
    if m.trk.htes.any fun y => decide (y.1 ≠ h) && recovering y.2 (k / 16) then waitFor m h .decision else
      let m := if (chainsOf m l).isEmpty then m else staffEnd m
      let m := dirWrite m k (entOf l x.epoch .u)
      let m := modHte m h fun y => { y with recov := some ⟨l, k, fromMirror, 0⟩ }
      andThen (awaitChains m h l) h .sweep

/-- Whether Jalair answers every request as uncoupled: between a warm reset and its coupling, and once refused (R574,
R583). -/
def uncoupled (m : Core) : Bool :=
  (m.fab.afterWarm && decide (m.fab.cplState ≠ 2)) || decide (m.fab.cplState = 3)

/-- The requests that a node without a slot may send (R35). -/
def slotless (op : Op) : Bool :=
  match op with
  | .rdc | .wrl | .wrp | .wst | .atm => true
  | _ => false

/-- Whether the home function serves a REQ or WBK (R27, R148). -/
def homeServes (m : Core) (e : Bool) (l : LineAddr) (slot : Option Nat) : Bool :=
  match role m with
  | 1 => false
  | 2 => decide (homeOf m e l = some (nodeId m)) ||
      !(match slot with
        | some s => (slotEnt m e s).member
        | none => false)
  | _ => true

/-- The first cause of `ERR` that a request meets before its decision, with the rule under which it is journaled
(R980). -/
def judge (m : Core) (x : Hte) : Option (Nat × Option Nat) :=
  let l := x.msg.line
  match homeOf m x.epoch l with
  | none => some (errUnmapped, some 149)
  | some n =>
    if uncoupled m && decide (x.job = .external) then some (errUnmapped, none)
    else if n ≠ nodeId m then some (errNotHome, none)
    else if capacity m ≤ 64 * llaOf m x.epoch l then some (errUnmapped, some 439)
    else if x.job = .external && x.slot.isNone && !slotless x.msg.op then some (errNoSlot, none)
    else if retired m (dirSet l) then some (errUncorr, none)
    else none

/-- Whether the requester's slot was lost after admission (R203; assumption log, entry 12). -/
def reqLost (m : Core) (x : Hte) : Bool :=
  match x.slot with
  | some s => decide ((slotEnt m x.epoch s).status = .lost)
  | none => false

/-- The directory decision of a request in the home function (R113). -/
def decideReq (m : Core) (h : Nat) (e : Env) : Core :=
  match hte m h with
  | none => m
  | some x =>
    let l := x.msg.line
    if reqLost m x then endHte m h else
      match judge m x with
      | some (c, r) => refuse (match r with
          | some n => journalProto m x.msg n
          | none => m) h c
      | none =>
        let m := tally .dir 1 1 m
        let m := match topHits (regionHits m x.epoch l) with
          | [] => raise (rinc m 0x41C 1) 133
          | [_] => m
          | a :: b :: _ => raise (rset (rinc (rsetf m 0x410 0 0 1) 0x414 1) 0x418 (BitVec.ofNat 32 (b.1 * 256 + a.1))) 132
        let m := lookupRead m true l e
        if retired m (dirSet l) then refuse m h errUncorr
        else match lookupRecover m true h l e with
          | some (k, rl, fm) => recoverStart m h k rl fm
          | none => decideState m h e

end Sys2Proof.Machine
end

