-- ==== Sys2Proof/Machine/Junction.lean ====
section
/-! DEFINITION. The junction function (spec/10_junction_scale.md): member requests, member writebacks, upstream
snoops and the steps of their transactions. -/

namespace Sys2Proof.Machine

/-- Whether a slot is a member slot (R29). -/
def memberSlot (m : Core) (e : Bool) (s : Option Nat) : Bool :=
  match s with
  | some s => (slotEnt m e s).member
  | none => false

/-- The member slots that are snooped. -/
def memberSlots (m : Core) (e : Bool) : List Nat :=
  (List.range 256).filter fun s => (slotEnt m e s).member && snoopable m e s

/-- The junction sends an upstream message of HTE `h` under its own node ID, with the HTE index as tag, to the home of
the line, in the epoch last acknowledged (R480, R481), and awaits its reply. -/
def sendUp (m : Core) (h : Nat) (g : Msg) : Core :=
  let e := m.cfg.ackEpoch.getD m.cfg.epoch
  match homeOf m e g.line with
  | none => m
  | some n =>
    let m := send m 16 (some h) e { g with dest := n, tag := BitVec.ofNat 12 h, htag := 0, fnode := 0, ftag := 0
                                           staff := false, epoch := e }
    modHte m h fun x => { x with up := some g, upEpoch := e, reply := none, awaits := x.awaits ++ [.up n] }

/-- The upstream request that a member's request becomes: the same opcode and payload, `WRL` for a `WST`, `RDO` for
an `UPG` that is served as one (Table JCT-2). -/
def upReq (x : Hte) (op : Op) : Msg :=
  { op := op, line := x.msg.line, poison := x.msg.poison, data := x.msg.data, mask := x.msg.mask
    aux := if op = .wrl then 0 else x.msg.aux }

/-- The I column of Table JCT-2, in the way that the HTE holds. -/
def jctServeI (m : Core) (h : Nat) : Core :=
  match hte m h with
  | none => m
  | some x =>
    let own := x.slot.getD 0
    let xr := { entOf x.msg.line x.epoch .x with owner := BitVec.ofNat 8 own }
    match x.msg.op with
    | .rds =>
      let m := setFin m h x.key { entOf x.msg.line x.epoch .s with vec := vecOf own }
      andThen (sendUp m h (upReq x .rds)) h .jctRelay
    | .rdo | .upg => andThen (sendUp (setFin m h x.key xr) h (upReq x .rdo)) h .jctRelay
    | .wst => andThen (sendUp m h (upReq x .wrl)) h .jctRelay
    | op => andThen (sendUp m h (upReq x op)) h .jctRelay

/-- The release of an owner begins with `SRC` (R486). -/
def jctSrc (m : Core) (h : Nat) (l : LineAddr) (o : Nat) (c : Cont) : Core :=
  match hte m h with
  | none => m
  | some x =>
    let m := modHte m h fun y => { y with got := none }
    if snoopable m x.epoch o then andThen (await (snoop m h l .src o) h (.owner o .src)) h c
    else andThen (modHte m h fun y => { y with got := some { op := .dhm, line := l, status := 1, poison := true } }) h c

/-- The rest of a release: `WBD` upstream with dirty data, `WBE` otherwise (R486); `c` follows the upstream `CMP`. -/
def jctWriteUp (m : Core) (h : Nat) (l : LineAddr) (c : Cont) : Core :=
  match hte m h with
  | none => m
  | some x =>
    let g : Msg := match x.got with
      | some r => if r.op = .dhm && bit r.status 0 then { op := .wbd, line := l, data := r.data, poison := r.poison }
          else { op := .wbe, line := l }
      | none => { op := .wbe, line := l }
    andThen (sendUp m h g) h c

/-- A memory copy written poisoned, in junction ways: `WBD` upstream with poison and data zero (R509). -/
def jctPoison (m : Core) (h : Nat) (l : LineAddr) (c : Cont) : Core :=
  andThen (sendUp m h { op := .wbd, line := l, poison := true }) h c

/-- The recall of a junction victim (R490). -/
def jctRecall (m : Core) (h k : Nat) : Core :=
  let v := dirEnt m k
  let l := lineOf (k / 16) v.tag
  let m := modHte (tally .dir 2 1 m) h fun y => { y with key := some k, vline := some l, got := none }
  match v.st with
  | .x => jctSrc m h l v.owner.toNat .jctRecallUp
  | _ => andThen (sinRound m h l v.vec) h .jctRecallUp

/-- After the members' replies: the victim's `WBS`, `WBD` or `WBE` goes upstream (R490). -/
def jctRecallUp (m : Core) (h : Nat) : Core :=
  match hte m h with
  | none => m
  | some x =>
    match x.key, x.vline with
    | some k, some l =>
      if (dirEnt m k).st = .x then jctWriteUp m h l .jctRecallEnd
      else match x.got with
        | some r => if bit r.status 0 then jctWriteUp m h l .jctRecallEnd
            else andThen (sendUp m h { op := .wbs, line := l }) h .jctRecallEnd
        | none => andThen (sendUp m h { op := .wbs, line := l }) h .jctRecallEnd
    | _, _ => m

/-- A member request finds no entry: those that need one take a way. -/
def jctNone (m : Core) (h : Nat) (e : Env) : Core :=
  match hte m h with
  | none => m
  | some x =>
    match x.msg.op with
    | .rds | .rdo | .upg =>
      match pickWay m h false (dirSet x.msg.line) e.ptrParity with
      | (.free k, m) => jctServeI (modHte m h fun y => { y with key := some k }) h
      | (.victim k, m) => jctRecall m h k
      | (.none, m) => waitFor (tally .dir 3 1 m) h .way
    | _ => jctServeI m h

/-- A member request by the entry in way `k` (R486, Table JCT-2). -/
def jctEntry (m : Core) (h k : Nat) : Core :=
  match hte m h with
  | none => m
  | some x =>
    let d := dirEnt m k
    let l := x.msg.line
    let own := x.slot.getD 0
    let o := d.owner.toNat
    let xr := { entOf l x.epoch .x with owner := BitVec.ofNat 8 own }
    match d.st with
    | .s =>
      let inV := x.slot.isSome && d.vec.getLsbD own
      let others := d.vec &&& ~~~(vecOf own)
      match x.msg.op with
      | .rds =>
        let m := setFin m h (some k) { entOf l x.epoch .s with vec := d.vec ||| vecOf own }
        andThen (sendUp m h (upReq x .rds)) h .jctRelay
      | .rdo => andThen (sendUp (sinRound (setFin m h (some k) xr) h l others) h (upReq x .rdo)) h .jctRelay
      | .upg =>
        andThen (sendUp (sinRound (setFin m h (some k) xr) h l others) h (upReq x (if inV then .upg else .rdo))) h
          .jctRelay
      | _ => jctServeI m h
    | .x =>
      if x.slot.isSome && o = own then refuse (journalProto m x.msg 147) h errMalformed
      else
        let lost := !snoopable m x.epoch o
        let m := modHte m h fun y => { y with key := some k }
        match x.msg.op with
        | .rds => jctSrc m h l o .jctCleanRead
        | .rdo | .upg =>
          if lost then jctSrc m h l o .jctRelease else
            let m := setFin m h (some k) xr
            andThen (await (await (forward m h .sfo o false) h (.owner o .sfo)) h (.reqCmp x.msg.src)) h .finish
        | .rdc =>
          if lost then jctSrc m h l o .jctRelease else
            andThen (await (await (forward m h .sfc o false) h (.owner o .sfc)) h (.reqCmp x.msg.src)) h .finish
        | _ => jctSrc m h l o .jctRelease
    | _ => m

/-- An `RDS` to an entry in X after the owner's answer: clean data goes to the requester; otherwise the owner is
released (Table JCT-2). -/
def jctCleanRead (m : Core) (h : Nat) : Core :=
  match hte m h with
  | none => m
  | some x =>
    match x.got with
    | some r =>
      if r.op = .dhm && !bit r.status 0 then
        let own := x.slot.getD 0
        let m := setFin m h x.key { entOf x.msg.line x.epoch .x with owner := BitVec.ofNat 8 own }
        sendEnd m h x { toReq x h .dex with data := r.data, poison := r.poison }
      else jctWriteUp m h x.msg.line .jctReleased
    | none => jctWriteUp m h x.msg.line .jctReleased

/-- The release has ended: the entry is I, and the request goes on as for I (R486). -/
def jctReleased (m : Core) (h : Nat) : Core :=
  match hte m h with
  | none => m
  | some x =>
    let m := match x.key with
      | some k => dirWrite m k {}
      | none => m
    jctServeI m h

/-- The recalled victim's way is free, and the request goes on in it. -/
def jctRecallEnd (m : Core) (h : Nat) : Core :=
  match hte m h with
  | none => m
  | some x =>
    let m := match x.key with
      | some k => dirWrite m k {}
      | none => m
    let m := modHte m h fun y => { y with vline := none }
    jctServeI (match x.vline with
      | some l => promote m l
      | none => m) h

/-- The upstream reply is relayed to the member, with its opcode, poison and status (R486, R512). -/
def jctRelay (m : Core) (h : Nat) : Core :=
  match hte m h with
  | none => m
  | some x =>
    match x.reply with
    | none => endHte m h
    | some r =>
      let g := { toReq x h r.op with data := r.data, poison := r.poison, status := r.status }
      let m := if r.op = .err then modHte m h fun y => { y with fin := none } else
        match x.msg.op, r.op with
        | .rds, .dex =>
          modHte m h fun y => { y with fin := some { entOf x.msg.line x.epoch .x with
            owner := BitVec.ofNat 8 (x.slot.getD 0) } }
        | _, _ => m
      sendEnd m h x g

/-- The decision of a member request (R42, R486, R980); before Jalair is coupled it sends nothing upstream, so the
decision waits (R542, R546). -/
def jctDecide (m : Core) (h : Nat) (e : Env) : Core :=
  match hte m h with
  | none => m
  | some x =>
    let l := x.msg.line
    if reqLost m x then endHte m h
    else if (homeOf m x.epoch l).isNone then refuse (journalProto m x.msg 42) h errUnmapped
    else if uncoupled m then refuse m h errUnmapped
    else if m.fab.cplState ≠ 2 then waitFor m h .decision
    else if !memberSlot m x.epoch x.slot && !slotless x.msg.op then refuse m h errNoSlot
    else if retired m (dirSet l) then refuse m h errUncorr
    else
      let m := lookupRead (tally .dir 1 1 m) false l e
      if retired m (dirSet l) then refuse m h errUncorr
      else match lookupRecover m false h l e with
        | some (k, rl, fm) => recoverStart m h k rl fm
        | none =>
          match dirFind m false l with
          | some k => jctEntry m h k
          | none => jctNone m h e

/-! ### Member writebacks (R489, Table JCT-3) -/

/-- The `CMP` that ends a writeback, to its sender. -/
def wbCmp (m : Core) (h : Nat) (e : Bool) (g : Msg) : Core :=
  send m 16 (some h) e { op := .cmp, dest := g.src, tag := g.tag, htag := BitVec.ofNat 12 h, line := g.line, epoch := e }

/-- The writeback of HTE `h` ends: `CMP` to its sender, its buffer free. -/
def wbEnd (m : Core) (h : Nat) : Core :=
  match hte m h with
  | none => m
  | some x => endHte (freeWb (wbCmp m h x.epoch x.msg) x.wbFrom) h

/-- A writeback that breaks a rule is answered with `CMP`, its data discarded, counted and journaled (R151, R152,
R208). -/
def wbDiscard (m : Core) (h : Nat) (rule : Nat) : Core :=
  match hte m h with
  | none => m
  | some x => wbEnd (countProto m x.msg rule) h

/-- A member writeback that has its HTE; one that a reply has been paired with while it was queued only leaves (R189). -/
def jctWb (m : Core) (h : Nat) (e : Env) : Core :=
  match hte m h with
  | none => m
  | some x =>
    let l := x.msg.line
    if x.ended then endHte m h
    else if uncoupled m then wbEnd m h
    else if (homeOf m x.epoch l).isNone then wbDiscard m h 152
    else
      let m := lookupRead m false l e
      if retired m (dirSet l) then
        if x.msg.op = .wbd then
          andThen (sendUp (freeWb (wbCmp m h x.epoch x.msg) x.wbFrom) h
            { op := .wbd, line := l, data := x.msg.data, poison := true }) h .finish
        else wbEnd m h
      else match lookupRecover m false h l e with
        | some (k, rl, fm) => recoverStart m h k rl fm
        | none =>
          let k := dirFind m false l
          let d := dirEnt m (k.getD 0)
          let s := x.slot.getD 256
          if k.isSome && d.st = .x && d.owner.toNat = s && x.msg.op ≠ .wbs then
            andThen (sendUp (setFin m h k {}) h { op := x.msg.op, line := l, data := x.msg.data, poison := x.msg.poison })
              h .wbDone
          else if x.msg.op = .wbs then
            if k.isSome && d.st = .s && s < 256 && d.vec.getLsbD s then
              let v := d.vec &&& ~~~(vecOf s)
              if v = 0 then
                let m := freeWb (wbCmp m h x.epoch x.msg) x.wbFrom
                andThen (sendUp (setFin m h k {}) h { op := .wbs, line := l }) h .finish
              else wbEnd (setFin m h k { d with vec := v, epoch := x.epoch }) h
            else wbEnd m h
          else wbDiscard m h 151

/-! ### Upstream snoops (R491 to R494, R511) -/

/-- The reply to an upstream snoop: its tag and home tag come back, and its epoch bit (R78). -/
def snoopReply (x : Hte) (op : Op) : Msg :=
  { op := op, dest := x.msg.src, tag := x.msg.tag, htag := x.msg.htag, line := x.msg.line, epoch := x.msg.epoch }

/-- A message of an upstream snoop's transaction at the junction: it carries the snoop's epoch bit, and takes the routes of
the set under which the junction serves the snoop (R78; assumption log, entry 73). -/
def sendSnoop (m : Core) (h : Nat) (x : Hte) (g : Msg) : Core := send m 16 (some h) x.epoch { g with epoch := x.msg.epoch }

/-- An upstream snoop is answered, and its HTE ends. -/
def snoopAnswer (m : Core) (h : Nat) (g : Msg) : Core :=
  match hte m h with
  | none => m
  | some x => modHte (sendSnoop m h x { snoopReply x g.op with status := g.status, data := g.data, poison := g.poison }) h
      fun y => { y with ended := true, done := true, wait := .none, cont := .idle }

/-- The owner member of a snooped line is lost: `RWP` with the dirty flag upstream, and the poisoned writeback after it
(Table ORD-10, R509). -/
def snoopLost (m : Core) (h : Nat) (k : Option Nat) (l : LineAddr) : Core :=
  match hte m h with
  | none => m
  | some x => jctPoison (setFin (sendSnoop m h x { snoopReply x .rwp with status := 1 }) h k {}) h l .finish

/-- What holds a line against an upstream snoop (R492). -/
inductive SnoopCase where
  | act
  | defer
  | pending (dirty : Bool)
  | asI
  deriving DecidableEq, Repr

/-- How an upstream snoop of an opcode meets a line (R492). -/
def snoopCase (m : Core) (h : Nat) (op : Op) (l : LineAddr) : SnoopCase :=
  match m.trk.htes.find? fun x => decide (x.1 ≠ h) && keepsBusy x.2 l with
  | none => .act
  | some (_, x) =>
    if x.awaits.any (fun a => match a with
        | .up _ => true
        | _ => false) then
      match (x.up.map (·.op)).getD .rdc with
      | .rds | .rdo | .upg => if op = .sin then .act else .defer
      | .wbd => .pending true
      | .wbe => .pending false
      | .wbs => .asI
      | _ => .act
    else .defer

/-- The members whose `RDS`, `RDO` or `UPG` for a line is outstanding at the junction (Table JCT-4). -/
def readers (m : Core) (l : LineAddr) : BitVec 256 :=
  m.trk.htes.foldl (fun v x =>
    if (decide (x.2.kind = .active) || decide (x.2.kind = .queued)) && decide (x.2.msg.line = l) && !x.2.done
        && (decide (x.2.msg.op = .rds) || decide (x.2.msg.op = .rdo) || decide (x.2.msg.op = .upg)) then
      match x.2.slot with
      | some s => v ||| vecOf s
      | none => v
    else v) 0

/-- The snoops that have an owner send data to a forward node. -/
def forwards (op : Op) : Bool := decide (op = .sfs) || decide (op = .sfo) || decide (op = .sfc)

/-- An upstream snoop acts by the junction's entry (Table JCT-4, R511). A forward that no home sends, since the entry is I
or S, is answered as in a retired set, so that its requester has data (assumption log, entry 74). -/
def snoopAct (m : Core) (h : Nat) (e : Env) : Core :=
  match hte m h with
  | none => m
  | some x =>
    let l := x.msg.line
    match snoopCase m h x.msg.op l with
    | .defer => waitFor m h .deferred
    | .pending d => snoopAnswer m h { op := .rwp, status := if d then 1 else 0 }
    | .asI => snoopAnswer m h { op := .ria }
    | .act =>
      let m := lookupRead m false l e
      let m := modHte m h fun y => { y with got := none }
      if retired m (dirSet l) then
        andThen ((memberSlots m x.epoch).foldl (fun m s => await (snoop m h l .swp s) h (.swp s)) m) h .snoopData
      else match lookupRecover m false h l e with
        | some (k, rl, fm) => recoverStart m h k rl fm
        | none =>
          let k := dirFind m false l
          let d := dirEnt m (k.getD 0)
          if k.isSome && d.st = .x then
            let o := d.owner.toNat
            let m := modHte m h fun y => { y with key := k }
            if !snoopable m x.epoch o then snoopLost m h k l
            else match x.msg.op with
              | .sfs | .sfo | .sfc =>
                let m := match x.msg.op with
                  | .sfs => setFin m h k { entOf l x.epoch .s with vec := vecOf o }
                  | .sfo => setFin m h k {}
                  | _ => m
                let m := sendH (tally .dir 9 1 m) h x
                  { op := x.msg.op, dest := nodeOf m x.epoch o, tag := BitVec.ofNat 12 h, htag := x.msg.htag, line := l
                    fnode := x.msg.fnode, ftag := x.msg.ftag }
                andThen (await m h (.owner o x.msg.op)) h .snoopAnswer
              | .sin => andThen (sinRound (setFin m h k {}) h l (vecOf o)) h .snoopAnswer
              | _ => andThen (await (snoop (setFin m h k {}) h l .src o) h (.owner o .src)) h .snoopAnswer
          else
            let v := (if k.isSome then d.vec else 0) ||| readers m l
            let m := if k.isSome then setFin m h k {} else m
            andThen (sinRound m h l v) h (if forwards x.msg.op then .snoopData else .snoopAnswer)

/-- `RWP` upstream on a member's `RWP` (R494). Where the member's writeback waits in the snoop's HTE, that HTE goes on to
relay it (Table JCT-3). -/
def snoopRwp (m : Core) (h : Nat) (r : Msg) (e : Env) : Core :=
  match hte m h with
  | none => m
  | some x =>
    match x.held with
    | [] => snoopAnswer (modHte m h fun y => { y with fin := none }) h { op := .rwp, status := r.status }
    | b :: rest =>
      let m := sendSnoop m h x { snoopReply x .rwp with status := r.status }
      let m := modHte m h fun y => { y with msg := b.msg, job := .external, wbFrom := b.wb, held := rest, key := none
                                            fin := none, slot := anySlotOf m x.epoch b.msg.src, wait := .none
                                            cont := .idle, got := none }
      jctWb m h e

/-- The answer of the junction once its members have answered: their reply relayed (R493, R494). -/
def snoopFinish (m : Core) (h : Nat) (e : Env) : Core :=
  match hte m h with
  | none => m
  | some x =>
    match x.got with
    | some r =>
      if r.op = .rwp then snoopRwp m h r e
      else snoopAnswer m h { op := r.op, status := r.status, data := r.data, poison := r.poison }
    | none => snoopAnswer m h { op := .ria }

/-- The junction answers an upstream snoop as a member in M, E or I would by the replies it has: a dirty `DHM`, a clean one,
or none; a forward without data sends its requester poisoned data (R511). -/
def snoopData (m : Core) (h : Nat) (e : Env) : Core :=
  match hte m h with
  | none => m
  | some x =>
    let r : Msg := x.got.getD { op := .ria }
    let data := decide (r.op = .dhm)
    let dirty := data && bit r.status 0
    let dhm : Msg := { op := .dhm, status := BitVec.ofNat 8 (b1 dirty), data := r.data, poison := r.poison }
    if r.op = .rwp then snoopRwp m h r e
    else
      let fwd := forwards x.msg.op
      let fr := freeLine m
      let m := if fwd && !data then fr.2 else m
      let op := if x.msg.op = .sfo then (if dirty then Op.dmo else Op.dex) else Op.dsh
      let m := if !fwd then m else
        sendSnoop m h x { op := op, dest := x.msg.fnode, tag := x.msg.ftag, htag := x.msg.htag, line := x.msg.line
                          data := if data then r.data else fr.1, poison := !data || r.poison }
      match x.msg.op with
      | .sfs => snoopAnswer m h (if dirty then dhm else { op := .rsa })
      | .sfc => snoopAnswer m h { op := .rsa }
      | .sfo => snoopAnswer m h { op := .ria }
      | .sin => snoopAnswer m h (if dirty then dhm else { op := .ria })
      | _ => snoopAnswer m h (if data then dhm else { op := .ria })

end Sys2Proof.Machine
end

