-- ==== Sys2Proof/Machine/Flow.lean ====
section
/-! DEFINITION. How transactions go on: continuations, replies and their pairing with writebacks, chains, completion,
lost slots and expiry (spec/03_coherence_flows.md; spec/04_ordering_races.md, Table ORD-10; spec/06_progress.md, Table
PRG-5). -/

namespace Sys2Proof.Machine

/-! ### Continuations -/

/-- The message that ends a request of the home function (Table COH-4, Table ATM-3, R211, R244). -/
def homeAnswer (m : Core) (h : Nat) : Core :=
  match hte m h with
  | none => m
  | some x =>
    let data (op : Op) : Core := sendEnd m h x { toReq x h op with data := x.buf, poison := x.bufPoison }
    let result (m : Core) : Core := sendEnd m h x
      { toReq x h .dsh with data := atmResult x.msg x.buf, poison := x.bufPoison, status := 1 }
    match x.msg.op with
    | .rds => data (if x.fin.map (·.st) = some .x then .dex else .dsh)
    | .rdo => data .dex
    | .upg => if x.haveBuf then data .dex else sendEnd m h x (toReq x h .gnt)
    | .rdc => data .dsh
    | .atm =>
      if x.atUnit then result m
      else match x.alcIx.or (alcKey m x.msg.line) with
        | none => waitFor m h .heldOrder
        | some i =>
          let d := if x.bufPoison then x.buf else atmLine x.msg x.buf
          let m := modCa m fun c => { c with alc := tset c.alc i { line := x.msg.line, data := d, poison := x.bufPoison } }
          result (modHte m h fun y => { y with alcIx := none })
    | _ => sendEnd m h x (toReq x h .cmp)

/-- The home's own `DEX` with staff to a chain HTE's requester (R173, R185, R186). -/
def chainGrant (m : Core) (h : Nat) : Core :=
  match hte m h with
  | none => m
  | some x => sendEnd m h x { toReq x h .dex with data := x.buf, poison := x.bufPoison, staff := true }

/-- Surrender has ended: X with the tail as owner after its `CMP`, I after a writeback or once the staff had returned; the
staff ends, and the transaction decides again (R182 to R184). -/
def surrendered (m : Core) (h : Nat) : Core :=
  match hte m h with
  | none => m
  | some x =>
    let m := match dirFind m true x.msg.line with
      | none => m
      | some k =>
        let d := dirEnt m k
        if d.st ≠ .k then m else
          let m := if d.staff then staffEnd m else m
          dirWrite m k (if x.surr = some true && d.staff then { d with st := .x, staff := false, epoch := x.epoch } else {})
    waitFor (modHte m h fun y => { y with cont := .idle, key := none, fin := none }) h .decision

/-- The surrender of a victim in K has ended: `SRC` to the tail, or the recall ends (R191). -/
def recallX (m : Core) (h : Nat) : Core :=
  match hte m h with
  | none => m
  | some x =>
    match x.key, x.vline with
    | some k, some l =>
      let d := dirEnt m k
      let m := if d.st = .k && d.staff then staffEnd m else m
      if d.st = .k && x.surr = some true then
        andThen (recallOwner (dirWrite m k { d with st := .x, staff := false, epoch := x.epoch }) h l d.owner.toNat) h
          .recallEnd
      else andThen m h .recallEnd
    | _, _ => m

/-- A recall has ended: the victim's entry is free, its queue goes on, and the request is served as for I (R194). -/
def recallEnd (m : Core) (h : Nat) (e : Env) : Core :=
  match hte m h with
  | none => m
  | some x =>
    let m := match x.key with
      | some k => dirWrite m k {}
      | none => m
    let m := modHte m h fun y => { y with vline := none, haveBuf := false }
    serveI (match x.vline with
      | some l => promote m l
      | none => m) h e

/-- Whether a key names a junction way (R33). -/
def jctWay (m : Core) (k : Nat) : Bool := decide (2 * split m ≤ k % 16)

/-- Whether a slot is named by the slot map of an epoch: its status is not EMPTY (R558). -/
def slotNamed (m : Core) (e : Bool) (s : Nat) : Bool := decide ((slotEnt m e s).status ≠ .empty)

/-- `SWP` for a recovered line to one slot; a slot that is lost already counts as answered, and the memory copy is
poisoned (R347, R350). -/
def sweepSlot (m : Core) (h : Nat) (r : Recov) (s : Nat) : Core :=
  match hte m h with
  | none => m
  | some x =>
    if snoopable m x.epoch s then await (snoop m h r.line .swp s) h (.swp s)
    else
      let m := snoop m h r.line .swp s
      if jctWay m r.key then modHte m h fun y => { y with got := some { op := .dhm, line := r.line, status := 1, poison := true } }
      else memPoison m h r.line

/-- The sweep (R346, R347): waiting reads are answered `ERR` UNCORRECTABLE, and `SWP` goes to every slot that the map names
but the recovering request's own, or to every member slot in junction ways. -/
def sweep (m : Core) (h : Nat) : Core :=
  match hte m h with
  | none => m
  | some x =>
    match x.recov with
    | none => m
    | some r =>
      let m := m.trk.htes.foldl (fun m y =>
        if decide (y.2.kind = .queued) && decide (y.2.msg.line = r.line)
            && (decide (y.2.msg.op = .rds) || decide (y.2.msg.op = .rdo) || decide (y.2.msg.op = .upg)) then
          freeHte (sendH m y.1 y.2 { toReq y.2 y.1 .err with status := BitVec.ofNat 8 errUncorr }) y.1
        else m) m
      let targets := (List.range 256).filter fun s => slotNamed m x.epoch s
        && (!jctWay m r.key || (slotEnt m x.epoch s).member)
      let m := modHte m h fun y => { y with got := none }
      let m := targets.foldl (fun m s =>
        if x.msg.line = r.line && x.slot = some s && clsOf x.msg.op = .req then m else sweepSlot m h r s) m
      andThen m h .recovered

/-- A recovery is counted, raised and journaled (R352). -/
def recoveryNote (m : Core) (r : Recov) : Core :=
  let m := raise (tally .dir 5 1 (rinc m 0x1044 1)) 34
  journal m 0x22 3 (payload [(8, 1), (24, r.key / 16), (8, r.key % 16), (8, b1 r.fromMirror), (16, r.dirty),
    (46, r.line.toNat)])

/-- Recovery has ended (R349, R352): the entry is freed, and the transaction makes its own decision; a local arrival that
recovers entries looks for the next one (R342). -/
def recoveredEnd (m : Core) (h : Nat) (x : Hte) (r : Recov) (e : Env) : Core :=
  let m := if (alcKey m r.line).isSome && !jctWay m r.key then
      alcRelease (alcCheck m r.line e.alcOther) h r.line e.hlcOther
    else m
  let m := recoveryNote (dirWrite m r.key {}) r
  let m := modHte m h fun y => { y with recov := none, cont := .idle }
  let m := if x.msg.line = r.line then m else promote m r.line
  match x.job with
  | .snoop => waitFor m h .deferred
  | _ => waitFor m h .decision

/-- Every reply of a sweep is in (R349). Dirty data of a junction way goes to memory as a `WBD` upstream first (R348,
R509). -/
def recovered (m : Core) (h : Nat) (e : Env) : Core :=
  match hte m h with
  | none => m
  | some x =>
    match x.recov with
    | none => m
    | some r =>
      match x.got with
      | some g =>
        if jctWay m r.key then
          sendUp (modHte m h fun y => { y with got := none }) h
            { op := .wbd, line := r.line, data := g.data, poison := g.poison }
        else recoveredEnd m h x r e
      | none => recoveredEnd m h x r e

/-- One continuation of HTE `h`. -/
def runCont (m : Core) (h : Nat) (x : Hte) (e : Env) : Core :=
  match x.cont with
  | .idle => m
  | .answer => homeAnswer m h
  | .serveI => serveI m h e
  | .finish => endHte m h
  | .chainGrant => chainGrant m h
  | .declined => stashToMem m h e.hlc
  | .surrendered => surrendered m h
  | .recallX => recallX m h
  | .recallEnd => recallEnd m h e
  | .sweep => sweep m h
  | .recovered => recovered m h e
  | .dirFree =>
    match dirFind m true x.msg.line with
    | some k => endHte (dirWrite m k {}) h
    | none => endHte m h
  | .jctRelay => jctRelay m h
  | .jctCleanRead => jctCleanRead m h
  | .jctRelease => jctWriteUp m h x.msg.line .jctReleased
  | .jctReleased => jctReleased m h
  | .jctRecallUp => jctRecallUp m h
  | .jctRecallEnd => jctRecallEnd m h
  | .wbDone => wbEnd m h
  | .jctEmptied => andThen (sendUp m h { op := .wbs, line := x.msg.line }) h .finish
  | .jctWalkUp => jctWriteUp m h x.msg.line .finish
  | .snoopAnswer => snoopFinish m h e
  | .snoopData => snoopData m h e

/-- HTE `h` goes on for as long as it awaits nothing. -/
def advance (e : Env) : Nat → Core → Nat → Core
  | 0, m, _ => m
  | n + 1, m, h =>
    match hte m h with
    | none => m
    | some x =>
      if x.awaits.isEmpty && decide (x.wait = .none) && !x.done && decide (x.cont ≠ .idle)
          && (decide (x.kind = .active) || decide (x.kind = .chain)) then advance e n (runCont m h x e) h
      else m

/-- The `CMP` of a writeback without an HTE of its own, served by HTE `h`; its buffer frees (R264). -/
def heldCmp (m : Core) (h : Nat) (a : Arrival) : Core := freeWb (wbCmp m h (epochFor m a.msg.epoch) a.msg) a.wb

/-- The writebacks that HTE `h` has served are answered once their data has entered the merging buffer (R119, R264). -/
def flushCmps (m : Core) (h : Nat) : Core :=
  match hte m h with
  | none => m
  | some x =>
    if x.awaits.contains .mbIn then m
    else x.cmps.foldl (fun m a => heldCmp m h a) (modHte m h fun y => { y with cmps := [] })

/-- HTE `h`, that is no chain HTE, goes on. -/
def goHolder (m : Core) (h : Nat) (e : Env) : Core := flushCmps (advance e 8 (flushCmps m h) h) h

/-! ### Lost-slot summaries (R571) -/

/-- A line was written poisoned because a slot was lost: it enters the slot's summary. -/
def notePoison (m : Core) (s : Nat) (l : LineAddr) : Core :=
  modDeck m fun d => match tfind d.summaries s with
    | none => d
    | some x => { d with summaries := tset d.summaries s { x with
        poisoned := x.poisoned + 1, lines := if x.lines.length < 8 then x.lines ++ [l] else x.lines } }

/-- A staff ends because a slot was lost: the slot's summary counts it. -/
def noteStaff (m : Core) (s : Nat) : Core :=
  modDeck m fun d => match tfind d.summaries s with
    | none => d
    | some x => { d with summaries := tset d.summaries s { x with staffs := x.staffs + 1 } }

/-! ### Chains -/

/-- A line in K whose staff has returned becomes I once no chain HTE is open (R184). -/
def staffGone (m : Core) (l : LineAddr) : Core :=
  match dirFind m true l with
  | some k => if (dirEnt m k).st = .k && !(dirEnt m k).staff then dirWrite m k {} else m
  | none => m

/-- Once no chain HTE of a line is open, a line whose staff has returned becomes I, and the line's holders that await its
chain HTEs go on (R181, R184). -/
def wakeChains (m : Core) (l : LineAddr) (e : Env) : Core :=
  if !(openChains m l).isEmpty then m else
    m.trk.htes.foldl (fun m x =>
      if keepsBusy x.2 l && x.2.awaits.contains .chains then goHolder (unawait m x.1 .chains) x.1 e else m) (staffGone m l)

/-- The oldest open chain HTE of a line that satisfies `p`. -/
def oldestChain (m : Core) (l : LineAddr) (p : Hte → Bool) : Option (Nat × Hte) :=
  (openChains m l).foldl (fun (b : Option (Nat × Hte)) x =>
    if p x.2 then
      match b with
      | none => some x
      | some y => if x.2.seq < y.2.seq then some x else some y
    else b) none

/-- The tail of a line is lost and no chain HTE is open: the memory copy is poisoned, the line becomes I and the staff
ends (Table ORD-10). -/
def tailLost (m : Core) (h : Nat) (l : LineAddr) (s : Option Nat) : Core :=
  match dirFind m true l with
  | none => m
  | some k =>
    let d := dirEnt m k
    if d.st = .k && some d.owner.toNat = s then
      let m := notePoison (dirWrite (memPoison m h l) k {}) (s.getD 256) l
      if d.staff then noteStaff (staffEnd m) (s.getD 256) else m
    else m

/-- Containment of a chain (Table ORD-10): in chain order, lost members complete, and the first live member behind a
lost one receives `DEX` with poison and staff from the home. -/
def chainContain (e : Env) (l : LineAddr) : Nat → Core → Core
  | 0, m => m
  | n + 1, m =>
    match oldestChain m l fun _ => true with
    | none => m
    | some (h, x) =>
      if x.lost then
        let m := modHte m h fun y => { y with awaits := y.awaits.filter fun a => decide (a = .mbIn), done := true, cont := .idle }
        let m := match x.slot with
          | some s => m.trk.htes.foldl (fun m y =>
              if decide (y.2.kind = .chain) && decide (y.2.msg.line = l) && decide (y.2.pred = some s)
                && decide (x.seq < y.2.seq) then modHte m y.1 fun z => { z with predLost := true } else m) m
          | none => m
        if (openChains m l).isEmpty then wakeChains (tailLost m h l x.slot) l e else chainContain e l n m
      else if x.predLost then
        let m := notePoison (memPoison m h l) (x.pred.getD 256) l
        let m := modHte m h fun y => { y with awaits := y.awaits.filter fun a => decide (a = .mbIn), buf := x.buf
                                              bufPoison := true }
        chainContain e l n (wakeChains (chainGrant m h) l e)
      else m

/-- HTE `h` goes on. When a chain HTE has completed, the chain behind it is contained and the line's holders go on (R181,
R203). -/
def go (m : Core) (h : Nat) (e : Env) : Core :=
  let m := goHolder m h e
  match hte m h with
  | none => m
  | some x =>
    if x.kind = .chain && x.done then wakeChains (chainContain e x.msg.line 4096 m) x.msg.line e else m

/-! ### Writebacks at their decision (R119, R151, R174, R184 to R189) -/

/-- HTE `h` has served a writeback: its `CMP` follows its data into the merging buffer (R264). -/
def servedWb (m : Core) (h : Nat) (a : Arrival) : Core := modHte m h fun y => { y with cmps := y.cmps ++ [a] }

/-- The poison that a writeback's data takes: in a retired set every line is written poisoned (R358). -/
def wbPoison (m : Core) (a : Msg) : Bool := a.poison || retired m (dirSet a.line)

/-- A line's data from a writeback is written to memory; a `WBE` writes none. -/
def wbData (m : Core) (h : Nat) (a : Msg) (f : HlcFault) : Core :=
  if a.op = .wbd then memWrite m h a.line a.data fullMask (wbPoison m a) f else m

/-- The rule that a writeback breaks with which no reply has been paired: on a line in K, R208, otherwise R151. -/
def unpairedRule (m : Core) (l : LineAddr) : Nat :=
  match dirFind m true l with
  | some k => if (dirEnt m k).st = .k then 208 else 151
  | none => 151

/-- A writeback that has paired with nothing is answered with `CMP`, its data discarded, counted and journaled (R151,
R208). -/
def unpaired (m : Core) (h : Nat) (a : Arrival) : Core := heldCmp (countProto m a.msg (unpairedRule m a.msg.line)) h a

/-- The writeback of a line that slot `s` has sent and that HTE `h` can pair with an `RWP`: one that waits in the HTE, or
one in the line's platform queue, whose own HTE then only leaves at its turn (R166, R189). -/
def takeWbOf (m : Core) (h s : Nat) (l : LineAddr) : Option (Arrival × Core) :=
  match hte m h with
  | none => none
  | some x =>
    match takeFirst (fun b : Arrival => decide (anySlotOf m x.epoch b.msg.src = some s) && decide (b.msg.line = l)) x.held with
    | some (b, r) => some (b, modHte m h fun y => { y with held := r })
    | none =>
      match m.trk.htes.find? fun y => decide (y.2.kind = .queued) && decide (y.2.msg.line = l) && !y.2.ended
          && decide (y.2.slot = some s) && (decide (y.2.msg.op = .wbd) || decide (y.2.msg.op = .wbe)) with
      | none => none
      | some (q, y) => some ({ port := y.port, cyc := 0, msg := y.msg, wb := y.wbFrom },
          modHte m q fun z => { z with ended := true, wbFrom := none })

/-- The transaction of HTE `h` goes on as for I: its line's entry becomes I (R188, Table ORD-10). -/
def asI (m : Core) (h : Nat) : Core :=
  match hte m h with
  | none => m
  | some x =>
    if x.vline.isSome || x.recov.isSome then m else
      match x.job with
      | .walk _ => modHte m h fun y => { y with fin := some {}, cont := .finish }
      | _ => modHte m h fun y => { y with fin := some {}, cont := .serveI, haveBuf := false
                                          awaits := y.awaits.filter fun a => match a with
                                            | .reqCmp _ => false
                                            | _ => true }

/-- Whether an HTE serves the junction function. -/
def isJct (m : Core) (x : Hte) : Bool :=
  match x.job with
  | .snoop => true
  | .external => !homeServes m x.epoch x.msg.line x.slot
  | .walk _ => match x.key with
    | some k => decide (2 * split m ≤ k % 16)
    | none => false
  | _ => false

/-- A chain HTE whose predecessor answered `RWP` gets the predecessor's writeback: the home sends `DEX` with staff, from
its data or from memory (R185, R186). -/
def chainPair (m : Core) (q : Nat) (a : Arrival) (e : Env) : Core :=
  match hte m q with
  | none => m
  | some x =>
    let m := tally .trk 8 1 m
    let m := servedWb (wbData m q a.msg e.hlc) q a
    let m := modHte m q fun y => { y with awaits := y.awaits.filter fun b => decide (b = .mbIn), cont := .chainGrant }
    go (if a.msg.op = .wbd then gotData m q a.msg.data a.msg.poison
      else memRead m q x.msg.line .demand (classOf m x.epoch x.msg.line x.slot) e.hlc) q e

/-- Dirty data that a sweep returns, in a `DHM` or a paired `WBD` (R348): the first is written to memory, a second poisoned
and journaled; in junction ways it is kept for the `WBD` upstream. -/
def sweptData (m : Core) (h : Nat) (r : Recov) (g : Msg) (f : HlcFault) : Core :=
  let again := decide (r.dirty ≠ 0)
  let m := if again then journalProto m g 348 else m
  let m := modHte m h fun y => { y with recov := some { r with dirty := r.dirty + 1 } }
  if jctWay m r.key then
    modHte m h fun y => { y with got := some { op := .dhm, line := r.line, status := 1, data := g.data
                                               poison := again || g.poison || (y.got.map (·.poison)).getD false } }
  else memWrite m h r.line g.data fullMask (again || g.poison) f

/-- The recovery that a writeback's own HTE makes of its own line, when slot `s` sent that writeback: an `RWP` of the
slot is paired with it (R189, R348), and its `CMP` follows at its own decision (R349). -/
def ownRecovery (x : Hte) (s : Nat) : Option Recov :=
  x.recov.bind fun r =>
    if x.msg.line = r.line && clsOf x.msg.op = .wbk && x.job = .external && x.slot = some s then some r else none

/-- What a junction HTE makes of the writeback that an `RWP` announced (R486): its data stands for the owner's answer; a
forward's requester is served as for I after the release, so its `CMP` is awaited no more (R188, R190). -/
def jctPair (m : Core) (h : Nat) (x : Hte) (a : Arrival) : Core :=
  let g : Msg := if a.msg.op = .wbd then { op := .dhm, line := a.msg.line, status := 1, data := a.msg.data, poison := a.msg.poison }
    else { op := .wbe, line := a.msg.line }
  let m := modHte (servedWb m h a) h fun y => { y with got := some g }
  if x.awaits.contains (.reqCmp x.msg.src) then
    modHte m h fun y => { y with awaits := y.awaits.erase (.reqCmp x.msg.src), fin := none, cont := .jctRelease }
  else m

/-- HTE `h` pairs an `RWP` of slot `s` with the slot's writeback (R182, R188, R189, R348). -/
def pairWb (m : Core) (h s : Nat) (a : Arrival) (e : Env) : Core :=
  match hte m h with
  | none => m
  | some x =>
    let staff := x.awaits.contains (.wb s true)
    let m := tally .trk 8 1 m
    let m := modHte m h fun y => { y with awaits := y.awaits.filter fun b => match b with
      | .wb t _ => decide (t ≠ s)
      | _ => true }
    match x.recov with
    | some r => go (servedWb (if a.msg.op = .wbd then sweptData m h r a.msg e.hlc else m) h a) h e
    | none =>
      if isJct m x then go (jctPair m h x a) h e
      else
        let m := servedWb (wbData m h a.msg e.hlc) h a
        if staff then go (modHte m h fun y => { y with surr := some false }) h e
        else go (asI m h) h e

/-- R184: a `WBD` with staff from a holder without a successor: data to memory, `CMP`, and the line becomes I once every
chain HTE has completed, which keep it busy until then (R268). `h` is the HTE that takes the data. -/
def staffReturn (m : Core) (h k : Nat) (a : Arrival) (e : Bool) (f : HlcFault) : Core :=
  let m := servedWb (staffEnd (wbData m h a.msg f)) h a
  let m := dirWrite m k { dirEnt m k with staff := false, epoch := e }
  (openChains m a.msg.line).foldl (fun m x => modHte m x.1 fun y => { y with holds := true }) m

/-- A writeback to a line in K, with an HTE of its own (Table ORD-1, R184, R185, R208). -/
def homeWbK (m : Core) (h k : Nat) (x : Hte) (e : Env) : Core :=
  let g := x.msg
  let a : Arrival := { port := x.port, cyc := 0, msg := g, wb := x.wbFrom }
  if g.op = .wbs then wbEnd m h
  else match oldestChain m g.line fun y => decide (y.pred = some (x.slot.getD 256)) with
    | some (q, y) =>
      let m := endHte (modHte m h fun z => { z with wbFrom := none, ended := true }) h
      if chainAwaitsWb y then chainPair m q a e else modHte m q fun z => { z with held := z.held ++ [a] }
    | none =>
      if g.op = .wbd && g.staff then
        let m := staffReturn (modHte m h fun z => { z with wbFrom := none, ended := true }) h k a x.epoch e.hlc
        andThen (awaitChains m h g.line) h .dirFree
      else wbDiscard m h 208

/-- The home function's writeback with an HTE of its own (Table COH-5, Table ORD-1, R119, R152, R357, R358, R574): its `CMP`
follows its data into the merging buffer. One that a reply has been paired with while it was queued only leaves (R189). -/
def homeWb (m : Core) (h : Nat) (e : Env) : Core :=
  match hte m h with
  | none => m
  | some x =>
    let l := x.msg.line
    let g := x.msg
    let write (m : Core) : Core := andThen (wbData m h g e.hlc) h .wbDone
    if x.ended then endHte m h
    else if homeOf m x.epoch l ≠ some (nodeId m) || capacity m ≤ 64 * llaOf m x.epoch l then wbDiscard m h 152
    else if uncoupled m then write m
    else
      let m := lookupRead (tally .dir 1 1 m) true l e
      if retired m (dirSet l) then write m
      else match lookupRecover m true h l e with
        | some (k, rl, fm) => recoverStart m h k rl fm
        | none =>
          let s := x.slot.getD 256
          match dirFind m true l with
          | none => if g.op = .wbs then wbEnd m h else wbDiscard m h 151
          | some k =>
            let d := dirEnt m k
            match d.st with
            | .x =>
              if g.op = .wbs then wbEnd m h
              else if d.owner.toNat = s then write (setFin m h (some k) {})
              else wbDiscard m h 151
            | .s =>
              if g.op ≠ .wbs then wbDiscard m h 151
              else if s < 256 && d.vec.getLsbD s then
                let v := d.vec &&& ~~~(vecOf s)
                wbEnd (setFin m h (some k) (if v = 0 then {} else { d with vec := v, epoch := x.epoch })) h
              else wbEnd m h
            | .k => homeWbK m h k x e
            | _ => if g.op = .wbs then wbEnd m h else wbDiscard m h 151

/-- A `WBD` or `WBE` decided at once in the home function (R167). -/
def homeWbAtOnce (m : Core) (a : Arrival) (e : Env) : Core :=
  let l := a.msg.line
  match wbTaker m l a.msg.src with
  | some (h, x) =>
    let s := (anySlotOf m x.epoch a.msg.src).getD 256
    if x.awaits.contains (.wb s false) || x.awaits.contains (.wb s true) then pairWb m h s a e
    else modHte m h fun y => { y with held := y.held ++ [a] }
  | none =>
    let s := anySlotOf m (epochFor m a.msg.epoch) a.msg.src
    match oldestChain m l fun y => y.pred.isSome && decide (y.pred = s) with
    | some (q, y) =>
      if chainAwaitsWb y then chainPair m q a e else modHte m q fun z => { z with held := z.held ++ [a] }
    | none =>
      match lineHolder m l, dirFind m true l with
      | some (h, _), some k =>
        if (dirEnt m k).st = .k && a.msg.op = .wbd then
          wakeChains (goHolder (staffReturn m h k a (epochFor m a.msg.epoch) e.hlc) h e) l e
        else unpaired m h a
      | some (h, _), none => unpaired m h a
      | none, _ => unpaired m 0 a

/-- A member writeback decided at once in the junction function (R489, R494). -/
def jctWbAtOnce (m : Core) (a : Arrival) (e : Env) : Core :=
  match wbTaker m a.msg.line a.msg.src with
  | none => heldCmp (countProto m a.msg 151) 0 a
  | some (h, x) =>
    let s := (anySlotOf m x.epoch a.msg.src).getD 256
    if x.awaits.contains (.wb s false) then pairWb m h s a e
    else modHte m h fun y => { y with held := y.held ++ [a] }

/-! ### Replies (R108, R150, R153, R207, R284, R483, R979) -/

/-- The HTE that a reply names: without a junction function, by its home tag (R161); with one, as R483 says. -/
def replyHte (m : Core) (g : Msg) : Nat :=
  if !isJunction m then g.htag.toNat
  else if g.op = .cmp then
    if homeOf m (epochFor m g.epoch) g.line = some g.src && g.src ≠ nodeId m then g.tag.toNat else g.htag.toNat
  else g.tag.toNat

/-- The thing that HTE `x` awaits from a slot. -/
def awaitOf (x : Hte) (s : Nat) : Option Await :=
  x.awaits.find? fun a => match a with
    | .ria t => decide (t = s)
    | .owner t _ => decide (t = s)
    | .acc t => decide (t = s)
    | .ssu t => decide (t = s)
    | .swp t => decide (t = s)
    | _ => false

/-- Whether Table OLF-8 allows a reply to what is awaited. -/
def legalReply (a : Await) (g : Msg) : Bool :=
  match a, g.op with
  | .ria _, .ria | .ria _, .rwp => true
  | .ria _, .dhm => bit g.status 0
  | .owner _ .sfs, .rsa | .owner _ .sfs, .dhm | .owner _ .sfs, .rwp => true
  | .owner _ .sfo, .ria | .owner _ .sfo, .rwp => true
  | .owner _ .sfc, .rsa | .owner _ .sfc, .rwp => true
  | .owner _ .src, .dhm | .owner _ .src, .ria | .owner _ .src, .rwp => true
  | .acc _, .acc | .acc _, .dec => true
  | .ssu _, .rwp => g.staff
  | .ssu _, .cmp => g.staff
  | .swp _, .ria | .swp _, .dhm | .swp _, .rwp => true
  | _, _ => false

/-- `DHM` in the home function: what becomes of its data (Table COH-4, R113, R122, R123, R194, R348). A sweep's clean `DHM`
is discarded, and so is data that a whole-line write replaces; a partial write lies over the data. -/
def homeDhm (m : Core) (h : Nat) (x : Hte) (a : Await) (g : Msg) (f : HlcFault) : Core :=
  let write (m : Core) (l : LineAddr) : Core := memWrite m h l g.data fullMask g.poison f
  match x.recov, x.vline with
  | some r, _ => if bit g.status 0 then sweptData m h r g f else m
  | none, some v => write m v
  | none, none =>
    match x.job, x.msg.op, a with
    | .walk _, _, _ => write m x.msg.line
    | _, .wrl, _ | _, .wst, _ => m
    | _, .wrp, .ria _ => memWrite m h x.msg.line g.data (~~~x.msg.mask) g.poison f
    | _, .atm, .owner _ _ => gotData m h g.data g.poison
    | _, .rdo, .ria _ | _, .upg, .ria _ | _, .atm, .ria _ =>
      modHte (write m x.msg.line) h fun y => { y with cont := .serveI, haveBuf := false }
    | _, _, _ => write m x.msg.line

/-- An `RWP` from slot `s`: the slot's writeback is awaited, or paired where it has arrived (R189); an upstream snoop's HTE
passes the `RWP` on once its members have answered (R494). -/
def onRwp (m : Core) (h s : Nat) (a : Await) (g : Msg) (e : Env) : Core :=
  match hte m h with
  | none => m
  | some x =>
    if x.job = .snoop && x.recov.isNone then go (modHte m h fun y => { y with got := some g }) h e
    else
      let staff := match a with
        | .ssu _ => true
        | _ => false
      match ownRecovery x s with
      | some r =>
        let m := tally .trk 8 1 m
        go (if x.msg.op = .wbd then sweptData m h r x.msg e.hlc else m) h e
      | none =>
        let m := modHte m h fun y => { y with awaits := y.awaits ++ [.wb s staff] }
        match takeWbOf m h s (awaitLine x) with
        | none => m
        | some (b, m) => pairWb m h s b e

/-- A reply from slot `s` to what HTE `h` awaits from it. -/
def takeReply (m : Core) (h s : Nat) (a : Await) (g : Msg) (e : Env) : Core :=
  match hte m h with
  | none => m
  | some x =>
    let m := unawait m h a
    match g.op with
    | .rwp => onRwp m h s a g e
    | .acc =>
      go (setFin m h x.key { entOf x.msg.line x.epoch .x with owner := BitVec.ofNat 8 s }) h e
    | .dec => go (modHte m h fun y => { y with cont := .declined }) h e
    | .cmp => go (modHte m h fun y => { y with surr := some true }) h e
    | .dhm =>
      if isJct m x && x.recov.isNone then
        let keep : Bool := match x.got with
          | some r => r.op = .dhm && bit r.status 0
          | none => false
        go (if keep then m else modHte m h fun y => { y with got := some g }) h e
      else go (homeDhm m h x a g e.hlc) h e
    | .ria =>
      match a with
      | .ria _ | .swp _ => go m h e
      | _ => go (if isJct m x && x.recov.isNone then modHte m h fun y => { y with got := some g } else m) h e
    | _ => go (if isJct m x && x.recov.isNone then modHte m h fun y => { y with got := some g } else m) h e

/-- A reply that is discarded, counted and journaled. -/
def dropReply (m : Core) (g : Msg) (rule : Nat) : Core := countProto m g rule

/-- A reply of an upstream transaction (R481, R483, R488, R512): data from a node other than the home is acknowledged
with `CMP` to the home (R74). -/
def upReply (m : Core) (h : Nat) (x : Hte) (n : NodeId) (g : Msg) (e : Env) : Core :=
  let data := decide (g.op = .dsh) || decide (g.op = .dex) || decide (g.op = .dmo)
  let m := if data && g.src ≠ n then
      send m 16 (some h) x.upEpoch { op := .cmp, dest := n, tag := g.tag, htag := g.htag, line := g.line, epoch := x.upEpoch }
    else m
  go (modHte (unawait m h (.up n)) h fun y => { y with reply := some g }) h e

/-- The home that an HTE awaits an upstream reply of. -/
def upHome (x : Hte) : Option NodeId :=
  x.awaits.findSome? fun a => match a with
    | .up n => some n
    | _ => none

/-- Whether an upstream request allows a reply (Table OLF-8). -/
def legalUp (x : Hte) (g : Msg) : Bool :=
  match (x.up.map (·.op)).getD .rds, g.op with
  | .rds, .dsh | .rds, .dex | .rdo, .dex | .rdo, .dmo | .rdc, .dsh => true
  | .upg, .gnt | .upg, .dex | .upg, .dmo => true
  | .wrl, .cmp | .wrp, .cmp | .fls, .cmp | .wbd, .cmp | .wbe, .cmp | .wbs, .cmp => true
  | .atm, .dsh => bit g.status 0
  | .wbd, .err | .wbe, .err | .wbs, .err => false
  | _, .err => true
  | _, _ => false

/-- A coherence reply that has arrived at Jalair (R108, R150, R153, R173, R207, R209, R284, R483, R979). -/
def cohReply (m : Core) (g : Msg) (e : Env) : Core :=
  let h := replyHte m g
  match hte m h with
  | none => stray m g
  | some x =>
    if x.kind = .quarantined then tally .trk 9 1 (dropReply m g 284)
    else match upHome x with
      | some n =>
        if legalUp x g && (clsOf g.op = .dat || g.src = n) then
          if g.epoch ≠ x.upEpoch then dropReply m g 207 else upReply m h x n g e
        else cohOther m h x g
      | none => cohOther m h x g
where
  /-- A reply that nothing awaits (R153, R209, R979). -/
  stray (m : Core) (g : Msg) : Core :=
    if g.op = .cmp then (if g.staff then dropReply m g 209 else countRule m 153) else countRule m 979
  /-- The reply of a chain HTE's predecessor or requester (R173, R185). -/
  cohChain (m : Core) (h : Nat) (x : Hte) (g : Msg) : Core :=
    let s := anySlotOf m x.epoch g.src
    if g.op = .cmp && g.staff && g.src = x.msg.src then go (endHte (unawait m h .staffCmp) h) h e
    else if g.op = .rwp && s.isSome && x.pred = s then
      let t := s.getD 256
      let m := modHte (unawait m h .staffCmp) h fun y => { y with awaits := y.awaits ++ [.wb t true] }
      match takeWbOf m h t x.msg.line with
      | none => m
      | some (b, m) => chainPair m h b e
    else if x.pred = s && g.op ≠ .cmp then dropReply m g 150
    else stray m g
  /-- A reply to a snoop, a requester's `CMP`, or what a chain HTE awaits. -/
  cohOther (m : Core) (h : Nat) (x : Hte) (g : Msg) : Core :=
    let s := anySlotOf m x.epoch g.src
    if g.epoch ≠ x.epoch then dropReply m g 207
    else if g.op = .cmp && !g.staff && x.awaits.contains (.reqCmp g.src) then go (unawait m h (.reqCmp g.src)) h e
    else if x.kind = .chain && x.awaits.contains .staffCmp then cohChain m h x g
    else match s.bind (awaitOf x) with
      | none => stray m g
      | some a => if legalReply a g then takeReply m h (s.getD 256) a g e else dropReply m g 150

/-! ### Completion (R106, R165) -/

/-- Whether a message of HTE `h` still waits for its flit. -/
def unsent (m : Core) (h : Nat) : Bool := m.ports.any fun p => p.2.txq.any fun t => decide (t.owner = some h)

/-- A line that a channel's groom must leave is visited again at the end of the pass, once; the second time it is counted as
skipped (R464). -/
def groomLater (m : Core) (ch lla : Nat) (again : Bool) : Core :=
  if again then rinc m 0x184C 1
  else { m with mem := { m.mem with groomSkip := tput [] m.mem.groomSkip ch (tget [] m.mem.groomSkip ch ++ [lla]) } }

/-- The engine whose job an HTE did sees it end (R320, R476). -/
def jobEnd (m : Core) (x : Hte) (expired : Bool) : Core :=
  match x.job with
  | .walk n | .recover _ (some n) => modDeck m fun d => { d with walkOut := d.walkOut.erase n }
  | .groom ch lla again => if expired then groomLater m ch lla again else m
  | _ => m

/-- An expired HTE is quarantined (R283): it holds no line and no ALC entry and awaits nothing. -/
def quarantine (m : Core) (h : Nat) : Core :=
  match hte m h with
  | none => m
  | some x =>
    let m := x.held.foldl (fun m a => unpaired m h a) (x.cmps.foldl (fun m a => heldCmp m h a) m)
    let m := modHte m h fun y => { y with kind := .quarantined, awaits := [], wait := .none, cont := .idle, done := true
                                          key := none, fin := none, vline := none, recov := none, held := [], cmps := []
                                          alcIx := none, adm := m.stmp }
    let m := promote (jobEnd m x true) x.msg.line
    match x.vline, x.recov with
    | some l, _ => promote m l
    | _, some r => promote m r.line
    | _, _ => m

/-- HTE `h` completes: the next directory state is written, held writebacks that paired with nothing are answered, the
HTE frees, and the heads of the lines it kept busy go on (R106, R151, R165, R301). -/
def complete (m : Core) (h : Nat) : Core :=
  match hte m h with
  | none => m
  | some x =>
    if !x.done || !x.awaits.isEmpty || decide (x.kind = .quarantined) || unsent m h
        || m.trk.atOnce.any (fun a => decide (a.msg.line = x.msg.line)) then m else
      let m := match x.key, x.fin with
        | some k, some d => dirWrite m k d
        | _, _ => m
      let m := x.held.foldl (fun m a => unpaired m h a) (x.cmps.foldl (fun m a => heldCmp m h a) m)
      if x.expired then quarantine m h else promote (freeHte (jobEnd m x false) h) x.msg.line

/-! ### Lost slots (R203, Table ORD-10) -/

/-- A slot lost while its `SWP` reply is awaited counts as answered, and the memory copy of the line is written poisoned:
in junction ways, by the `WBD` upstream (R350, R509). -/
def sweptLost (m : Core) (h : Nat) (r : Recov) (s : Nat) : Core :=
  let m := notePoison m s r.line
  if jctWay m r.key then modHte m h fun y => { y with got := some { op := .dhm, line := r.line, status := 1, poison := true } }
  else memPoison m h r.line

/-- HTE `h` stops awaiting slot `s`, which is lost. -/
def lostStep (m : Core) (h s : Nat) (e : Env) : Core :=
  match hte m h with
  | none => m
  | some x =>
    let l := (x.vline.getD x.msg.line)
    let jct := isJct m x
    let act (m : Core) (a : Await) : Core :=
      let m := unawait m h a
      match a with
      | .ria _ => m
      | .owner _ op =>
        if jct then
          let m := modHte m h fun y => { y with got := some { op := .dhm, line := l, status := 1, poison := true } }
          if x.job = .snoop then snoopLost m h x.key l
          else if op = .src then m
          else modHte m h fun y => { y with cont := .jctRelease, awaits := y.awaits.erase (.reqCmp x.msg.src) }
        else asI (notePoison (memPoison m h l) s l) h
      | .wb _ true => modHte (noteStaff (notePoison (memPoison m h l) s l) s) h fun y => { y with surr := some false }
      | .wb _ false =>
        match x.recov with
        | some r => sweptLost m h r s
        | none =>
          if jct then
            modHte m h fun y => { y with
              got := some { op := .dhm, line := l, status := 1, poison := true }
              cont := if y.awaits.contains (.reqCmp x.msg.src) then .jctRelease else y.cont
              awaits := y.awaits.erase (.reqCmp x.msg.src) }
          else asI (notePoison (memPoison m h l) s l) h
      | .acc _ => modHte m h fun y => { y with cont := .declined }
      | .ssu _ => modHte (noteStaff (notePoison (memPoison m h l) s l) s) h fun y => { y with surr := some false }
      | .swp _ =>
        match x.recov with
        | some r => sweptLost m h r s
        | none => m
      | _ => m
    let mine := x.awaits.filter fun a => match a with
      | .ria t => decide (t = s)
      | .owner t _ => decide (t = s)
      | .wb t _ => decide (t = s)
      | .acc t => decide (t = s)
      | .ssu t => decide (t = s)
      | .swp t => decide (t = s)
      | .reqCmp n => decide (anySlotOf m x.epoch n = some s)
      | _ => false
    go (mine.foldl act m) h e

/-- Whether a chain HTE's requester is the tail of its line: when it is lost or expires, the line is held until the chain
before it has ended (R268). -/
def isTail (m : Core) (x : Hte) : Bool :=
  match dirFind m true x.msg.line with
  | some k => decide ((dirEnt m k).st = .k) && decide (some (dirEnt m k).owner.toNat = x.slot)
  | none => false

/-- The home completes every step that awaits slot `s` (R203, R205): queued requests of the slot leave without a
reply, chains are contained, and every awaited reply is taken as Table ORD-10 states. -/
def slotLost (m : Core) (s : Nat) : Core :=
  let m := m.trk.htes.foldl (fun m x =>
    if decide (x.2.kind = .queued) && decide (x.2.slot = some s) && decide (clsOf x.2.msg.op = .req) then
      freeHte m x.1 else m) m
  let m := m.trk.htes.foldl (fun m x =>
    if decide (x.2.kind = .chain) && !x.2.done then
      modHte m x.1 fun y => { y with lost := y.lost || decide (y.slot = some s)
                                     holds := y.holds || (decide (y.slot = some s) && isTail m y)
                                     predLost := y.predLost || decide (y.pred = some s) }
    else m) m
  let lines := (m.trk.htes.filter fun x => decide (x.2.kind = .chain) && !x.2.done).map fun x => x.2.msg.line
  let m := lines.foldl (fun m l => chainContain Env.clean l 4096 m) m
  (m.trk.htes.filter fun x => decide (x.2.kind = .active)).foldl (fun m x => lostStep m x.1 s Env.clean) m

/-! ### Expiry (R281 to R283, Table PRG-5) -/

/-- The awaited-step code of Table RGF-10, word 6. -/
def awaitedCode (x : Hte) : Nat :=
  match x.awaits with
  | [] => if x.wait = .none || x.wait = .decision then 0 else 1
  | a :: _ => match a with
    | .ria _ => 2 | .owner _ _ => 3 | .reqCmp _ => 4 | .wb _ _ => 5 | .acc _ => 6 | .ssu _ => 7 | .staffCmp => 8
    | .unit => 9 | .mem => 10 | .swp _ => 11 | .up _ => 12 | .chains => 7 | .mbIn => 1 | .flush => 10

/-- `ERR` TIMEOUT to the requester of an expired request, `CMP` to the sender of an expired writeback, unless the ending
message has been sent. -/
def expireAnswer (m : Core) (h : Nat) (x : Hte) : Core :=
  if x.ended then m
  else match x.job with
    | .external | .dump _ | .ttd =>
      if clsOf x.msg.op = .wbk then freeWb (wbCmp m h x.epoch x.msg) x.wbFrom
      else sendH m h x { toReq x h .err with status := BitVec.ofNat 8 errTimeout }
    | _ => m

/-- The slots whose `RIA` an HTE still awaits. -/
def silent (x : Hte) : BitVec 256 :=
  x.awaits.foldl (fun v a => match a with
    | .ria s => v ||| vecOf s
    | _ => v) 0

/-- Who stays in the vector when a round expires: the slots that did not answer, and the requester of an `RDO` or `UPG`,
which was not asked (Table PRG-5). -/
def staysIn (x : Hte) : BitVec 256 :=
  silent x ||| (if x.vline.isNone && (decide (x.msg.op = .rdo) || decide (x.msg.op = .upg)) then
    (x.slot.map vecOf).getD 0 else 0)

/-- A junction HTE that expires, or whose step was lost, sends the poisoned `WBD` upstream and keeps its line until the
`CMP` arrives, when its entry frees (R487, R509); then it is quarantined. -/
def expireUp (m : Core) (h : Nat) (l : LineAddr) (k : Option Nat) : Core :=
  let m := modHte m h fun y => { y with awaits := [], recov := none, expired := true, wait := .none, key := k
                                        fin := k.map fun _ => {} }
  go (jctPoison m h l .finish) h Env.clean

/-- The end of a recovery whose replies are missing at the age limit (R350): the line poisoned and the entry freed. The
HTE's own request is answered if it is for the line; otherwise the HTE goes on to its own decision. -/
def expireRecov (m : Core) (h : Nat) (x : Hte) (r : Recov) : Core :=
  let mine := decide (x.msg.line = r.line)
  let m := recoveryNote (if mine then expireAnswer m h x else m) r
  if jctWay m r.key then
    if mine then expireUp (modHte m h fun y => { y with ended := true }) h r.line (some r.key)
    else
      let m := modHte m h fun y => { y with
        awaits := [], got := some { op := .dhm, line := r.line, status := 1, poison := true } }
      go m h Env.clean
  else
    let m := modCa m fun c => { c with alc := c.alc.filter fun y => decide (y.2.line ≠ r.line) }
    let m := dirWrite (memPoison m h r.line) r.key {}
    if mine then quarantine m h
    else
      let m := modHte m h fun y => { y with awaits := y.awaits.filter (fun a => decide (a = .mbIn)), recov := none, cont := .idle }
      waitFor (promote m r.line) h .decision

/-- An expired atomic gives up the ALC entry that it has not filled; a line that it had recalled goes back to memory and
its entry frees (R246, R411). -/
def expireAtm (m : Core) (h : Nat) (x : Hte) : Core :=
  if x.alcIx.isNone || !x.haveBuf then m else
    let m := memWrite m h x.msg.line x.buf fullMask x.bufPoison .clean
    match x.key, x.fin with
    | some k, some _ => dirWrite m k {}
    | _, _ => m

/-- The outcome of an expired transaction by what it awaited (Table PRG-5, R246, R476). -/
def expireState (m : Core) (h : Nat) (x : Hte) : Core :=
  let l := x.vline.getD x.msg.line
  let jct := isJct m x
  let key := if x.vline.isSome then x.key else dirFind m (!jct) l
  let poisonI (m : Core) : Core :=
    let m := expireAnswer m h x
    if jct then expireUp (modHte m h fun y => { y with ended := true }) h l key
    else quarantine (match key with
      | some k => dirWrite (memPoison m h l) k {}
      | none => memPoison m h l) h
  let given (m : Core) : Core := match x.key, x.fin with
    | some k, some d => dirWrite m k d
    | _, _ => m
  let ends (m : Core) : Core := quarantine (expireAnswer m h x) h
  if x.awaits.any (fun a => match a with
      | .ria _ => true
      | _ => false) then
    let m := modCa m fun c => { c with mbWait := c.mbWait.filter fun w => !(decide (w.hte = h) && w.req) }
    ends (match key with
      | some k =>
        let v := (dirEnt m k).vec &&& staysIn x
        dirWrite m k (if v = 0 then {} else { dirEnt m k with vec := v, epoch := x.epoch })
      | none => m)
  else match (x.awaits.filter fun a => match a with
      | .owner _ _ | .wb _ _ | .acc _ | .unit | .up _ => true
      | _ => false).head?.or (x.awaits.find? fun a => match a with
      | .reqCmp _ => true
      | _ => false) with
    | some (.owner _ _) => poisonI m
    | some (.wb _ staff) =>
      let staffed := staff && (match key with
        | some k => (dirEnt m k).staff
        | none => false)
      poisonI (if staffed then staffEnd m else m)
    | some (.acc t) =>
      let m := memPoison m h l
      ends (match x.key with
        | some k => dirWrite m k { entOf l x.epoch .x with owner := BitVec.ofNat 8 t }
        | none => m)
    | some (.reqCmp _) => quarantine (given m) h
    | some .unit =>
      ends (modAtm m fun a => { a with units := a.units.map fun u => (u.1, u.2.map fun o =>
        if o.hte = h then { o with dropped := true } else o) })
    | some (.up _) => ends (if clsOf x.msg.op = .wbk then given m else m)
    | _ => if x.ended then quarantine (given m) h else ends (expireAtm m h x)

/-- TRK.TIMEOUT.limit in STMP ticks (R280). -/
def ageLimit (m : Core) : Nat := 100 * rfld m 0xC00 19 0

/-- Whether an HTE's age has passed the limit (R281). -/
def aged (m : Core) (x : Hte) : Bool := decide (ageLimit m < m.stmp - x.adm)

/-- An expiry is counted, raised and journaled (R282). -/
def expiryNote (m : Core) (h : Nat) (x : Hte) : Core :=
  let m := tally .trk 6 1 (raise (rinc m 0xC14 1) 33)
  journal m 0x20 3 (payload [(12, h), (46, x.msg.line.toNat), (8, awaitedCode x), (16, x.msg.src.toNat),
    (8, x.slot.getD 0)])

/-- Whether a transaction awaits a surrender: the reply to `SSU`, or the chain HTEs (R180, R181). -/
def surrenders (x : Hte) : Bool :=
  x.recov.isNone && (decide (x.cont = .surrendered) || decide (x.cont = .recallX)) && x.awaits.any fun a => match a with
    | .ssu _ | .chains => true
    | _ => false

/-- What an HTE does that has passed its age limit (Table PRG-5): a chain HTE is contained as for a lost slot; a
surrendering transaction decides again, the line in I; the others end. -/
def expireBy (m : Core) (h : Nat) (x : Hte) : Core :=
  if x.kind = .chain then
    let m := modHte (expireAnswer m h x) h fun y => { y with lost := true, expired := true, ended := true
                                                             holds := y.holds || isTail m y }
    chainContain Env.clean x.msg.line 4096 m
  else if x.kind = .queued then quarantine (expireAnswer m h x) h
  else match x.recov with
    | some r => expireRecov m h x r
    | none =>
      if surrenders x then
        let m := modHte (memPoison m h (x.vline.getD x.msg.line)) h fun y => { y with
          awaits := y.awaits.filter (fun a => decide (a = .mbIn)), surr := some false, adm := m.stmp }
        go m h Env.clean
      else expireState m h x

/-- HTE_EXPIRY: HTE `h` has passed its age limit (R280 to R282). An HTE that awaits nothing more completes normally (R285);
one that has expired and still awaits the upstream `CMP` of its poisoned line is quarantined after a further limit. -/
def expire (m : Core) (h : Nat) : Core :=
  match hte m h with
  | none => m
  | some x =>
    if x.kind = .quarantined || (x.done && x.awaits.isEmpty) || !aged m x then m
    else if x.expired then (if x.kind = .chain || !decide (2 * ageLimit m < m.stmp - x.adm) then m else quarantine m h)
    else expireBy (expiryNote m h x) h x

/-- QUARANTINE_END: a quarantined HTE frees after one further age-limit period (R283). -/
def quarantineEnd (m : Core) (h : Nat) : Core :=
  match hte m h with
  | none => m
  | some x => if x.kind = .quarantined && decide (ageLimit m ≤ m.stmp - x.adm) then freeHte m h else m

end Sys2Proof.Machine
end

