-- ==== Sys2Proof/Machine/Walk.lean ====
section
/-! DEFINITION. The directory's engines (spec/07_directory_deck.md): initialisation, MBIST, the mirror posting buffers,
the walk, the Deck groom, the leaky buckets and row sparing. -/

namespace Sys2Proof.Machine

/-- Whether an order of a kind is pending for a slot. -/
def ordered (m : Core) (k : WalkKind) (s : Nat) : Bool :=
  m.deck.orders.any fun o => decide (o.kind = k) && decide (o.slot = s)

/-- Whether a pending order concerns an entry (Table DIR-5). -/
def concerns (m : Core) (x : DirEnt) : Bool :=
  m.deck.orders.any fun o =>
    match o.kind, x.st with
    | .held, .i => x.homeHeld
    | .held, _ => false
    | _, .s => x.vec.getLsbD (o.slot % 256)
    | _, .x => decide (x.owner.toNat = o.slot)
    | _, .k => decide (x.owner.toNat = o.slot)
    | _, _ => false

/-- The slots of a vector for which an order of a kind is pending. -/
def orderedIn (m : Core) (k : WalkKind) (v : BitVec 256) : BitVec 256 :=
  m.deck.orders.foldl (fun a o => if o.kind = k && v.getLsbD o.slot then a ||| vecOf o.slot else a) 0

/-- A walk arrival acts on the entry that its decision finds (R321, R322, Table DIR-5, R509). -/
def walkAct (m : Core) (h : Nat) : Core :=
  match hte m h with
  | none => m
  | some x =>
    let l := x.msg.line
    let home := (dirFind m true l).isSome
    match (match dirFind m true l with
      | some k => some k
      | none => dirFind m false l) with
    | none => endHte m h
    | some k =>
      let d := dirEnt m k
      let o := d.owner.toNat
      let m := modHte m h fun y => { y with key := some k }
      match d.st with
      | .s =>
        let lost := orderedIn m .lost d.vec
        let clear := orderedIn m .clear d.vec &&& ~~~lost
        if lost ||| clear = 0 then endHte m h else
          let v := d.vec &&& ~~~(lost ||| clear)
          let m := setFin m h (some k) (if v = 0 then {} else { d with vec := v, epoch := x.epoch })
          andThen (sinRound m h l clear) h (if v = 0 && !home then .jctEmptied else .finish)
      | .x =>
        if ordered m .lost o then
          let m := notePoison (setFin m h (some k) {}) o l
          if home then andThen (memPoison m h l) h .finish else jctPoison m h l .finish
        else if ordered m .clear o then
          let m := setFin m h (some k) {}
          if home then andThen (recallOwner m h l o) h .finish else jctSrc m h l o .jctWalkUp
        else endHte m h
      | .k =>
        if ordered m .lost o then
          let m := noteStaff (notePoison (memPoison m h l) o l) o
          let m := if d.staff then staffEnd m else m
          andThen (awaitChains (dirWrite m k { d with staff := false, epoch := x.epoch }) h l) h .dirFree
        else if ordered m .clear o then surrender m h l o .surrendered
        else endHte m h
      | .i =>
        if d.homeHeld && heldPending m then andThen (memPoison (setFin m h (some k) {}) h l) h .finish
        else endHte m h
      | .u => endHte m h

/-- A walk arrival at its decision: it reads the set, and an entry that needs recovery is recovered first (R321, R342). -/
def walkDecide (m : Core) (h : Nat) (e : Env) : Core :=
  match hte m h with
  | none => m
  | some x =>
    let set := dirSet x.msg.line
    let m := deckRead (tally .dir 6 1 m) allWays set false e
    if retired m set then endHte m h
    else match recoverable m h set (inWays allWays e) with
      | some (k, l, fm) => recoverStart m h k l fm
      | none => walkAct m h

/-- The local arrival that recovers the entries of a set, at its decision: the first entry that its read finds bad, or none
(R342). -/
def recoverDecide (m : Core) (h set : Nat) (e : Env) : Core :=
  let m := deckRead m allWays set false e
  if retired m set then endHte m h
  else match recoverable m h set (inWays allWays e) with
    | some (k, l, fm) => recoverStart m h k l fm
    | none => endHte m h

/-- The lines of the entries of a set that a visit found bad, in ascending way order (R320, R342, R343, R982). -/
def badLines (m : Core) (set : Nat) (e : Env) : List LineAddr :=
  allWays.filterMap fun w =>
    (recoverable m 4096 set (e.deck.filter fun f => decide (f.1.val = w))).map (·.2.1)

/-- A walk arrival takes the next serial number, and is outstanding until it completes (R320). -/
def walkSubmit (job : Nat → Job) (m : Core) (l : LineAddr) : Core :=
  let n := m.deck.walkSerial
  arriveLocal (modDeck m fun d => { d with walkSerial := n + 1, walkOut := d.walkOut ++ [n] }) (job n) { op := .fls, line := l }

/-- The ways of a set for which the walk submits an arrival: those that a pending order concerns, and those whose line an
active HTE holds (R320). -/
def walkHits (m : Core) (set : Nat) : List Nat :=
  (List.range 16).filter fun w =>
    let x := dirEnt m (16 * set + w)
    concerns m x || (!entFree x && lineHeld m (lineOf set x.tag))

/-- WALK_VISIT: the walk visits its next set and submits its arrivals, those that recover an entry among them; at 64
outstanding arrivals, or where the set's would pass 64, it pauses (R319, R320, R323, R360). -/
def walkVisit (m : Core) (e : Env) : Core :=
  let set := m.deck.pos
  let read := deckRead m allWays set false e
  let bad := if retired read set then [] else badLines read set e
  let hits := if retired read set then [] else
    (walkHits read set).filter fun w => !(e.deck.any fun f => decide (f.1.val = w) && (needsRecovery m (16 * set + w) f.2).isSome)
  let out := m.deck.walkOut.length
  if m.deck.orders.isEmpty || 64 ≤ out || 64 < out + bad.length + hits.length then m else
    let m := bad.foldl (walkSubmit fun n => .recover set (some n)) read
    let m := (hits.map fun w => lineOf set (dirEnt m (16 * set + w)).tag).foldl (walkSubmit .walk) m
    modDeck m fun d => { d with
      pos := (set + 1) % 262144
      orders := d.orders.map fun o =>
        if o.left = 0 then o else { o with left := o.left - 1, need := d.walkSerial } }

/-- A slot's lost-slot summary is journaled (R571, Table FAB-6). -/
def lostSummary (m : Core) (s : Nat) : Core :=
  match tfind m.deck.summaries s with
  | none => m
  | some x =>
    let pa (i : Nat) : Nat := ((x.lines[i]?).map fun l => paOf l).getD 0
    let m := journal m 0x15 3 (payload [(8, s), (16, x.node.toNat), (32, x.poisoned), (16, x.staffs), (56, x.time.toNat)])
    let m := [0, 1, 2, 3].foldl (fun m i => journal m 0x16 3 (payload [(64, pa (2 * i)), (64, pa (2 * i + 1))])) m
    modDeck m fun d => { d with summaries := tdel d.summaries s }

/-- WALK_ORDER_DONE: the first order whose window and arrivals have ended completes (R323). -/
def walkOrderDone (m : Core) : Core :=
  match takeFirst (fun o => decide (o.left = 0) && m.deck.walkOut.all fun n => decide (o.need ≤ n)) m.deck.orders with
  | none => m
  | some (o, r) =>
    let m := modDeck m fun d => { d with orders := r }
    let bit := match o.kind with
      | .held => 31
      | .clear => 30
      | .lost => 29
    let m := rsetf m 0x1010 bit bit 1
    let m := match o.kind with
      | .held => m
      | .clear => rsetf m 0x1010 23 16 o.slot
      | .lost => lostSummary (rsetf m 0x1010 23 16 o.slot) o.slot
    raise m 55

/-- BUCKET_LEAK: each nonzero bucket falls by 1, and one that is 0 again may raise its event again (R327, R329). -/
def bucketLeak (m : Core) : Core :=
  modDeck m fun d =>
    let b := (d.buckets.map fun x => (x.1, x.2 - 1)).filter fun x => decide (x.2 ≠ 0)
    { d with buckets := b, raised := d.raised.filter fun x => (tfind b x.1).isSome }

/-- SPARE_COPY_DONE: the remap switches, or an uncorrectable word makes the copy abandon the row (R333, R338). -/
def spareCopyDone (m : Core) (uncorrectable : Bool) : Core :=
  match m.deck.copying with
  | none => m
  | some r =>
    let m := modDeck m fun d => { d with copying := none, rows := d.rows.filter fun x => decide (x.1 ≠ r) }
    let m := if uncorrectable then raise (rsetf m 0x1034 1 1 1) 46
      else useSpare (journal m 0x22 3 (payload [(8, 5), (24, r.set.toNat), (8, 0), (8, b1 r.mirror), (16, 0)])) r
    spareNext m m.deck.spareQ

/-- MIRROR_WRITE: the oldest posted write of a layer reaches its mirror bank (R310). -/
def mirrorWrite (m : Core) (y : Nat) : Core :=
  modDeck m fun d =>
    match tget [] d.posted y with
    | [] => d
    | x :: r => { d with mirror := tput 0 d.mirror x.1 x.2, posted := tput [] d.posted y r }

/-- Whether a background agent must leave a line: an active HTE, a merging-buffer entry, an ALC entry or an operation at a
memory-side unit holds it (R243, R463). -/
def groomLeaves (m : Core) (l : LineAddr) : Bool :=
  lineHeld m l || !(mbOf m l).isEmpty || (alcKey m l).isSome
    || (m.atm.units.any fun u => u.2.any fun o => decide (o.line = l))

/-- The groom's visit of an HLC way: a correctable word is corrected, written back and counted, a line with an uncorrectable
word is invalidated; a line that it must leave is not touched (spec/08_line_caches.md, "Protection of the HLC"). -/
def groomHlc (m : Core) (set : Nat) (e : Env) : Core :=
  let k := 16 * set + e.hlcWay.val
  match tfind m.ca.hlc k with
  | none => m
  | some x =>
    if !hlcOn m || groomLeaves m x.line then m
    else match e.hlc with
      | .uncorrectable => hlcError (hlcDrop m k)
      | .corrected => bucketAdd m (4 + set % 4)
      | _ => m

/-- The entries of a set whose lines the groom must leave (R313, R463). -/
def groomHeld (m : Core) (set : Nat) : List Nat :=
  (List.range 16).filter fun w =>
    !entFree (dirEnt m (16 * set + w)) && groomLeaves m (lineOf set (dirEnt m (16 * set + w)).tag)

/-- The groom reads some ways of a set and its mirror row, corrects what it can, and submits an arrival that recovers the
rest (R313, R325, R337, R342, R360). -/
def groomWays (m : Core) (set : Nat) (ways : List Nat) (e : Env) : Core :=
  if retired m set then m else
    let e := { e with deck := inWays ways e }
    let m := deckRead m ways set true e
    match (if retired m set then [] else badLines m set e) with
    | [] => m
    | l :: _ => arriveLocal m (.recover set none) { op := .fls, line := l }

/-- The groom's pass visits a set, and an HLC set beside every fourth (R313). -/
def groomSet (m : Core) (set : Nat) (e : Env) : Core :=
  let held := groomHeld m set
  let m := modDeck m fun d => { d with groomSeen := set :: d.groomSeen
                                       groomSkip := d.groomSkip ++ held.map fun w => 16 * set + w }
  let m := groomWays m set ((List.range 16).filter fun w => !held.contains w) e
  if set % 4 = 0 then groomHlc m (set / 4) e else m

/-- DECK_GROOM_VISIT of a set: each set once a pass; when every set has been visited, once more each entry of the set that
the pass had to leave, and one that it must still leave counts as skipped; then the next pass begins (R313, R464; assumption
log, entry 75). -/
def deckGroomVisit (m : Core) (set : Nat) (e : Env) : Core :=
  if !m.deck.initDone then m
  else if m.deck.groomSeen.length < 262144 then
    if m.deck.groomSeen.contains set then m else groomSet m set e
  else if m.deck.groomSkip = [] then groomSet (modDeck m fun d => { d with groomSeen := [] }) set e
  else
    let again := (m.deck.groomSkip.filter fun k => decide (k / 16 = set)).map (· % 16)
    let held := groomHeld m set
    if again = [] then m else
    let m := modDeck m fun d => { d with groomSkip := d.groomSkip.filter fun k => !decide (k / 16 = set) }
    let m := again.foldl (fun m w => if held.contains w then countRule m 464 else m) m
    groomWays m set (again.filter fun w => !held.contains w) e

/-- MBIST_DONE: failing rows are mapped to spares; a layer with more failing rows in one array than spares fails
(R317, R335). -/
def mbistDone (m : Core) (fails : List DeckRow) : Core :=
  if !m.deck.mbistRunning then m else
    let m := modDeck m fun d => { d with mbistRunning := false, mbistRan := true }
    fails.foldl (fun m r =>
      if sparesLeft m r = 0 then
        if m.deck.mbistFail then m else raise (assertFault (modDeck m fun d => { d with mbistFail := true })) 56
      else useSpare m r) m

/-- INIT_DONE: the directory's initialisation has completed (R314). -/
def initDone (m : Core) : Core :=
  if m.deck.mbistRunning then m else modDeck m fun d => { d with initDone := true }

/-! ### The commands -/

/-- MIRROR_WRITE (R310). -/
def execMirrorWrite (layer : Fin 4) (s : State) : Host.Outcome State Fault Refusal :=
  clocked (fun m => mirrorWrite m layer.val) s

/-- DECK_GROOM_VISIT (R313). -/
def execDeckGroomVisit (set : BitVec 18) (e : Env) (s : State) : Host.Outcome State Fault Refusal :=
  clocked (fun m => deckGroomVisit m set.toNat e) s

/-- WALK_VISIT (R320). -/
def execWalkVisit (e : Env) (s : State) : Host.Outcome State Fault Refusal := clocked (fun m => walkVisit m e) s

/-- WALK_ORDER_DONE (R323). -/
def execWalkOrderDone (s : State) : Host.Outcome State Fault Refusal := clocked walkOrderDone s

/-- BUCKET_LEAK (R327). -/
def execBucketLeak (s : State) : Host.Outcome State Fault Refusal := clocked bucketLeak s

/-- SPARE_COPY_DONE (R333). -/
def execSpareCopyDone (uncorrectable : Bool) (s : State) : Host.Outcome State Fault Refusal :=
  clocked (fun m => spareCopyDone m uncorrectable) s

/-- MBIST_DONE (R317). -/
def execMbistDone (fails : List DeckRow) (s : State) : Host.Outcome State Fault Refusal :=
  clocked (fun m => mbistDone m fails) s

/-- INIT_DONE (R314). -/
def execInitDone (s : State) : Host.Outcome State Fault Refusal := clocked initDone s

end Sys2Proof.Machine
end

