-- ==== Sys2Proof/Machine/MemCmds.lean ====
section
/-! DEFINITION. The commands of the line caches, the memory-side atomic units, the predictor's decay, the memory channels,
post-package repair and the groom (spec/05_atomics.md, spec/08_line_caches.md, spec/09_memory_groom.md). -/

namespace Sys2Proof.Machine

/-! ### Reads that return (R374 to R378, R396) -/

/-- The lines an HTE reads memory for. -/
def readsLine (x : Hte) (l : LineAddr) : Bool :=
  decide (x.msg.line = l) || decide (x.vline = some l) || decide (x.recov.map (·.line) = some l)

/-- One reader of a returned DRAM read receives base data `d`, poisoned or not. -/
def readerGets (l : LineAddr) (d : LineData) (p : Bool) (m : Core) (r : Reader) : Core :=
  match r with
  | .prefetch => m
  | .drain i =>
    let merge (x : Nat × MbEnt) : Nat × MbEnt :=
      if x.1 = i && decide (x.2.line = l) && x.2.basePending then
        (x.1, { x.2 with data := mergeBytes x.2.mask x.2.data d, mask := fullMask, poison := x.2.poison || p
                         basePending := false })
      else x
    modCa m fun c => { c with mb := c.mb.map merge }
  | .hte h =>
    match hte m h with
    | none => m
    | some x =>
      if x.awaits.contains .mem && readsLine x l then
        let o := overBase (x.ovData, x.ovMask, x.bufPoison) d p
        go (unawait (gotData m h o.1 o.2) h .mem) h Env.clean
      else m

/-- A prefetch fill enters the siding (R368, R396, R422); the entry that a demand hit frees in the same CORE cycle is left to
the hit, and the fill takes the next (R421). -/
def prefetchFill (m : Core) (x : CLine) : Core :=
  if !hlcOn m || x.poison || (hlcKey m x.line).isSome || (sidingKey m x.line).isSome then m
  else
    let i := if m.ca.sidFreed.contains (m.ca.sptr, m.trk.core) then (m.ca.sptr + 1) % 64 else m.ca.sptr
    modCa m fun c => { c with siding := tset c.siding i x, sptr := (i + 1) % 64 }

/-- What the return of a register's data installs (R368, R372, R378, R403, Table LCA-2). -/
def returnFill (m : Core) (x : MissReg) (d : LineData) (p : Bool) : Core :=
  if x.stale || !x.fill || p then m else
    let o := overBase (mbOverlay m x.line) d p
    let line : CLine := { line := x.line, data := o.1, poison := o.2 }
    let m := if x.install then hlcInstall m line x.cls else m
    let m := x.secs.foldl (fun m y => if y.2.1 then hlcInstall m line y.2.2 else m) m
    if x.reader = .prefetch || x.secs.any (fun y => decide (y.1 = .prefetch)) then prefetchFill m line else m

/-- DRAM_READ_RETURN: the data of register `r` returns, the register frees and every attached read is served. -/
def readReturn (r : Nat) (rf : ReadFault) (d : Dram) (m : Core) : Core :=
  match tfind m.ca.miss r with
  | none => m
  | some x =>
    let g := dramRead d m x.line (llaOf m (decide (8 ≤ x.cls)) x.line) rf
    let m := modCa g.2.2.2 fun c => { c with miss := tdel c.miss r }
    let m := returnFill m x g.1 g.2.1
    (x.reader :: x.secs.map (·.1)).foldl (readerGets x.line g.1 g.2.1) m

/-- The kind of a transaction's read that waits for a register. -/
def waitKind (w : MissWait) : RdKind := if w.alc then .alcFill else if w.install then .demand else .other

/-- What a read that waited finds without DRAM when it looks its line up again, as Table LCA-2 states for its kind (R376): a
drain takes its base from the HLC or from DRAM only (R385). -/
def lookAgain (m : Core) (w : MissWait) (f : HlcFault) : Option CLine × Core :=
  match hlcLookup m w.line f with
  | (some x, m) => (some x, match w.reader with
      | .hte _ => hlcHit m w.line (waitKind w) w.cls
      | _ => m)
  | (none, m) =>
    match w.reader, sidingLook m w.line with
    | .hte _, some x => (some x, sidingHit m x (waitKind w) w.cls)
    | _, _ => (none, m)

/-- MISS_REGISTER_GRANT: the first waiting read that can go on does, after another lookup; a prefetch that may be issued no
more is dropped (R376, R377, R395, R398). -/
def missGrant (m : Core) (f : HlcFault) : Core :=
  match takeFirst (fun w => missRoom m w) m.ca.missWait with
  | none => m
  | some (w, r) =>
    let dead := prefetchDead m w
    let m := modCa m fun c => { c with missWait := r }
    if dead then m
    else if w.reader = .prefetch then missPlace m w
    else match lookAgain m w f with
      | (some x, m) => readerGets w.line x.data x.poison m w.reader
      | (none, m) => missPlace m w

/-! ### The merging buffer (R383 to R389, R975) -/

/-- The transactions that wait until a line's held data has been issued go on (R113, the text after R389). -/
def wakeFlush (m : Core) (l : LineAddr) : Core :=
  if mbUnissued m l then m else
    m.trk.htes.foldl (fun m x =>
      if x.2.awaits.contains .flush && decide (x.2.msg.line = l) then go (unawait m x.1 .flush) x.1 Env.clean else m) m

/-- The oldest open entry closes under pressure (R384). -/
def pressureClose (m : Core) : Core :=
  if m.ca.mb.length < rfld m 0x140C 6 0 then m else
    let opens := m.ca.mb.filter fun x => x.2.isOpen
    match opens.find? (fun x => opens.all fun y => decide (x.2.born < y.2.born)
        || (decide (x.2.born = y.2.born) && decide (x.2.order ≤ y.2.order))) with
    | none => m
    | some (i, x) => tally .hlc 5 1 (modCa m fun c => { c with mb := tset c.mb i { x with isOpen := false } })

/-- An open entry reaches its age limit (R383). -/
def ageClose (m : Core) (i : Nat) : Core :=
  match tfind m.ca.mb i with
  | none => m
  | some x => if x.isOpen then tally .hlc 4 1 (modCa m fun c => { c with mb := tset c.mb i { x with isOpen := false } })
              else m

/-- MB_ISSUE: a closed entry is issued with a full mask, or takes its merge base (R385, R387, R409, R975). -/
def mbIssue (m : Core) (i : Nat) (e : Env) : Core :=
  match tfind m.ca.mb i with
  | none => m
  | some x =>
    if x.isOpen || x.issued || x.basePending || unitBefore m x.line x.order
        || (mbOf m x.line).any (fun y => decide (y.2.order < x.order)) then m else
      let m := match e.mbUncorrectable with
        | some w => mbBad m i w
        | none => m
      let x := (tfind m.ca.mb i).getD x
      let put (m : Core) (x : MbEnt) : Core := modCa m fun c => { c with mb := tset c.mb i x }
      if x.mask = fullMask then wakeFlush (put m { x with issued := true }) x.line
      else match hlcLookup m x.line e.hlc with
        | (some b, m) =>
          wakeFlush (put m { x with data := mergeBytes x.mask x.data b.data, mask := fullMask, issued := true }) x.line
        | (none, m) =>
          missStart (put m { x with basePending := true })
            { reader := .drain i, line := x.line, install := false, cls := 8 * b1 x.epoch }

/-- Whether a channel can take the write of a local line now: its queue has a free entry, or the write goes nowhere near it
(R425, R454, R475). -/
def wqTakes (m : Core) (lla : Nat) : Bool :=
  !wqFull m (chanOf m lla) || chFailed m (chanOf m lla) || (inBuffer m lla).isSome

/-- MB_ENTRY_FREE: the write queue accepts an issued entry's line, and the entry frees (R386, R387); while the queue is full
the entry is held (R425). -/
def mbFree (i : Nat) (d : Dram) (m : Core) : Dram × Core :=
  match tfind m.ca.mb i with
  | none => (d, m)
  | some x =>
    let lla := llaOf m x.epoch x.line
    if !x.issued || !wqTakes m lla then (d, m) else
      dramWrite d (modCa m fun c => { c with mb := tdel c.mb i }) lla x.data x.poison

/-- MB_ENTRY_GRANT: the first waiting write takes an entry (R389), with what its HLC access meets (R406, R408). -/
def mbGrant (m : Core) (f : HlcFault) : Core :=
  match m.ca.mbWait with
  | [] => m
  | w :: r =>
    match mbPut (mbTouch (modCa m fun c => { c with mbWait := r }) w.line w.data w.mask w.poison f)
        w.line w.data w.mask w.poison w.order w.epoch with
    | none => m
    | some m => if r.any fun v => decide (v.hte = w.hte) then m else go (unawait m w.hte .mbIn) w.hte Env.clean

/-! ### Memory-side atomics (R222 to R226, R244 to R246, R459) -/

/-- ATOMIC_QUEUE_GRANT: the first atomic that waits for a unit's queue, in decision order, takes a free entry (R224). -/
def unitGrant (m : Core) (ch : Nat) : Core :=
  let w := m.trk.htes.foldl (fun (b : Option (Nat × Hte)) x =>
    if x.2.wait = .unitQueue ch then
      match b with
      | none => some x
      | some y => if x.2.dseq < y.2.dseq then some x else b
    else b) none
  match w with
  | none => m
  | some (h, x) => if 16 ≤ (tget [] m.atm.units ch).length then m else unitEnter m h x.msg.line x ch

/-- The queue with its first operation that has not started given to `f`. -/
def firstUnstarted (f : UnitOp → UnitOp) : List UnitOp → List UnitOp
  | [] => []
  | o :: r => if o.started then o :: firstUnstarted f r else f o :: r

/-- Whether the next operation of a unit may read its line: bytes that came before it have reached the write queue, and
no earlier operation on the line is unfinished (R223, R226). -/
def unitReady (m : Core) (q : List UnitOp) (o : UnitOp) : Bool :=
  !(m.ca.mb.any fun x => decide (x.2.line = o.line) && decide (x.2.order < o.order))
    && !(m.ca.mbWait.any fun w => decide (w.line = o.line) && decide (w.order < o.order))
    && !(q.any fun p => p.started && decide (p.line = o.line))

/-- MEMORY_ATOMIC_START (R459). -/
def unitStart (ch : Nat) (rf : ReadFault) (d : Dram) (m : Core) : Core :=
  let q := tget [] m.atm.units ch
  match q.find? (fun o => !o.started) with
  | none => m
  | some o =>
    if !unitReady m q o || !isHome m then m else
      let g := dramRead d (tally .mem (88 + ch) 1 m) o.line o.lla rf
      modAtm g.2.2.2 fun a => { a with units := tput [] a.units ch (firstUnstarted (fun o =>
        { o with started := true, old := g.1, poison := g.2.1, ue := g.2.2.1 }) q) }

/-- MEMORY_ATOMIC_RESULT: the oldest started operation returns its old value and its write enters the write queue (R225,
R244, R245, R246); while the queue is full it waits, and in the junction role the unit does not run (R431). -/
def unitResult (ch : Nat) (d : Dram) (m : Core) : Dram × Core :=
  match takeFirst (fun o => o.started) (tget [] m.atm.units ch) with
  | none => (d, m)
  | some (o, q) =>
    if !isHome m || !wqTakes m o.lla then (d, m) else
    let m := modAtm m fun a => { a with units := tput [] a.units ch q }
    let w :=
      if o.ue then dramWrite d m o.lla o.old true
      else if o.poison then (d, m)
      else dramWrite d m o.lla (atmLine o.msg o.old) false
    if o.dropped then w
    else (w.1, go (unawait (gotData w.2 o.hte o.old o.poison) o.hte .unit) o.hte Env.clean)

/-- DECAY_PASS: every nonzero predictor counter falls by 1 (R234). -/
def decayPass (m : Core) : Core :=
  if rfld m 0x1C00 15 0 = 0 then m else
    modAtm m fun a => { a with
      pred := ((List.range 1024).map fun i => (i, tget 1 a.pred i - 1)).filter fun x => decide (x.2 ≠ 1), decayPos := 0 }

/-! ### The HLC's own commands -/

/-- HLC_INV_DONE (R400). -/
def hlcInvDone (m : Core) : Core :=
  if !m.ca.invRunning then m else
    modCa m fun c => { c with hlc := [], hptr := [], siding := [], streams := [], tptr := 0, ceWb := []
                              invRunning := false, invDone := true }

/-! ### Training, refresh, errors of the channels -/

/-- The first pass of every channel's groom starts (R466). -/
def groomFirst (m : Core) : Core :=
  modMem m fun x => { x with groomPos := [], groomSkip := [], groomFin := [], groomLate := [] }

/-- MEM_TRAIN_DONE (R432, R436, R466). -/
def trainDone (m : Core) (fails : List (Fin 8 × BitVec 8)) : Core :=
  if !m.mem.training then m else
    let fails := fails.filter fun f => decide (f.1.val < channels m)
    let m := modMem m fun x => { x with training := false }
    if fails.isEmpty then groomFirst (modMem m fun x => { x with ready := true, everReady := true, cfgFrozen := true })
    else
      let m := modMem m fun x => { x with trainFail := fails.foldl (fun a f => a ||| (1#8 <<< f.1.val)) x.trainFail }
      fails.foldl (fun m f => journalMem m 3 2 f.1.val 0 f.2.toNat) (raise m 52)

/-- DDR_ALERT: the fourth failure of a command sequence marks the channel failed (R474). -/
def ddrAlert (m : Core) (ch : Nat) : Core :=
  let n := tget 0 m.mem.caFails ch + 1
  if 4 ≤ n then channelFail (modMem m fun x => { x with caFails := tput 0 x.caFails ch 0 }) ch
  else modMem m fun x => { x with caFails := tput 0 x.caFails ch n }

/-- REFRESH: a due refresh or RFM command takes its slot (R444). -/
def refresh (m : Core) (ch : Nat) : Core :=
  tally .mem (40 + ch) 1 (modMem m fun x => { x with caFails := tput 0 x.caFails ch 0 })

/-! ### Post-package repair -/

/-- PPR_COPY_DONE: the row's 128 lines are in the repair buffer, each read as `faults` says for its column (R448, R453 to
R455, R473, R976). -/
def pprCopyDone (faults : List (Fin 128 × ReadFault)) (d : Dram) (m : Core) : Core :=
  match m.mem.repair with
  | none => m
  | some r =>
    if r.hard || r.phase ≠ 0 || !isHome m then m else
      let g := (List.range 128).foldl (fun (a : Tab (LineData × Bool) × Core) c =>
        let lla := llaAt a.2 r.row c
        let v := dramRead d a.2 (lineAt a.2 lla) lla (((faults.find? fun b => decide (b.1.val = c)).map (·.2)).getD .clean)
        (tset a.1 lla (v.1, v.2.1), v.2.2.2)) ([], m)
      modMem g.2 fun x => { x with repair := some { r with phase := 1, buf := g.1 } }

/-- SPPR_WAIT_END: the buffered lines are written to the repaired row (R453). -/
def spprWaitEnd (d : Dram) (m : Core) : Dram × Core :=
  match m.mem.repair with
  | none => (d, m)
  | some r =>
    if r.hard || r.phase ≠ 1 || !isHome m then (d, m) else
      (bufferBack m d r, modMem m fun x => { x with repair := some { r with phase := 2 } })

/-- A row's lines after an hPPR: their content is not kept (R457). -/
def hardContent (m : Core) (ls : List Nat) (d : Dram) : Dram × Core :=
  ls.foldl (fun a lla => (writeLine a.1 lla (freeLine a.2).1 false, (freeLine a.2).2)) (d, m)

/-- PPR_DONE: a repair completes or is refused; its buffer frees, and the next row's repair starts (R453, R456, R458). -/
def pprDone (refused : Bool) (d : Dram) (m : Core) : Dram × Core :=
  match m.mem.repair with
  | none => (d, m)
  | some r =>
    if !isHome m || !(r.hard || decide (r.phase = 2) || (refused && decide (r.phase = 1))) then (d, m) else
      let w := if r.hard && !refused then hardContent m (rowLines m r.row) d else (bufferBack m d r, m)
      let m := modMem w.2 fun x => { x with
        repair := none
        ppr := tset x.ppr x.pprNext { hard := r.hard, refused := refused, row := r.row }
        pprNext := (x.pprNext + 1) % 64 }
      let m := if refused then memSpares m r.row else
        modMem m fun x => { x with
          rows := tput [] x.rows r.row.ch ((tget [] x.rows r.row.ch).filter fun y => decide (y.1 ≠ r.row))
          repaired := if r.hard then x.repaired else
            tput 0 x.repaired (groupKey r.row) (tget 0 x.repaired (groupKey r.row) + 1) }
      let m := journalMem m 3 3 r.row.ch r.row.row (b1 refused)
      (w.1, repairNext m m.mem.repairQ)

/-! ### The groom (R463 to R471) -/

/-- The lines of each populated channel. -/
def chanLines (m : Core) : Nat := capacity m / 64 / channels m

/-- The `n`-th line of a channel in ascending local order (R466). -/
def chanLine (m : Core) (ch n : Nat) : Nat :=
  let c := 2 ^ chanBits m
  let rest := n / 2
  let x := rest / 2 ^ (12 + rfld m 0x1800 7 7)
  (rest * c + (ch ^^^ (x % c))) * 2 + n % 2

/-- Whether no background agent may touch a local line (R463, R471). -/
def groomSkips (m : Core) (l : LineAddr) (lla : Nat) : Bool :=
  groomLeaves m l || decide (m.mem.repair.map (·.row) = some (coords m lla).1)

/-- The groom reads one line and submits a repair arrival for an error it finds (R467). -/
def groomLine (rf : ReadFault) (ch lla : Nat) (again : Bool) (d : Dram) (m : Core) : Core :=
  let l := lineAt m lla
  let bad := decide (readSees d m lla rf ≠ .clean)
  let m := (dramRead d (tally .mem (72 + ch) 1 m) l lla rf).2.2.2
  if bad then arriveLocal m (.groom ch lla again) { op := .fls, line := l } else m

/-- Whether a repair arrival of a channel's pass has still to end. -/
def groomOut (m : Core) (ch : Nat) : Bool :=
  let mine (j : Job) : Bool := match j with
    | .groom c _ _ => decide (c = ch)
    | _ => false
  (m.trk.arrivals.any fun a => mine a.job) || m.trk.htes.any fun x => decide (x.2.kind ≠ .quarantined) && mine x.2.job

/-- The pass of a channel's groom ends once every line and every skipped line has been visited, and is counted. A pass that
began in an earlier period has not done this period's (R469). -/
def groomPassEnd (m : Core) (ch : Nat) : Core :=
  if chanLines m ≤ tget 0 m.mem.groomPos ch && (tget [] m.mem.groomSkip ch).isEmpty && !groomOut m ch then
    let late := tget false m.mem.groomLate ch
    let m := modMem m fun x => { x with groomPos := tput 0 x.groomPos ch 0
                                        groomFin := tput false x.groomFin ch (!late || tget false x.groomFin ch)
                                        groomLate := tput false x.groomLate ch false }
    rsetf m 0x1848 15 0 (min (rfld m 0x1848 15 0 + 1) 65535)
  else m

/-- GROOM_READ: the groom of a channel visits its next line, or a line it skipped (R463, R464, R466). -/
def groomRead (ch : Nat) (rf : ReadFault) (d : Dram) (m : Core) : Core :=
  if !m.mem.ready || !isHome m || channels m ≤ ch || chFailed m ch then m else
    let n := tget 0 m.mem.groomPos ch
    if n < chanLines m then
      let lla := chanLine m ch n
      let m := modMem m fun x => { x with groomPos := tput 0 x.groomPos ch (n + 1) }
      groomPassEnd (if groomSkips m (lineAt m lla) lla then groomLater m ch lla false else groomLine rf ch lla false d m) ch
    else match tget [] m.mem.groomSkip ch with
      | [] => groomPassEnd m ch
      | lla :: r =>
        let m := modMem m fun x => { x with groomSkip := tput [] x.groomSkip ch r }
        groomPassEnd (if groomSkips m (lineAt m lla) lla then groomLater m ch lla true else groomLine rf ch lla true d m) ch

/-- The state of a line in the home ways. -/
def homeState (m : Core) (l : LineAddr) : DSt :=
  match dirFind m true l with
  | some k => (dirEnt m k).st
  | none => .i

/-- The action of a groom repair on its second read (Table MEM-6, R213, R464). -/
def groomAct (l : LineAddr) (ch lla : Nat) (again : Bool) (rf : ReadFault) (d : Dram) (m : Core) : Dram × Core :=
  if (alcKey m l).isSome || (m.atm.units.any fun u => u.2.any fun o => decide (o.line = l))
      || decide (m.mem.repair.map (·.row) = some (coords m lla).1) then (d, groomLater m ch lla again)
  else
    let see := readSees d m lla rf
    let g := dramRead d m l lla rf
    let m := g.2.2.2
    if !(mbOf m l).isEmpty then (d, groomLater m ch lla again)
    else if see = .clean then (d, m)
    else if homeState m l = .x || homeState m l = .k then (d, rinc m 0x1850 1)
    else if !g.2.2.1 then dramWrite d m lla g.1 false
    else match (if hlcOn m then (hlcKey m l).bind (tfind m.ca.hlc) else none) with
      | some c => dramWrite d m lla c.data false
      | none => dramWrite d (journalMem m 3 4 ch l.toNat 0) lla g.1 true

/-- GROOM_REPAIR: the decision of a groom repair arrival, which completes as its write enters the write queue (R467,
R468). -/
def groomRepair (h : Nat) (rf : ReadFault) (d : Dram) (m : Core) : Dram × Core :=
  match hte m h with
  | none => (d, m)
  | some x =>
    match x.job with
    | .groom ch lla again =>
      if x.kind = .active && x.wait = .decision && wqTakes m lla then
        let r := groomAct x.msg.line ch lla again rf d m
        (r.1, endHte r.2 h)
      else (d, m)
    | _ => (d, m)

/-- GROOM_PERIOD_END: a pass that is not finished sets overrun (R469), and goes on into the next period. -/
def groomPeriodEnd (m : Core) (ch : Nat) : Core :=
  if !m.mem.ready || !isHome m || channels m ≤ ch || chFailed m ch then m
  else if tget false m.mem.groomFin ch then modMem m fun x => { x with groomFin := tput false x.groomFin ch false }
  else raise (rsetf (modMem m fun x => { x with groomLate := tput false x.groomLate ch true }) 0x1848 31 31 1) 54

/-! ### The commands -/

/-- A command that reads DRAM and writes none. -/
def clockedRead (f : Dram → Core → Core) (s : State) : Host.Outcome State Fault Refusal :=
  .next { s with m := if running s.m then f s.dram s.m else s.m }

/-- DRAM_READ_RETURN (R374). -/
def execDramReadReturn (r : Fin 256) (rf : ReadFault) (s : State) : Host.Outcome State Fault Refusal :=
  clockedRead (readReturn r.val rf) s

/-- MISS_REGISTER_GRANT (R377). -/
def execMissRegisterGrant (e : Env) (s : State) : Host.Outcome State Fault Refusal :=
  clocked (fun m => missGrant m e.hlc) s

/-- MB_AGE_CLOSE (R383). -/
def execMbAgeClose (i : Fin 128) (s : State) : Host.Outcome State Fault Refusal := clocked (fun m => ageClose m i.val) s

/-- MB_PRESSURE_CLOSE (R384). -/
def execMbPressureClose (s : State) : Host.Outcome State Fault Refusal := clocked pressureClose s

/-- MB_ISSUE (R975). -/
def execMbIssue (i : Fin 128) (e : Env) (s : State) : Host.Outcome State Fault Refusal :=
  clocked (fun m => mbIssue m i.val e) s

/-- MB_ENTRY_FREE (R387). -/
def execMbEntryFree (i : Fin 128) (s : State) : Host.Outcome State Fault Refusal := clockedDram (mbFree i.val) s

/-- MB_ENTRY_GRANT (R389). -/
def execMbEntryGrant (s : State) : Host.Outcome State Fault Refusal :=
  clocked (fun m => mbGrant (freeFault m).2 (freeFault m).1) s

/-- ATOMIC_QUEUE_GRANT (R224). -/
def execAtomicQueueGrant (ch : Fin 8) (s : State) : Host.Outcome State Fault Refusal :=
  clocked (fun m => unitGrant m ch.val) s

/-- MEMORY_ATOMIC_START (R459). -/
def execMemoryAtomicStart (ch : Fin 8) (rf : ReadFault) (s : State) : Host.Outcome State Fault Refusal :=
  clockedRead (unitStart ch.val rf) s

/-- MEMORY_ATOMIC_RESULT (R225). -/
def execMemoryAtomicResult (ch : Fin 8) (s : State) : Host.Outcome State Fault Refusal :=
  clockedDram (unitResult ch.val) s

/-- DECAY_PASS (R234). -/
def execDecayPass (s : State) : Host.Outcome State Fault Refusal := clocked decayPass s

/-- HLC_INV_DONE (R400). -/
def execHlcInvDone (s : State) : Host.Outcome State Fault Refusal := clocked hlcInvDone s

/-- HLC_CE_WRITEBACK (R405, R423). -/
def execHlcCeWriteback (set : BitVec 16) (way : Fin 16) (s : State) : Host.Outcome State Fault Refusal :=
  clocked (fun m => modCa m fun c => { c with ceWb := c.ceWb.filter (· != 16 * set.toNat + way.val) }) s

/-- MEM_TRAIN_DONE (R432). -/
def execMemTrainDone (fails : List (Fin 8 × BitVec 8)) (s : State) : Host.Outcome State Fault Refusal :=
  clocked (fun m => trainDone m fails) s

/-- REFRESH (R444). -/
def execRefresh (ch : Fin 8) (s : State) : Host.Outcome State Fault Refusal := clocked (fun m => refresh m ch.val) s

/-- PPR_COPY_DONE (R453). -/
def execPprCopyDone (faults : List (Fin 128 × ReadFault)) (s : State) : Host.Outcome State Fault Refusal :=
  clockedRead (pprCopyDone faults) s

/-- SPPR_WAIT_END (R453). -/
def execSpprWaitEnd (s : State) : Host.Outcome State Fault Refusal := clockedDram spprWaitEnd s

/-- PPR_DONE (R456). -/
def execPprDone (refused : Bool) (s : State) : Host.Outcome State Fault Refusal := clockedDram (pprDone refused) s

/-- GROOM_READ (R466). -/
def execGroomRead (ch : Fin 8) (rf : ReadFault) (s : State) : Host.Outcome State Fault Refusal :=
  clockedRead (groomRead ch.val rf) s

/-- GROOM_REPAIR (R467). -/
def execGroomRepair (h : HteIx) (rf : ReadFault) (s : State) : Host.Outcome State Fault Refusal :=
  clockedDram (groomRepair h.val rf) s

/-- GROOM_PERIOD_END (R469). -/
def execGroomPeriodEnd (ch : Fin 8) (s : State) : Host.Outcome State Fault Refusal :=
  clocked (fun m => groomPeriodEnd m ch.val) s

/-- DDR_ALERT (R474). -/
def execDdrAlert (ch : Fin 8) (s : State) : Host.Outcome State Fault Refusal := clocked (fun m => ddrAlert m ch.val) s

/-- WRITE_QUEUE_STALL (R477). -/
def execWriteQueueStall (ch : Fin 8) (s : State) : Host.Outcome State Fault Refusal :=
  clocked (fun m => channelFail m ch.val) s

end Sys2Proof.Machine
end

