-- ==== Sys2Proof/Machine/Throw.lean ====
section
/-! DEFINITION. The points throw (spec/12_control_plane.md, R622 to R625): the check of a standby set, the flip of the
epoch, the drain and the credit allotments (spec/06_progress.md, R247 to R257). -/

namespace Sys2Proof.Machine

/-- The machine with its configuration machinery changed. -/
def modCfg (m : Core) (f : Cfg → Cfg) : Core := { m with cfg := f m.cfg }

/-! ### Credit allotments -/

/-- The default allotment of a port and virtual channel (Table PRG-1, R250). -/
def defaultAllot (x8 : Bool) (v : Nat) : Nat :=
  let t := if x8 then [384, 96, 96, 32, 192, 48, 192, 48, 384, 96, 32, 16]
    else [192, 48, 48, 16, 96, 24, 96, 24, 192, 48, 16, 11]
  (t[v]?).getD 0

/-- The allotment of a port and virtual channel in a configuration set. -/
def allotOf (c : CfgSet) (p v : Nat) : Nat := tget (defaultAllot (decide (p < 8)) v) c.allot (12 * p + v)

/-- The minimum allotment of a virtual channel (Table PRG-1). -/
def minAllot (v : Nat) : Nat := ([11, 11, 4, 4, 11, 11, 11, 11, 12, 12, 11, 11][v]?).getD 0

/-- The set whose allotments are in force: the previous epoch's while it drains (R256, R257). -/
def allotSet (m : Core) : CfgSet := if m.cfg.drain then setOf m (!m.cfg.epoch) else setOf m m.cfg.epoch

/-- Whether port `p` exists: 8 to 15 only as halves of ports that run bifurcated. -/
def portExists (m : Core) (p : Nat) : Bool := decide (p < 8) || (decide (p < 16) && runsX4 m (p - 8))

/-! ### The check (Table CTL-3) -/

/-- A failed check: the table, the check code and the entry. -/
structure CheckFail where
  table : Nat
  code : Nat
  index : Nat
  deriving DecidableEq, Repr

/-- Check 0x01: a valid region whose limit lies below its base. -/
def checkRegions (c : CfgSet) : Option CheckFail :=
  (c.regions.find? fun x => x.2.valid && decide (x.2.limitPn < x.2.basePn)).map fun x => ⟨1, 1, x.1⟩

/-- Check 0x02: a class whose mask is zero. -/
def checkMasks (c : CfgSet) : Option CheckFail :=
  ((List.range 8).find? fun i => decide (tget 0xFFFF c.wayMasks i = 0)).map fun i => ⟨2, 2, i⟩

/-- Check 0x03: a node named twice, or Jalair's own node. -/
def checkSlots (c : CfgSet) (own : NodeId) : Option CheckFail :=
  (c.slots.find? fun x => decide (x.2.status ≠ .empty) && (decide (x.2.node = own)
      || c.slots.any fun y => decide (y.1 < x.1) && decide (y.2.status ≠ .empty) && decide (y.2.node = x.2.node))).map
    fun x => ⟨3, 3, x.1⟩

/-- The nodes that a range's list uses. -/
def HomeRange.used (r : HomeRange) : List NodeId := r.nodes.take r.n

/-- Whether a list names a node twice. -/
def twice (ns : List NodeId) : Bool :=
  match ns with
  | [] => false
  | a :: r => r.contains a || twice r

/-- Whether two extents overlap. -/
def overlap (a b c d : Nat) : Bool := decide (a ≤ d) && decide (c ≤ b)

/-- The last address of a range's local extent (R498). -/
def HomeRange.localEnd (r : HomeRange) : Nat := r.lb8.toNat * 256 + (r.limit + 1 - r.base) / r.n - 1

/-- Checks 0x04 to 0x08 on one range, in their order (R498, R622). -/
def checkRange (c : CfgSet) (own : NodeId) (i : Nat) (r : HomeRange) : Option Nat :=
  let lower := c.home.filter fun y => decide (y.1 < i) && y.2.valid
  if lower.any fun y => overlap r.base r.limit y.2.base y.2.limit then some 4
  else if r.base % r.g ≠ 0 then some 5
  else if r.limit < r.base || (r.limit + 1 - r.base) % (r.n * r.g) ≠ 0 then some 6
  else if twice r.used then some 7
  else if r.used.contains own && lower.any fun y => y.2.used.contains own
      && overlap (r.lb8.toNat * 256) r.localEnd (y.2.lb8.toNat * 256) y.2.localEnd then some 8
  else none

/-- The checks of the home map. -/
def checkHome (c : CfgSet) (own : NodeId) : Option CheckFail :=
  c.home.findSome? fun x => if x.2.valid then (checkRange c own x.1 x.2).map fun k => ⟨4, k, x.1⟩ else none

/-- Check 0x09: a port whose allotments exceed its receive pool (R249). -/
def checkAllot (m : Core) (c : CfgSet) : Option CheckFail :=
  ((List.range 16).find? fun p => (decide (p < 8) || bifurcated m (p - 8)) &&
    decide ((if bifurcated m (p % 8) then 1024 else 2048) < ((List.range 12).map fun v => allotOf c p v).foldl (· + ·) 0)).map
    fun p => ⟨5, 9, p⟩

/-- The first check that the standby set fails (R622). -/
def throwCheck (m : Core) : Option CheckFail :=
  let c := setOf m (!m.cfg.epoch)
  (checkRegions c).or ((checkMasks c).or ((checkSlots c (nodeId m)).or ((checkHome c (nodeId m)).or (checkAllot m c))))

/-- CFG.CHECK_RESULT records a check's outcome. -/
def recordCheck (m : Core) (r : Option CheckFail) : Core :=
  match r with
  | none => rsetf m 0x40C 31 31 0
  | some f => rset m 0x40C (BitVec.ofNat 32 (2 ^ 31 + f.table * 2 ^ 28 + f.code * 2 ^ 24 + f.index))

/-! ### Flip and drain -/

/-- The epoch flips (R624): the drain of the previous epoch begins. -/
def flip (m : Core) : Core :=
  modCfg m fun c => { c with epoch := !c.epoch, drain := true, prepared := false, copyDone := false }

/-- A credit book after a drain that changed its allotment to `a` (R256, R257). -/
def bookThrow (a : Nat) (b : VcBook) : VcBook :=
  if b.g ≤ a then { b with p := b.p + (a - b.g), g := a, withhold := 0 } else { b with withhold := b.g - a }

/-- Whether an arrival carries the previous epoch under which it is to be served (R200). -/
def arrHolds (m : Core) (a : Arrival) : Bool := decide (a.job = .external) && decide (a.msg.epoch ≠ m.cfg.epoch)

/-- Whether the previous epoch's drain is held open: by an HTE that is not quarantined (R287, R625), or by a REQ or WBK
that arrived under that epoch and has not completed, waiting for admission or beside an HTE (R200). -/
def drainHeld (m : Core) : Bool :=
  (m.trk.htes.any fun x => (decide (x.2.kind ≠ .quarantined) && decide (x.2.epoch ≠ m.cfg.epoch))
    || x.2.held.any (arrHolds m) || x.2.cmps.any (arrHolds m))
    || m.trk.arrivals.any (arrHolds m) || m.trk.atOnce.any (arrHolds m)

/-- DRAIN_END (R625). -/
def drainEnd (m : Core) : Core :=
  if !m.cfg.drain || drainHeld m then m else
    let m := modCfg m fun c => { c with drain := false }
    let m := (List.range 16).foldl (fun m p =>
      let q := port m p
      if q.link = .starting || q.link = .complete then
        setPort m p ((List.range 12).foldl (fun q v => setVcb q v (bookThrow (allotOf (allotSet m) p v) (vcb q v))) q)
      else m) m
    raise m 128

/-- DRAIN_END (R625). -/
def execDrainEnd (s : State) : Host.Outcome State Fault Refusal := clocked drainEnd s

end Sys2Proof.Machine
end

