-- ==== Sys2Proof/Machine/Link.lean ====
section
/-! DEFINITION. The Olfer ports (spec/02_olfer_messages.md; the link credits of spec/06_progress.md; the time stamps of
spec/11_bringup_coupling.md): link start, flits received and sent, replay, Recovery, loss, and the crossbar's steering. -/

namespace Sys2Proof.Machine

/-- OLF.PORT_CTL_p.link_reset. -/
def linkHeld (m : Core) (p : Nat) : Bool := rbit m (0x900 + 4 * p) 0

/-- A LINK record: port, cause (1 lost, 2 no credit, 3 credit overflow, 4 unreadable header), and the values concerned
(Table DMJ-6). -/
def journalLink (m : Core) (sev p cause v w : Nat) : Core :=
  journal m 0x10 sev (payload [(8, p), (8, cause), (32, v), (32, w)])

/-- A message that is dropped, counted at port `p` (R83, R97). The spec names no port: a message that is steered counts
at the port on which it arrived, one that waits for a lost link at that link's port, and one that Jalair originates
at the port that its route-table entry names (assumption log, entry 66). -/
def dropMsg (m : Core) (p : Nat) (x : Msg) (code : Nat) : Core :=
  let m := journalDrop (tally .olf (160 + p) 1 m) x code
  if clsOf x.op = .req || x.op = .cfg then sendErr m x code else m

/-- A message in a virtual-channel buffer is steered to its output port (R30, R79, R82, R83, R97). -/
def steer (m : Core) (p : Nat) (x : Msg) : Core :=
  let m := tally .xbr (16 + clsCode (clsOf x.op)) 1 (tally .xbr 1 1 m)
  if x.hop.toNat ≤ 1 then dropMsg m p x errHop
  else match routeOf m (epochFor m x.epoch) x.dest with
    | some o => enqueue m o p none { x with hop := x.hop - 1 }
    | none => dropMsg m p x errRoute

/-- Whether a WBK for Jalair waits for its buffer ahead of place `n` of a virtual channel (R265). -/
def wbkAhead (m : Core) (p v n : Nat) : Bool :=
  m.trk.arrivals.any fun a => decide (a.port = p) && decide (vcOf a.msg = v) && decide (clsOf a.msg.op = .wbk)
    && a.wb.isNone && a.slots && decide (a.at_ < n)

/-- PASS_THROUGH: the head of a virtual channel of port `p` leaves its buffer (R30, R252), unless a WBK waits at the
head before it (R265). -/
def passThrough (m : Core) (p v : Nat) : Core :=
  let q := port m p
  match takeFirst (fun r => decide (r.vc = v)) q.rxq with
  | none => m
  | some (r, rest) => if wbkAhead m p v r.at_ then m else steer (freeSlots (setPort m p { q with rxq := rest }) p v (slotsOf r.msg)) p r.msg

/-! ### Losing and starting links -/

/-- The messages that port `p` received and that still wait no longer hold slots of its buffer. -/
def orphan (m : Core) (p : Nat) : Core :=
  { m with
    inbox := m.inbox.map fun i => if i.port = p then { i with slots := false } else i
    trk := { m.trk with arrivals := m.trk.arrivals.map fun a => if a.port = p then { a with slots := false } else a } }

/-- The link layer of port `p` is cleared: replay buffer, books and queues (R94); messages that wait for the port are
dropped under R97, those already received go on. A port that enters link training takes its configuration (R869). -/
def clearLink (m : Core) (p : Nat) (st : LinkState) : Core :=
  let q := port m p
  let act := if st = .training then rget m (0x800 + 4 * p) else q.act
  let m := setPort (orphan m p) p { link := st, everLost := q.everLost, act := act }
  let m := q.txq.foldl (fun m t => dropMsg m p t.msg errRoute) m
  q.rxq.foldl (fun m r => steer m p r.msg) m

/-- PHY_TRAINING_START: every port that is down starts PHY training (R951). -/
def phyTraining (m : Core) : Core :=
  if !m.boot.ended || !m.deck.initDone then m else
    (List.range 16).foldl (fun m p =>
      if portExists m p && decide ((port m p).link = .down) && !linkHeld m p then
        setPort m p { port m p with link := .training, act := rget m (0x800 + 4 * p) }
      else m) m

/-- Whether port `p` supports what a training came to (Table OLF-1): x8 on a port that is not bifurcated, or x4, on
lanes 4 to 7 only by downtraining; a rate that carries traffic, at most the port's highest. -/
def phySupports (m : Core) (p : Nat) (t : PhyTrain) : Bool :=
  let x8 := decide (p < 8) && !runsX4 m p
  (decide (t.lanes = 4) || (decide (t.lanes = 8) && x8)) && (!t.upper || (x8 && decide (t.lanes = 4)))
    && decide (t.speed.toNat ≤ 2) && decide (t.speed.toNat ≤ fld (port m p).act 1 0)

/-- PHY_L0: the physical layer of a training port reaches L0; the books of its virtual channels start with the whole
allotment to return (R44, R45, R56). A partner may instead make the port a loopback follower, which leaves it out of
L0; a width or rate that Table OLF-1 does not allow does not reach L0 (assumption log, entry 68). -/
def phyL0 (m : Core) (p : Nat) (t : PhyTrain) : Core :=
  let q := port m p
  if q.link ≠ .training || linkHeld m p || !portExists m p then m
  else if t.loopback then setPort m p { q with loop := true }
  else if !t.olfer then linkEvent m p 1
  else if !phySupports m p t then m
  else setPort m p { q with
    link := .starting, loop := false, width := t.lanes, speed := t.speed, reversed := t.reversed, upper := t.upper
    vcs := (List.range 12).foldl (fun b v =>
      let a := allotOf (allotSet m) p v
      tput {} b v { p := a, g := a }) [] }

/-- The next tag of a management message. -/
def nextTag (m : Core) : Core := { m with fab := { m.fab with mtag := m.fab.mtag + 1 } }

/-- Whether Jalair knows a station master to send to. -/
def hasMaster (m : Core) : Bool := m.fab.termValid

/-- A `UCP` report about a node to the station master (R564, R565, R969). -/
def sendReport (m : Core) (node : NodeId) (tag : BitVec 12) (restored : Bool) : Core :=
  if hasMaster m then
    sendMgt m { op := .ucp, dest := m.fab.master, tag := tag, status := if restored then 2 else 1, aux := node }
  else m

/-- The nodes of a port's attach list. -/
def attached (m : Core) (p : Nat) : List NodeId :=
  ((tget {} m.fab.attach p).nodes.filter (·.1)).map (·.2)

/-- Surprise reports for the nodes behind a lost port (R564). -/
def reportLost (m : Core) (p : Nat) : Core :=
  (attached m p).foldl (fun m n =>
    let tag := m.fab.mtag
    let m := nextTag m
    sendReport { m with fab2 := { m.fab2 with reports := m.fab2.reports ++ [(n, tag)] } } n tag false) m

/-- Restored reports for the nodes behind a port that came back (R565). -/
def reportRestored (m : Core) (p : Nat) : Core :=
  (attached m p).foldl (fun m n => sendReport (nextTag m) n m.fab.mtag true) m

/-- Whether link-layer starts may complete (R317, R435, R515). -/
def mayComplete (m : Core) : Bool :=
  nodeValid m && !m.deck.mbistFail && (m.mem.ready || decide (role m = 1))

/-- The link-layer start of port `p` completes once both first sequenced flits are through (R55); the first start
begins the listening of R520. -/
def tryComplete (m : Core) (p : Nat) : Core :=
  let q := port m p
  if q.link = .starting && q.rxZero && q.ackZero && mayComplete m then
    let m := setPort m p { q with link := .complete, everLost := false }
    let m := if m.cfg.startedWarm then m else
      { m with fab := { m.fab with listening := decide (m.fab.sm = .listener) && !m.fab.termValid } }
    let m := modCfg m fun c => { c with startedWarm := true, startedCold := true }
    if q.everLost then reportRestored m p else m
  else m

/-- LINK_LOSS: a port whose start had completed loses its link (R94, R563, R564). -/
def linkLoss (m : Core) (p : Nat) : Core :=
  let q := port m p
  if q.link = .complete then
    let m := clearLink (setPort m p { q with everLost := true }) p (if linkHeld m p then .down else .training)
    reportLost (journalLink (linkEvent m p 0) 3 p 1 q.nextTx.toNat q.nextRx.toNat) p
  else if q.link = .starting then clearLink m p (if linkHeld m p then .down else .training)
  else m

/-! ### Receiving (R59 to R62, R88, R95 to R98) -/

/-- The ack that port `p` sends: the last flit accepted in order (R59). Before the first one the spec gives no value, and
the model sends 0xFFF, the number before 0 (assumption log, entry 66). -/
def ackNow (q : Port) : BitVec 12 := q.nextRx - 1

/-- The flits that stay in a replay buffer after an ack; none where the ack names no flit of the buffer (R60). -/
def ackFrees (a : BitVec 12) : List SentFlit → Option (List SentFlit)
  | [] => none
  | f :: r => if f.seq = a then some r else ackFrees a r

/-- A received ack frees flits. -/
def takeAck (q : Port) (a : BitVec 12) : Port :=
  match ackFrees a q.replayBuf with
  | none => q
  | some r => { q with replayBuf := r, replays := 0, replay := false, ackZero := true }

/-- One credit return of an accepted flit (R253, R290). The reserved virtual-channel codes 12 to 14 are ignored as 15 is:
the model's choice (assumption log, entry 66). -/
def takeCredit (m : Core) (p : Nat) (vc : BitVec 4) (cnt : BitVec 6) : Core :=
  let v := vc.toNat
  if 12 ≤ v then m else
    let q := port m p
    let b := vcb q v
    if 2048 < b.c + cnt.toNat then journalLink (linkEvent m p 4) 2 p 3 v cnt.toNat
    else setPort m p (setVcb q v { b with c := b.c + cnt.toNat, crcv := b.crcv + cnt.toNat })

/-- The offset from the time parent as a signed count of nanoseconds. -/
def timeOffset (m : Core) : Int := m.fab.offset.toInt

/-- FAB.TIME_STATUS takes an offset; leaving synchronisation raises its event (R535). -/
def setOffset (m : Core) (o : Int) : Core :=
  let s := decide (-20 ≤ o) && decide (o ≤ 20)
  let was := m.fab.synced
  let m : Core := { m with fab := { m.fab with offset := BitVec.ofInt 16 (max (-32767) (min 32767 o)), synced := s } }
  if was && !s then raise m 84 else m

/-- A new echo or sample on the parent port gives a new offset: behind by more than 1 µs steps the time forward,
anything else is slewed (R532, R534). -/
def newOffset (m : Core) (p : Nat) : Core :=
  if m.fab.parent ≠ some p then m else
    match (port m p).lastEcho, (port m p).lastSample with
    | some e, some (s, a) =>
      let o := (e.toInt + (s - a).toInt) / 2
      if 1000 < o then
        tally .fab 7 1 (setOffset { m with time := m.time + BitVec.ofInt 64 o, pmc := { m.pmc with stepped := true } } 0)
      else setOffset m o
    | _, _ => m

/-- The time-stamp field of an accepted flit (R531, R532). The reserved ts_kind 0b11 is ignored: the model's choice
(assumption log, entry 66). -/
def takeStamp (m : Core) (p : Nat) (t : Trailer) (stamp : BitVec 16) : Core :=
  let q := port m p
  if t.tsKind = 1 then
    newOffset (setPort m p { q with lastSample := some (t.tsValue, stamp), echoDue := some (stamp - t.tsValue) }) p
  else if t.tsKind = 2 then newOffset (setPort m p { q with lastEcho := some t.tsValue }) p
  else m

/-- A readable message that breaks a rule is answered where R96 says so, and discarded. -/
def malformedMsg (m : Core) (p : Nat) (x : Msg) : Core :=
  let m := freeSlots (journalProto (tally .olf (176 + p) 1 m) x 96) p (vcOf x) (slotsOf x)
  if malformedAnswered x then sendErr m x errMalformed else m

/-- A message whose destination is Jalair goes to the engine that takes its class (R154, R161, R252, R501). -/
def localMsg (m : Core) (p : Nat) (x : Msg) : Core :=
  if malformed x then malformedMsg m p x else
    let m := tally .xbr 2 1 m
    match clsOf x.op with
    | .req | .wbk => arrive m { port := p, cyc := m.trk.core, msg := x, at_ := (vcb (port m p) (vcOf x)).sacc }
    | .rsp | .dat => deliver (freeSlots m p (vcOf x) (slotsOf x)) p (vcOf x) x
    | _ => if x.op = .evt then freeSlots m p (vcOf x) (slotsOf x) else deliver m p (vcOf x) x

/-- The identity that R85 keeps of a broadcast. -/
def bcastId (x : Msg) : BcastId := { src := x.src, op := x.op, tag := x.tag }

/-- A broadcast message (R82, R84, R85): its local delivery alone is judged by the rules of R96 (R967). One that they turn
away is forwarded and its identity kept all the same, which the spec does not say of a broadcast: the model's choice
(assumption log, entry 66). -/
def broadcastMsg (m : Core) (p : Nat) (x : Msg) : Core :=
  if m.bcasts.contains (bcastId x) then
    freeSlots (tally .olf (192 + p) 1 m) p (vcOf x) (slotsOf x)
  else
    let m : Core := { m with bcasts := (m.bcasts ++ [bcastId x]).drop (m.bcasts.length + 1 - 64) }
    let m := localMsg m p x
    if x.hop.toNat ≤ 1 then dropMsg m p x errHop else flood m p p { x with hop := x.hop - 1 }

/-- Whether an accepted message makes a prepared Jalair flip: a REQ, WBK or SNP of the other epoch (R630). A message that
R96 or R968 turns away is not acted on, so it flips nothing (assumption log, entry 69). -/
def flips (m : Core) (x : Msg) : Bool :=
  m.cfg.prepared && (decide (clsOf x.op = .req) || decide (clsOf x.op = .wbk) || decide (clsOf x.op = .snp))
    && decide (x.epoch ≠ m.cfg.epoch) && decide (x.hop ≠ 0)
    && !((x.broadcast || decide (x.dest = nodeId m)) && malformed x)

/-- One message of an accepted flit (R98, R630, R968). After a message without credit the later messages of its flit are
still taken, although the port has entered Recovery: the flit has been accepted (assumption log, entry 66). -/
def takeMsg (p : Nat) (m : Core) (x : Msg) : Core :=
  let q := port m p
  let v := vcOf x
  let n := slotsOf x
  let b := vcb q v
  if b.cret < b.sacc + n then
    let m := journalLink (linkEvent m p 3) 2 p 2 v n
    tally .olf (96 + p) 1 (setPort m p { port m p with recovery := true })
  else
    let m := tally .olf (128 + p) n (setPort m p (setVcb q v { b with sacc := b.sacc + n, o := b.o + n }))
    let m := if flips m x then flip m else m
    if x.hop = 0 then malformedMsg m p x
    else if x.broadcast then broadcastMsg m p x
    else if x.dest = nodeId m then localMsg m p x
    else setPort m p { port m p with rxq := (port m p).rxq ++ [⟨v, x, (vcb (port m p) v).sacc⟩] }

/-- The effect of a start flit received without error (R54). -/
def startFlit (m : Core) (p : Nat) : Core :=
  let q := port m p
  if (q.link = .starting || q.link = .complete) && !linkHeld m p && !q.recovery then
    setPort m p { q with gotStart := true }
  else m

/-- FLIT_RECEIVE (R59 to R62, R88). A loopback follower sends back what it receives. A flit of the reserved kind 0b11 is
discarded unaccepted: the model's choice (assumption log, entry 66). -/
def flitReceive (m : Core) (p : Nat) (f : Flit) : Core :=
  let q := port m p
  if q.loop && decide (q.link = .training) && !linkHeld m p then setPort m p { q with wire := [f.bits] }
  else if !(q.link = .starting || q.link = .complete) || linkHeld m p || q.recovery then m
  else if !f.fecOk || !flitCrcOk f.bits then tally .olf (64 + p) 1 m
  else
    let t := flitTrailer f.bits
    if t.kind = 2 then startFlit m p
    else if t.kind = 3 || !q.gotStart || t.seq ≠ q.nextRx then tally .olf (64 + p) 1 m
    else
      let q := takeAck { q with nextRx := q.nextRx + 1, rxZero := true } t.ack
      let m := tally .olf (48 + p) 1 (setPort m p q)
      let m : Core := if f.sameCycle then m else { m with trk := { m.trk with core := m.trk.core + 1 } }
      let m := takeStamp (takeCredit (takeCredit m p t.vcA t.cntA) p t.vcB t.cntB) p t f.stamp
      let m := tryComplete m p
      if t.kind = 1 then m else
        let r := parseArea (flitArea f.bits)
        let m := r.1.foldl (takeMsg p) m
        if r.2 then journalLink (tally .olf (176 + p) 1 (linkEvent m p 2)) 2 p 4 t.seq.toNat 0 else m

/-! ### Sending (R31, R53, R57 to R59, R87, R90 to R93, R530, R531) -/

/-- What a flit being built holds: the port, the messages, their slots. -/
structure Build where
  q : Port
  msgs : List Msg := []
  slots : Nat := 0
  starved : Nat := 0

/-- One grant: the next message of virtual channel `v`, its source chosen round-robin (R31), where credits and room
allow it. The round is ports 0 to 15, the home tracker (16) and the management engines (17), from source 0 on after
the link layer was cleared: both are the model's choice (assumption log, entry 66). -/
def grantMsg (b : Build) (v : Nat) : Build :=
  let has (s : Nat) : Bool := b.q.txq.any fun t => decide (t.vc = v) && decide (t.src = s)
  match firstFrom has 18 (tget 0 b.q.rr v) 18 with
  | none => b
  | some s =>
    match takeFirst (fun t => decide (t.vc = v) && decide (t.src = s)) b.q.txq with
    | none => b
    | some (t, rest) =>
      let n := slotsOf t.msg
      let c := vcb b.q v
      if 30 < b.slots + n then b
      else if c.c < n then { b with starved := b.starved + 1 }
      else
        let q := setVcb { b.q with txq := rest, rr := tput 0 b.q.rr v ((s + 1) % 18) } v
          { c with c := c.c - n, ssent := c.ssent + n }
        { b with q := q, msgs := b.msgs ++ [t.msg], slots := b.slots + n }

/-- The next credit return: the lowest virtual channel with pending returns, at most 63 slots (R93). -/
def nextReturn (q : Port) : Option (Nat × Nat) :=
  match (List.range 12).find? fun v => decide (0 < (vcb q v).p) with
  | none => none
  | some v => some (v, min 63 (vcb q v).p)

/-- A credit return placed in a trailer. -/
def placeReturn (q : Port) : Port × BitVec 4 × BitVec 6 :=
  match nextReturn q with
  | none => (q, 15, 0)
  | some (v, n) =>
    let b := vcb q v
    (setVcb q v { b with p := b.p - n, cret := b.cret + n }, BitVec.ofNat 4 v, BitVec.ofNat 6 n)

/-- The credit returns taken into the trailer of a flit: up to two (R93). -/
def placeReturns (q : Port) : Port :=
  let r := placeReturn q
  if r.2.1 = 15 then r.1 else (placeReturn r.1).1

/-- The returns of virtual channel `v` that the flit being built at a port takes from the pending ones (Table PRG-2,
Merge). -/
def merging (q : Port) (v : Nat) : Nat := (vcb q v).p - (vcb (placeReturns q) v).p

/-- FLIT_SEND: a flit closes with the messages granted to the virtual channels in `picks`, credit returns, the current
ack and a time stamp; until a start flit has come the port sends start flits (R54). -/
def flitSend (m : Core) (p : Nat) (picks : List (Fin 12)) : Core :=
  let q := port m p
  if !(q.link = .starting || q.link = .complete) || linkHeld m p || q.recovery then m
  else if !q.gotStart then setPort m p { q with wire := [packFlit 0 { seq := 0, ack := 0, kind := 2 }] }
  else if 256 ≤ q.replayBuf.length then m
  else
    let b := picks.foldl (fun b v => grantMsg b v.val) { q := q }
    let r1 := placeReturn b.q
    let r2 := if r1.2.1 = 15 then (r1.1, 15, 0) else placeReturn r1.1
    let q := r2.1
    let ts : BitVec 2 × BitVec 16 := match q.echoDue with
      | some e => (2, e)
      | none => if q.sampleDue then (1, m.time.extractLsb' 0 16) else (0, 0)
    let t : Trailer := { seq := q.nextTx, ack := ackNow q, vcA := r1.2.1, cntA := r1.2.2, vcB := r2.2.1, cntB := r2.2.2
                         tsKind := ts.1, tsValue := ts.2, kind := if b.msgs.isEmpty then 1 else 0 }
    let bits := packFlit (if b.msgs.isEmpty then 0 else packArea b.msgs) t
    let m := setPort m p { q with
      nextTx := q.nextTx + 1, replayBuf := q.replayBuf ++ [⟨q.nextTx, bits⟩], wire := [bits], replay := false
      echoDue := none, sampleDue := q.sampleDue && q.echoDue.isSome }
    let m := tally .olf (16 + p) 1 m
    let m := if b.msgs.isEmpty then m else tally .olf (112 + p) b.slots (tally .olf (32 + p) 1 m)
    if b.starved = 0 then m else tally .xbr (32 + p) 1 (tally .olf (144 + p) 1 m)

/-- REPLAY_TIMER: every unacknowledged flit is sent again; after four replays without an ack the port enters Recovery
(R63 to R65). -/
def replayTimer (m : Core) (p : Nat) : Core :=
  let q := port m p
  if q.replayBuf.isEmpty || q.recovery || linkHeld m p then m
  else if 4 ≤ q.replays then tally .olf (96 + p) 1 (setPort m p { q with recovery := true, replays := 0 })
  else tally .olf (80 + p) 1 (setPort m p { q with
    replays := q.replays + 1, replay := true, wire := q.replayBuf.map fun f => refit f.bits (ackNow q) })

/-! ### The commands -/

/-- PHY_TRAINING_START (R951). -/
def execPhyTrainingStart (s : State) : Host.Outcome State Fault Refusal := clocked phyTraining s

/-- PHY_L0 (R44). -/
def execPhyL0 (p : PortIx) (t : PhyTrain) (s : State) : Host.Outcome State Fault Refusal :=
  clocked (fun m => phyL0 m p.val t) s

/-- START_FLIT (R54). -/
def execStartFlit (p : PortIx) (s : State) : Host.Outcome State Fault Refusal := clocked (fun m => startFlit m p.val) s

/-- FLIT_RECEIVE (R88). -/
def execFlitReceive (p : PortIx) (f : Flit) (s : State) : Host.Outcome State Fault Refusal :=
  clocked (fun m => flitReceive m p.val f) s

/-- BROADCAST_ENTRY_EXPIRY: the oldest kept identity expires (R85). -/
def execBroadcastEntryExpiry (s : State) : Host.Outcome State Fault Refusal :=
  clocked (fun m => { m with bcasts := m.bcasts.drop 1 }) s

/-- FLIT_SEND (R90). -/
def execFlitSend (p : PortIx) (picks : List (Fin 12)) (s : State) : Host.Outcome State Fault Refusal :=
  clocked (fun m => flitSend m p.val picks) s

/-- REPLAY_TIMER (R63). -/
def execReplayTimer (p : PortIx) (s : State) : Host.Outcome State Fault Refusal :=
  clocked (fun m => replayTimer m p.val) s

/-- LINK_LOSS (R563). -/
def execLinkLoss (p : PortIx) (s : State) : Host.Outcome State Fault Refusal := clocked (fun m => linkLoss m p.val) s

/-- RECOVERY_EXIT: Recovery returns the port to L0, and its link stays up (R65). -/
def execRecoveryExit (p : PortIx) (s : State) : Host.Outcome State Fault Refusal :=
  clocked (fun m => setPort m p.val { port m p.val with recovery := false }) s

/-- TIME_SAMPLE_SEND: a sample falls due on each port that carries flits (R530). -/
def execTimeSampleSend (s : State) : Host.Outcome State Fault Refusal :=
  clocked (fun m => (List.range 16).foldl (fun m p =>
    if started m p then setPort m p { port m p with sampleDue := true } else m) m) s

/-- PASS_THROUGH (R30). -/
def execPassThrough (p : PortIx) (vc : Fin 12) (s : State) : Host.Outcome State Fault Refusal :=
  clocked (fun m => passThrough m p.val vc.val) s

end Sys2Proof.Machine
end

