-- ==== Sys2Proof/Machine/Fabric.lean ====
section
/-! DEFINITION. Fabric management (spec/11_bringup_coupling.md): the station master's election, global time, fabric-wide
throws, coupling and admission, slot edits, uncoupling and containment. -/

namespace Sys2Proof.Machine

/-- The machine with its fabric management changed. -/
def modFab (m : Core) (f : Fab → Fab) : Core := { m with fab := f m.fab }

/-- The machine with the rest of its fabric management changed. -/
def modFab2 (m : Core) (f : Fab2 → Fab2) : Core := { m with fab2 := f m.fab2 }

/-- The oldest message of an opcode, if it satisfies `p`: messages of one opcode are taken in arrival order. -/
def takeOldest (m : Core) (op : Op) (p : Msg → Bool) : Option (InMsg × Core) :=
  match m.inbox.find? fun i => decide (i.msg.op = op) with
  | some i => if p i.msg then takeInbox m fun g => decide (g.op = op) else none
  | none => none

/-- A FABRIC record: event (1 coupling refusal, 2 duplicate serial, 3 identity, 4 admission, 5 lost edit unanswered), node
ID and code (Table DMJ-6). -/
def journalFab (m : Core) (sev ev node code : Nat) : Core :=
  journal m 0x14 sev (payload [(8, ev), (16, node), (8, code)])

/-! ### Election (R517 to R528) -/

/-- FAB.SM_PRIO. -/
def smPrio (m : Core) : BitVec 8 := BitVec.ofNat 8 (rfld m 0x2000 7 0)

/-- Whether claim (priority, serial) `a` ranks above `b` (R518). -/
def claimAbove (a b : BitVec 8 × BitVec 64) : Bool :=
  decide (b.1.toNat < a.1.toNat) || (decide (a.1 = b.1) && decide (b.2.toNat < a.2.toNat))

/-- Whether term `a` is newer than term `b` (R519). -/
def termNewer (a b : BitVec 16) : Bool := decide (1 ≤ (a - b).toNat) && decide ((a - b).toNat ≤ 32767)

/-- The serial number a `CLM` or `SMA` carries (Table FAB-2). -/
def serialOf (x : Msg) : BitVec 64 := BitVec.ofNat 64 (beAt x.data 0 8)

/-- The highest term heard takes a term. -/
def hearTerm (m : Core) (t : BitVec 16) : Core :=
  match m.fab.heardTerm with
  | none => modFab m fun f => { f with heardTerm := some t }
  | some u => if termNewer t u then modFab m fun f => { f with heardTerm := some t } else m

/-- The term that a claim carries: the highest heard, or 0 (Table FAB-2); after a loss of beacons the current one
(R527). -/
def claimAux (m : Core) : BitVec 16 := m.fab.claimTerm.getD (m.fab.heardTerm.getD 0)

/-- A `CLM` is flooded (R517, R521). -/
def sendClaim (m : Core) : Core :=
  let m := modFab m fun f => { f with seq := f.seq + 1 }
  originateBcast m { op := .clm, tag := m.fab.seq, status := smPrio m, aux := claimAux m
                     data := bePut Config.serial.toNat 0 8 }

/-- An `SMA` is flooded (R517, R524). -/
def sendBeacon (m : Core) : Core :=
  let m := modFab m fun f => { f with seq := f.seq + 1 }
  originateBcast m { op := .sma, tag := m.fab.seq, status := smPrio m, aux := m.fab.term
                     data := bePut Config.serial.toNat 0 8 ||| bePut m.time.toNat 8 8 }

/-- The device becomes a candidate (R520, R521, R522, R527). -/
def becomeCandidate (m : Core) : Core :=
  sendClaim (modFab m fun f => { f with sm := .candidate, stopped := false, listening := false })

/-! ### The identity plate and `CPL` (R516, R528, R544) -/

/-- The role in an identity plate (Table FAB-1). -/
def plateRole (m : Core) : Nat := role m + 2

/-- The 32 bytes that Jalair presents when it couples (Table FAB-1), as a number. -/
def ownPlate (m : Core) : BitVec 256 :=
  BitVec.ofNat 256 (([0x00, 0x04, 0x08, 0x0C, 0x10, 0x14, 0x18].map fun a => (rget m a).toNat).foldl
    (fun x w => x * 2 ^ 32 + w) 0 * 2 ^ 32 + m.pins.straps.chassis.toNat * 2 ^ 24 + m.pins.straps.slot.toNat * 2 ^ 16
    + plateRole m * 2 ^ 8)

/-- The `CPL` that waits for its answer is sent to the station master. -/
def emitCpl (m : Core) : Core :=
  sendMgt m { op := .cpl, dest := m.fab.master, tag := m.fab.cplTag, status := BitVec.ofNat 8 (b1 m.fab.cplRejoin)
              data := bePut (ownPlate m).toNat 0 32 }

/-- `CPL` is sent to the station master, under a new tag. -/
def sendCpl (m : Core) (rejoin : Bool) : Core :=
  emitCpl (modFab (nextTag m) fun f => { f with cplState := 1, cplTag := m.fab.mtag, cplRejoin := rejoin })

/-! ### Slot edits (R557 to R560) -/

/-- The machine with a slot's entry set in both configuration sets. -/
def setSlot (m : Core) (s : Nat) (x : SlotEnt) : Core :=
  modSet (modSet m true fun c => { c with slots := tput {} c.slots s x }) false fun c =>
    { c with slots := tput {} c.slots s x }

/-- What became of a slot edit: a reject code, or whether it changed the entry. -/
inductive EditRes where
  | rejected (code : Nat)
  | done (changed : Bool)
  deriving DecidableEq, Repr

/-- The slot becomes LOST (R203, R557, R570). -/
def slotToLost (m : Core) (s : Nat) (x : SlotEnt) : Core :=
  let m := setSlot m s { x with status := .lost }
  let m := modDeck m fun d => { d with summaries := tset d.summaries s { node := x.node, time := m.time } }
  slotLost (tally .fab 5 1 (raise (walkOrder m .lost s) 82)) s

/-- A slot edit: op 1 ADMIT, 2 CLEAR, 3 LOST (Table FAB-5). -/
def slotEdit (m : Core) (s op : Nat) (f : SlotEnt) : EditRes × Core :=
  let x := slotEnt m m.cfg.epoch s
  let same := decide (x.node = f.node)
  match op, x.status with
  | 1, .empty => (.done true, tally .fab 4 1 (setSlot m s { f with status := .live }))
  | 1, .live => if same then (.done false, m) else (.rejected 0x0C, m)
  | 1, _ => (.rejected 0x05, m)
  | 2, .live =>
    if same then (.done true, tally .fab 4 1 (walkOrder (setSlot m s { x with status := .leaving }) .clear s))
    else (.rejected 0x05, m)
  | 3, .live => if same then (.done true, tally .fab 4 1 (slotToLost m s x)) else (.rejected 0x05, m)
  | 3, .leaving => (.done true, tally .fab 4 1 (slotToLost m s x))
  | _, _ => (.done false, m)

/-- The word of a FAB.SLOT_EDIT write. -/
def editWord (j : EditJob) : Nat :=
  j.slot * 2 ^ 24 + j.node.toNat * 2 ^ 8 + j.cls.toNat * 2 ^ 5 + b1 j.junction * 2 ^ 4 + b1 j.member * 2 ^ 3 + j.op

/-- The entry that an edit gives. -/
def editEnt (j : EditJob) : SlotEnt :=
  { cls := j.cls, junction := j.junction, member := j.member, node := j.node }

/-- A `CFG` write of FAB.SLOT_EDIT at a target (R553). -/
def sendEdit (m : Core) (j : EditJob) : Core :=
  sendMgt m { op := .cfg, dest := j.target, tag := j.tag, status := 2, aux := 0x2030, data := bePut (editWord j) 0 4 }

/-! ### The station master's throw (R540, R541, R547, R577, R586) -/

/-- The roster's nodes. -/
def rosterNodes (m : Core) : List NodeId := m.fab.roster.map fun x => BitVec.ofNat 16 x.1

/-- Whether a fabric-wide throw runs at this master. -/
def throwRuns (m : Core) : Bool := decide (m.fab2.thrPhase = 1) || decide (m.fab2.thrPhase = 2)

/-- `THR` of a phase to every node of a list: 1 PREPARE, 2 FLIP, 3 ABORT (R536). -/
def sendThr (m : Core) (phase : Nat) (ns : List NodeId) : Core :=
  let e := if phase = 2 then !m.cfg.epoch else m.cfg.epoch
  ns.foldl (fun m n =>
    send (nextTag m) 17 none m.cfg.epoch { op := .thr, dest := n, tag := m.fab.mtag, status := BitVec.ofNat 8 phase
                                           aux := m.fab2.thrNum, epoch := e }) m

/-- The throw is aborted (R540). -/
def throwAbort (m : Core) : Core :=
  raise (sendThr (modFab2 m fun f => { f with thrPhase := 4, thrWait := [] }) 3 (rosterNodes m)) 130

/-- The throw has completed (R541). -/
def throwComplete (m : Core) : Core := raise (modFab2 m fun f => { f with thrPhase := 3, thrWait := [] }) 131

/-- All awaited `THA` are in: FLIP or ABORT follows PREPARE, and the throw completes after FLIP (R540, R541). -/
def throwNext (m : Core) : Core :=
  if !m.fab2.thrWait.isEmpty then m
  else if m.fab2.thrPhase = 1 then
    if m.fab2.thrBad then throwAbort m
    else
      let ns := rosterNodes m
      let m := sendThr (modFab2 m fun f => { f with thrPhase := 2, thrWait := ns }) 2 ns
      if ns.isEmpty then throwComplete m else m
  else if m.fab2.thrPhase = 2 then throwComplete m
  else m

/-- A fabric-wide throw starts (R540, R880). -/
def throwBegin (m : Core) : Core :=
  let ns := rosterNodes m
  throwNext (sendThr (modFab2 m fun f => { f with
    thrPhase := 1, thrNum := f.thrNum + 1, thrWait := ns, thrBad := false, thrCode := 0, thrNode := 0 }) 1 ns)

/-- A node's answer, or its silence (0xFF), is the first other than 0x00. -/
def throwNote (m : Core) (n : NodeId) (code : BitVec 8) : Core :=
  modFab2 m fun f => { f with thrBad := true, thrCode := if f.thrCode = 0 then code else f.thrCode
                              thrNode := if f.thrCode = 0 then n else f.thrNode }

/-- THA (R540). -/
def tha (m : Core) (x : Msg) : Core :=
  if !throwRuns m || x.aux ≠ m.fab2.thrNum || !m.fab2.thrWait.contains x.src then m else
    let m := modFab2 m fun f => { f with thrWait := f.thrWait.erase x.src }
    throwNext (if x.status = 0 then m else throwNote m x.src x.status)

/-- THROW_TIMEOUT (R540, R541). -/
def throwTimeout (m : Core) : Core :=
  match m.fab2.thrPhase, m.fab2.thrWait with
  | 1, n :: _ => throwAbort (throwNote m n 0xFF)
  | 2, n :: r =>
    let m := (n :: r).foldl (fun m n =>
      journal m 0x13 2 (payload [(8, 2), (16, m.fab2.thrNum.toNat), (16, n.toNat)])) m
    throwComplete (throwNote m n 0xFF)
  | _, _ => m

/-! ### Admission (R546 to R556, R577, R580, R581) -/

/-- The number of nodes that an admission entry covers. -/
def Admission.count (a : Admission) : Nat := a.count1.toNat + 1

/-- The admission entry of a node (R549). -/
def admissionOf (m : Core) (n : NodeId) : Option Admission :=
  (m.fab.admission.find? fun x => x.2.valid && decide (x.2.nodeBase.toNat ≤ n.toNat)
    && decide (n.toNat < x.2.nodeBase.toNat + x.2.count)).map (·.2)

/-- The slot of a node under an admission entry (R549). -/
def admissionSlot (a : Admission) (n : NodeId) : Nat := a.slotBase.toNat + (n.toNat - a.nodeBase.toNat)

/-- The distinct nodes of a list, in order. -/
def distinct (ns : List NodeId) : List NodeId := ns.foldl (fun r n => if r.contains n then r else r ++ [n]) []

/-- The targets of an admission entry (R553). -/
def targetsOf (m : Core) (a : Admission) : List NodeId :=
  match a.target.toNat with
  | 1 => distinct (((setOf m m.cfg.epoch).home.filter fun x => x.2.valid).flatMap fun x => x.2.used)
  | 2 => [a.jnode]
  | _ => []

/-- The edit that gives node `n` its slot at a target. -/
def editFor (a : Admission) (n target : NodeId) (op : Nat) : EditJob :=
  { target := target, slot := admissionSlot a n, node := n, op := op, cls := a.cls, junction := a.junction, member := a.member }

/-- Bytes 24 + `i` on of a plate, `n` of them. -/
def plateAt (p : BitVec 256) (i n : Nat) : Nat := (p.toNat >>> (8 * (32 - i - n))) % 256 ^ n

/-- A profile value (GEN.ID, GEN.PART, GEN.REV, CAPS0 to CAPS3). -/
def Profile.val (p : Profile) (i : Nat) : Nat := ((p.vals[i]?).getD 0).toNat

/-- The checks 0x22 to 0x25 of Table FAB-4 on a plate. -/
def plateCheck (p : Profile) (plate : BitVec 256) : Option Nat :=
  let caps (f : Nat → Nat) : Nat := [3, 4, 5, 6].foldl (fun a i => a * 2 ^ 32 + f i) 0
  let mine := caps fun i => plateAt plate (4 * i) 4
  let want := caps p.val
  if !p.valid || plateAt plate 0 4 ≠ p.val 0 || plateAt plate 4 4 ≠ p.val 1 then some 0x22
  else if (if p.superset then decide (plateAt plate 8 4 < p.val 2) else decide (plateAt plate 8 4 ≠ p.val 2)) then some 0x23
  else if (if p.superset then decide (want &&& mine ≠ want) else decide (mine ≠ want)) then some 0x24
  else if plateAt plate 30 1 ≠ p.role.toNat then some 0x25
  else none

/-- The answer to a `CPL`: `CMP`, or `ERR` with a refusal code; the master's own request is answered in place (R546,
R583). -/
def cplAnswer (m : Core) (r : CplReq) (code : Nat) : Core :=
  let m := modFab m fun f => { f with admitting := none }
  if r.port = 16 && r.node = nodeId m then
    if code = 0 then modFab m fun f => { f with cplState := 2, afterWarm := false }
    else journalFab (raise (modFab m fun f => { f with cplState := 3, cplCode := BitVec.ofNat 8 code }) 80) 2 1 r.node.toNat code
  else
    let x : Msg := { op := .cpl, src := r.node, tag := r.tag, epoch := r.epoch }
    if code = 0 then sendCmp m x else sendErr m x code

/-- The node is admitted (R552, R556). -/
def admitted (m : Core) (r : CplReq) : Core :=
  cplAnswer (tally .fab 2 1 (modFab m fun f => { f with
    roster := tset f.roster r.node.toNat { port := r.port, plate := r.plate } })) r 0

/-- The answers to these edits are taken and change nothing (assumption log, entry 78). -/
def spend (m : Core) (l : List (NodeId × BitVec 12)) : Core :=
  modFab2 m fun f => { f with spent := f.spent ++ l.filter fun w => decide (w.1 ≠ nodeId m) }

/-- The node is refused; the targets that accepted ADMIT get CLEAR (R555). -/
def refused (m : Core) (r : CplReq) (done : List EditJob) (code : Nat) : Core :=
  let m := done.foldl (fun m j =>
    if j.target = nodeId m then (slotEdit m j.slot 2 (editEnt j)).2
    else sendEdit (spend (nextTag m) [(j.target, m.fab.mtag)]) { j with op := 2, tag := m.fab.mtag }) m
  cplAnswer (journalFab (tally .fab 3 1 m) 2 1 r.node.toNat code) r code

/-- A target's `ERR` code as a refusal code (R554). -/
def editRefusal (code : Nat) : Nat :=
  if code = 0x4C then 0x26 else if code = 0x45 then 0x27 else 0x28

/-- The edits of an admission are made, each at its target in turn (R553, R556). -/
def runAdmit (m : Core) (r : CplReq) (done : List EditJob) : List EditJob → Core
  | [] => admitted m r
  | j :: rest =>
    if j.target = nodeId m then
      match slotEdit m j.slot 1 (editEnt j) with
      | (.rejected c, m) => refused m r done (editRefusal (0x40 + c))
      | (.done _, m) => runAdmit m r (done ++ [j]) rest
    else
      let j := { j with tag := m.fab.mtag, sent := true }
      sendEdit (modFab (nextTag m) fun f => { f with admitting := some { req := r, todo := j :: rest, done := done } }) j

/-- The edits that a newcomer with a home or junction function receives for the nodes already coupled (R556). -/
def reverseEdits (m : Core) (n : NodeId) : List EditJob :=
  (rosterNodes m).filterMap fun k =>
    match admissionOf m k with
    | some a => if (targetsOf m a).contains n then some (editFor a k n 1) else none
    | none => none

/-- The engine takes one `CPL` (R549 to R556, R580). -/
def admitOne (m : Core) (r : CplReq) : Core :=
  match admissionOf m r.node with
  | none => refused m r [] 0x20
  | some a =>
    let self := decide (r.port = 16) && decide (r.node = nodeId m)
    match (if self then none else tfind m.fab.roster r.node.toNat) with
    | some k => if k.port = r.port && k.plate = r.plate then cplAnswer m r 0 else refused m r [] 0x21
    | none =>
      match plateCheck (tget {} m.fab.profiles a.profile.toNat) r.plate with
      | some c => refused m r [] c
      | none =>
        if r.rejoin then admitted m r
        else
          let own := (targetsOf m a).map fun t => editFor a r.node t 1
          let rl := plateAt r.plate 30 1
          runAdmit m r [] (own ++ (if 2 ≤ rl && rl ≤ 4 then reverseEdits m r.node else []))

/-- The engine goes on with its queue while no admission and no fabric-wide throw runs (R548, R577). -/
def pump (m : Core) : Nat → Core
  | 0 => m
  | fuel + 1 =>
    if m.fab.admitting.isSome || throwRuns m || m.fab.sm ≠ .master then m
    else match m.fab.queue with
      | [] => m
      | r :: rest => pump (admitOne (modFab m fun f => { f with queue := rest }) r) fuel

/-- The engine runs. -/
def pumpAll (m : Core) : Core := pump m 65

/-- CPL at the master (R548, R550, R582). -/
def cplArrives (m : Core) (i : InMsg) : Core :=
  let x := i.msg
  let code := if m.fab.sm ≠ .master then 0x29 else if 64 ≤ m.fab.queue.length then 0x2A else 0
  if code ≠ 0 then sendErr m x code
  else
    let r : CplReq := { node := x.src, port := i.port, tag := x.tag, rejoin := bit x.status 0
                        plate := BitVec.ofNat 256 (beAt x.data 0 32), epoch := x.epoch }
    pumpAll (tally .fab 1 1 (modFab m fun f => { f with queue := f.queue ++ [r] }))

/-- The answer of the target of the edit in hand: 0 for `CMP`, otherwise the `ERR` code. -/
def admitReply (m : Core) (code : Nat) : Core :=
  match m.fab.admitting with
  | none => m
  | some a =>
    match a.todo with
    | [] => m
    | j :: rest =>
      let m := modFab m fun f => { f with admitting := none }
      pumpAll (if code = 0 then runAdmit m a.req (a.done ++ [j]) rest else refused m a.req a.done (editRefusal code))

/-- ADMIT_TARGET_TIMEOUT (R554). -/
def admitTimeout (m : Core) : Core :=
  match m.fab.admitting with
  | none => m
  | some a => pumpAll (refused (modFab m fun f => { f with admitting := none }) a.req a.done 0x28)

/-! ### Terms (R525 to R528, R631, R974) -/

/-- A new term leaves the prepared state, and keeps a `PREPARE` check that runs from entering it (R631, R974). -/
def termThrow (m : Core) : Core :=
  let m := if m.cfg.prepared then
      journal (modCfg m fun c => { c with prepared := false }) 0x13 2 (payload [(8, 3), (16, m.cfg.throwNum.toNat)])
    else m
  match m.cfg.check with
  | .prepare s t n e _ => modCfg m fun c => { c with check := .prepare s t n e true }
  | _ => m

/-- A master steps down (R526, R581). -/
def stepDown (m : Core) : Core :=
  if m.fab.sm ≠ .master then modFab m fun f => { f with
    sm := .listener, stopped := false, listening := false, claimTerm := none }
  else
    let m := if m.fab2.thrPhase = 1 then throwAbort m else m
    let rs := (match m.fab.admitting with
      | some a => [a.req]
      | none => []) ++ m.fab.queue
    let m := modFab m fun f => { f with sm := .listener, admitting := none, queue := [] }
    rs.foldl (fun m r => if r.port = 16 then m else
      sendErr m { op := .cpl, src := r.node, tag := r.tag, epoch := r.epoch } 0x29) m

/-- A master of a new term begins (R523, R524, R546, R552). -/
def becomeMaster (m : Core) : Core :=
  let t : BitVec 16 := m.fab.heardTerm.getD 0 + 1
  let was := decide (m.fab.cplState = 2)
  let m := termThrow (modFab m fun f => { f with
    sm := .master, stopped := false, claimTerm := none, termValid := true, term := t, master := nodeId m, masterPrio := smPrio m
    masterSerial := Config.serial, heardTerm := some t, parent := none, roster := [], admitting := none
    queue := [{ node := nodeId m, port := 16, tag := 0, rejoin := was, plate := ownPlate m, epoch := m.cfg.epoch }]
    cplState := if was then 2 else 1 })
  let m := modFab2 m fun f => { f with down := [], leaving := [], lostJobs := [], lostLate := [], thrPhase := 0, thrNum := 0
                                       thrWait := [] }
  pumpAll (sendBeacon (raise m 81))

/-- A followed `SMA` whose term or master is new (R525, R528, R533, R544, R564). -/
def newTerm (m : Core) (i : InMsg) : Core :=
  let x := i.msg
  let m := termThrow (stepDown m)
  let t := BitVec.ofNat 64 (beAt x.data 8 8)
  let m := journal m 0x13 2 (payload [(8, 4), (60, m.time.toNat), (60, t.toNat)])
  let m := modFab { m with time := t, pmc := { m.pmc with stepped := true } } fun f => { f with
    termValid := true, term := x.aux, master := x.src, masterPrio := x.status, masterSerial := serialOf x
    parent := if i.port < 16 then some i.port else none }
  let m := raise (tally .fab 7 1 m) 81
  if m.fab.cplState = 2 then sendCpl m true
  else if !m.fab.afterWarm then sendCpl m false
  else m

/-- A `CLM` or `SMA` that names Jalair's own serial number under another node ID (R585). -/
def dupSerial (m : Core) (x : Msg) : Bool := decide (serialOf x = Config.serial) && decide (x.src ≠ nodeId m)

/-- CLM (R522, R585). -/
def clm (m : Core) (x : Msg) : Core :=
  if dupSerial m x then journalFab (raise m 85) 3 2 x.src.toNat 0
  else
    let m := if x.aux = 0 then m else hearTerm m x.aux
    if m.fab.sm = .candidate && claimAbove (x.status, serialOf x) (smPrio m, Config.serial) then
      modFab m fun f => { f with stopped := true }
    else m

/-- SMA (R525, R526, R529, R585). -/
def sma (m : Core) (i : InMsg) : Core :=
  let x := i.msg
  if dupSerial m x then journalFab (raise m 85) 3 2 x.src.toNat 0
  else if x.src = nodeId m then m
  else
    let m := hearTerm m x.aux
    let f := m.fab
    let same := f.termValid && decide (x.aux = f.term) && decide (x.src = f.master)
    let above := !f.termValid || termNewer x.aux f.term
      || (decide (x.aux = f.term) && claimAbove (x.status, serialOf x) (f.masterPrio, f.masterSerial))
    if same then
      let m := if m.fab.sm = .candidate then stepDown m else m
      tally .fab 6 1 (modFab m fun f => { f with parent := if i.port < 16 then some i.port else f.parent })
    else if above then tally .fab 6 1 (newTerm m i)
    else m

/-! ### Fabric-wide steps at Jalair (R538, R626 to R631, R974) -/

/-- `THA` in answer to a `THR` (R537); code 0x00 acknowledges it, and with it its epoch (R201, R481). -/
def sendTha (m : Core) (x : Msg) (code : Nat) : Core :=
  let m := if code = 0 then modCfg m fun c => { c with ackEpoch := some x.epoch } else m
  sendReply m { op := .tha, dest := x.src, tag := x.tag, epoch := x.epoch, status := BitVec.ofNat 8 code, aux := x.aux }

/-- A `THR` of phase `ph`: refused unless it comes from the station master of the current term (R626), otherwise `f`. -/
def onThr (ph : Nat) (f : Core → Msg → Core) (m : Core) : Core :=
  match takeOldest m .thr fun x => decide (x.status.toNat = ph) with
  | none => m
  | some (i, m) =>
    let x := i.msg
    if !m.fab.termValid || x.src ≠ m.fab.master then
      sendTha (journal m 0x13 2 (payload [(8, 5), (16, x.src.toNat), (8, ph)])) x 5
    else f (modCfg (tally .fab 8 1 m) fun c => { c with throwNum := x.aux }) x

/-- THR_PREPARE (R538). -/
def thrPrepare (m : Core) (x : Msg) : Core :=
  if m.cfg.drain || m.cfg.check ≠ .idle then sendTha m x 6
  else modCfg m fun c => { c with check := .prepare x.src x.tag x.aux x.epoch false }

/-- PREPARE_CHECK_DONE (R627, R974). -/
def prepareDone (m : Core) : Core :=
  match m.cfg.check with
  | .prepare src tag num e ab =>
    let r := throwCheck m
    let m := recordCheck (modCfg m fun c => { c with check := .idle, prepared := r.isNone && !ab }) r
    sendTha m { op := .thr, src := src, tag := tag, aux := num, epoch := e } (if r.isNone then 0 else 8)
  | _ => m

/-- THR_FLIP (R628, R629). -/
def thrFlip (m : Core) (x : Msg) : Core :=
  if x.epoch = m.cfg.epoch then sendTha m x 0
  else if m.cfg.prepared then sendTha (flip m) x 0
  else sendTha (journal (raise m 129) 0x13 2 (payload [(8, 6), (16, x.aux.toNat)])) x 5

/-- THR_ABORT (R631, R974). -/
def thrAbort (m : Core) (x : Msg) : Core :=
  let m := modCfg m fun c => { c with prepared := false }
  sendTha (match m.cfg.check with
    | .prepare s t n e _ => modCfg m fun c => { c with check := .prepare s t n e true }
    | _ => m) x 0

/-! ### Uncoupling and containment (R562 to R569, R578, R579, R584) -/

/-- A node leaves the roster. -/
def leaveRoster (m : Core) (n : NodeId) : Core :=
  let m := modFab m fun f => { f with roster := tdel f.roster n.toNat }
  modFab2 m fun f => { f with lostJobs := f.lostJobs.filter fun j => decide (j.target ≠ n) }

/-- Edits of an op for a node at its targets; a local one is made in place. Answers the target and tag of each edit that
is awaited; a local edit that changes the entry is awaited until the slot is EMPTY, under its slot as tag. -/
def editAll (m : Core) (n : NodeId) (op : Nat) : List (NodeId × BitVec 12) × Core :=
  match admissionOf m n with
  | none => ([], m)
  | some a =>
    (targetsOf m a).foldl (fun (r : List (NodeId × BitVec 12) × Core) t =>
      let m := r.2
      let j := editFor a n t op
      if t = nodeId m then
        match slotEdit m j.slot op (editEnt j) with
        | (.done true, m) => (r.1 ++ [(t, BitVec.ofNat 12 j.slot)], m)
        | (_, m) => (r.1, m)
      else
        let j := { j with tag := m.fab.mtag, sent := true }
        let m := sendEdit (nextTag m) j
        let m := if op = 3 then modFab2 m fun f => { f with lostJobs := f.lostJobs ++ [j] } else m
        (r.1 ++ [(t, j.tag)], m)) ([], m)

/-- A planned uncoupling whose edits have all been answered ends (R562, R579). -/
def leaveDone (m : Core) : Core :=
  match takeFirst (fun (l : Leaving) => l.waiting.isEmpty) m.fab2.leaving with
  | none => m
  | some (l, r) =>
    let m := leaveRoster (modFab2 m fun f => { f with leaving := r }) l.node
    sendCmp m { op := .ucp, src := l.src, tag := l.tag, epoch := l.epoch }

/-- An awaited edit has been answered, or its local slot has become EMPTY. -/
def editAnswered (m : Core) (t : NodeId) (tag : BitVec 12) : Core :=
  leaveDone (modFab2 m fun f => { f with
    lostJobs := f.lostJobs.filter fun j => !(decide (j.target = t) && decide (j.tag = tag))
    leaving := f.leaving.map fun l => { l with waiting := l.waiting.filter fun w => decide (w ≠ (t, tag)) } })

/-- A `UCP` that reaches a device that is not master (R582). -/
def notMaster (m : Core) : Bool := decide (m.fab.sm ≠ .master)

/-- UCP_PLANNED (R562). -/
def ucpPlanned (m : Core) (x : Msg) : Core :=
  if notMaster m then sendErr m x 0x29
  else if (tfind m.fab.roster x.src.toNat).isNone then sendErr m x 0x2B
  else
    let r := editAll m x.src 2
    leaveDone (modFab2 r.2 fun f => { f with
      leaving := f.leaving ++ [{ node := x.src, src := x.src, tag := x.tag, epoch := x.epoch, waiting := r.1 }] })

/-- Whether a node is a junction: the role of its plate, or of its profile. -/
def junctionNode (m : Core) (n : NodeId) : Bool :=
  let r := match tfind m.fab.roster n.toNat with
    | some k => plateAt k.plate 30 1
    | none => match admissionOf m n with
      | some a => (tget ({} : Profile) m.fab.profiles a.profile.toNat).role.toNat
      | none => 0
  decide (r = 3) || decide (r = 4)

/-- The nodes whose admission entry names a junction as target. -/
def membersOf (m : Core) (n : NodeId) : List NodeId :=
  (rosterNodes m).filter fun k => match admissionOf m k with
    | some a => decide (a.target = 2) && decide (a.jnode = n)
    | none => false

/-- The master declares a node lost (R567, R568, R578). -/
def declareLost (m : Core) (n : NodeId) : Core :=
  let gone := n :: (if junctionNode m n then membersOf m n else [])
  let m := gone.foldl leaveRoster m
  let m := (editAll m n 3).2
  throwNext (modFab2 m fun f => { f with thrWait := f.thrWait.filter fun k => !gone.contains k })

/-- UCP_SURPRISE (R566, R567, R569, R579). -/
def ucpSurprise (m : Core) (x : Msg) : Core :=
  if notMaster m then sendErr m x 0x29
  else
    let n : NodeId := x.aux
    let m := sendCmp m x
    let d := tget 0 m.fab2.down n.toNat + 1
    let m := modFab2 m fun f => { f with down := tput 0 f.down n.toNat d }
    if m.fab2.leaving.any fun l => decide (l.node = n) then
      let r := editAll m n 3
      let old := (r.2.fab2.leaving.filter fun l => decide (l.node = n)).flatMap (·.waiting)
      leaveDone (modFab2 (spend r.2 old) fun f => { f with leaving := f.leaving.map fun l =>
        if l.node = n then { l with waiting := r.1 } else l })
    else match admissionOf m n with
      | some a => if d = a.links1.toNat + 1 then declareLost m n else m
      | none => m

/-- UCP_RESTORED (R566). -/
def ucpRestored (m : Core) (x : Msg) : Core :=
  if notMaster m then sendErr m x 0x29
  else sendCmp (modFab2 m fun f => { f with down := tput 0 f.down x.aux.toNat (tget 0 f.down x.aux.toNat - 1) }) x

/-- LOST_EDIT_RESEND: the LOST edits that a target has not answered are sent again (R584). -/
def lostResend (m : Core) (n : NodeId) : Core :=
  let js := m.fab2.lostJobs.filter fun j => decide (j.target = n)
  if js.isEmpty then m else
    let m := if tget false m.fab2.lostLate n.toNat then m else
      journalFab (modFab2 m fun f => { f with lostLate := tput false f.lostLate n.toNat true }) 3 5 n.toNat 0
    js.foldl sendEdit m

/-- Whether a slot is held: by a walk order, an HTE that is not quarantined, or a writeback buffer (R558). -/
def slotHeld (m : Core) (s : Nat) : Bool :=
  (m.deck.orders.any fun o => decide (o.kind ≠ .held) && decide (o.slot = s))
    || (m.trk.htes.any fun x => decide (x.2.kind ≠ .quarantined) && decide (x.2.slot = some s))
    || decide (tget 0 m.trk.wbUse s ≠ 0)

/-- SLOT_EMPTY (R558, R559). -/
def slotEmpty (m : Core) (s : Nat) : Core :=
  let x := slotEnt m m.cfg.epoch s
  if !(x.status = .leaving || x.status = .lost) || slotHeld m s then m else
    let m := raise (setSlot m s {}) 83
    let mine := m.fab2.pendCmp.filter fun p => decide (p.1 = s)
    let m := modFab2 m fun f => { f with pendCmp := f.pendCmp.filter fun p => decide (p.1 ≠ s) }
    let m := mine.foldl (fun m p =>
      sendCmp m { op := .cfg, src := p.2.2.1, tag := p.2.2.2.1, epoch := p.2.2.2.2 }) m
    editAnswered m (nodeId m) (BitVec.ofNat 12 s)

/-! ### `CMP` and `ERR` for the management engines -/

/-- Whether an answer is for this node's own `CPL`. -/
def forCpl (m : Core) (g : Msg) : Bool :=
  decide (m.fab.cplState = 1) && decide (g.src = m.fab.master) && decide (g.tag = m.fab.cplTag)

/-- Whether an answer is for the edit that an admission awaits. -/
def forAdmit (m : Core) (g : Msg) : Bool :=
  match m.fab.admitting with
  | some a => match a.todo with
    | j :: _ => decide (j.target = g.src) && decide (j.tag = g.tag)
    | [] => false
  | none => false

/-- Whether an answer is for another edit that the master awaits. -/
def forEdit (m : Core) (g : Msg) : Bool :=
  (m.fab2.lostJobs.any fun j => decide (j.target = g.src) && decide (j.tag = g.tag))
    || (m.fab2.leaving.any fun l => l.waiting.contains (g.src, g.tag))

/-- Whether an answer is for an edit whose end nothing awaits. -/
def forSpent (m : Core) (g : Msg) : Bool := m.fab2.spent.contains (g.src, g.tag)

/-- Whether an answer is for a report of this node. -/
def forReport (m : Core) (g : Msg) : Bool :=
  decide (g.src = m.fab.master) && m.fab2.reports.any fun r => decide (r.2 = g.tag)

/-- A `CMP` or `ERR` that a management message of this node awaits: what becomes of it; none where it is for another
engine (R483, R544, R554, R562, R564, R583, R584). -/
def mgtAnswer (m : Core) (g : Msg) : Option Core :=
  let ok := decide (g.op = .cmp)
  if g.htag ≠ 0 || g.line ≠ 0 then none
  else if forAdmit m g then some (admitReply m (if ok then 0 else g.status.toNat))
  else if forEdit m g then some (editAnswered m g.src g.tag)
  else if forCpl m g then
    some (if ok then modFab m fun f => { f with cplState := 2, afterWarm := false }
      else journalFab (raise (modFab m fun f => { f with cplState := 3, cplCode := g.status }) 80) 2 1 (nodeId m).toNat
        g.status.toNat)
  else if forSpent m g then some (modFab2 m fun f => { f with spent := f.spent.erase (g.src, g.tag) })
  else if forReport m g then
    some (if ok then modFab2 m fun f => { f with reports := f.reports.filter fun r => decide (r.2 ≠ g.tag) } else m)
  else none

/-! ### The commands -/

/-- A command that takes the oldest message of an opcode, where it satisfies `p`. -/
def onMsg (op : Op) (p : Msg → Bool) (f : Core → InMsg → Core) (m : Core) : Core :=
  match takeOldest m op p with
  | none => m
  | some (i, m) => f m i

/-- LISTEN_END (R520). -/
def execListenEnd (s : State) : Host.Outcome State Fault Refusal :=
  clocked (fun m => if m.fab.listening && m.fab.sm = .listener && !m.fab.termValid && smPrio m ≠ 0 then becomeCandidate m
    else m) s

/-- CLM (R522). -/
def execClm (s : State) : Host.Outcome State Fault Refusal := clocked (onMsg .clm (fun _ => true) fun m i => clm m i.msg) s

/-- CLAIM_RESEND (R521). -/
def execClaimResend (s : State) : Host.Outcome State Fault Refusal :=
  clocked (fun m => if m.fab.sm = .candidate && !m.fab.stopped then sendClaim m else m) s

/-- CLAIM_WAIT_TIMEOUT (R522). -/
def execClaimWaitTimeout (s : State) : Host.Outcome State Fault Refusal :=
  clocked (fun m => if m.fab.sm = .candidate && m.fab.stopped then becomeCandidate m else m) s

/-- SETTLE_END (R523). -/
def execSettleEnd (s : State) : Host.Outcome State Fault Refusal :=
  clocked (fun m => if m.fab.sm = .candidate && !m.fab.stopped then becomeMaster m else m) s

/-- BEACON (R524). -/
def execBeacon (s : State) : Host.Outcome State Fault Refusal :=
  clocked (fun m => if m.fab.sm = .master then sendBeacon m else m) s

/-- SMA (R525). -/
def execSma (s : State) : Host.Outcome State Fault Refusal := clocked (onMsg .sma (fun _ => true) sma) s

/-- BEACON_LOSS (R527). -/
def execBeaconLoss (s : State) : Host.Outcome State Fault Refusal :=
  clocked (fun m => if m.fab.sm = .listener && m.fab.termValid && smPrio m ≠ 0 then
    becomeCandidate (modFab m fun f => { f with claimTerm := some f.term }) else m) s

/-- THR_PREPARE (R538, R626). -/
def execThrPrepare (s : State) : Host.Outcome State Fault Refusal := clocked (onThr 1 thrPrepare) s

/-- PREPARE_CHECK_DONE (R974). -/
def execPrepareCheckDone (s : State) : Host.Outcome State Fault Refusal := clocked prepareDone s

/-- THR_FLIP (R628). -/
def execThrFlip (s : State) : Host.Outcome State Fault Refusal := clocked (onThr 2 thrFlip) s

/-- THR_ABORT (R631). -/
def execThrAbort (s : State) : Host.Outcome State Fault Refusal := clocked (onThr 3 thrAbort) s

/-- THA (R540). -/
def execTha (s : State) : Host.Outcome State Fault Refusal :=
  clocked (fun m => pumpAll (onMsg .tha (fun _ => true) (fun m i => tha m i.msg) m)) s

/-- THROW_TIMEOUT (R540). -/
def execThrowTimeout (s : State) : Host.Outcome State Fault Refusal := clocked (fun m => pumpAll (throwTimeout m)) s

/-- CPL (R550). -/
def execCpl (s : State) : Host.Outcome State Fault Refusal := clocked (onMsg .cpl (fun _ => true) cplArrives) s

/-- A follower that is not coupled sends `CPL` again (R543, R544, R573): the unanswered one again, a new one after a
refusal of R543, unless a warm reset leaves the first one to software. -/
def cplAgain (m : Core) : Core :=
  let f := m.fab
  let refused := decide (f.cplCode = 0x29) || decide (f.cplCode = 0x2A) || decide (f.cplCode = 0x27)
  if !f.termValid || f.sm ≠ .listener then m
  else match f.cplState with
    | 0 => if f.afterWarm then m else sendCpl m false
    | 1 => emitCpl m
    | 3 => if refused then sendCpl m f.cplRejoin else m
    | _ => m

/-- CPL_RESEND (R544). -/
def execCplResend (s : State) : Host.Outcome State Fault Refusal := clocked cplAgain s

/-- ADMIT_TARGET_TIMEOUT (R554). -/
def execAdmitTargetTimeout (s : State) : Host.Outcome State Fault Refusal := clocked admitTimeout s

/-- UCP_PLANNED (R562). -/
def execUcpPlanned (s : State) : Host.Outcome State Fault Refusal :=
  clocked (onMsg .ucp (fun x => decide (x.status = 0)) fun m i => ucpPlanned m i.msg) s

/-- UCP_SURPRISE (R566). -/
def execUcpSurprise (s : State) : Host.Outcome State Fault Refusal :=
  clocked (onMsg .ucp (fun x => decide (x.status = 1)) fun m i => pumpAll (ucpSurprise m i.msg)) s

/-- UCP_RESTORED (R566). -/
def execUcpRestored (s : State) : Host.Outcome State Fault Refusal :=
  clocked (onMsg .ucp (fun x => decide (x.status = 2)) fun m i => ucpRestored m i.msg) s

/-- UCP_RESEND (R564). -/
def execUcpResend (node : NodeId) (s : State) : Host.Outcome State Fault Refusal :=
  clocked (fun m => m.fab2.reports.foldl (fun m r => if r.1 = node then sendReport m r.1 r.2 false else m) m) s

/-- LOST_EDIT_RESEND (R584). -/
def execLostEditResend (node : NodeId) (s : State) : Host.Outcome State Fault Refusal :=
  clocked (fun m => lostResend m node) s

/-- SLOT_EMPTY (R558). -/
def execSlotEmpty (slot : BitVec 8) (s : State) : Host.Outcome State Fault Refusal :=
  clocked (fun m => slotEmpty m slot.toNat) s

end Sys2Proof.Machine
end

