-- ==== Sys2Proof/Machine/Eic.lean ====
section
/-! DEFINITION. The event interrupt controller (spec/13_interrupts.md): EVIN inputs, claims, completions, doorbells and
`EVT` messages. Sources are raised, selected and delivered in Machine/Ops.lean. -/

namespace Sys2Proof.Machine

/-- The machine with its EIC changed. -/
def modEic (m : Core) (f : Eic → Eic) : Core := { m with eic := f m.eic }

/-! ### EVIN inputs (R659 to R663) -/

/-- Whether EVIN `n` is level-sensed. -/
def evinLevel (m : Core) (n : Nat) : Bool := rbit m (0x2500 + 4 * n) 1

/-- Whether the filtered value of EVIN `n` is active (R661). -/
def evinActive (m : Core) (n : Nat) : Bool :=
  tget false m.eic.evinKnown n && decide (tget false m.eic.evin n = rbit m (0x2500 + 4 * n) 0)

/-- A level-sensed source whose input is not active is pending no longer (R663). -/
def evinDrop (m : Core) (n : Nat) : Core :=
  if decide (n < 16) && evinLevel m n && !evinActive m n && decide (srcSt m n = .pending) then
    eicUpdate (setSrc m n .inactive)
  else m

/-- EVIN_CHANGE: the filtered value of a pin becomes `level`; the first value after a reset raises no edge (R659 to
R663). -/
def evinChange (m : Core) (n : Nat) (level : Bool) : Core :=
  let known := tget false m.eic.evinKnown n
  if known && tget false m.eic.evin n = level then m else
    let m := modEic m fun x => { x with evin := tput false x.evin n level, evinKnown := tput false x.evinKnown n true }
    if evinLevel m n then (if evinActive m n then raise m n else evinDrop m n)
    else if known && evinActive m n then raise m n
    else m

/-- The level-sensed EVIN sources are raised in one MGMT cycle (R662). -/
def evinCycle (m : Core) : Core :=
  (List.range 16).foldl (fun m n => if evinLevel m n && evinActive m n then raise m n else m) m

/-! ### Claims and completions (R651, R652, R667 to R673) -/

/-- The depth of a target's stack. -/
def stackDepth (m : Core) (t : Nat) : Nat := (stackOf m t).length

/-- A write of 1 to EIC.Tn_CLAIM.go by a master (R667, R668). -/
def claim (m : Core) (t mid : Nat) : Core :=
  let a := 0x2490 + 0x20 * t
  let seq := (rfld m a 23 20 + 1) % 16
  match selected m t with
  | none => rset (tally .eic 4 1 m) a (BitVec.ofNat 32 (seq * 2 ^ 20 + mid * 2 ^ 16 + 0x100))
  | some n =>
    let l := (srcCfg m n).1
    let m := rset (tally .eic 3 1 m) a (BitVec.ofNat 32 (seq * 2 ^ 20 + mid * 2 ^ 16 + l * 2 ^ 12 + n))
    let m := setSrc m n .active
    let m := if threshMode m t then m else
      modEic m fun x => { x with stack := tput [] x.stack t ((n, l) :: tget [] x.stack t) }
    eicUpdate m

/-- A completion of source `n` (R652). -/
def completeSrc (m : Core) (n : Nat) : Core :=
  let m := match srcSt m n with
    | .active => setSrc m n .inactive
    | .both => setSrc m n .pending
    | _ => m
  eicUpdate (evinDrop m n)

/-- Whether a write of a source to EIC.Tn_EOI is in order (R669, R670). -/
def eoiOk (m : Core) (t n : Nat) : Bool :=
  !threshMode m t && (match stackOf m t with
    | [] => false
    | x :: _ => decide (x.1 = n))

/-- The accepted write to EIC.Tn_EOI (R669). -/
def eoi (m : Core) (t n : Nat) : Core :=
  completeSrc (modEic m fun x => { x with stack := tput [] x.stack t ((tget [] x.stack t).drop 1) }) n

/-- Whether a source is active or active-and-pending. -/
def isActive (m : Core) (n : Nat) : Bool := decide (srcSt m n = .active) || decide (srcSt m n = .both)

/-- Whether a write of a source to EIC.Tn_COMPLETE is in order (R671, R672). -/
def completeOk (m : Core) (t n : Nat) : Bool := threshMode m t && isActive m n && decide ((srcCfg m n).2 = t)

/-- Whether a target has an active source or a stack that is not empty (R673). -/
def targetBusy (m : Core) (t : Nat) : Bool :=
  !(stackOf m t).isEmpty || m.eic.st.any fun x => isActive m x.1 && decide ((srcCfg m x.1).2 = t)

/-- Pending bits of register `k` cleared where `v` has ones (R653). -/
def clearPending (m : Core) (k : Nat) (v : Word) : Core :=
  eicUpdate ((List.range 32).foldl (fun m j =>
    if bit v j then
      match srcSt m (32 * k + j) with
      | .pending => setSrc m (32 * k + j) .inactive
      | .both => setSrc m (32 * k + j) .active
      | _ => m
    else m) m)

/-! ### `EVT` (R676 to R681) -/

/-- The source and the level that an `EVT` sent now carries. Where the target has no eligible source any more, the spec
states neither, and both are free values (assumption log, entry 79). -/
def evtContent (m : Core) (t : Nat) : Nat × Nat × Core :=
  match selected m t with
  | some n => (n, (srcCfg m n).1, m)
  | none => let r := freeLine m; (fld r.1 8 0, fld r.1 19 16, r.2)

/-- EVT_SEND: the waiting `EVT` of a target is sent with its content at that instant (R677, R678, R680). -/
def evtSend (m : Core) (t : Nat) : Core :=
  let e := tget {} m.eic.evt t
  if !e.waiting then m else
    let c := evtContent m t
    let s := c.1
    let l := c.2.1
    let m := c.2.2
    let m := if e.stalled then
        journalFab m 2 7 (rfld m (0x2488 + 0x20 * t) 15 0) ((m.stmp - e.since) / 100)
      else m
    let m := modEic m fun x => { x with
      evt := tput {} x.evt t { e with waiting := false, stalled := false, sent := e.sent + 1 } }
    sendMgt (tally .eic 5 1 m)
      { op := .evt, dest := BitVec.ofNat 16 (rfld m (0x2488 + 0x20 * t) 15 0), status := BitVec.ofNat 8 t
        aux := BitVec.ofNat 16 s, data := bePut (e.sent + 1).toNat 0 4 ||| bePut l 4 1 }

/-- EVT_STALL: an `EVT` has waited 1 ms (R680). -/
def evtStall (m : Core) (t : Nat) : Core :=
  let e := tget {} m.eic.evt t
  if !e.waiting || e.stalled then m else
    journalFab (modEic m fun x => { x with evt := tput {} x.evt t { e with stalled := true } }) 2 6
      (rfld m (0x2488 + 0x20 * t) 15 0) t

/-! ### The commands -/

/-- EVIN_CHANGE (R659). -/
def execEvinChange (n : Fin 16) (level : Bool) (s : State) : Host.Outcome State Fault Refusal :=
  clocked (fun m => evinChange m n.val level) s

/-- EVT_SEND (R676). -/
def execEvtSend (n : Fin 4) (s : State) : Host.Outcome State Fault Refusal := clocked (fun m => evtSend m n.val) s

/-- EVT_RESEND: while the target has an eligible source an `EVT` falls due (R676). -/
def execEvtResend (n : Fin 4) (s : State) : Host.Outcome State Fault Refusal :=
  clocked (fun m => if rbit m (0x2480 + 0x20 * n.val) 2 then evtDue m n.val else m) s

/-- EVT_STALL (R680). -/
def execEvtStall (n : Fin 4) (s : State) : Host.Outcome State Fault Refusal := clocked (fun m => evtStall m n.val) s

end Sys2Proof.Machine
end

