-- ==== Sys2Proof/Machine/Dmt.lean ====
section
/-! DEFINITION. The dead-man timer (spec/14_deadman_journal.md, R691 to R714): stages, keys and expiries. -/

namespace Sys2Proof.Machine

/-- The machine with its dead-man timer changed. -/
def modDmt (m : Core) (f : Dmt → Dmt) : Core := { m with dmt := f m.dmt }

/-- DMT.CTL.enable. -/
def dmtOn (m : Core) : Bool := rbit m 0x2800 0

/-- The payload of a DMT record (Table DMJ-6): event, DMT.COUNT, master and source node. -/
def dmtPayload (m : Core) (event mid node : Nat) : BitVec 128 :=
  payload [(8, event), (32, m.dmt.count.toNat), (8, mid), (16, node)]

/-- Stage 1 is entered (R708). `event` says why: 1 expiry, 5 early service, 6 refused service. -/
def dmtStage1 (m : Core) (event mid node : Nat) : Core :=
  let m := journal m 4 3 (dmtPayload m event mid node)
  let m := raise (rsetf m 0x2818 2 2 1) 16
  modDmt m fun d => { d with stage := 1, count := rget m 0x2808 }

/-- The stage 2 outputs (R695, R710, R711, R712). -/
def dmtOutputs (m : Core) : Core :=
  let m := modDmt m fun d => { d with stage := 2, fence := d.fence || rbit m 0x2800 5 }
  { m with pins := { m.pins with dmtRstN := m.pins.dmtRstN || rbit m 0x2800 4 } }

/-- A record as the tail buffer shows it before it has a sequence number (R751). -/
def tailMark (sev : Nat) (time : BitVec 52) (p : BitVec 128) : BitVec 256 :=
  BitVec.ofNat 256 (((4 * 16 + sev) * 2 ^ 32 * 2 ^ 52 + time.toNat) * 2 ^ 160 + p.toNat * 2 ^ 32)

/-- Stage 2 is entered (R710): the outputs, and a fatal record in the tail buffer and in the queue. `event` is 2 for an
expiry, 3 for a clock-stop trip. -/
def dmtStage2 (m : Core) (event : Nat) : Core :=
  let p := dmtPayload m event 0 0
  let m := journal m 4 4 p
  dmtOutputs { m with jnl := { m.jnl with
    tail := (tailMark 4 (m.time.extractLsb' 8 52) p :: m.jnl.tail).take 16 } }

/-- DMT.COUNT has reached 0 (R699, R709). -/
def dmtZero (m : Core) : Core :=
  if !dmtOn m then m
  else if m.dmt.stage = 0 then dmtStage1 (modDmt m fun d => { d with count := 0 }) 1 0 0
  else if m.dmt.stage = 1 then dmtStage2 (modDmt m fun d => { d with count := 0 }) 2
  else m

/-- One tick of the clock that DMT.CTL.clk_sel selects (R691, R699, R709). -/
def dmtTick (m : Core) : Core :=
  if !dmtOn m || m.dmt.stage = 2 then m
  else if m.dmt.count.toNat ≤ 1 then dmtZero m
  else modDmt m fun d => { d with count := d.count - 1 }

/-- Whether the service window is open (R700). -/
def windowOpen (m : Core) : Bool :=
  decide (m.dmt.stage = 1)
    || decide (m.dmt.count.toNat ≤ (rget m 0x2804).toNat - (rget m 0x2804).toNat * rfld m 0x2800 3 2 / 4)

/-- Whether a master may write DMT.SERVICE (Table DMJ-3). -/
def mayService (m : Core) (mid : Nat) (priv : Bool) (node : NodeId) : Bool :=
  if mid = 7 then rbit m 0x2800 6 && m.fab.termValid && decide (node = m.fab.master)
  else if mid = 6 then rbit m 0x3848 31
  else priv && rbit m 0x2814 mid

/-- A completed service (R704, R705). -/
def service (m : Core) (mid : Nat) (node : NodeId) : Core :=
  if windowOpen m then modDmt m fun d => { d with stage := 0, count := rget m 0x2804 }
  else dmtStage1 (rsetf m 0x2818 3 3 1) 5 mid node.toNat

/-- A key written to DMT.SERVICE by a permitted master in stage 0 or 1 with the timer enabled (R701, R703): the machine
after it, and whether it is accepted. `late` says that more than 400 MGMT cycles have passed since the first key. -/
def serviceKey (m : Core) (mid : Nat) (node : NodeId) (v : Word) (late : Bool) : Core × Bool :=
  let disarm (m : Core) : Core := modDmt m fun d => { d with armed := none }
  let who := (BitVec.ofNat 3 mid, if mid = 7 then node else 0)
  if v = 0x0000A5C3#32 then (modDmt m fun d => { d with armed := some who, armedAt := m.stmp }, true)
  else if v = 0x00003C5A#32 && decide (m.dmt.armed = some who) && !late && decide (m.stmp ≤ m.dmt.armedAt + 100) then
    (service (disarm m) mid node, true)
  else (disarm m, false)

/-- A reject of code NOT_PRIVILEGED at DMT.SERVICE (R707). -/
def serviceRefused (m : Core) (mid : Nat) (node : NodeId) : Core :=
  let m := raise (rinc m 0x281C 1) 18
  if dmtOn m && m.dmt.stage = 0 && rbit m 0x2800 7 then dmtStage1 m 6 mid node.toNat else m

/-- DMT.STATUS: the live bits beside the sticky ones (Table RGS-2). -/
def dmtStatus (m : Core) : Word :=
  let s := rget m 0x2818
  putFld (putFld (putFld (putFld s 8 8 (b1 m.dmt.armed.isSome)) 4 4 (b1 m.dmt.fence)) 1 1 (b1 (m.dmt.stage = 2)))
    0 0 (b1 (m.dmt.stage = 1))

/-- DMT_EXPIRY (R699). -/
def execDmtExpiry (s : State) : Host.Outcome State Fault Refusal :=
  awakened (fun m => if m.dmt.stage = 0 then dmtZero m else m) s

/-- GRACE_EXPIRY (R709). -/
def execGraceExpiry (s : State) : Host.Outcome State Fault Refusal :=
  awakened (fun m => if m.dmt.stage = 1 then dmtZero m else m) s

end Sys2Proof.Machine
end

