-- ==== Sys2Proof/Machine/Journal.lean ====
section
/-! DEFINITION. The black-box journal (spec/14_deadman_journal.md, R715 to R756): records and their chain, the record
engine, the two devices, remote copies, the head search and the power-fail flush. -/

namespace Sys2Proof.Machine

/-- The machine with its journal changed. -/
def modJnl (m : Core) (f : Jnl → Jnl) : Core := { m with jnl := f m.jnl }

/-! ### Records and slots (R716 to R720) -/

/-- The records that a device holds (R716). -/
def jnlSlots (m : Core) : Nat := 4096 * 2 ^ rfld m 0x2C00 2 0

/-- The sequence number after `s` (R719). -/
def seqNext (s : Nat) : Nat := if s = 0xFFFFFFFF then 1024 else s + 1

/-- The ring distance between sequence numbers of 1,024 or more (R719). -/
def ringDist (a b : Nat) : Nat := (b + (2 ^ 32 - 1024) - a) % (2 ^ 32 - 1024)

/-- The slot of a record of sequence `s` whose predecessor stands in slot `prev` (R720). -/
def slotAfter (n s prev : Nat) : Nat := if s < 1024 then s else if prev + 1 = n then 1024 else prev + 1

/-- Bytes 0 to 27 of a record (Table DMJ-4), as a number. -/
def recordHead (single : Bool) (r : QRec) (sq : Nat) : Nat :=
  ((((b1 single * 2 ^ 7 + r.typ.toNat) * 2 ^ 4 + r.sev.toNat) * 2 ^ 32 + sq) * 2 ^ 52 + r.time.toNat) * 2 ^ 128
    + r.payload.toNat

/-- The crc of a record with head `h` whose predecessor's stored crc is `prev` (R718). -/
def recordCrc (h : Nat) (prev : BitVec 32) : Nat := crc32c prev.toNat (beBytes h 28)

/-- A whole record. -/
def recordOf (h : Nat) (prev : BitVec 32) : BitVec 256 := BitVec.ofNat 256 (h * 2 ^ 32 + recordCrc h prev)

/-- A record's sequence number. -/
def recSeq (r : BitVec 256) : Nat := fld r 243 212

/-- A record's stored crc. -/
def recCrc (r : BitVec 256) : BitVec 32 := r.extractLsb' 0 32

/-- Whether a record's crc checks from a predecessor's. -/
def crcChecks (r : BitVec 256) (prev : BitVec 32) : Bool := decide (recordCrc (r.toNat / 2 ^ 32) prev = (recCrc r).toNat)

/-! ### Devices -/

/-- The content of slot `k` of the primary, or of the mirror; a slot that nothing has written reads 0. -/
def devSlot (m : Core) (mirror : Bool) (k : Nat) : BitVec 256 := tget 0 (if mirror then m.jnl.dev1 else m.jnl.dev0) k

/-- A record stands in a slot of a device. -/
def devWrite (m : Core) (mirror : Bool) (k : Nat) (r : BitVec 256) : Core :=
  modJnl m fun j => if mirror then { j with dev1 := tput 0 j.dev1 k r } else { j with dev0 := tput 0 j.dev0 k r }

/-- Whether a device is live: not marked failed. -/
def devLive (m : Core) (mirror : Bool) : Bool := !rbit m 0x2C08 (if mirror then 1 else 0)

/-- Whether only one device is live (R732). -/
def oneLive (m : Core) : Bool := devLive m false != devLive m true

/-- A device's head slot becomes `k`. -/
def setHead (m : Core) (mirror : Bool) (k : Nat) : Core :=
  modJnl m fun j => { j with headSlots := tput 0 j.headSlots (b1 mirror) k }

/-! ### Who holds SPA (R807, R818, R819) -/

/-- The journal engine has a frame ready: of a record write, of the head search or of the flush. -/
def spaJournal (m : Core) : Bool := m.jnl.cur.isSome || m.jnl.searching || !m.jnl.flushing.isEmpty

/-- The image loader has a frame ready: it reads a copy. -/
def spaLoader (m : Core) : Bool := decide (m.boot.loading ≠ 0) && !m.boot.applying

/-- The machine with an engine as SPA's owner. -/
def spaOwn (m : Core) (k : Nat) : Core := { m with spi := { m.spi with own := k } }

/-- A held select is deasserted and the hold is broken (R818). -/
def spaBreak (m : Core) : Core :=
  if m.spi.held.isNone then m else rsetf { m with spi := { m.spi with held := none } } 0x3814 2 2 1

/-- A frame boundary: SPA goes to the journal engine, the image loader or software, the first that has a frame ready
(R807); the first two break a hold (R818). -/
def spaBoundary (m : Core) : Core :=
  if spaJournal m then spaOwn (spaBreak m) 1
  else if spaLoader m then spaOwn (spaBreak m) 2
  else spaOwn m (if m.spi.spaFrame.isSome then 3 else 0)

/-- An engine has become ready: it takes SPA where no frame runs, and else waits for the frame boundary. -/
def spaCall (m : Core) : Core := if m.spi.own = 0 then spaBoundary m else m

/-! ### Taking a record (R727, R738, R739) -/

/-- The `JRC` messages to a keeper that still wait. -/
def jrcWaiting (m : Core) (k : NodeId) : List (Nat × XItem) :=
  m.ports.foldl (fun a p => a ++ ((p.2.txq.filter fun i =>
    decide (i.src = 17) && decide (i.msg.op = .jrc) && decide (i.msg.dest = k)).map fun i => (p.1, i))) []

/-- The oldest waiting `JRC` to a keeper is displaced (R739). -/
def jrcDisplace (m : Core) (k : NodeId) : Core :=
  match jrcWaiting m k with
  | [] => m
  | x :: _ =>
    let q := port m x.1
    let drop (i : XItem) : Bool := decide (i.src = 17) && decide (i.msg.op = .jrc) && decide (i.msg.dest = k)
    match takeFirst drop q.txq with
    | some (_, r) => setPort m x.1 { q with txq := r }
    | none => m

/-- A record goes to keeper `i`, if one is named (R738, R739). -/
def jrcTo (r : BitVec 256) (m : Core) (i : Nat) : Core :=
  if !rbit m (0x203C + 4 * i) 31 then m else
    let k : NodeId := BitVec.ofNat 16 (rfld m (0x203C + 4 * i) 15 0)
    let full := decide (16 ≤ (jrcWaiting m k).length)
    let m := if full then
        let m := rinc (jrcDisplace m k) 0x2C24 1
        let m := if tget false m.jnl.jrcQuiet i then m else raise m 148
        modJnl m fun j => { j with jrcQuiet := tput false j.jrcQuiet i true }
      else modJnl m fun j => { j with jrcQuiet := tput false j.jrcQuiet i false }
    sendMgt (tally .jnl 4 1 m)
      { op := .jrc, dest := k, tag := BitVec.ofNat 12 (recSeq r), data := bePut r.toNat 0 32 }

/-- A record taken from the queue: it gets its sequence number, its slot and its crc, enters the tail buffer and goes
to the keepers (R718 to R721, R727, R738, R751). The answer holds the record, its slot and its predecessor's crc. -/
def takeRec (m : Core) (r : QRec) (single : Bool) : Core × BitVec 256 × Nat × BitVec 32 :=
  let sq := m.jnl.nextSeq.toNat
  let prev : BitVec 32 := if sq = 0 then 0xFFFFFFFF#32 else m.jnl.lastCrc
  let b := recordOf (recordHead single r sq) prev
  let mark := tailMark r.sev.toNat r.time r.payload
  let slot := m.jnl.slot
  let sq' := seqNext sq
  let m := modJnl m fun j => { j with
    nextSeq := BitVec.ofNat 32 sq', lastCrc := recCrc b, slot := slotAfter (jnlSlots m) sq' slot
    tail := (b :: (if r.typ = 4 then j.tail.erase mark else j.tail)).take 16 }
  let m := if rbit m 0x2C00 8 && (r.action = 0 || r.action = 2) then [0, 1].foldl (jrcTo b) m else m
  (if sq = 1023 then raise m 147 else m, b, slot, prev)

/-- A RECORDS_LOST record when space has freed (R728). -/
def lostRecord (m : Core) : Core :=
  if m.jnl.lost = 0 || 64 ≤ m.jnl.queue.length then m else
    journal (modJnl m fun j => { j with lost := 0, lostSev := 0 }) 6 3
      (payload [(32, m.jnl.lost), (4, m.jnl.lostSev.toNat)])

/-- A record that no device takes (R733). -/
def recordLost (m : Core) : Core := rinc m 0x2C0C 1

/-- A record's write begins: to the primary first, or to the mirror (R729); to none where both have failed. -/
def beginWrite (m : Core) (b : BitVec 256) (slot : Nat) (prev : BitVec 32) : Core :=
  if devLive m false || devLive m true then
    let c : JWrite := { bytes := b, prev := prev, slot := slot, mirror := !devLive m false }
    spaCall (modJnl m fun j => { j with cur := some c })
  else recordLost m

/-- A record write that a reset cuts is repeated from its first step (R842). -/
def cutWrite (m : Core) : Core :=
  match m.jnl.cur with
  | some c => beginWrite m c.bytes c.slot c.prev
  | none => m

/-- Whether the record engine may take a record: no search awaited or under way, no power failure (R742, R745, R748). -/
def engineFree (m : Core) : Bool :=
  !m.jnl.needSearch && !m.jnl.searching && !m.jnl.pfail && m.jnl.flushing.isEmpty && m.jnl.cur.isNone

/-- RECORD_TAKE (R727). -/
def recordTake (m : Core) : Core :=
  if !engineFree m then m else
    match m.jnl.queue with
    | [] => m
    | r :: q =>
      let t := takeRec (modJnl m fun j => { j with queue := q }) r (oneLive m)
      let m := lostRecord t.1
      if r.action = 2 then m else beginWrite m t.2.1 t.2.2.1 t.2.2.2

/-! ### Device writes (R729 to R733, R752 to R755) -/

/-- The record being written goes on to the mirror, or its write ends. -/
def writeNext (m : Core) (c : JWrite) : Core :=
  if !c.mirror && devLive m true then
    if devLive m false then modJnl m fun j => { j with cur := some { c with mirror := true, repeated := false } }
    else
      let h := c.bytes.toNat / 2 ^ 32 % 2 ^ 223 + 2 ^ 223
      let b := recordOf h c.prev
      modJnl m fun j => { j with
        cur := some { c with bytes := b, mirror := true, repeated := false }
        lastCrc := if j.lastCrc = recCrc c.bytes then recCrc b else j.lastCrc }
  else
    let m := spaBoundary (modJnl m fun j => { j with cur := none })
    if c.wrote then m else recordLost m

/-- A device is marked failed (R731, R733): cause 1 latch clear, 2 write-in-progress stuck, 3 mismatch. -/
def deviceFailed (m : Core) (mirror : Bool) (cause sq : Nat) : Core :=
  let m := rsetf m 0x2C08 (b1 mirror) (b1 mirror) 1
  let m := if mirror then rsetf m 0x2C08 11 8 cause else rsetf m 0x2C08 7 4 cause
  let m := raise m (if mirror then 145 else 144)
  let both := !devLive m false && !devLive m true
  let m := if both then
      raise (rsetf { m with pins := { m.pins with jfailN := true } } 0x2C08 2 2 1) 146
    else m
  journalHead m 5 (if both then 4 else 3)
    (payload [(8, if both then 3 else 1), (8, b1 mirror), (8, cause), (32, sq), (32, (rget m 0x2C0C).toNat)])

/-- A write of the record `c` has failed: repeated once, then the device is marked failed (R730). -/
def writeFailed (m : Core) (c : JWrite) (cause : Nat) : Core :=
  if !c.repeated then modJnl m fun j => { j with cur := some { c with repeated := true } }
  else writeNext (deviceFailed m c.mirror cause (recSeq c.bytes)) c

/-- What a device slot holds after a failed write: a free value (assumption log, entry 4). -/
def devScramble (m : Core) (c : JWrite) : Core :=
  let r := freeLine m
  devWrite r.2 c.mirror c.slot (r.1.extractLsb' 0 256)

/-- DEVICE_WRITE_DONE (R729, R730). -/
def deviceWriteDone (m : Core) (o : DevOutcome) : Core :=
  match m.jnl.cur with
  | none => m
  | some c =>
    if m.jnl.pfail then m else
      match o with
      | .ok =>
        let m := setHead (devWrite (tally .jnl 2 1 m) c.mirror c.slot c.bytes) c.mirror c.slot
        writeNext m { c with wrote := true }
      | .latchClear => writeFailed m c 1
      | .mismatch => writeFailed (devScramble m c) c 3

/-- WIP_TIMEOUT (R730). -/
def wipTimeout (m : Core) : Core :=
  match m.jnl.cur with
  | none => m
  | some c => if m.jnl.pfail then m else writeFailed (devScramble m c) c 2

/-! ### Restores, software records and the tail buffer (R734, R736, R737) -/

/-- A failed mark is cleared and the restore is queued (R734). -/
def restoreDev (m : Core) (mirror : Bool) : Core :=
  let m := rsetf m 0x2C08 (b1 mirror) (b1 mirror) 0
  let m := if mirror then rsetf m 0x2C08 11 8 0 else rsetf m 0x2C08 7 4 0
  let m := rsetf { m with pins := { m.pins with jfailN := false } } 0x2C08 2 2 0
  journal m 5 3 (payload [(8, 2), (8, b1 mirror), (8, 0), (32, m.jnl.nextSeq.toNat), (32, (rget m 0x2C0C).toNat)])

/-- A SOFTWARE record is queued (R737). -/
def softRecord (m : Core) (sev : Nat) : Core :=
  journal m 8 sev (payload ((List.range 4).map fun i => (32, (rget m (0x2C84 + 4 * i)).toNat)))

/-- The record with an index in the tail buffer is latched (R736, R903). -/
def tailLatch (m : Core) (i : Nat) : Core :=
  let r := (m.jnl.tail[i]?).getD 0
  let m := rset m 0x2CA0 (BitVec.ofNat 32 (((rfld m 0x2CA0 15 12 + 1) % 16) * 2 ^ 12 + i))
  (List.range 8).foldl (fun m k => rset m (0x2CA4 + 4 * k) (BitVec.ofNat 32 (fld r (255 - 32 * k) (224 - 32 * k)))) m

/-- JNL.STATUS word 0. -/
def jnlStatus (m : Core) : Word :=
  BitVec.ofNat 32 (b1 m.jnl.searching * 2 ^ 31 + b1 m.jnl.flushed * 2 ^ 30 + m.jnl.queue.length * 2 ^ 16)

/-! ### The head search (R740 to R742) -/

/-- Whether slot `k` of a device is chained. -/
def chained (m : Core) (mirror : Bool) (k : Nat) : Bool :=
  let r := devSlot m mirror k
  let after (p : Nat) : Bool :=
    let q := devSlot m mirror p
    decide (recSeq r = seqNext (recSeq q)) && crcChecks r (recCrc q)
  if k = 0 then decide (recSeq r = 0) && crcChecks r 0xFFFFFFFF#32
  else if k = 1024 then after (jnlSlots m - 1) || after 1023
  else after (k - 1)

/-- The chained slots of the pinned region, from slot `k` on, `n` at most. -/
def pinnedRun (m : Core) (mirror : Bool) (k : Nat) : Nat → Nat
  | 0 => k
  | n + 1 => if chained m mirror k then pinnedRun m mirror (k + 1) n else k

/-- The predicate of R740 at a slot of the ring. -/
def ringPred (m : Core) (mirror : Bool) (k : Nat) : Bool :=
  chained m mirror k
    && decide (ringDist (recSeq (devSlot m mirror 1024)) (recSeq (devSlot m mirror k)) = k - 1024)

/-- The last slot below `hi` for which the predicate holds, by halving from a slot `lo` for which it does. -/
def halving (m : Core) (mirror : Bool) (lo hi : Nat) : Nat → Nat
  | 0 => lo
  | n + 1 =>
    if hi ≤ lo + 1 then lo else
      let mid := (lo + hi) / 2
      if ringPred m mirror mid then halving m mirror mid hi n else halving m mirror lo mid n

/-- The head slot of a device; none where it is empty (R740). -/
def headOf (m : Core) (mirror : Bool) : Option Nat :=
  let p := pinnedRun m mirror 0 1024
  if p = 0 then none
  else if p < 1024 then some (p - 1)
  else if ringPred m mirror 1024 then some (halving m mirror 1024 (jnlSlots m) 18)
  else some 1023

/-- The head sequence that the POWER_UP record shows: of an empty device a free value (assumption log, entry 4). -/
def headSeq (m : Core) (mirror : Bool) : Nat × Core :=
  match headOf m mirror with
  | some k => (recSeq (devSlot m mirror k), m)
  | none => let r := freeLine m; (fld r.1 31 0, r.2)

/-- The device whose head sequence is the higher; none where both are empty (R741). -/
def higherHead (m : Core) : Option (Bool × Nat) :=
  match headOf m false, headOf m true with
  | none, none => none
  | some a, none => some (false, a)
  | none, some b => some (true, b)
  | some a, some b => if recSeq (devSlot m false a) < recSeq (devSlot m true b) then some (true, b) else some (false, a)

/-- HEAD_SEARCH_DONE (R741). -/
def headSearchDone (m : Core) : Core :=
  if !m.jnl.searching then m else
    let a := headSeq m false
    let b := headSeq a.2 true
    let h := higherHead m
    let m := modJnl b.2 fun j => { j with searching := false, searched := true }
    let m := match h with
      | none => modJnl m fun j => { j with nextSeq := 0, lastCrc := 0xFFFFFFFF#32, slot := 0 }
      | some (d, k) =>
        let r := devSlot m d k
        let sq := seqNext (recSeq r)
        modJnl m fun j => { j with
          nextSeq := BitVec.ofNat 32 sq, lastCrc := recCrc r, slot := slotAfter (jnlSlots m) sq k }
    let m := setHead (setHead m false ((headOf m false).getD 0)) true ((headOf m true).getD 0)
    journalHead (spaBoundary m) 1 1 (payload [(32, a.1), (32, b.1), (32, m.jnl.faultBefore.toNat), (32, 0)])

/-- The head search may start: an image apply has ended after a rise of VDD_AON (R742). -/
def headSearchStart (m : Core) : Core :=
  if m.jnl.needSearch && m.boot.ended then
    spaCall (modJnl m fun j => { j with needSearch := false, searching := true })
  else m

/-! ### Power failure (R743 to R748, R753) -/

/-- The frame in progress is completed; a repeat ends (R744, R753). -/
def endFrame (m : Core) : Core :=
  match m.jnl.cur with
  | none => m
  | some c =>
    modJnl (setHead (devWrite m c.mirror c.slot c.bytes) c.mirror c.slot) fun j => { j with cur := some { c with repeated := false } }

/-- The records of a flush are taken, each with the single flag (R744). -/
def takeFlush (m : Core) : List QRec → Core
  | [] => m
  | r :: q =>
    let t := takeRec m r true
    takeFlush (if r.action = 2 then t.1 else modJnl t.1 fun j => { j with flushing := j.flushing ++ [⟨t.2.2.1, t.2.1, t.2.2.2, r⟩] }) q

/-- The flush of R744 begins, if it can (R748). -/
def flushBegin (m : Core) : Core :=
  if m.jnl.needSearch || m.jnl.searching || (!devLive m false && !devLive m true) then m else
    let m := endFrame m
    let n := min 7 m.jnl.queue.length
    let p := payload [(8, n + 1), (8, m.jnl.queue.length - n), (32, m.jnl.nextSeq.toNat)]
    let r : QRec := ⟨7#7, 3#4, m.time.extractLsb' 8 52, p, recAction m 7 3⟩
    let recs := m.jnl.queue.take n ++ [r]
    spaCall (takeFlush (tally .jnl 1 1 (modJnl m fun j => { j with queue := j.queue.drop n })) recs)

/-- PFAIL_N, once recognised, ends the image loader's read frame at its next segment boundary (R808). -/
def cutRead (m : Core) : Core := if m.spi.own = 2 then { m with boot := { m.boot with cut := true } } else m

/-- PFAIL_ASSERT (R743, R744). -/
def pfailAssert (m : Core) : Core :=
  if m.jnl.pfail then m else
    let m := modJnl m fun j => { j with pfail := true, flushed := false }
    if running m then flushBegin (cutRead (raise m 22)) else m

/-- PFAIL_FLUSH_DONE (R745). -/
def flushDone (m : Core) : Core :=
  if m.jnl.flushing.isEmpty then m else
    let d := !devLive m false
    let m := m.jnl.flushing.foldl (fun m x => setHead (devWrite (tally .jnl 2 1 m) d x.slot x.bytes) d x.slot) m
    raise (spaBoundary (modJnl m fun j => { j with flushing := [], flushed := m.jnl.pfail })) 149

/-- PFAIL_DEASSERT (R747). -/
def pfailDeassert (m : Core) : Core := modJnl m fun j => { j with pfail := false, flushed := false }

/-! ### The commands -/

/-- RECORD_TAKE (R727). -/
def execRecordTake (s : State) : Host.Outcome State Fault Refusal := clocked recordTake s

/-- DEVICE_WRITE_DONE (R729). -/
def execDeviceWriteDone (o : DevOutcome) (s : State) : Host.Outcome State Fault Refusal :=
  clocked (fun m => deviceWriteDone m o) s

/-- WIP_TIMEOUT (R730). -/
def execWipTimeout (s : State) : Host.Outcome State Fault Refusal := clocked wipTimeout s

/-- JRC: a copy that reaches Jalair is discarded and counted (R739). -/
def execJrc (s : State) : Host.Outcome State Fault Refusal :=
  clocked (fun m => match takeInbox m (fun x => decide (x.op = .jrc)) with
    | some (_, m) => countRule m 739
    | none => m) s

/-- HEAD_SEARCH_START (R742). -/
def execHeadSearchStart (s : State) : Host.Outcome State Fault Refusal := clocked headSearchStart s

/-- HEAD_SEARCH_DONE (R741). -/
def execHeadSearchDone (s : State) : Host.Outcome State Fault Refusal := clocked headSearchDone s

/-- PFAIL_ASSERT (R743, R744). -/
def execPfailAssert (s : State) : Host.Outcome State Fault Refusal := always pfailAssert s

/-- PFAIL_DEASSERT (R747). -/
def execPfailDeassert (s : State) : Host.Outcome State Fault Refusal := always pfailDeassert s

end Sys2Proof.Machine
end

