-- ==== Sys2Proof/Machine/Requests.lean ====
section
/-! DEFINITION. The home tracker's commands: admission, decisions, retries, replies of the coherence messages,
completion, expiry and quarantine (spec/03_coherence_flows.md to spec/06_progress.md, spec/10_junction_scale.md). -/

namespace Sys2Proof.Machine

/-! ### Decisions -/

/-- HTE `h` takes its directory decision, whatever its job (R113, R119, R321, R342, R486, R489). -/
def decideHte (m : Core) (h : Nat) (e : Env) : Core :=
  match hte m h with
  | none => m
  | some x =>
    let wbk := decide (clsOf x.msg.op = .wbk)
    let m := modHte m h fun y => { y with wait := .none }
    go (match x.job with
      | .walk _ => walkDecide m h e
      | .recover set _ => recoverDecide m h set e
      | .snoop => snoopAct m h e
      | .groom _ _ _ => waitFor m h .decision
      | .external =>
        if homeServes m x.epoch x.msg.line x.slot then (if wbk then homeWb m h e else decideReq m h e)
        else (if wbk then jctWb m h e else jctDecide m h e)
      | _ => decideReq m h e) h e

/-- HTE `h` decides if it awaits its decision and satisfies `p`. -/
def decideIf (p : Core → Hte → Bool) (h : Nat) (e : Env) (m : Core) : Core :=
  match hte m h with
  | none => m
  | some x =>
    if decide (x.kind = .active) && decide (x.wait = .decision) && p m x then decideHte m h e else m

/-- A request of an opcode that the home function serves (R27, R113). -/
def homeReq (op : Op) (m : Core) (x : Hte) : Bool :=
  decide (x.msg.op = op) &&
    (match x.job with
      | .external => homeServes m x.epoch x.msg.line x.slot
      | .dump _ => true
      | .ttd => true
      | _ => false)

/-- RDS (R113, R114). -/
def execRds (h : HteIx) (e : Env) (s : State) : Host.Outcome State Fault Refusal :=
  clocked (decideIf (homeReq .rds) h.val e) s

/-- RDO (R113, R169). -/
def execRdo (h : HteIx) (e : Env) (s : State) : Host.Outcome State Fault Refusal :=
  clocked (decideIf (homeReq .rdo) h.val e) s

/-- RDC (R113). -/
def execRdc (h : HteIx) (e : Env) (s : State) : Host.Outcome State Fault Refusal :=
  clocked (decideIf (homeReq .rdc) h.val e) s

/-- UPG (R113). -/
def execUpg (h : HteIx) (e : Env) (s : State) : Host.Outcome State Fault Refusal :=
  clocked (decideIf (homeReq .upg) h.val e) s

/-- WRL (R113). -/
def execWrl (h : HteIx) (e : Env) (s : State) : Host.Outcome State Fault Refusal :=
  clocked (decideIf (homeReq .wrl) h.val e) s

/-- WRP (R113). -/
def execWrp (h : HteIx) (e : Env) (s : State) : Host.Outcome State Fault Refusal :=
  clocked (decideIf (homeReq .wrp) h.val e) s

/-- WST (R113, R118). -/
def execWst (h : HteIx) (e : Env) (s : State) : Host.Outcome State Fault Refusal :=
  clocked (decideIf (homeReq .wst) h.val e) s

/-- ATM (R218 to R232). -/
def execAtm (h : HteIx) (e : Env) (s : State) : Host.Outcome State Fault Refusal :=
  clocked (decideIf (homeReq .atm) h.val e) s

/-- FLS (R113). -/
def execFls (h : HteIx) (e : Env) (s : State) : Host.Outcome State Fault Refusal :=
  clocked (decideIf (homeReq .fls) h.val e) s

/-- JCT_MEMBER_REQUEST (R486). -/
def execJctMemberRequest (h : HteIx) (e : Env) (s : State) : Host.Outcome State Fault Refusal :=
  clocked (decideIf (fun m x => decide (x.job = .external) && decide (clsOf x.msg.op = .req)
    && !homeServes m x.epoch x.msg.line x.slot) h.val e) s

/-- WALK_ARRIVAL (R321): also the arrivals that recover an entry (R342). -/
def execWalkArrival (h : HteIx) (e : Env) (s : State) : Host.Outcome State Fault Refusal :=
  clocked (decideIf (fun _ x => match x.job with
    | .walk _ => true
    | .recover _ _ => true
    | _ => false) h.val e) s

/-- QUEUE_HEAD_DECISION (R165): the transaction that holds the line takes its decision. -/
def execQueueHeadDecision (l : LineAddr) (e : Env) (s : State) : Host.Outcome State Fault Refusal :=
  clocked (fun m => match m.trk.htes.find? fun x => decide (x.2.msg.line = l) && decide (x.2.kind = .active)
      && decide (x.2.wait = .decision) with
    | some x => decideIf (fun _ _ => true) x.1 e m
    | none => m) s

/-- WAY_RETRY (R195): a request that waits for a way chooses again. -/
def execWayRetry (h : HteIx) (e : Env) (s : State) : Host.Outcome State Fault Refusal :=
  clocked (fun m => match hte m h.val with
    | some x => if x.kind = .active && x.wait = .way then decideHte m h.val e else m
    | none => m) s

/-- ALC_RETRY (R221, R417): an atomic that waits for an ALC entry, or for the HELD order to complete, chooses again. -/
def execAlcRetry (h : HteIx) (e : Env) (s : State) : Host.Outcome State Fault Refusal :=
  clocked (fun m => match hte m h.val with
    | some x =>
      if x.kind = .active && (x.wait = .alcEntry || (x.wait = .heldOrder && !heldPending m)) then
        if x.key.isSome then go (serveI (waitFor m h.val .none) h.val e) h.val e else decideHte m h.val e
      else m
    | none => m) s

/-! ### Writebacks (R119, R167, R489) -/

/-- The oldest writeback of an opcode that is decided at once and that satisfies `p`. -/
def takeAtOnce (m : Core) (p : Arrival → Bool) : Option (Arrival × Core) :=
  match takeFirst p m.trk.atOnce with
  | none => none
  | some (a, r) => some (a, { m with trk := { m.trk with atOnce := r } })

/-- A writeback command of the home function. -/
def homeWbk (op : Op) (w : WbSel) (e : Env) (m : Core) : Core :=
  match w with
  | .hte h => decideIf (homeReq op) h.val e m
  | .atOnce =>
    match takeAtOnce m fun a => decide (a.msg.op = op)
        && homeServes m (epochFor m a.msg.epoch) a.msg.line (arrSlot m a) with
    | none => m
    | some (a, m) => homeWbAtOnce m a e

/-- WBD (R119, R167, R184). -/
def execWbd (w : WbSel) (e : Env) (s : State) : Host.Outcome State Fault Refusal := clocked (homeWbk .wbd w e) s

/-- WBE (R119, R167). -/
def execWbe (w : WbSel) (e : Env) (s : State) : Host.Outcome State Fault Refusal := clocked (homeWbk .wbe w e) s

/-- WBS (R119). -/
def execWbs (w : WbSel) (e : Env) (s : State) : Host.Outcome State Fault Refusal := clocked (homeWbk .wbs w e) s

/-- JCT_MEMBER_WRITEBACK (R489). -/
def execJctMemberWriteback (w : WbSel) (e : Env) (s : State) : Host.Outcome State Fault Refusal :=
  clocked (fun m => match w with
    | .hte h => decideIf (fun m x => decide (x.job = .external) && decide (clsOf x.msg.op = .wbk)
        && !homeServes m x.epoch x.msg.line x.slot) h.val e m
    | .atOnce =>
      match takeAtOnce m fun a => !homeServes m (epochFor m a.msg.epoch) a.msg.line (arrSlot m a) with
      | none => m
      | some (a, m) => jctWbAtOnce m a e) s

/-! ### Coherence replies -/

/-- The oldest arrived reply of an opcode is taken and matched (R161, R483). -/
def takeCoh (op : Op) (e : Env) (m : Core) : Core :=
  match takeInbox m fun g => decide (g.op = op) with
  | none => m
  | some (i, m) => cohReply m i.msg e

/-- GNT (R486). -/
def execGnt (s : State) : Host.Outcome State Fault Refusal := clocked (takeCoh .gnt Env.clean) s

/-- RIA (R145, R348). -/
def execRia (e : Env) (s : State) : Host.Outcome State Fault Refusal := clocked (takeCoh .ria e) s

/-- RSA (R113). -/
def execRsa (e : Env) (s : State) : Host.Outcome State Fault Refusal := clocked (takeCoh .rsa e) s

/-- RWP (R188, R189). -/
def execRwp (e : Env) (s : State) : Host.Outcome State Fault Refusal := clocked (takeCoh .rwp e) s

/-- ACC (R113). -/
def execAcc (s : State) : Host.Outcome State Fault Refusal := clocked (takeCoh .acc Env.clean) s

/-- DEC (R113). -/
def execDec (s : State) : Host.Outcome State Fault Refusal :=
  clocked (fun m => takeCoh .dec { Env.clean with hlc := (freeFault m).1 } (freeFault m).2) s

/-- DSH (R486). -/
def execDsh (s : State) : Host.Outcome State Fault Refusal := clocked (takeCoh .dsh Env.clean) s

/-- DEX (R486). -/
def execDex (s : State) : Host.Outcome State Fault Refusal := clocked (takeCoh .dex Env.clean) s

/-- DMO (R486). -/
def execDmo (s : State) : Host.Outcome State Fault Refusal := clocked (takeCoh .dmo Env.clean) s

/-- DHM (R194, R348). -/
def execDhm (e : Env) (s : State) : Host.Outcome State Fault Refusal := clocked (takeCoh .dhm e) s

/-! ### Upstream snoops (R491 to R493) -/

/-- Whether an upstream snoop can have an HTE: fewer than 256 are held by snoops, and a shared entry is free beyond those
granted to arrivals (R259, R260, R491). -/
def snoopRoom (m : Core) : Bool := decide (snoopHtes m < 256) && decide (grantsOut m < hteSharedFree m)

/-- An upstream snoop takes a snoop HTE and acts (R491). -/
def snoopStart (m : Core) (i : InMsg) (e : Env) : Core :=
  let h := tfree m.trk.htes 0
  let x : Hte := { kind := .active, msg := i.msg, port := i.port, job := .snoop, epoch := epochFor m i.msg.epoch
                   adm := m.stmp, seq := m.trk.seq, pool := snoopPool, wait := .none }
  let m : Core := { m with trk := { m.trk with
    htes := tset m.trk.htes h x, seq := m.trk.seq + 1, hteUse := hteTaken m snoopPool } }
  go (snoopAct m h e) h e

/-- The oldest SNP message that has arrived and satisfies `p` is taken. Without a junction function no SNP message has a
meaning, and no home sends a junction `SSU` (R168): both are discarded, counted and journaled (R28, R73; assumption log,
entry 49). -/
def takeSnoop (p : Msg → Bool) (e : Env) (m : Core) : Core :=
  if isJunction m && !snoopRoom m then m else
    match takeInbox m fun g => decide (clsOf g.op = .snp) && decide (g.op ≠ .spu) && p g with
    | none => m
    | some (i, m) =>
      if !isJunction m then countProto m i.msg 28
      else if i.msg.op = .ssu then countProto m i.msg 73
      else snoopStart m i e

/-- SIN (R493). -/
def execSin (e : Env) (s : State) : Host.Outcome State Fault Refusal := clocked (takeSnoop (fun g => decide (g.op = .sin)) e) s

/-- SFS (R493). -/
def execSfs (e : Env) (s : State) : Host.Outcome State Fault Refusal := clocked (takeSnoop (fun g => decide (g.op = .sfs)) e) s

/-- SFO (R493). -/
def execSfo (e : Env) (s : State) : Host.Outcome State Fault Refusal := clocked (takeSnoop (fun g => decide (g.op = .sfo)) e) s

/-- SFC (R493). -/
def execSfc (e : Env) (s : State) : Host.Outcome State Fault Refusal := clocked (takeSnoop (fun g => decide (g.op = .sfc)) e) s

/-- SRC (R493). -/
def execSrc (e : Env) (s : State) : Host.Outcome State Fault Refusal := clocked (takeSnoop (fun g => decide (g.op = .src)) e) s

/-- SWP (R493). -/
def execSwp (e : Env) (s : State) : Host.Outcome State Fault Refusal := clocked (takeSnoop (fun g => decide (g.op = .swp)) e) s

/-- JCT_SNOOP_HTE_GRANT (R491): the oldest snoop that waits at the head of its channel takes a freed snoop HTE. -/
def execJctSnoopHteGrant (s : State) : Host.Outcome State Fault Refusal := clocked (takeSnoop (fun _ => true) Env.clean) s

/-- JCT_SNOOP_DEFERRED (R492): a deferred snoop acts once what it waited for has completed. -/
def execJctSnoopDeferred (h : HteIx) (e : Env) (s : State) : Host.Outcome State Fault Refusal :=
  clocked (fun m => match hte m h.val with
    | some x => if x.job = .snoop && x.wait = .deferred then go (snoopAct (waitFor m h.val .none) h.val e) h.val e else m
    | none => m) s

/-- SPU (R135): the junction caches no data, so it declines every push (assumption log, entry 13); without a junction
function the message has no meaning and is discarded, counted and journaled (assumption log, entry 49). -/
def execSpu (_ : Env) (s : State) : Host.Outcome State Fault Refusal :=
  clocked (fun m => match takeInbox m fun g => decide (g.op = .spu) with
    | none => m
    | some (i, m) =>
      if !isJunction m then countProto m i.msg 28 else
      send m 16 none (epochFor m i.msg.epoch) { op := .dec, dest := i.msg.src, tag := i.msg.tag, htag := i.msg.htag
                                                line := i.msg.line, epoch := i.msg.epoch }) s

/-! ### Admission, completion, expiry -/

/-- ADMISSION (R155, R156). -/
def execAdmission (s : State) : Host.Outcome State Fault Refusal := clocked admission s

/-- TRANSACTION_COMPLETE (R106, R165). -/
def execTransactionComplete (h : HteIx) (s : State) : Host.Outcome State Fault Refusal :=
  clocked (fun m => complete m h.val) s

/-- HTE_EXPIRY (R282). -/
def execHteExpiry (h : HteIx) (s : State) : Host.Outcome State Fault Refusal := clocked (fun m => expire m h.val) s

/-- QUARANTINE_END (R283). -/
def execQuarantineEnd (h : HteIx) (s : State) : Host.Outcome State Fault Refusal :=
  clocked (fun m => quarantineEnd m h.val) s

end Sys2Proof.Machine
end

