-- ==== Sys2Proof/Machine/Pmc.lean ====
section
/-! DEFINITION. Captures, timetable dumps and the routing of `CMP` and `ERR` (spec/15_observability.md, R757 to R779,
R801, R802). The counters themselves are in Machine/Ops.lean. -/

namespace Sys2Proof.Machine

/-- The machine with its performance monitoring changed. -/
def modPmc (m : Core) (f : Pmc → Pmc) : Core := { m with pmc := f m.pmc }

/-- The configuration of counter `k`. -/
def ctrCfg (m : Core) (k : Nat) : CtrCfg := tget {} m.pmc.cfg k

/-- A counter's window entry, word 0 (R905). -/
def CtrCfg.word (c : CtrCfg) : Nat := c.event.toNat + b1 c.ovfInt * 2 ^ 11 + b1 c.enable * 2 ^ 12

/-! ### Dump records (R768 to R773) -/

/-- Whether the dump mask hides a group (R772). -/
def maskedGroup (m : Core) (g : Nat) : Bool := rbit m 0x30A0 1 && !rbit m 0x3080 g

/-- The eight bytes of counter `k` in a dump record, from capture set P (Table OBS-3). -/
def dumpEntry (m : Core) (k : Nat) : Nat :=
  if maskedGroup m (k / 8) then 0 else
    b1 (ctrCfg m k).enable * 2 ^ 63 + b1 (tget false m.pmc.wrapped k) * 2 ^ 62 + (ctrCfg m k).event.toNat * 2 ^ 48
      + tget 0 m.pmc.capP k

/-- Bytes 0 to 59 of a dump record's header (Table OBS-3), as a number. -/
def dumpHead (m : Core) : Nat :=
  [(4, 0x54545244), (2, 1), (2, (nodeId m).toNat), (4, (rget m 0x30BC).toNat), (8, m.time.toNat), (4, rfld m 0x3084 19 0),
    (2, rfld m 0x3080 15 0), (1, b1 (rbit m 0x30A0 1) + 2 * b1 m.cfg.epoch + 4 * b1 m.pmc.stepped), (1, 0),
    (4, (rget m 0x30C0).toNat), (4, (rget m 0x30C4).toNat), (24, 0)].foldl (fun a f => a * 256 ^ f.1 + f.2) 0

/-- Piece `i` of the counters, `i` from 1 to 16. -/
def dumpPiece (m : Core) (i : Nat) : LineData :=
  (List.range 8).foldl (fun d j => d ||| bePut (dumpEntry m (8 * (i - 1) + j)) (8 * j) 8) 0

/-- The record of the capture just made (R770, R771). -/
def dumpRecord (m : Core) : DumpRec :=
  let body := (List.range 128).foldr (fun k l => beBytes (dumpEntry m k) 8 ++ l) []
  let crc := crc32c 0xFFFFFFFF (body ++ beBytes (dumpHead m) 60)
  { num := rget m 0x30BC
    pieces := (bePut (dumpHead m) 0 60 ||| bePut crc 60 4) :: (List.range 16).map fun i => dumpPiece m (i + 1) }

/-- A periodic capture into P, and its dump record or overrun (R766, R769, R779). -/
def periodicCapture (m : Core) : Core :=
  let m := modPmc m fun p => { p with capP := p.ctr }
  let m := if !rbit m 0x30A0 0 then m
    else if m.pmc.dump.isSome then raise (rsetf (rinc m 0x30C0 1) 0x30B8 0 0 1) 178
    else modPmc m fun p => { p with dump := some (dumpRecord m) }
  modPmc m fun p => { p with wrapped := [], stepped := false }

/-- A capture into W (R767); `kind` is 1 for a whistle. -/
def captureW (m : Core) (kind : Nat) : Core :=
  let m := modPmc m fun p => { p with capW := p.ctr, capDue := false }
  let m := rset m 0x308C (BitVec.ofNat 32 (2 ^ 31 + ((rfld m 0x308C 23 16 + 1) % 256) * 2 ^ 16 + kind))
  rset (rset m 0x3090 (m.time.extractLsb' 0 32)) 0x3094 (m.time.extractLsb' 32 32)

/-! ### Pieces (R773 to R778, R801, R802) -/

/-- The line of piece `i` of record `n` (R769). -/
def pieceLine (m : Core) (n i : Nat) : LineAddr :=
  let base := rfld m 0x30A8 15 0 * 2 ^ 32 + (rget m 0x30A4).toNat
  BitVec.ofNat 46 ((base + 1088 * (n % rfld m 0x30AC 15 0)) / 64 + i)

/-- The node that holds the ring. -/
def dumpNode (m : Core) : NodeId := BitVec.ofNat 16 (rfld m 0x30B0 15 0)

/-- A record is abandoned (R801). -/
def dumpAbandon (m : Core) : Core :=
  match m.pmc.dump with
  | none => m
  | some d =>
    let late := d.sent.filter fun x => !d.acked.contains x.1
    let m := modPmc m fun p => { p with dump := none, abandonedTags := p.abandonedTags ++ late.map (·.2) }
    let m := rinc (rset m 0x30BC (d.num + 1)) 0x30C4 1
    journal m 0x14 2 (payload [(8, 8), (16, (dumpNode m).toNat), (8, 0), (32, d.num.toNat)])

/-- What follows an answer to a piece: the record completes with its header, or is abandoned when every piece sent has
been answered after an `ERR` (R778, R801). -/
def dumpAnswered (m : Core) (d : DumpRec) : Core :=
  let m := modPmc m fun p => { p with dump := some d }
  if d.bad then (if d.sent.length ≤ d.acked.length then dumpAbandon m else m)
  else if d.acked.contains 0 then
    raise (rset (modPmc m fun p => { p with dump := none }) 0x30BC (d.num + 1)) 177
  else m

/-- A `CMP` or `ERR` that answers a piece; none where it answers none (R774, R801, R802). -/
def dumpAnswer (m : Core) (g : Msg) : Option Core :=
  match m.pmc.dump.bind fun d => (d.sent.find? fun x => decide (x.2 = g.tag)
      && decide (g.line = pieceLine m d.num.toNat x.1)).map fun x => (d, x.1) with
  | some (d, i) =>
    if decide (g.src = dumpNode m) && !d.acked.contains i then
      some (dumpAnswered m { d with acked := d.acked ++ [i], bad := d.bad || decide (g.op = .err) })
    else none
  | none =>
    if decide (g.src = dumpNode m) && decide (g.htag = 0) && m.pmc.abandonedTags.contains g.tag then
      some (countRule (modPmc m fun p => { p with abandonedTags := p.abandonedTags.erase g.tag }) 802)
    else none

/-- The piece to send next (R773). -/
def nextPiece (d : DumpRec) : Option Nat :=
  if d.bad then none
  else match (List.range 16).find? fun i => d.sent.all fun x => decide (x.1 ≠ i + 1) with
    | some i => some (i + 1)
    | none => if 16 ≤ d.acked.length && d.sent.length = 16 then some 0 else none

/-- DUMP_PIECE_SEND (R773, R774, R777). -/
def dumpPieceSend (m : Core) : Core :=
  match m.pmc.dump.bind fun d => (nextPiece d).map fun i => (d, i) with
  | none => m
  | some (d, i) =>
    let tag := m.fab.mtag
    let x : Msg := { op := .ttd, dest := dumpNode m, tag := tag, line := pieceLine m d.num.toNat i
                     data := (d.pieces[i]?).getD 0 }
    let d := { d with sent := d.sent ++ [(i, tag)] }
    let m := modPmc (nextTag m) fun p => { p with dump := some d }
    if x.dest ≠ nodeId m then sendMgt m x
    else if !isHome m then dumpAnswered m { d with acked := d.acked ++ [i], bad := true }
    else arriveLocal m (.dump i) { x with op := .wrl }

/-- TTD (R776). -/
def ttd (m : Core) : Core :=
  match takeInbox m fun x => decide (x.op = .ttd) with
  | none => m
  | some (i, m) =>
    if !isHome m then sendErr m i.msg errUnmapped
    else arrive m { port := 16, cyc := m.trk.core, job := .ttd, msg := { i.msg with op := .wrl } }

/-- PMC.STATUS: pieces outstanding, a record in progress, and the sticky overrun. -/
def pmcStatus (m : Core) : Word :=
  let out := match m.pmc.dump with
    | none => 0
    | some d => d.sent.length - d.acked.length
  putFld (putFld (rget m 0x30B8) 20 16 out) 1 1 (b1 m.pmc.dump.isSome)

/-! ### `CMP` and `ERR` -/

/-- A `CMP` or `ERR` is matched to the engine that awaits it: fabric management, the timetable dump, or an HTE (R108,
R161). -/
def takeAnswer (op : Op) (e : Env) (m : Core) : Core :=
  match takeInbox m fun g => decide (g.op = op) with
  | none => m
  | some (i, m) =>
    match mgtAnswer m i.msg with
    | some m' => m'
    | none => (dumpAnswer m i.msg).getD (cohReply m i.msg e)

/-- CMP (R108, R153). -/
def execCmp (e : Env) (s : State) : Host.Outcome State Fault Refusal := clocked (takeAnswer .cmp e) s

/-- ERR (R512). -/
def execErr (s : State) : Host.Outcome State Fault Refusal := clocked (takeAnswer .err Env.clean) s

/-- PERIODIC_CAPTURE (R766). -/
def execPeriodicCapture (s : State) : Host.Outcome State Fault Refusal := clocked periodicCapture s

/-- DUMP_PIECE_SEND (R773). -/
def execDumpPieceSend (s : State) : Host.Outcome State Fault Refusal := clocked dumpPieceSend s

/-- DUMP_ABANDON (R801). -/
def execDumpAbandon (s : State) : Host.Outcome State Fault Refusal := clocked dumpAbandon s

/-- TTD (R776). -/
def execTtd (s : State) : Host.Outcome State Fault Refusal := clocked ttd s

end Sys2Proof.Machine
end

