-- ==== Sys2Proof/Machine/Status.lean ====
section
/-! DEFINITION. The status registers: what a read of a register that hardware keeps returns (Tables RGF-2 to RGF-17,
Tables RGS-1 to RGS-8). -/

namespace Sys2Proof.Machine

/-- A word of named fields: each a lowest bit and a value. -/
def word (fs : List (Nat × Nat)) : Word := BitVec.ofNat 32 (fs.foldl (fun a f => a + f.2 * 2 ^ f.1) 0)

/-- CFG.STATUS (Table RGF-3). -/
def cfgStatus (m : Core) : Word :=
  word [(16, m.cfg.throwNum.toNat), (4, b1 m.cfg.prepared), (3, b1 m.cfg.copying), (2, b1 m.cfg.copyDone), (1, b1 m.cfg.drain),
    (0, b1 m.cfg.epoch)]

/-- The code of a link state. -/
def LinkState.code : LinkState → Nat
  | .down => 0 | .training => 1 | .starting => 2 | .complete => 3

/-- OLF.PORT_STATUS_p (Table RGF-8). -/
def portStatus (m : Core) (p : Nat) : Word :=
  let q := port m p
  word [(30, q.link.code), (29, b1 q.replay), (28, b1 q.recovery), (24, q.width.toNat), (22, q.speed.toNat), (21, b1 q.reversed),
    (20, b1 q.upper)]

/-- The count of quarantined HTEs (R283). -/
def quarantined (m : Core) : Nat := (m.trk.htes.filter fun x => decide (x.2.kind = .quarantined)).length

/-- The count of a list's elements that satisfy `p`. -/
def countP {α : Type} (p : α → Bool) (l : List α) : Nat := (l.filter p).length

/-- The count of retired sets: those of which two or more copies are set (R361). -/
def retiredCount (m : Core) : Nat := countP (fun x => retired m x.1) m.deck.retired

/-- DIR.STATUS. -/
def dirStatus (m : Core) : Word :=
  word [(16, min (retiredCount m) 0xFFFF), (2, b1 m.deck.mbistRan), (1, b1 m.deck.mbistFail),
    (0, b1 m.deck.initDone)]

/-- DIR.WALK_STATUS: the sticky bits and the last slot, with the live bits. -/
def walkStatus (m : Core) : Word :=
  putFld (putFld (rget m 0x1010) 28 28 (b1 (!m.deck.orders.isEmpty))) 9 0 m.deck.orders.length

/-- DIR.BUCKETS_k. -/
def bucketsWord (m : Core) (k : Nat) : Word :=
  word [(16, tget 0 m.deck.buckets (2 * k + 1)), (0, tget 0 m.deck.buckets (2 * k))]

/-- DIR.SPARES_k: primary and mirror of layer 2k, then of layer 2k + 1. -/
def sparesWord (m : Core) (k : Nat) : Word :=
  word ((List.range 4).map fun j => (8 * j, tget 128 m.deck.spares (4 * k + j)))

/-- HLC.ALC_STATUS. -/
def alcStatus (m : Core) : Word :=
  word [(16, m.ca.alc.length), (8, countP (·.2) m.ca.alcDisabled), (0, b1 m.ca.alcDouble)]

/-- MEM.STATUS. -/
def memStatus (m : Core) : Word :=
  word [(16, m.mem.failed.toNat), (8, m.mem.trainFail.toNat), (1, b1 m.mem.training), (0, b1 m.mem.ready)]

/-- The code of an election state. -/
def SmState.code : SmState → Nat
  | .listener => 0 | .candidate => 1 | .master => 2

/-- FAB.TIME_STATUS. -/
def timeStatus (m : Core) : Word :=
  word [(16, m.fab.offset.toNat), (8, b1 m.fab.parent.isSome), (4, m.fab.parent.getD 0), (0, b1 m.fab.synced)]

/-- The slots of the active set with a status that satisfies `p`. -/
def slotCount (m : Core) (p : SlotStatus → Bool) : Nat := countP (fun x => p x.2.status) (setOf m m.cfg.epoch).slots

/-- FAB.SLOT_STATUS. -/
def slotStatus (m : Core) : Word :=
  let gone := slotCount m fun s => decide (s = .leaving) || decide (s = .lost)
  word [(31, b1 (decide (0 < gone))), (16, gone), (0, slotCount m fun s => decide (s = .live))]

/-- EIC.PENDING_k and EIC.ACTIVE_k (R653, R654). -/
def sourceBits (m : Core) (p : SrcSt → Bool) (k : Nat) : Word :=
  word ((List.range 32).map fun j => (j, b1 (p (srcSt m (32 * k + j)))))

/-- EIC.Tn_STATUS. -/
def targetStatus (m : Core) (t : Nat) : Word :=
  let top := match stackOf m t with
    | [] => 0
    | x :: _ => x.1
  word [(31, b1 (tget {} m.eic.evt t).stalled), (12, runningPrio m t), (8, stackDepth m t), (0, if threshMode m t then 0 else top)]

/-- Level-mark monitor `n`. -/
def lmOf (m : Core) (n : Nat) : LevelMark := tget {} m.whs.lm n

/-- WHS.LMn_STATE. -/
def lmState (m : Core) (n : Nat) : Word :=
  let x := lmOf m n
  word [(31, b1 x.above), (30, b1 x.up), (29, b1 x.down), (16, x.count), (0, x.level)]

/-- WHS.STATUS. -/
def whsStatus (m : Core) : Word := word [(31, b1 m.whs.armed), (30, b1 m.whs.captureDone), (0, m.whs.missed)]

/-- SPA.STATUS.owner: the engine that holds SPA, software also while a select is held for it (R807, R815). -/
def spaOwner (m : Core) : Nat := if m.spi.own = 0 && m.spi.held.isSome then 3 else m.spi.own

/-- SPA.STATUS. -/
def spaStatus (m : Core) : Word :=
  let s := rget m 0x3814
  let busy := m.spi.spaFrame.isSome
  putFld (putFld (putFld (putFld s 7 6 (spaOwner m)) 4 4 (b1 busy)) 3 3 (b1 (busy && decide (spaOwner m ≠ 3))))
    1 1 (b1 m.spi.held.isSome)

/-- SPB.STATUS. -/
def spbStatusReg (m : Core) : Word := putFld (rget m 0x3848) 30 30 (b1 m.spi.spbFrame.isSome)

/-- The value that a read of the register at `a` returns, but for the registers that differ by master (R611, R612,
R762, R879) and the windows' results (R606, R607). -/
def regValue (m : Core) (a : Nat) : Word :=
  match a with
  | 0x24 => Config.serial.extractLsb' 0 32
  | 0x28 => Config.serial.extractLsb' 32 32
  | 0x40 => putFld (rget m 0x40) 28 28 (b1 (decide (m.boot.loading ≠ 0)))
  | 0x400 => cfgStatus m
  | 0xC08 => word [(16, hteSharedFree m), (0, totalUsed m.trk.hteUse)]
  | 0xC0C => word [(16, wbSharedFree m), (0, totalUsed m.trk.wbUse)]
  | 0xC10 => word [(0, quarantined m)]
  | 0x1004 => dirStatus m
  | 0x1010 => walkStatus m
  | 0x1034 => putFld (rget m 0x1034) 0 0 (b1 m.deck.copying.isSome)
  | 0x1038 => sparesWord m 0
  | 0x103C => sparesWord m 1
  | 0x1404 => word [(1, b1 m.ca.invRunning), (0, b1 m.ca.invDone)]
  | 0x1420 => alcStatus m
  | 0x1808 => memStatus m
  | 0x1C04 => word [(16, m.atm.decayPos), (0, m.atm.recent.length)]
  | 0x2008 => word [(30, m.fab.sm.code), (29, b1 m.fab.termValid)]
  | 0x200C => word [(16, m.fab.term.toNat), (0, m.fab.master.toNat)]
  | 0x2014 => timeStatus m
  | 0x2028 => word [(29, m.fab2.thrPhase), (0, m.fab2.thrNum.toNat)]
  | 0x202C => word [(16, m.fab2.thrCode.toNat), (0, m.fab2.thrNode.toNat)]
  | 0x2034 => slotStatus m
  | 0x2044 => word [(30, m.fab.cplState.toNat), (0, m.fab.cplCode.toNat)]
  | 0x280C => m.dmt.count
  | 0x2818 => dmtStatus m
  | 0x2C10 => m.jnl.nextSeq
  | 0x2C14 => BitVec.ofNat 32 (tget 0 m.jnl.headSlots 0)
  | 0x2C18 => BitVec.ofNat 32 (tget 0 m.jnl.headSlots 1)
  | 0x2C1C => jnlStatus m
  | 0x30B8 => pmcStatus m
  | 0x3408 => whsStatus m
  | 0x3814 => spaStatus m
  | 0x3848 => spbStatusReg m
  | 0x3C00 => putFld (rget m 0x3C00) 0 0 (b1 m.pins.locked)
  | _ =>
    if 0x880 ≤ a ∧ a < 0x8C0 then portStatus m ((a - 0x880) / 4)
    else if 0x101C ≤ a ∧ a < 0x102C then bucketsWord m ((a - 0x101C) / 4)
    else if 0x2400 ≤ a ∧ a < 0x2420 then
      sourceBits m (fun s => decide (s = .pending) || decide (s = .both)) ((a - 0x2400) / 4)
    else if 0x2420 ≤ a ∧ a < 0x2440 then
      sourceBits m (fun s => decide (s = .active) || decide (s = .both)) ((a - 0x2420) / 4)
    else if 0x2480 ≤ a ∧ a < 0x2500 ∧ a % 32 = 28 then targetStatus m ((a - 0x2480) / 32)
    else if 0x3480 ≤ a ∧ a < 0x3680 ∧ a % 32 = 8 then lmState m ((a - 0x3480) / 32)
    else if 0x3480 ≤ a ∧ a < 0x3680 ∧ a % 32 = 12 then BitVec.ofNat 32 (lmOf m ((a - 0x3480) / 32)).peak
    else rget m a

end Sys2Proof.Machine
end

