-- ==== Sys2Proof/Machine/Whistle.lean ====
section
/-! DEFINITION. The whistle, its snapshot, the credit audit and the level marks (spec/15_observability.md, R780 to R795;
spec/06_progress.md, R274 to R277). -/

namespace Sys2Proof.Machine

/-- The machine with its whistle block changed. -/
def modWhs (m : Core) (f : Whs → Whs) : Core := { m with whs := f m.whs }

/-! ### Snapshot words (Table OBS-4)

The packing of a word that the table gives more than one value without bit positions is the model's (assumption log,
entry 15): two values stand in the high and the low half, in the order named. -/

/-- The halves of a word. -/
def halves (a b : Nat) : Word := BitVec.ofNat 32 (a % 2 ^ 16 * 2 ^ 16 + b % 2 ^ 16)

/-- A count as a word. -/
def cnt (n : Nat) : Word := BitVec.ofNat 32 n

/-- The active HTEs of the previous epoch. -/
def oldHtes (m : Core) : Nat :=
  countP (fun x => decide (x.2.kind ≠ .quarantined) && decide (x.2.epoch ≠ m.cfg.epoch)) m.trk.htes

/-- The K entries with the staff bit set. -/
def staffEntries (m : Core) : Nat := countP (fun x => decide (x.2.st = .k) && x.2.staff) m.deck.ents

/-- The longest platform queue. -/
def longestQueue (m : Core) : Nat := m.trk.htes.foldl (fun a x => max a (queueLen m x.2.msg.line)) 0

/-- The tracker's words. -/
def snapTrk (m : Core) : List Word :=
  [cnt (hteSharedFree m), cnt (totalUsed m.trk.hteUse), cnt (reservedUnused m.trk.hteUse 4), cnt (quarantined m),
    cnt (wbSharedFree m), cnt (totalUsed m.trk.wbUse), cnt (reservedUnused m.trk.wbUse 2), cnt m.trk.staffCreated,
    cnt m.trk.staffEnded, cnt (staffEntries m), cnt (longestQueue m), cnt (countP (fun x => decide (x.2.kind = .chain)) m.trk.htes)]

/-- A port's word. -/
def snapPort (m : Core) (p : Nat) : Word :=
  let q := port m p
  word [(30, q.link.code), (29, b1 q.replay), (28, b1 q.recovery), (16, q.nextTx.toNat),
    (0, match q.replayBuf with
      | [] => (q.nextTx - 1).toNat
      | f :: _ => (f.seq - 1).toNat)]

/-- The directory's words. -/
def snapDir (m : Core) : List Word :=
  (List.range 4).map (fun b => cnt (tget 0 m.deck.buckets b)) ++
    [cnt m.deck.orders.length, cnt m.deck.pos, cnt m.deck.walkOut.length, cnt (retiredCount m),
      cnt (countP (fun x => x.2.recov.isSome) m.trk.htes),
      word ((List.range 4).map fun y => (8 * y, (tget [] m.deck.posted y).length))]

/-- The line caches' words. -/
def snapHlc (m : Core) : List Word :=
  [halves (rget m 0x1400).toNat (regValue m 0x1404).toNat,
    halves m.ca.mb.length (countP (fun x => x.2.isOpen) m.ca.mb), cnt m.ca.miss.length, cnt m.ca.siding.length] ++
    (List.range 4).map (fun b => cnt (tget 0 m.deck.buckets (4 + b))) ++
    [cnt m.ca.alc.length, cnt (countP (·.2) m.ca.alcDisabled)]

/-- A memory channel's word: the reads are the miss registers in flight on it. -/
def snapChan (m : Core) (c : Nat) : Word :=
  let on (l : LineAddr) : Bool := decide (chanOf m (llaOf m m.cfg.epoch l) = c)
  word [(24, min (countP (fun x => on x.2.line) m.ca.miss) 127),
    (16, min (writeQueue m c).length 127), (8, (tget [] m.atm.units c).length),
    (3, b1 (bit m.mem.failed c)), (2, b1 (tget false m.mem.wdrain c)),
    (1, b1 (match m.mem.repair with
      | some r => decide (r.row.ch = c)
      | none => false)),
    (0, b1 (m.mem.ready && decide (c < channels m)))]

/-- The fabric's words. -/
def snapFab (m : Core) : List Word :=
  [halves m.fab.sm.code m.fab.term.toNat, cnt m.fab.master.toNat, m.time.extractLsb' 32 32, m.time.extractLsb' 0 32,
    cnt m.fab.roster.length, cnt m.fab.queue.length,
    cnt (slotCount m fun s => decide (s = .leaving) || decide (s = .lost)), m.fab.offset.signExtend 32]

/-- An EIC target's word: selected source (0x100 for none), its level, the stack depth and the pin. -/
def snapTarget (m : Core) (t : Nat) : Word :=
  let s := selected m t
  word [(16, s.getD 0x100), (12, (s.map fun n => (srcCfg m n).1).getD 0), (8, stackDepth m t), (0, b1 (tget false m.eic.irq t))]

/-- The level of the resource that a monitor watches (Table OBS-5). -/
def levelOf (m : Core) (n : Nat) : Nat :=
  let a := 0x3480 + 0x20 * n
  match rfld m a 7 0 with
  | 1 => totalUsed m.trk.hteUse
  | 2 => sharedUsed m.trk.hteUse 4
  | 3 => totalUsed m.trk.wbUse
  | 4 => (vcb (port m (rfld m a 15 12)) (rfld m a 11 8)).o
  | 5 => (vcb (port m (rfld m a 15 12)) (rfld m a 11 8)).c
  | 6 => m.ca.miss.length
  | 7 => countP (fun x => x.2.vline.isSome || decide (x.2.wait = .way)) m.trk.htes
  | 8 => m.ca.mb.length
  | 9 => m.jnl.queue.length
  | 10 => ((rget m 0x30BC).toNat + 2 ^ 16 - rfld m 0x30B4 15 0) % 2 ^ 16
  | _ => 0

/-- The snapshot words of bank `b` (Table OBS-4). -/
def snapBank (m : Core) (b : Nat) : List Word :=
  match b with
  | 0 => [rget m 0x20, halves (role m) (split m), rget m 0x38, putFld (regValue m 0x40) 24 24 (b1 (rbit m 0x2C 0))]
  | 1 => [cfgStatus m, cnt m.cfg.throwNum.toNat, cnt (oldHtes m), rget m 0x414, rget m 0x41C]
  | 2 => (List.range 16).map (snapPort m)
  | 3 => snapTrk m
  | 4 => snapDir m
  | 5 => snapHlc m
  | 6 => (List.range 8).map (snapChan m) ++ (List.range 8).map fun c => cnt (chanLine m c (tget 0 m.mem.groomPos c))
  | 7 => [cnt m.atm.decayPos, cnt m.atm.recent.length, cnt (m.atm.units.foldl (fun a x => a + x.2.length) 0)]
  | 8 => snapFab m
  | 9 => (List.range 4).map (snapTarget m) ++ (List.range 8).map fun k => regValue m (0x2400 + 4 * k)
  | 10 => [m.dmt.count, dmtStatus m]
  | 11 => [m.jnl.nextSeq, cnt m.jnl.queue.length, rget m 0x2C08, rget m 0x2C20] ++
      [0, 1].map fun i => cnt (jrcWaiting m (BitVec.ofNat 16 (rfld m (0x203C + 4 * i) 15 0))).length
  | 12 => [rget m 0x30BC, cnt (fld (pmcStatus m) 20 16), rget m 0x30C0]
  | 13 => (List.range 16).map fun n => cnt (levelOf m n)
  | 14 => [spaStatus m, spbStatusReg m]
  | _ => rget m 0x3C04 :: (List.range 7).map (fun k => rget m (0x3C10 + 4 * k)) ++ [cnt (b1 m.pins.locked)]

/-- The audit terms of a port and virtual channel in the order of R274: C, Ssent, Crcv, O, P, M, Sacc, Cret, G and the
decrease bit. At a port of `building` a flit is being built, so that its returns have left P and stand in M (R288). -/
def auditTerms (m : Core) (building : List Nat) (p v : Nat) : List Nat :=
  let b := vcb (port m p) v
  let k := if building.contains p then merging (port m p) v else 0
  [b.c, b.ssent, b.crcv, b.o, b.p - k, k, b.sacc, b.cret, b.g, b1 (decide (0 < b.withhold))]

/-- A list placed in a table from key `k` on. -/
def placeFrom (t : Tab Word) (k : Nat) (l : List Word) : Tab Word :=
  match l with
  | [] => t
  | w :: r => placeFrom (tput 0 t k w) (k + 1) r

/-- Every snapshot word (R784) and audit term (R274). -/
def snapshot (m : Core) (building : List Nat) : Tab Word :=
  let t := (List.range 16).foldl (fun t b => placeFrom t (16 * b) (snapBank m b)) []
  (List.range 192).foldl (fun t i => placeFrom t (256 + 16 * i) ((auditTerms m building (i / 12) (i % 12)).map cnt)) t

/-- The ports at which a flit is being built at a capture edge: a free value (R288; assumption log, entry 4). -/
def building (m : Core) : List Nat := (List.range 16).filter (Config.building m.free)

/-- The capture edge of a whistle (R783 to R786, R288). -/
def whistleCapture (m : Core) : Core :=
  if !m.whs.recog then m else
    let t := snapshot m (building m)
    let m := captureW (modWhs { m with free := m.free + 1 } fun w => { w with
      armed := false, recog := false, captured := true, captureDone := false, auditDue := true, snap := t }) 1
    rsetf m 0xC04 31 31 0

/-- CAPTURE_DONE (R786). -/
def captureDone (m : Core) : Core :=
  if m.whs.captured && !m.whs.captureDone then raise (modWhs m fun w => { w with captureDone := true }) 179 else m

/-! ### The audit (R275 to R277, R288) -/

/-- Audit term `k` of pair `i` as latched. -/
def latched (m : Core) (i k : Nat) : Word := tget 0 m.whs.snap (256 + 16 * i + k)

/-- Whether the send-side book of a pair mismatches (Table PRG-3). -/
def sendBad (m : Core) (i : Nat) : Bool := decide (latched m i 0 ≠ latched m i 2 - latched m i 1)

/-- Whether the receive-side book of a pair mismatches; a decrease in progress is no mismatch (R288). -/
def recvBad (m : Core) (i : Nat) : Bool :=
  let s := latched m i 3 + latched m i 4 + latched m i 5
  latched m i 9 = 0 && (decide (s ≠ latched m i 8 + latched m i 6 - latched m i 7) || decide (latched m i 8 < s))

/-- A latched word of the tracker's bank. -/
def trkWord (m : Core) (w : Nat) : Nat := (tget 0 m.whs.snap (48 + w)).toNat

/-- The mismatch of each book, with the latched values that it rests on (Table PRG-3). -/
def auditBooks (m : Core) : List (Option (Nat × List Nat)) :=
  let pair (f : Nat → Bool) : Option (Nat × List Nat) :=
    ((List.range 192).find? f).map fun i => (i, (List.range 9).map fun k => (latched m i k).toNat)
  let book (ok : Bool) (ws : List Nat) : Option (Nat × List Nat) := if ok then none else some (0, ws.map (trkWord m))
  [pair (sendBad m), pair (recvBad m), book (decide (trkWord m 0 + trkWord m 1 + trkWord m 2 = 4096)) [0, 1, 2],
    book (decide (trkWord m 4 + trkWord m 5 + trkWord m 6 = 1024)) [4, 5, 6],
    book (decide (trkWord m 7 = trkWord m 8 + trkWord m 9)) [7, 8, 9]]

/-- The AUDIT record of a mismatch (R277, Table DMJ-6): book, port and virtual channel, and the first seven latched
values in two bytes each. -/
def journalAudit (m : Core) (book i : Nat) (vals : List Nat) : Core :=
  journal m 0x21 3 (payload ([(8, book), (8, if book < 2 then i / 12 * 16 + i % 12 else 0)] ++ (vals.take 7).map fun v => (16, v)))

/-- AUDIT_COMPLETE (R276, R277): source 180 at its end, source 32 at a mismatch (Table EIC-1). -/
def auditComplete (m : Core) : Core :=
  if !m.whs.auditDue then m else
    let m := modWhs m fun w => { w with auditDue := false }
    let bs := auditBooks m
    let bits := (List.range 5).foldl (fun a b => a + b1 ((bs[b]?).getD none).isSome * 2 ^ b) 0
    let first := match bs with
      | some x :: _ => x.1
      | _ :: some x :: _ => x.1
      | _ => 0
    let m := rset m 0xC04 (word [(31, 1), (20, first / 12), (16, first % 12), (0, bits)])
    let m := raise m 180
    if bits = 0 then m else
      (List.range 5).foldl (fun m b => match (bs[b]?).getD none with
        | some x => journalAudit m b x.1 x.2
        | none => m) (raise m 32)

/-! ### Level marks (R788 to R795, R798) -/

/-- Monitor `n` evaluates its level (R790 to R793). -/
def lmEval (m : Core) (n : Nat) : Core :=
  let x := lmOf m n
  let l := levelOf m n
  let x := { x with level := l, peak := max x.peak l }
  let a := 0x3484 + 0x20 * n
  let put (m : Core) (x : LevelMark) : Core := modWhs m fun w => { w with lm := tput {} w.lm n x }
  if !x.above && decide (rfld m a 31 16 < l) then
    raise (put m { x with above := true, up := true, count := min (x.count + 1) 255 }) (96 + 2 * n)
  else if x.above && decide (l < rfld m a 15 0) then raise (put m { x with above := false, down := true }) (97 + 2 * n)
  else put m x

/-- The count is cleared and the peak becomes the current level (R794). -/
def lmClear (m : Core) (n : Nat) : Core :=
  let x := { lmOf m n with count := 0, level := levelOf m n, peak := levelOf m n }
  modWhs m fun w => { w with lm := tput {} w.lm n x }

/-- After a write of a monitor's select or marks, above is formed anew without a crossing (R795). -/
def lmReset (m : Core) (n : Nat) : Core :=
  let l := levelOf m n
  let x := { lmOf m n with above := decide (rfld m (0x3484 + 0x20 * n) 31 16 < l), count := 0, level := l, peak := l }
  modWhs m fun w => { w with lm := tput {} w.lm n x }

/-- Every monitor evaluates. -/
def lmAll (m : Core) : Core := (List.range 16).foldl lmEval m

/-! ### The commands -/

/-- WHISTLE_FALL (R780, R781, R785, R799). -/
def execWhistleFall (s : State) : Host.Outcome State Fault Refusal :=
  clocked (fun m =>
    if m.whs.armed then modWhs m fun w => { w with recog := true }
    else modWhs m fun w => { w with missed := min (w.missed + 1) 0xFFFF }) s

/-- WHISTLE_DRIVE_END (R782). -/
def execWhistleDriveEnd (s : State) : Host.Outcome State Fault Refusal :=
  clocked (fun m => modWhs m fun w => { w with driving := false, drivePend := false }) s

/-- WHISTLE_CAPTURE (R784, R288). -/
def execWhistleCapture (s : State) : Host.Outcome State Fault Refusal := clocked whistleCapture s

/-- CAPTURE_DONE (R786). -/
def execCaptureDone (s : State) : Host.Outcome State Fault Refusal := clocked captureDone s

/-- AUDIT_COMPLETE (R276). -/
def execAuditComplete (s : State) : Host.Outcome State Fault Refusal := clocked auditComplete s

/-- LEVEL_MARK_CROSS_UP (R792). -/
def execLevelMarkCrossUp (n : Fin 16) (s : State) : Host.Outcome State Fault Refusal := clocked (fun m => lmEval m n.val) s

/-- LEVEL_MARK_CROSS_DOWN (R792). -/
def execLevelMarkCrossDown (n : Fin 16) (s : State) : Host.Outcome State Fault Refusal := clocked (fun m => lmEval m n.val) s

end Sys2Proof.Machine
end

