-- ==== Sys2Proof/Machine/Windows.lean ====
section
/-! DEFINITION. The indirect windows (spec/12_control_plane.md, R603 to R610, R647; spec/17_registers_fabric.md, Tables
RGF-1, RGF-4 to RGF-7, RGF-10, RGF-12, RGF-15, RGF-18, RGF-19; spec/18_registers_service.md, R896 to R900, R905, R910):
the layouts of their entries, the checks of a command and its completion. -/

namespace Sys2Proof.Machine

/-- The number of a window. -/
def winNum : WinId → Nat
  | .cfg => 0 | .trk => 1 | .dir => 2 | .atm => 3 | .fab => 4 | .ppr => 5 | .eic => 6 | .pmc => 7 | .whs => 8

/-- The address of a window's command register. -/
def winCmd : WinId → Nat
  | .cfg => 0x460 | .trk => 0xC20 | .dir => 0x1050 | .atm => 0x1C10 | .fab => 0x2050 | .ppr => 0x1860 | .eic => 0x2450
  | .pmc => 0x3000 | .whs => 0x3420

/-- The data-in registers of a window: the first address and how many (0 for a read-only window). -/
def winDin : WinId → Nat × Nat
  | .cfg => (0x464, 22) | .atm => (0x1C14, 1) | .fab => (0x2054, 15) | .eic => (0x2454, 1) | .pmc => (0x3004, 1)
  | .trk => (0, 0) | .dir => (0, 0) | .ppr => (0, 0) | .whs => (0, 0)

/-- The result registers of a window: the first address and how many. -/
def winRes : WinId → Nat × Nat
  | .cfg => (0x4C0, 22) | .trk => (0xC24, 7) | .dir => (0x1054, 13) | .atm => (0x1C18, 1) | .fab => (0x2090, 15)
  | .ppr => (0x1864, 2) | .eic => (0x2458, 1) | .pmc => (0x3008, 1) | .whs => (0x3424, 2)

/-- The windows. -/
def allWins : List WinId := [.cfg, .trk, .dir, .atm, .fab, .ppr, .eic, .pmc, .whs]

/-- Whether an address lies in a block of `n` registers from `b` on. -/
def inBlock (b n a : Nat) : Bool := decide (b ≤ a) && decide (a < b + 4 * n)

/-- The window whose command register stands at an address. -/
def winOfCmd (a : Nat) : Option WinId := allWins.find? fun i => decide (winCmd i = a)

/-- The window one of whose data-in registers stands at an address. -/
def winOfDin (a : Nat) : Option WinId := allWins.find? fun i => inBlock (winDin i).1 (winDin i).2 a

/-- The window one of whose result registers stands at an address. -/
def winOfRes (a : Nat) : Option WinId := allWins.find? fun i => inBlock (winRes i).1 (winRes i).2 a

/-- A window's state. -/
def winOf (m : Core) (i : WinId) : Window := tget {} m.wins (winNum i)

/-- The machine with a window's state set. -/
def setWin (m : Core) (i : WinId) (x : Window) : Core := { m with wins := tput {} m.wins (winNum i) x }

/-- Result register `k` of a window (R606, R607, R855). -/
def winResult (m : Core) (i : WinId) (k : Nat) : Word :=
  let x := winOf m i
  match x.pend with
  | some p => word [(27, p.seq.toNat)]
  | none => if x.valid then word [(31, 1), (27, x.seq.toNat), (0, ((x.res[k]?).getD 0).toNat % 2 ^ 27)] else 0

/-- Whether the command of a word is a write. -/
def cmdWrite (v : Word) : Bool := bit v 31

/-- The command that a word gives a window, with the entry that its data-in registers hold. -/
def winPend (m : Core) (i : WinId) (v : Word) : WinPend :=
  { seq := v.extractLsb' 26 4, write := cmdWrite v, set := bit v 30, table := fld v 25 22, index := fld v 21 0
    words := (List.range (winDin i).2).map fun k => rget m ((winDin i).1 + 4 * k) }

/-! ### Entry layouts -/

/-- Bits [hi:lo] of word `k` of an entry. -/
def wf (ws : List Word) (k hi lo : Nat) : Nat := fld ((ws[k]?).getD 0) hi lo

/-- Bit `i` of word `k` of an entry. -/
def wb (ws : List Word) (k i : Nat) : Bool := bit ((ws[k]?).getD 0) i

/-- The region-table entry of words (Table RGF-5). -/
def regionOfWords (ws : List Word) : Region :=
  { basePn := BitVec.ofNat 40 (wf ws 0 26 0 + wf ws 1 12 0 * 2 ^ 27), limitPn := BitVec.ofNat 40 (wf ws 2 26 0 + wf ws 3 12 0 * 2 ^ 27)
    valid := wb ws 3 26, prio := BitVec.ofNat 2 (wf ws 3 25 24), owner := wb ws 3 23, placement := BitVec.ofNat 2 (wf ws 3 22 21)
    exclGrant := wb ws 3 20, classEn := wb ws 3 19, cls := BitVec.ofNat 3 (wf ws 3 18 16) }

/-- The words of a region-table entry (Table RGF-5). -/
def Region.words (r : Region) : List Word :=
  [word [(0, fld r.basePn 26 0)], word [(0, fld r.basePn 39 27)], word [(0, fld r.limitPn 26 0)],
    word [(26, b1 r.valid), (24, r.prio.toNat), (23, b1 r.owner), (21, r.placement.toNat), (20, b1 r.exclGrant),
      (19, b1 r.classEn), (16, r.cls.toNat), (0, fld r.limitPn 39 27)]]

/-- The code of a slot status (Table RGF-6). -/
def SlotStatus.code : SlotStatus → Nat
  | .empty => 0 | .live => 1 | .leaving => 2 | .lost => 3

/-- The slot-map entry of words (Table RGF-6). -/
def slotOfWords (ws : List Word) : SlotEnt :=
  { cls := BitVec.ofNat 3 (wf ws 0 22 20), junction := wb ws 0 19, member := wb ws 0 18
    status := if wf ws 0 17 16 = 1 then .live else .empty, node := BitVec.ofNat 16 (wf ws 0 15 0) }

/-- The words of a slot-map entry (Table RGF-6). -/
def SlotEnt.words (x : SlotEnt) : List Word :=
  [word [(20, x.cls.toNat), (19, b1 x.junction), (18, b1 x.member), (16, x.status.code), (0, x.node.toNat)]]

/-- The home-map entry of words (Table RGF-7). -/
def rangeOfWords (ws : List Word) : HomeRange :=
  { b8 := BitVec.ofNat 44 (wf ws 0 26 0 + wf ws 1 16 0 * 2 ^ 27), valid := wb ws 1 26, n1 := BitVec.ofNat 4 (wf ws 1 25 22)
    k := BitVec.ofNat 5 (wf ws 1 21 17), l8 := BitVec.ofNat 44 (wf ws 2 26 0 + wf ws 3 16 0 * 2 ^ 27)
    lb8 := BitVec.ofNat 32 (wf ws 4 26 0 + wf ws 5 4 0 * 2 ^ 27)
    nodes := (List.range 16).map fun j => BitVec.ofNat 16 (wf ws (6 + j) 15 0) }

/-- The words of a home-map entry (Table RGF-7). -/
def HomeRange.words (r : HomeRange) : List Word :=
  [word [(0, fld r.b8 26 0)], word [(26, b1 r.valid), (22, r.n1.toNat), (17, r.k.toNat), (0, fld r.b8 43 27)],
    word [(0, fld r.l8 26 0)], word [(0, fld r.l8 43 27)], word [(0, fld r.lb8 26 0)], word [(0, fld r.lb8 31 27)]] ++
    (List.range 16).map fun j => word [(0, ((r.nodes[j]?).getD 0).toNat)]

/-- The admission entry of words (Table RGF-19). -/
def admissionOfWords (ws : List Word) : Admission :=
  { valid := wb ws 0 26, target := BitVec.ofNat 2 (wf ws 0 25 24), links1 := BitVec.ofNat 2 (wf ws 0 23 22)
    profile := BitVec.ofNat 5 (wf ws 0 21 17), cls := BitVec.ofNat 3 (wf ws 0 16 14), junction := wb ws 0 13, member := wb ws 0 12
    count1 := BitVec.ofNat 12 (wf ws 0 11 0), slotBase := BitVec.ofNat 8 (wf ws 1 23 16), nodeBase := BitVec.ofNat 16 (wf ws 1 15 0)
    jnode := BitVec.ofNat 16 (wf ws 2 15 0) }

/-- The words of an admission entry (Table RGF-19). -/
def Admission.words (x : Admission) : List Word :=
  [word [(26, b1 x.valid), (24, x.target.toNat), (22, x.links1.toNat), (17, x.profile.toNat), (14, x.cls.toNat),
      (13, b1 x.junction), (12, b1 x.member), (0, x.count1.toNat)],
    word [(16, x.slotBase.toNat), (0, x.nodeBase.toNat)], word [(0, x.jnode.toNat)]]

/-- The profile entry of words (Table RGF-19). -/
def profileOfWords (ws : List Word) : Profile :=
  { valid := wb ws 0 26, superset := wb ws 0 25, role := BitVec.ofNat 3 (wf ws 0 24 22)
    vals := (List.range 7).map fun i => BitVec.ofNat 32 (wf ws (1 + 2 * i) 15 0 + wf ws (2 + 2 * i) 15 0 * 2 ^ 16) }

/-- The words of a profile entry (Table RGF-19). -/
def Profile.words (x : Profile) : List Word :=
  word [(26, b1 x.valid), (25, b1 x.superset), (22, x.role.toNat)] ::
    (List.range 14).map fun i => word [(0, let v := (x.vals[i / 2]?).getD 0; if i % 2 = 0 then fld v 15 0 else fld v 31 16)]

/-- The attach entry of words (Table RGF-19). -/
def attachOfWords (ws : List Word) : Attach :=
  { nodes := (List.range 4).map fun j => (wb ws j 16, BitVec.ofNat 16 (wf ws j 15 0)) }

/-- The words of an attach entry (Table RGF-19). -/
def Attach.words (x : Attach) : List Word := x.nodes.map fun n => word [(16, b1 n.1), (0, n.2.toNat)]

/-! ### The checks of a command (R604, Table CTL-7) -/

/-- The indices of a window's table (Table CTL-2); none for a table code that the window does not define. -/
def winRange (i : WinId) (table : Nat) : Option Nat :=
  match i, table with
  | .cfg, 1 => some 64 | .cfg, 2 => some 8 | .cfg, 3 => some 256 | .cfg, 4 => some 64 | .cfg, 5 => some 192
  | .cfg, 6 => some 16384 | .cfg, _ => none
  | .fab, 1 => some 4096 | .fab, 2 => some 256 | .fab, 3 => some 32 | .fab, 4 => some 16 | .fab, _ => none
  | .trk, _ => some 4096 | .dir, _ => some (2 ^ 22) | .atm, _ => some 1024 | .ppr, _ => some 64 | .eic, _ => some 256
  | .pmc, _ => some 128 | .whs, _ => some 3328

/-- Whether a command's index lies outside its table. -/
def indexBad (i : WinId) (p : WinPend) : Bool :=
  match winRange i p.table with
  | some n => decide (n ≤ p.index)
  | none => false

/-- Whether a table or window is read-only, or undefined (R853, R897). -/
def readOnlyTable (i : WinId) (p : WinPend) : Bool :=
  match i with
  | .trk | .dir | .ppr | .whs => true
  | .fab => decide (p.table = 1)
  | _ => false

/-- The bits that each word of a table's entry may hold (R12, R856). -/
def entryMask (i : WinId) (table : Nat) : List Nat :=
  let full := 2 ^ 27 - 1
  match i, table with
  | .cfg, 1 => [full, 0x1FFF, full, 0x7FF1FFF]
  | .cfg, 2 => [0xFFFF] | .cfg, 3 => [0x7FFFFF]
  | .cfg, 4 => [full, full, full, 0x1FFFF, full, 0x1F] ++ List.replicate 16 0xFFFF
  | .cfg, 5 => [0x7FF] | .cfg, 6 => [0xFFFF]
  | .fab, 2 => [full, 0xFFFFFF, 0xFFFF] | .fab, 3 => 0x7C00000 :: List.replicate 14 0xFFFF
  | .fab, 4 => List.replicate 4 0x1FFFF
  | .atm, _ => [3] | .eic, _ => [0x3F] | .pmc, _ => [0x1BFF]
  | _, _ => []

/-- Whether an entry to be written holds a nonzero reserved bit. -/
def entryReserved (masks : List Nat) (ws : List Word) : Bool :=
  match masks, ws with
  | k :: ks, w :: r => decide (w.toNat &&& k ≠ w.toNat) || entryReserved ks r
  | _, _ => false

/-- Whether a table entry holds a value outside its range (R860, R863, R865, R866). -/
def cfgEntryBad (table index : Nat) (ws : List Word) : Bool :=
  match table with
  | 1 =>
    let r := regionOfWords ws
    decide (2 ^ 36 ≤ r.basePn.toNat) || decide (2 ^ 36 ≤ r.limitPn.toNat) || decide (r.placement = 3)
  | 3 => decide (2 ≤ wf ws 0 17 16)
  | 4 =>
    let r := rangeOfWords ws
    decide (r.k.toNat < 8) || decide (30 < r.k.toNat) || decide (2 ^ 40 ≤ r.b8.toNat) || decide (2 ^ 40 ≤ r.l8.toNat)
  | 5 => decide (wf ws 0 10 0 < minAllot (index % 12)) || decide (2047 < wf ws 0 10 0)
  | _ => false

/-- Whether a command's value lies outside its range (R758, R853, R885, R897). -/
def winOutOfRange (i : WinId) (p : WinPend) : Bool :=
  (winRange i p.table).isNone || (p.write && (readOnlyTable i p ||
    (match i with
      | .cfg => cfgEntryBad p.table p.index p.words
      | .fab =>
        (decide (p.table = 2) && (decide (wf p.words 0 25 24 = 3) || decide (255 < wf p.words 1 23 16 + wf p.words 0 11 0)))
          || (decide (p.table = 3) && decide (4 < wf p.words 0 24 22))
      | .pmc => decide (wf p.words 0 9 0 ≠ 0) && !eventListed (blkOf p.index) (wf p.words 0 9 0)
      | _ => false)))

/-- Whether the standby set may not be written (R616). -/
def setBusy (m : Core) : Bool :=
  m.cfg.drain || m.cfg.copying || m.cfg.prepared || decide (m.cfg.check ≠ .idle)

/-- Whether the words of a slot-map entry differ from an entry in no field but the class (R615). -/
def sameButClass (x : SlotEnt) (ws : List Word) : Bool :=
  decide (wf ws 0 15 0 = x.node.toNat) && decide (wf ws 0 17 16 = x.status.code) && wb ws 0 18 == x.member
    && wb ws 0 19 == x.junction

/-- Whether a command breaks a rule of state with WRONG_STATE (R614, R615, R657). -/
def winWrongState (m : Core) (i : WinId) (p : WinPend) : Bool :=
  p.write && (match i with
    | .cfg =>
      m.cfg.startedWarm && (decide (p.set = m.cfg.epoch)
        || (decide (p.table = 3) && !sameButClass (slotEnt m p.set p.index) p.words))
    | .eic => isActive m p.index && decide (srcCfg m p.index ≠ (wf p.words 0 3 0, wf p.words 0 5 4))
    | _ => false)

/-- Whether a command meets a busy window or set (R604, R616, R787). -/
def winBusy (m : Core) (i : WinId) (p : WinPend) : Bool :=
  (winOf m i).pend.isSome || (decide (i = .cfg) && p.write && decide (p.set ≠ m.cfg.epoch) && setBusy m)
    || (decide (i = .whs) && m.whs.captured && !m.whs.captureDone)

/-- A command is accepted (R606). A write command to the standby set clears copy_done (Table RGF-3). -/
def winAccept (m : Core) (i : WinId) (p : WinPend) : Core :=
  let m := setWin m i { pend := some p, seq := p.seq }
  if i = .cfg && p.write && p.set ≠ m.cfg.epoch then modCfg m fun c => { c with copyDone := false } else m

/-! ### Completion (R607, R610, R647) -/

/-- A configuration table entry as words. -/
def cfgEntry (c : CfgSet) (table index : Nat) : List Word :=
  match table with
  | 1 => (tget {} c.regions index).words
  | 2 => [word [(0, (tget 0xFFFF c.wayMasks index).toNat)]]
  | 3 => (tget {} c.slots index).words
  | 4 => (tget {} c.home index).words
  | 5 => [word [(0, allotOf c (index / 12) (index % 12))]]
  | 6 => [word ((List.range 4).map fun j => (4 * j, (tget 0xF c.route (4 * index + j)).toNat))]
  | _ => []

/-- The set with a table entry written. -/
def cfgPut (c : CfgSet) (table index : Nat) (ws : List Word) : CfgSet :=
  match table with
  | 1 => { c with regions := tput {} c.regions index (regionOfWords ws) }
  | 2 => { c with wayMasks := tput 0xFFFF c.wayMasks index (BitVec.ofNat 16 (wf ws 0 15 0)) }
  | 3 => { c with slots := tput {} c.slots index (slotOfWords ws) }
  | 4 => { c with home := tput {} c.home index (rangeOfWords ws) }
  | 5 => { c with allot := tput (defaultAllot (decide (index / 12 < 8)) (index % 12)) c.allot index (wf ws 0 10 0) }
  | 6 => { c with route := (List.range 4).foldl (fun r j =>
      tput 0xF r (4 * index + j) (BitVec.ofNat 4 (wf ws 0 (4 * j + 3) (4 * j)))) c.route }
  | _ => c

/-- A FAB table entry as words. -/
def fabEntry (m : Core) (table index : Nat) : List Word :=
  match table with
  | 1 => [word ((List.range 16).map fun j => (j, b1 (tfind m.fab.roster (16 * index + j)).isSome))]
  | 2 => (tget {} m.fab.admission index).words
  | 3 => (tget {} m.fab.profiles index).words
  | 4 => (tget {} m.fab.attach index).words
  | _ => []

/-- The machine with a FAB table entry written. -/
def fabPut (m : Core) (table index : Nat) (ws : List Word) : Core :=
  match table with
  | 2 => modFab m fun f => { f with admission := tput {} f.admission index (admissionOfWords ws) }
  | 3 => modFab m fun f => { f with profiles := tput {} f.profiles index (profileOfWords ws) }
  | 4 => modFab m fun f => { f with attach := tput {} f.attach index (attachOfWords ws) }
  | _ => m

/-- The code of an HTE's kind (Table RGF-10). -/
def HKind.code : HKind → Nat
  | .active => 1 | .queued => 2 | .chain => 3 | .quarantined => 4

/-- The HTE behind an HTE in its line's platform queue. -/
def nextQueued (m : Core) (x : Hte) : Option Nat :=
  (m.trk.htes.foldl (fun (best : Option (Nat × Nat)) y =>
    if decide (y.2.kind = .queued) && decide (y.2.msg.line = x.msg.line) && (decide (x.kind = .active) || decide (x.seq < y.2.seq)) then
      match best with
      | none => some (y.1, y.2.seq)
      | some b => if y.2.seq < b.2 then some (y.1, y.2.seq) else best
    else best) none).map (·.1)

/-- The words of a TRK probe (Table RGF-10). -/
def trkProbe (m : Core) (h : Nat) : List Word :=
  match hte m h with
  | none => List.replicate 7 0
  | some x =>
    if x.kind = .quarantined then word [(26, 1), (23, 4)] :: List.replicate 6 0 else
      let nxt := if x.kind = .active || x.kind = .queued then nextQueued m x else none
      [word [(23, x.kind.code), (22, b1 x.epoch), (18, clsCode (clsOf x.msg.op)), (10, opCode x.msg.op)],
        word [(0, x.msg.src.toNat)], word [(20, b1 x.slot.isSome), (12, x.slot.getD 0), (0, x.msg.tag.toNat)],
        word [(0, fld x.msg.line 26 0)], word [(0, fld x.msg.line 45 27)],
        word [(0, min ((m.stmp - x.adm) / 100) 0xFFFFFF)],
        word [(23, awaitedCode x), (15, min x.awaits.length 255), (12, b1 nxt.isSome), (0, nxt.getD 0)]]

/-- The code of a directory state (Table DIR-3). -/
def DSt.code : DSt → Nat
  | .i => 0 | .s => 1 | .x => 2 | .k => 3 | .u => 4

/-- The entry that a probe reads, given the fault it meets: an unreadable word reads as a free value (assumption log,
entry 4). The answer holds the state encoding beside the entry. -/
def probeEnt (m : Core) (k : Nat) (f : Option DeckFault) : DirEnt × Nat × Core :=
  let x := dirEnt m k
  let r := freeLine m
  match f with
  | some (.word4 _) =>
    ({ x with tag := r.1.extractLsb' 0 24, owner := r.1.extractLsb' 27 8, homeHeld := r.1.getLsbD 35
              staff := r.1.getLsbD 36, epoch := r.1.getLsbD 37 }, fld r.1 26 24, r.2)
  | some .stateBad => (x, 5 + fld r.1 1 0 % 3, r.2)
  | some (.vector n) =>
    let msk : BitVec 256 := BitVec.ofNat 256 ((2 ^ 64 - 1) * 2 ^ (64 * n.val))
    ({ x with vec := (x.vec &&& ~~~msk) ||| (r.1.extractLsb' 0 256 &&& msk) }, x.st.code, r.2)
  | _ => (x, x.st.code, m)

/-- The words of a DIR probe (Table RGF-12), and the machine after it. -/
def dirProbe (m : Core) (k : Nat) (e : Env) : List Word × Core :=
  let set := k / 16
  if 2 ≤ popCount (retiredCopies m set ||| e.retiredUpset).toNat 3 then (word [(26, 1), (25, 1)] :: List.replicate 12 0, m) else
    let fs := (e.deck.filter fun y => decide (y.1.val = k % 16)).map (·.2)
    let fixed (f : DeckFault) : Bool := decide (f = .corrected) || decide (f = .mirrorCorrected)
    let f := fs.find? fun f => !fixed f
    let r := probeEnt m k f
    let x := r.1
    let mbad := match f with
      | some (.word4 b) => b
      | _ => false
    let w0 := word [(24, b1 f.isSome), (23, b1 (fs.any fixed)), (20, r.2.1), (12, x.owner.toNat), (11, b1 x.homeHeld),
      (10, b1 x.staff), (9, b1 x.epoch), (8, b1 (lineBusy m (lineOf set x.tag))), (7, b1 (decide (2 * split m ≤ k % 16)))]
    (w0 :: word [(0, x.tag.toNat)] :: word [(24, b1 mbad), (0, (mirrorTag m k).toNat)] ::
      (List.range 10).map fun j => word [(0, fld x.vec (27 * j + 26) (27 * j))], r.2.2)

/-- The words of a MEM PPR entry (Table RGF-15). -/
def pprEntry (m : Core) (n : Nat) : List Word :=
  match tfind m.mem.ppr n with
  | none => [0, 0]
  | some x =>
    [word [(26, 1), (25, b1 x.hard), (24, b1 x.refused), (21, x.row.ch), (20, x.row.sub), (19, x.row.rank), (16, x.row.group),
      (14, x.row.bank)], word [(0, x.row.row)]]

/-- The code of a source's state (R900). -/
def SrcSt.code : SrcSt → Nat
  | .inactive => 0 | .pending => 1 | .active => 2 | .both => 3

/-- The word of an EIC source entry as a result register shows it (R900). -/
def eicEntry (m : Core) (n : Nat) : List Word :=
  [word [(0, (srcCfg m n).1), (4, (srcCfg m n).2), (8, (srcSt m n).code)]]

/-- A counter's entry of words (R905). -/
def ctrOfWords (ws : List Word) : CtrCfg :=
  { enable := wb ws 0 12, ovfInt := wb ws 0 11, event := BitVec.ofNat 10 (wf ws 0 9 0) }

/-- The entry that a read command returns. -/
def winRead (m : Core) (i : WinId) (p : WinPend) (e : Env) : List Word × Core :=
  match i with
  | .cfg => (cfgEntry (setOf m p.set) p.table p.index, m)
  | .trk => (trkProbe m p.index, m)
  | .dir => dirProbe m p.index e
  | .atm => ([word [(0, predCtr m p.index)]], m)
  | .fab => (fabEntry m p.table p.index, m)
  | .ppr => (pprEntry m p.index, m)
  | .eic => (eicEntry m p.index, m)
  | .pmc => ([BitVec.ofNat 32 (ctrCfg m p.index).word], m)
  | .whs =>
    let w := tget 0 m.whs.snap p.index
    ([word [(0, fld w 26 0)], word [(0, fld w 31 27)]], m)

/-- The machine with a write command's entry in place. -/
def winWrite (m : Core) (i : WinId) (p : WinPend) : Core :=
  match i with
  | .cfg => modSet m p.set fun c => cfgPut c p.table p.index p.words
  | .atm => { m with atm := { m.atm with pred := tput 1 m.atm.pred p.index (wf p.words 0 1 0) } }
  | .fab => fabPut m p.table p.index p.words
  | .eic => eicUpdate (modEic m fun x => { x with cfg := tput (0, 0) x.cfg p.index (wf p.words 0 3 0, wf p.words 0 5 4) })
  | .pmc => modPmc m fun x => { x with cfg := tput {} x.cfg p.index (ctrOfWords p.words) }
  | _ => m

/-- WINDOW_COMPLETE: the pending command completes, and the results show the entry read, or the entry as written (R607,
R658, R906). -/
def winComplete (m : Core) (i : WinId) (e : Env) : Core :=
  match (winOf m i).pend with
  | none => m
  | some p =>
    let r := winRead (if p.write then winWrite m i p else m) i p e
    setWin r.2 i { pend := none, seq := p.seq, valid := true, res := r.1 }

/-- WINDOW_COMPLETE (R607). -/
def execWindowComplete (w : WinId) (e : Env) (s : State) : Host.Outcome State Fault Refusal :=
  clocked (fun m => winComplete m w e) s

end Sys2Proof.Machine
end

