-- ==== Sys2Proof/Machine/Regs.lean ====
section
/-! DEFINITION. Register accesses (spec/12_control_plane.md, R587 to R602, R611 to R613, R972): who accesses, the checks
in the order of Table CTL-7, what an accepted write does, what a read returns, and the reject record. -/

namespace Sys2Proof.Machine

/-- Who makes an access: the master ID, its privilege, whether it is the image loader, the node of a `CFG`, whether
the access came over the LMB, and whether a second key comes too late (R587, R701). -/
structure Who where
  mid : Nat
  priv : Bool
  boot : Bool := false
  node : NodeId := 0
  lmb : Bool := false
  late : Bool := false
  deriving DecidableEq, Repr

/-- An LMB access (R587). -/
def lmbWho (a : Lmb) : Who := { mid := a.mid.toNat, priv := a.priv, lmb := true }

/-- The image loader's access (R634). -/
def bootWho : Who := { mid := 0, priv := true, boot := true }

/-! ### Permissions, blocks in soft reset, read-only registers (checks 3 to 6) -/

/-- Whether an address is a counter view register. -/
def isView (a : Nat) : Bool := inBlock 0x3040 8 a || inBlock 0x3060 8 a

/-- The group that a master's view selects. -/
def viewGroup (m : Core) (mid : Nat) : Nat := rfld m (0x3020 + 4 * mid) 3 0

/-- The source that a master's view selects: 0 live, 1 P, 2 W. -/
def viewSource (m : Core) (mid : Nat) : Nat := rfld m (0x3020 + 4 * mid) 5 4

/-- Whether a master may write an address (R589, R702). -/
def mayWrite (m : Core) (w : Who) (a : Nat) : Bool :=
  if a = 0x2810 then !w.boot && mayService m w.mid w.priv w.node else w.priv

/-- Whether a master may read an address (R589, R763). -/
def mayRead (m : Core) (w : Who) (a : Nat) : Bool :=
  w.priv || decide (a < 0x1C) || (isView a && rbit m 0x3080 (viewGroup m w.mid))

/-- Whether the block that holds an address is in soft reset (R916). -/
def inSoftReset (m : Core) (a : Nat) : Bool :=
  match a / 0x400 with
  | 5 => softHeld m 0
  | 9 => softHeld m 1
  | 12 => softHeld m 2
  | 14 => softHeld m 3
  | _ => false

/-- Whether every field of a register is RO. -/
def RegDesc.allRo (r : RegDesc) : Bool := r.fields.all fun f => decide (f.acc = .ro)

/-- Whether a register has an RWL field. -/
def RegDesc.hasRwl (r : RegDesc) : Bool := r.fields.any fun f => decide (f.acc = .rwl)

/-- Whether a write meets READ_ONLY (Table SCP-3, R764). -/
def writeReadOnly (m : Core) (w : Who) (a : Nat) (r : RegDesc) : Bool :=
  r.allRo || (isView a && decide (viewSource m w.mid ≠ 0))

/-! ### Rules of state (check 8) -/

/-- Whether a write would change bits [hi:lo] of a register. -/
def changes (m : Core) (a : Nat) (v : Word) (hi lo : Nat) : Bool := decide (fld v hi lo ≠ rfld m a hi lo)

/-- Whether the link-layer start of a port runs or is complete while its link_reset is clear (R869). -/
def linkUp (m : Core) (p : Nat) : Bool :=
  (decide ((port m p).link = .starting) || decide ((port m p).link = .complete)) && !rbit m (0x900 + 4 * p) 0

/-- The row that MEM.PPR_CMD names. -/
def pprRow (v : Word) : RowId := ⟨fld v 31 29, fld v 28 28, fld v 27 27, fld v 26 24, fld v 23 22, fld v 16 0⟩

/-- The row that DIR.SPARE_CMD names. -/
def spareRow (v : Word) : DeckRow := ⟨bit v 31, v.extractLsb' 0 18⟩

/-- The divider of an SPA select. -/
def spaDiv (m : Core) (sel : Nat) : Nat := if sel < 2 then 1 else rfld m (0x3800 + 4 * sel) 7 0

/-- The bits that a frame shifts out, in order. -/
def frameBits (m : Core) (base len units : Nat) : List Bool :=
  (List.range units).foldl (fun l i => l ++ (List.range len).map fun j => rbit m (base + 4 * i) (len - 1 - j)) []

/-- Whether a start of a write command to a live journal device breaks R812. -/
def spaGuarded (m : Core) (v : Word) : Bool :=
  let sel := fld v 5 4
  let cmd := (frameBits m 0x3820 (fld v 13 8) (fld v 19 16)).take 8
  let bits (n : Nat) : List Bool := (List.range 8).map fun j => n.testBit (7 - j)
  decide (sel < 2) && devLive m (decide (sel = 1)) && decide (cmd ≠ bits 3) && decide (cmd ≠ bits 5)

/-- Whether a start breaks R816. -/
def spaHeldBad (m : Core) (v : Word) : Bool :=
  match m.spi.held with
  | none => bit v 2
  | some s => !bit v 2 || decide (s ≠ fld v 5 4)

/-- Whether SPB_SEL_N is asserted or a master transfer runs (R832, R912). -/
def spbBusy (m : Core) : Bool := m.spi.spbSel || m.spi.spbFrame.isSome

/-- Whether a write breaks a rule of state with WRONG_STATE. -/
def wrongState (m : Core) (w : Who) (a : Nat) (v : Word) : Bool :=
  match a with
  | 0x1C => m.cfg.startedCold
  | 0x20 => m.cfg.startedCold
  | 0x1000 => m.cfg.startedCold
  | 0x44 => bit v 0 && m.cfg.startedWarm
  | 0x404 => m.cfg.startedWarm
  | 0x1030 => decide (sparesLeft m (spareRow v) = 0)
  | 0x1400 => bit v 0 && !m.ca.invDone
  | 0x1408 => hlcOn m
  | 0x1800 => m.mem.cfgFrozen || decide (role m = 1)
  | 0x1804 => decide (channels m = 0) || decide (role m = 1)
  | 0x1840 => m.mem.everReady || m.mem.warmSeen || decide (role m = 1)
  | 0x2020 => decide (m.fab.sm ≠ .master)
  | 0x2048 => bit v 0 && (decide (m.fab.cplState = 1) || decide (m.fab.cplState = 2))
  | 0x2800 => dmtOn m && (changes m a v 7 0)
  | 0x2804 => dmtOn m && changes m a v 31 0
  | 0x2808 => dmtOn m && changes m a v 31 0
  | 0x2810 => !dmtOn m || decide (m.dmt.stage = 2)
  | 0x2C00 => (m.jnl.searching || m.jnl.searched) && changes m a v 2 0
  | 0x30A0 => rbit m 0x30A0 0 && changes m a v 1 1
  | 0x30A4 => rbit m 0x30A0 0
  | 0x30A8 => rbit m 0x30A0 0
  | 0x30AC => rbit m 0x30A0 0
  | 0x30B0 => rbit m 0x30A0 0
  | 0x3810 => bit v 0 && (spaGuarded m v || spaHeldBad m v)
  | 0x3840 => changes m a v 0 0 && decide (w.mid = 6)
  | 0x3844 => bit v 0 && !rbit m 0x3840 0
  | _ =>
    if inBlock 0x800 16 a then
      let p := (a - 0x800) / 4
      (linkUp m p && (changes m a v 8 8 || changes m a v 4 4 || changes m a v 1 0)) || (decide (p < 8) && changes m a v 8 8 && linkUp m (p + 8))
    else if 0x2480 ≤ a ∧ a < 0x2500 then
      let t := (a - 0x2480) / 32
      match a % 32 with
      | 0 => changes m a v 0 0 && targetBusy m t
      | 20 => !eoiOk m t (fld v 7 0)
      | 24 => !completeOk m t (fld v 7 0)
      | _ => false
    else match winOfCmd a with
      | some i => winWrongState m i (winPend m i v)
      | none => false

/-- Whether a write meets a busy unit with BUSY. -/
def unitBusy (m : Core) (a : Nat) (v : Word) : Bool :=
  match a with
  | 0x44 => bit v 0 && (decide (m.boot.loading ≠ 0) || m.boot.applying)
  | 0x404 => decide (m.cfg.check ≠ .idle) || m.cfg.drain || m.cfg.copying
  | 0x408 => bit v 0 && setBusy m
  | 0x1030 => m.deck.copying.isSome
  | 0x1408 => m.ca.invRunning
  | 0x1800 => m.mem.training
  | 0x1804 => m.mem.training
  | 0x1840 => m.mem.training
  | 0x2020 => decide (m.fab2.thrPhase = 1) || decide (m.fab2.thrPhase = 2) || m.fab.admitting.isSome
  | 0x3810 => bit v 0 && (m.spi.spaFrame.isSome || (decide (fld v 5 4 = 2) && (decide (m.boot.loading ≠ 0))))
  | 0x3840 => (changes m a v 0 0 || changes m a v 5 4 || changes m a v 13 8 || changes m a v 23 16) && spbBusy m
  | 0x3844 => bit v 0 && m.spi.spbFrame.isSome
  | _ =>
    if inBlock 0x3820 8 a then m.spi.spaFrame.isSome
    else if inBlock 0x3860 8 a then m.spi.spbFrame.isSome
    else match winOfCmd a with
      | some i => winBusy m i (winPend m i v)
      | none => match winOfDin a with
        | some i => match (winOf m i).pend with
          | some p => p.write
          | none => false
        | none => false

/-! ### Reserved bits, ranges and outcomes (checks 9, 10 and 12) -/

/-- Whether a written value, or the entry of a window command, holds a nonzero reserved bit (R12, R604). -/
def reservedBad (m : Core) (a : Nat) (r : RegDesc) (v : Word) : Bool :=
  decide (v.toNat &&& r.maskOf (fun _ => true) ≠ v.toNat) ||
    (match winOfCmd a with
      | some i => (decide (i ≠ .cfg) && decide (i ≠ .fab) && decide (fld v 25 22 ≠ 0))
          || (cmdWrite v && entryReserved (entryMask i (fld v 25 22)) (winPend m i v).words)
      | none => false)

/-- Whether a field that a write sets lies outside the range that the tables state (R13). -/
def fieldBad (r : RegDesc) (v : Word) : Bool :=
  r.fields.any fun f => match f.range with
    | some (lo, hi) => decide (f.acc ≠ .ro) && (decide (fld v f.hi f.lo < lo) || decide (hi < fld v f.hi f.lo))
    | none => false

/-- The ranges that the rules state beside the tables. -/
def ruleBad (m : Core) (a : Nat) (v : Word) : Bool :=
  match a with
  | 0x1000 => (match role m with
    | 0 => decide (fld v 3 0 ≠ 8)
    | 1 => decide (fld v 3 0 ≠ 0)
    | _ => decide (fld v 3 0 = 0) || decide (7 < fld v 3 0))
  | 0x1800 => !([0, 1, 2, 4, 8].contains (fld v 3 0))
  | 0x1840 => decide (channels m ≤ (pprRow v).ch) || (decide ((pprRow v).rank = 1) && !rbit m 0x1800 7)
      || (decide (2 ^ 16 ≤ (pprRow v).row) && !rbit m 0x1800 6)
  | 0x2030 => decide (fld v 2 0 = 0) || decide (3 < fld v 2 0)
  | 0x3810 => bit v 0 && decide (1152 < fld v 13 8 * fld v 19 16 * 2 * (spaDiv m (fld v 5 4) + 1))
  | _ =>
    if 0x3480 ≤ a ∧ a < 0x3680 ∧ a % 32 = 0 then
      decide (fld v 7 0 ≠ 4) && decide (fld v 7 0 ≠ 5) && decide (fld v 15 8 ≠ 0)
    else if 0x3480 ≤ a ∧ a < 0x3680 ∧ a % 32 = 4 then decide (fld v 31 16 < fld v 15 0)
    else match winOfCmd a with
      | some i => winOutOfRange i (winPend m i v)
      | none => false

/-- The fields of a FAB.SLOT_EDIT value (R557): slot, op and the entry it gives. -/
def editFields (v : Word) : Nat × Nat × SlotEnt :=
  (fld v 31 24, fld v 2 0, { cls := v.extractLsb' 5 3, junction := bit v 4, member := bit v 3, status := .live
                             node := v.extractLsb' 8 16 })

/-- The outcome checks of Table FAB-5. -/
def outcomeCode (m : Core) (a : Nat) (v : Word) : Nat :=
  if a = 0x2030 then
    match (slotEdit m (editFields v).1 (editFields v).2.1 (editFields v).2.2).1 with
    | .rejected c => c
    | .done _ => 0
  else 0

/-- The code with which a write is rejected, 0 where it is accepted: the first check of Table CTL-7 that it fails
(R972). The check of a throw comes later (R622). -/
def writeCode (m : Core) (w : Who) (a : Nat) (v : Word) : Nat :=
  if w.lmb && decide (6 ≤ w.mid) then 4
  else match regAt a with
  | none => 0xA
  | some r =>
    if !mayWrite m w a then 4
    else if inSoftReset m a || (m.boot.applying && !w.boot) then 6
    else if writeReadOnly m w a r then 9
    else if r.hasRwl && rbit m 0x2C 0 then 3
    else if (match winOfCmd a with
      | some i => indexBad i (winPend m i v)
      | none => false) then 0xB
    else if wrongState m w a v then 5
    else if unitBusy m a v then 6
    else if reservedBad m a r v then 1
    else if fieldBad r v || ruleBad m a v then 2
    else if a = 0x2810 && !(serviceKey m w.mid w.node v w.late).2 then 7
    else outcomeCode m a v

/-- The code with which a read is rejected, 0 where it is accepted. -/
def readCode (m : Core) (w : Who) (a : Nat) : Nat :=
  if w.lmb && decide (6 ≤ w.mid) then 4
  else if (regAt a).isNone then 0xA
  else if !mayRead m w a then 4
  else 0

/-! ### The reject record (R598 to R600, R635, R707) -/

/-- A rejected access is recorded. -/
def recordReject (m : Core) (w : Who) (read : Bool) (a code : Nat) : Core :=
  let r := word [(24, code), (21, if w.boot then 0 else w.mid), (20, b1 w.boot), (19, b1 read), (0, a)]
  let m := rinc (rset m 0x30 r) 0x38 1
  let m := if rfld m 0x34 31 24 = 0 then rset m 0x34 r else m
  let m := if w.boot && !read then rsetf m 0x40 15 0 (min (rfld m 0x40 15 0 + 1) 0xFFFF) else m
  let m := if code = 7 then (serviceKey m w.mid w.node 0 true).1 else m
  if code = 4 && a = 0x2810 then serviceRefused m w.mid w.node else m

/-! ### Accepted writes -/

/-- A register after a write of its fields by their access types (Table SCP-3). -/
def storeFields (r : RegDesc) (old v : Word) : Word :=
  let msk (p : FieldDesc → Bool) : Word := BitVec.ofNat 32 (r.maskOf p)
  let rw := msk fun f => decide (f.acc = .rw) || decide (f.acc = .rwl)
  ((old &&& ~~~rw) ||| (v &&& rw)) &&& ~~~(v &&& msk fun f => decide (f.acc = .w1c))
    ||| (v &&& msk fun f => decide (f.acc = .w1s))

/-- The x4 or x8 defaults loaded into the allotments of a port (R251). -/
def loadDefaults (x8 : Bool) (p : Nat) (c : CfgSet) : CfgSet :=
  { c with allot := (List.range 12).foldl (fun t v =>
      tput (defaultAllot (decide (p < 8)) v) t (12 * p + v) (defaultAllot x8 v)) c.allot }

/-- A change of a port's bifurcate bit loads its defaults in both sets (R251). -/
def bifurcate (m : Core) (p : Nat) (on : Bool) : Core :=
  let f (c : CfgSet) : CfgSet := if on then loadDefaults false (p + 8) (loadDefaults false p c) else loadDefaults true p c
  modCfg m fun c => { c with set0 := f c.set0, set1 := f c.set1 }

/-- An accepted write to GEN.ROLE (R23, R431). -/
def setRole (m : Core) (r : Nat) : Core :=
  let m := rset m 0x1000 (if r = 0 then 8 else if r = 1 then 0 else 4)
  modMem m fun x => { x with
    ready := decide (r = 1), training := false, trainFail := if r = 1 then x.trainFail else 0
    everReady := x.everReady || decide (r = 1), cfgFrozen := decide (r = 1) }

/-- The HLC is disabled: the earlier reads, those that wait for a miss register too, install nothing (R402, R403), and no
prefetch is made (R398). -/
def hlcDisable (m : Core) : Core :=
  modCa m fun c => { c with
    invDone := false, miss := c.miss.map fun x => (x.1, { x.2 with fill := false })
    missWait := (c.missWait.filter fun w => decide (w.reader ≠ .prefetch)).map fun w => { w with install := false } }

/-- A soft reset of block `j` begins (R404, R683, R760, R841, R916, R917, R920). -/
def softReset (m : Core) (j : Nat) : Core :=
  let m := rsetf m 0x3C30 (8 + j) (8 + j) 1
  match j with
  | 0 =>
    modCa (rsetf m 0x1400 0 0 0) fun c => { c with siding := [], streams := [], invRunning := false, invDone := false }
  | 1 =>
    let m := modEic m fun x => { x with st := [], stack := [], evinKnown := [], evin := [] }
    eicUpdate m
  | 2 => modPmc (dumpAbandon (rsetf m 0x30A0 0 0 0)) fun p => { p with ctr := [] }
  | _ =>
    let m := if m.spi.held.isSome then rsetf m 0x3814 2 2 1 else m
    let m := rsetf m 0x3840 0 0 0
    let m := (List.range 8).foldl (fun m k => rset (rset m (0x3820 + 4 * k) 0) (0x3860 + 4 * k) 0) m
    let m := { m with spi := { m.spi with
      own := 0, held := none, spaFrame := none, spbFrame := none, spbBlocked := m.spi.spbSel, miso := none } }
    spaCall (cutWrite m)

/-- A slot edit written to FAB.SLOT_EDIT (R557 to R559); `g` is the `CFG` that carries it. -/
def editWrite (m : Core) (v : Word) (g : Option Msg) : Core :=
  let f := editFields v
  let r := slotEdit m f.1 f.2.1 f.2.2
  match r.1, g with
  | .done true, some x =>
    if f.2.1 = 1 then r.2
    else modFab2 r.2 fun b => { b with pendCmp := b.pendCmp ++ [(f.1, f.2.1, x.src, x.tag, x.epoch)] }
  | _, _ => r.2

/-- One half of a live counter written (R613). -/
def viewWrite (m : Core) (w : Who) (a : Nat) (v : Word) : Core :=
  let i := if a < 0x3060 then (a - 0x3040) / 4 else (a - 0x3060) / 4
  let k := 8 * viewGroup m w.mid + i
  let c := tget 0 m.pmc.ctr k
  let c := if a < 0x3060 then c / 2 ^ 32 * 2 ^ 32 + v.toNat else fld v 15 0 * 2 ^ 32 + c % 2 ^ 32
  modPmc m fun p => { p with ctr := tput 0 p.ctr k c }

/-- A frame that SPA.CTL or SPB.CTL describes. -/
def frameOf (v : Word) (sel : Nat) : SpiFrame :=
  { sel := sel, unitLen := fld v 13 8, units := fld v 19 16, hold := bit v 1, cont := bit v 2 }

/-- What an accepted write to an EIC target's register `k` does beyond storing its fields. -/
def targetWrite (m : Core) (w : Who) (t k : Nat) (v : Word) : Core :=
  match k with
  | 0 => eicUpdate m
  | 4 => eicUpdate m
  | 12 => if bit v 0 then claim m t w.mid else m
  | 20 => eoi m t (fld v 7 0)
  | 24 => completeSrc m (fld v 7 0)
  | _ => m

/-- What an accepted write to a level mark's register `k` does beyond storing its fields. -/
def markWrite (m : Core) (n k : Nat) (v : Word) : Core :=
  match k with
  | 0 => lmReset m n
  | 4 => lmReset m n
  | 8 =>
    let x := lmOf m n
    let x := { x with up := x.up && !bit v 30, down := x.down && !bit v 29 }
    modWhs m fun w => { w with lm := tput {} w.lm n x }
  | 16 => if bit v 0 then lmClear m n else m
  | _ => m

/-- What an accepted write does beyond storing its fields; `old` is the machine before it. A write of 1 to
CFG.THROW.start begins its check here (R622). -/
def writeAction (old m : Core) (w : Who) (g : Option Msg) (a : Nat) (v : Word) : Core :=
  match a with
  | 0x1C => setRole m (fld v 1 0)
  | 0x20 => rsetf m 0x20 31 31 1
  | 0x3C => if bit v 0 then rset (rset m 0x34 0) 0x38 0 else m
  | 0x44 => if bit v 0 then spaCall { rset m 0x40 0 with
      boot := { m.boot with loading := 1, read := [], cut := false, ended := false, warm := false, recs := [] } } else m
  | 0x404 => if bit v 0 then modCfg m fun c => { c with check := .throwCmd, thrAcc := some (w.mid, w.boot, g) } else m
  | 0x408 => if bit v 0 then modCfg m fun c => { c with copying := true, copyDone := false } else m
  | 0x1008 => walkOrder m .clear (fld v 7 0)
  | 0x1030 => spareStart m (spareRow v)
  | 0x1400 => if hlcOn old && !bit v 0 then hlcDisable m else m
  | 0x1408 => if bit v 0 then modCa m fun c => { c with invDone := false, invRunning := true } else m
  | 0x1804 => if bit v 0 then modMem m fun x => { x with training := true, trainFail := 0 } else m
  | 0x1840 => repairStart m (pprRow v) true
  | 0x2020 => if bit v 0 then throwBegin m else m
  | 0x2030 => editWrite m v g
  | 0x2048 => if bit v 0 && m.fab.termValid then sendCpl m false else m
  | 0x2448 => raise m (fld v 7 0)
  | 0x2800 => if !dmtOn old && bit v 0 then modDmt m fun d => { d with count := rget m 0x2804 } else m
  | 0x2810 => (serviceKey m w.mid w.node v w.late).1
  | 0x2C04 =>
    let m := if bit v 0 then restoreDev m false else m
    if bit v 1 then restoreDev m true else m
  | 0x2C80 => softRecord m (fld v 3 0)
  | 0x2CA0 => tailLatch m (fld v 3 0)
  | 0x3088 => if bit v 0 then modPmc m fun p => { p with capDue := true } else m
  | 0x30A0 => if !rbit old 0x30A0 0 && bit v 0 then rset (rset (rset m 0x30BC 0) 0x30C0 0) 0x30C4 0 else m
  | 0x3400 => if bit v 0 then whistleTrigger m else m
  | 0x3404 =>
    let m := if bit v 0 then modWhs m fun x => { x with armed := true } else m
    if bit v 2 then modWhs m fun x => { x with missed := 0 } else m
  | 0x3810 =>
    let m := if bit v 3 then { m with spi := { m.spi with held := none } } else m
    if bit v 0 then spaCall { m with spi := { m.spi with spaFrame := some (frameOf v (fld v 5 4)) } } else m
  | 0x3844 =>
    let m := if bit v 4 then rsetf m 0x3848 15 0 0 else m
    if bit v 0 then { m with spi := { m.spi with spbFrame := some (frameOf v (fld v 1 1)) } } else m
  | 0x3C34 => (List.range 4).foldl (fun m j => if bit v j then softReset m j else m) m
  | _ =>
    if inBlock 0x800 8 a then
      (if changes old a v 8 8 then bifurcate m ((a - 0x800) / 4) (bit v 8) else m)
    else if inBlock 0x900 16 a then
      (if bit v 0 && !rbit old a 0 then clearLink m ((a - 0x900) / 4) .down else m)
    else if inBlock 0x2400 8 a then clearPending m ((a - 0x2400) / 4) v
    else if 0x2480 ≤ a ∧ a < 0x2500 then targetWrite m w ((a - 0x2480) / 32) (a % 32) v
    else if inBlock 0x2500 16 a then
      let n := (a - 0x2500) / 4
      evinDrop (modEic m fun x => { x with evinKnown := tput false x.evinKnown n false }) n
    else if isView a then viewWrite m w a v
    else if 0x3480 ≤ a ∧ a < 0x3680 then markWrite m ((a - 0x3480) / 32) (a % 32) v
    else match winOfCmd a with
      | some i => winAccept m i (winPend m i v)
      | none => m

/-- The machine with the result of an LMB access. -/
def setLmb (m : Core) (r : AccRes) : Core := { m with lmb := r }

/-- The result of an access. -/
def accOk (d : Word) : AccRes := ⟨true, 0, d⟩

/-- The result of a rejected access: a rejected read returns zero (R595). -/
def accRej (code : Nat) : AccRes := ⟨false, BitVec.ofNat 8 code, 0⟩

/-- The machine with the fields of a written register set by their access types. -/
def storeWrite (m : Core) (a : Nat) (v : Word) : Core :=
  match regAt a with
  | some r => rset m a (storeFields r (rget m a) v)
  | none => m

/-- A register write (R10 to R16, R593, R972). No result stands yet for an accepted CFG.THROW start, which completes when
its check ends (R594). -/
def regWrite (m : Core) (w : Who) (g : Option Msg) (a : Nat) (v : Word) : Option AccRes × Core :=
  let c := writeCode m w a v
  if c ≠ 0 then (some (accRej c), recordReject m w false a c) else
    (if a = 0x404 && bit v 0 then none else some (accOk 0), writeAction m (storeWrite m a v) w g a v)

/-- What an accepted read returns, and the machine after it (R606, R611, R612, R762, R879, R916). -/
def readValue (m : Core) (w : Who) (a : Nat) : Word × Core :=
  if inSoftReset m a then (regReset a, m)
  else if isView a then
    if a < 0x3060 then
      let k := 8 * viewGroup m w.mid + (a - 0x3040) / 4
      let c := match viewSource m w.mid with
        | 0 => tget 0 m.pmc.ctr k
        | 1 => tget 0 m.pmc.capP k
        | _ => tget 0 m.pmc.capW k
      (BitVec.ofNat 32 c, { m with hold := tput 0 m.hold w.mid (BitVec.ofNat 32 (c / 2 ^ 32)) })
    else (tget 0 m.hold w.mid, m)
  else if a = 0x2018 then
    (m.time.extractLsb' 0 32, { m with timeHold := tput 0 m.timeHold w.mid (m.time.extractLsb' 32 32) })
  else if a = 0x201C then (tget 0 m.timeHold w.mid, m)
  else match winOfRes a with
    | some i => (winResult m i ((a - (winRes i).1) / 4), m)
    | none => (regValue m a, m)

/-- A register read. -/
def regRead (m : Core) (w : Who) (a : Nat) : AccRes × Core :=
  let c := readCode m w a
  if c ≠ 0 then (accRej c, recordReject m w true a c) else
    let r := readValue m w a
    (accOk r.1, r.2)

/-- An LMB write (R587, R594): LMB_ERR_N and its code stand in `lmb` when the access completes. -/
def lmbWrite (a : Lmb) (addr : Nat) (v : Word) (m : Core) : Core :=
  let r := regWrite m (lmbWho a) none addr v
  match r.1 with
  | some x => setLmb r.2 x
  | none => r.2

/-- An LMB read. -/
def lmbRead (a : Lmb) (addr : Nat) (m : Core) : Core :=
  let r := regRead m (lmbWho a) addr
  setLmb r.2 r.1

/-- The word of a window command (Table RGF-1). -/
def cmdWord (write : Bool) (c : WinCmd) : Word :=
  word [(31, b1 write), (30, b1 c.set), (26, c.seq.toNat), (22, c.table.toNat), (0, c.index.toNat)]

/-- The word of a slot edit (R557). -/
def slotEditWord (f : SlotEdit) (op : Nat) : Word :=
  word [(24, f.slot.toNat), (8, f.node.toNat), (5, f.cls.toNat), (4, b1 f.junction), (3, b1 f.member), (0, op)]

end Sys2Proof.Machine
end

