-- ==== Sys2Proof/Machine/Paths.lean ====
section
/-! DEFINITION. The other ways to a register (spec/12_control_plane.md, spec/16_serial_ports.md): `CFG` messages with
their queue (R590, R591, R596, R646, R981), SPB slave frames (R820 to R829), the end of a throw check (R594, R622 to
R624), and the image loader (R632 to R639). -/

namespace Sys2Proof.Machine

/-- The machine with its serial ports changed. -/
def modSpi (m : Core) (f : Spi → Spi) : Core := { m with spi := f m.spi }

/-- The machine with its image loader changed. -/
def modBoot (m : Core) (f : Boot → Boot) : Core := { m with boot := f m.boot }

/-! ### CFG messages -/

/-- Whether a valid entry of the `CFG` allow list names a node (R590). -/
def cfgAllowed (m : Core) (n : NodeId) : Bool :=
  (List.range 16).any fun i => rbit m (0x420 + 4 * i) 31 && decide (rfld m (0x420 + 4 * i) 15 0 = n.toNat)

/-- The message leaves its virtual-channel buffer. -/
def leaveVc (m : Core) (i : InMsg) : Core := if i.slots then freeSlots m i.port i.vc (slotsOf i.msg) else m

/-- The `CFG` messages of the inbox are judged in arrival order, each at the head of its virtual-channel buffer: a
denied one is answered at once, an allowed one enters the queue of 16 or waits (R590, R591, R646, R981). `blocked`
holds the ports and channels whose head waits. -/
def cfgJudge (blocked : List (Nat × Nat)) : List InMsg → Core → List InMsg × Core
  | [], m => ([], m)
  | i :: r, m =>
    if i.msg.op ≠ .cfg || blocked.contains (i.port, i.vc) then
      let t := cfgJudge blocked r m
      (i :: t.1, t.2)
    else if !cfgAllowed m i.msg.src then cfgJudge blocked r (sendErr (leaveVc m i) i.msg errDenied)
    else if m.cfgq.length < 16 then
      cfgJudge blocked r { leaveVc m i with cfgq := m.cfgq ++ [⟨i.port, i.msg⟩] }
    else
      let t := cfgJudge ((i.port, i.vc) :: blocked) r m
      (i :: t.1, t.2)

/-- Every `CFG` that waits is judged. What the answers deliver to Jalair itself stands behind what stays. -/
def cfgAdmit (m : Core) : Core :=
  let t := cfgJudge [] m.inbox { m with inbox := [] }
  { t.2 with inbox := t.1 ++ t.2.inbox }

/-- The answer to a `CFG` (R15, R591, R596). -/
def cfgAnswer (m : Core) (x : Msg) (r : AccRes) : Core :=
  if !r.ok then sendErr m x (0x40 + r.code.toNat)
  else if x.status = 0 then
    sendReply m { op := .cmp, dest := x.src, tag := x.tag, line := x.line, epoch := x.epoch, status := 1
                  data := bePut r.data.toNat 0 4 }
  else sendCmp m x

/-- The access of a `CFG` (R587). -/
def cfgWho (x : Msg) : Who := { mid := 7, priv := true, node := x.src }

/-- Whether the access of a `CFG` waits for its throw check (R594). -/
def cfgWaits (m : Core) : Bool :=
  match m.cfg.thrAcc with
  | some (_, _, some _) => true
  | _ => false

/-- The `CFG` at the head of the queue is performed and answered, if it is of the kind named (R591). A slot edit that
sends its `CMP` later (R559) and a throw that is being checked (R594) are not answered yet. -/
def cfgPerform (write : Bool) (m : Core) : Core :=
  match m.cfgq with
  | [] => m
  | a :: q =>
    let x := a.msg
    if decide (x.status = 2) != write || cfgWaits m then m else
      let m : Core := { m with cfgq := q }
      if write then
        let r := regWrite m (cfgWho x) (some x) x.aux.toNat (BitVec.ofNat 32 (beAt x.data 0 4))
        match r.1 with
        | none => r.2
        | some y =>
          if m.fab2.pendCmp.length < r.2.fab2.pendCmp.length then r.2 else cfgAnswer r.2 x y
      else
        let r := regRead m (cfgWho x) x.aux.toNat
        cfgAnswer r.2 x r.1

/-! ### SPB slave frames (R820 to R829) -/

/-- An SPB access (R587, R830). -/
def spbWho (m : Core) : Who := { mid := 6, priv := rbit m 0x3848 31 }

/-- Whether SPB recognises a frame: in the slave role, and not after a mode fault or a reset until SPB_SEL_N has been
deasserted (R833, R838). -/
def spbSlave (m : Core) : Bool := !rbit m 0x3840 0 && !m.spi.spbBlocked

/-- The response of a frame: its status unit and data unit (Table SPI-3). -/
def spbRespond (m : Core) (st : BitVec 4) (d : Word) : Core :=
  let m := modSpi m fun s => { s with spbSel := true, spbStatus := st, spbData := d }
  if st = 0b1010 || st = 0b0110 then tally .spi 3 1 m else m

/-- A response of busy (R822). -/
def spbBusyResp (m : Core) : Core := spbRespond m 0b0110 0x66666666

/-- The response that a result gives. -/
def spbResult (m : Core) (r : AccRes) : Core :=
  if r.ok then spbRespond m 0b1001 r.data else spbRespond m 0b1010 (r.code.setWidth 32)

/-- The response after an access: busy while it is pending or where its result is not available in time (R822). -/
def spbAnswer (m : Core) (ready : Bool) : Core :=
  match m.spi.spbLast with
  | some r => if m.spi.spbWait || !ready then spbBusyResp m else spbResult m r
  | none => spbRespond m 0b1010 5

/-- The low `n` bits of a number as SPB shifts them, the most significant first. -/
def spbBits (n v : Nat) : List Bool := (List.range n).map fun i => v.testBit (n - 1 - i)

/-- A frame of `req` request bits whose turn began as SPB.CFG stood in `old` drives SPB_MISO: zero in the request phase and
the turn, then its status unit and its data unit (R821, R827, R912). -/
def spbDrive (old : Core) (req : Nat) (m : Core) : Core :=
  modSpi m fun s => { s with
    miso := some (List.replicate (req + rfld old 0x3840 13 8) false ++ spbBits 4 s.spbStatus.toNat ++ spbBits 32 s.spbData.toNat) }

/-- A frame of `req` request bits that SPB recognises runs `f`; in the master role nothing is served, and a frame that is
not recognised reads 0b0000 (R833, R838). -/
def spbFrame (m : Core) (req : Nat) (f : Core → Core) : Core :=
  if rbit m 0x3840 0 then m
  else if m.spi.spbBlocked then spbDrive m req (modSpi m fun s => { s with spbSel := true, spbStatus := 0, spbData := 0 })
  else spbDrive m req (f m)

/-- An access is submitted unless the previous one is pending (R825). -/
def spbAccess (m : Core) (req : Nat) (ready : Bool) (f : Core → Core) : Core :=
  spbFrame m req fun m => if m.spi.spbWait then spbBusyResp m else spbAnswer (f m) ready

/-- One write over SPB: its result stands, or the access waits for its throw check. -/
def spbPut (m : Core) (a : Nat) (v : Word) (late : Bool) : Core :=
  let r := regWrite m { spbWho m with late := late } none a v
  modSpi r.2 fun s => { s with spbLast := some (r.1.getD (accOk 0)), spbWait := s.spbWait || r.1.isNone }

/-- The two writes of a PAIR: the second only where the first is not rejected (R826). -/
def spbPair (m : Core) (a : Nat) (v1 v2 : Word) (late : Bool) : Core :=
  let m := spbPut m a v1 false
  match m.spi.spbLast with
  | some r => if r.ok then spbPut m a v2 late else m
  | none => m

/-- SPB_FRAME_END: SPB_SEL_N deasserts, and SPB drives SPB_MISO no longer (R827 to R829, R838). A frame cut short or of an
unknown command performs nothing and is counted. -/
def spbFrameEnd (m : Core) (e : FrameEnd) : Core :=
  if rbit m 0x3840 0 then m else
    let slave := spbSlave m
    let m := modSpi m fun s => { s with spbSel := false, spbBlocked := false, spbStatus := 0, spbData := 0, miso := none }
    if !slave then m else
      let m := tally .spi 2 1 m
      match e with
      | .whole => m
      | _ =>
        raise (rsetf m 0x3848 15 0 (min (rfld m 0x3848 15 0 + 1) 0xFFFF)) 163

/-! ### The end of a throw check (R594, R622, R624) -/

/-- The result of a CFG.THROW write reaches its master. -/
def throwResult (m : Core) (mid : Nat) (boot : Bool) (g : Option Msg) (r : AccRes) : Core :=
  match g with
  | some x => cfgAnswer m x r
  | none =>
    if boot then m
    else if mid = 6 then
      modSpi m fun s => { s with spbLast := if r.ok then s.spbLast else some r, spbWait := false }
    else setLmb m r

/-- THROW_CHECK_DONE: a passed check flips the epoch, a failed one rejects the write (R622, R624). -/
def throwCheckDone (m : Core) : Core :=
  if m.cfg.check ≠ .throwCmd then m else
    let res := throwCheck m
    let acc := m.cfg.thrAcc
    let m := modCfg (recordCheck m res) fun c => { c with check := .idle, thrAcc := none }
    match acc with
    | none => if res.isNone then flip m else m
    | some (mid, boot, g) =>
      if res.isNone then throwResult (flip m) mid boot g (accOk 0)
      else throwResult (recordReject m { mid := mid, priv := true, boot := boot } false 0x404 8) mid boot g (accRej 8)

/-! ### The Kalpor image (R632 to R639) -/

/-- The number in `n` bytes from byte `i` on, most significant first; a byte beyond the list counts as zero. -/
def imgAt (bs : List Byte) (i n : Nat) : Nat :=
  ofBytes ((List.range n).map fun j => ((bs[i + j]?).getD 0).toNat)

/-- Bytes `i` to `i + n - 1` as numbers. -/
def imgBytes (bs : List Byte) (i n : Nat) : List Nat := (List.range n).map fun j => ((bs[i + j]?).getD 0).toNat

/-- The register records of a section from byte `i` to byte `e`; an undefined record ends them (assumption log, entry
17). The last argument bounds their number. -/
def imgRegs (bs : List Byte) (i e : Nat) : Nat → List ImgRec
  | 0 => []
  | n + 1 =>
    if imgAt bs i 1 = 1 && i + 8 ≤ e then
      .write (BitVec.ofNat 16 (imgAt bs (i + 2) 2)) (BitVec.ofNat 32 (imgAt bs (i + 4) 4)) :: imgRegs bs (i + 8) e n
    else if imgAt bs i 1 = 2 && i + 16 ≤ e then
      .poll (imgAt bs (i + 1) 1) (BitVec.ofNat 16 (imgAt bs (i + 2) 2)) (BitVec.ofNat 32 (imgAt bs (i + 4) 4))
        (BitVec.ofNat 32 (imgAt bs (i + 8) 4)) :: imgRegs bs (i + 16) e n
    else []

/-- The words of an entry of a configuration table (Table RGF-4). -/
def cfgWords (table : Nat) : Nat :=
  match table with
  | 1 => 4
  | 4 => 22
  | _ => 1

/-- A table-load section of the bytes from `i` to `e` (Table CTL-5). -/
def imgTable (bs : List Byte) (i e : Nat) : ImgRec :=
  let t := imgAt bs i 1
  let w := cfgWords t
  let n := min (imgAt bs (i + 2) 2) ((e - (i + 8)) / (4 * w))
  .table t (imgAt bs (i + 1) 1) (imgAt bs (i + 4) 4)
    ((List.range n).map fun k => (List.range w).map fun j => BitVec.ofNat 32 (imgAt bs (i + 8 + 4 * (w * k + j)) 4))

/-- A node plan of the bytes from `i` to `e`. -/
def imgPlan (bs : List Byte) (i e : Nat) : ImgRec :=
  .plan ((List.range (min 256 ((e - i) / 4))).map fun k =>
    (BitVec.ofNat 8 (imgAt bs (i + 4 * k) 1), BitVec.ofNat 6 (imgAt bs (i + 4 * k + 1) 1), BitVec.ofNat 16 (imgAt bs (i + 4 * k + 2) 2)))

/-- The sections of a copy from byte `i` on, `n` of them left, `plan` saying whether a node plan has come: the records
to apply, or the first check that fails (R633, GEN.BOOT_STATUS). -/
def imgSections (bs : List Byte) (len : Nat) (i : Nat) (plan : Bool) : Nat → Except Nat (List ImgRec)
  | 0 => .error 7
  | n + 1 =>
    let t := imgAt bs i 1
    let l := imgAt bs (i + 2) 2
    let e := i + 8 + l
    if l % 4 ≠ 0 || len < e || !([1, 2, 3, 255].contains t) then .error 6
    else if crc32c 0xFFFFFFFF (imgBytes bs (i + 8) l) ≠ imgAt bs (i + 4) 4 then .error 5
    else if t = 255 then (if n = 0 then .ok [.fin] else .error 7)
    else if t = 3 && plan then .error 8
    else match imgSections bs len e (plan || decide (t = 3)) n with
      | .error c => .error c
      | .ok r => .ok ((if t = 1 then imgRegs bs (i + 8) e l else if t = 2 then [imgTable bs (i + 8) e]
          else [imgPlan bs (i + 8) e]) ++ r)

/-- A copy as it was read: its records, or its first failed check (R632, R633). -/
def imgCheck (bs : List Byte) : Except Nat (List ImgRec) :=
  if imgAt bs 0 4 ≠ 0x4B4C5052 then .error 1
  else if imgAt bs 4 2 ≠ 1 then .error 2
  else if imgAt bs 8 4 < 32 || 65536 < imgAt bs 8 4 then .error 3
  else if crc32c 0xFFFFFFFF (imgBytes bs 0 28) ≠ imgAt bs 28 4 then .error 4
  else imgSections bs (imgAt bs 8 4) 32 false (imgAt bs 6 2)

/-- The BOOT record of a load (Table DMJ-6). -/
def bootRecord (m : Core) (sev : Nat) : Core :=
  let s := rget m 0x40
  journal m 3 sev (payload [(32, m.boot.serial.toNat), (8, fld s 31 30), (8, fld s 23 20), (8, fld s 19 16), (16, fld s 15 0)])

/-- The identity event (R514). -/
def noIdentity (m : Core) : Core :=
  journal (raise m 24) 0x14 2 (payload [(8, 3), (16, 0), (8, m.pins.straps.chassis.toNat), (8, m.pins.straps.slot.toNat)])

/-- The load ends. Without a node plan no entry has matched (R514). -/
def loadEnd (m : Core) : Core :=
  let m := if m.boot.planned || m.boot.warm || rbit m 0x20 31 then m else noIdentity m
  modBoot m fun b => { b with loading := 0, applying := false, recs := [], planned := false, ended := true }

/-- A copy that has been read whole is validated (R633, R637, R638). -/
def imageJudge (m : Core) (bs : List Byte) : Core :=
  let c := m.boot.loading
  match imgCheck bs with
  | .ok rs =>
    let m := rsetf m 0x40 31 30 c
    modBoot m fun b => { b with applying := true, recs := rs, serial := BitVec.ofNat 32 (imgAt bs 12 4) }
  | .error k =>
    if c = 1 then
      let m := rsetf m 0x40 23 20 k
      modBoot (bootRecord (raise m 23) 2) fun b => { b with loading := 2 }
    else loadEnd (bootRecord (raise (rsetf m 0x40 19 16 k) 23) 3)

/-- Whether the loader's read frame ends at its next segment boundary: the journal engine has a frame ready, or PFAIL_N
was recognised (R808). -/
def readEnds (m : Core) : Bool := spaJournal m || m.boot.cut

/-- IMAGE_COPY_READ: the loader's read frame brings `bs`, the bytes of the copy from the next address on. A frame that ends
early brings one segment of 32 bytes, and the loader goes on at the next address (R808); one that reaches the copy's
end completes it. While another engine holds SPA no frame of the loader runs (R807). -/
def imageCopyRead (m : Core) (bs : List Byte) : Core :=
  if m.boot.loading = 0 || m.boot.applying then m else
    let m := spaCall m
    if m.spi.own ≠ 2 then m
    else if readEnds m && decide (32 < bs.length) then
      spaBoundary (modBoot m fun b => { b with read := b.read ++ bs.take 32, cut := false })
    else spaBoundary (imageJudge (modBoot m fun b => { b with read := [], cut := false }) (m.boot.read ++ bs))

/-- Whether the loader waits for a throw check that one of its own writes began (R594). -/
def loaderWaits (m : Core) : Bool :=
  match m.cfg.thrAcc with
  | some (_, b, _) => b
  | none => false

/-- The record that the loader applies next. -/
def nextRec (m : Core) : Option ImgRec := if m.boot.applying && !loaderWaits m then m.boot.recs.head? else none

/-- The record just applied leaves. -/
def popRec (m : Core) : Core := modBoot m fun b => { b with recs := b.recs.tail }

/-- IMAGE_WRITE_RECORD (R634, R635). -/
def imageWrite (m : Core) : Core :=
  match nextRec m with
  | some (.write a v) => popRec (regWrite m bootWho none a.toNat v).2
  | _ => m

/-- IMAGE_POLL_RECORD: the register is read; the record is left once its masked value equals the record's (R636). -/
def imagePoll (m : Core) : Core :=
  match nextRec m with
  | some (.poll _ a k v) =>
    let r := regRead m bootWho a.toNat
    if r.1.data &&& k = v then popRec r.2 else r.2
  | _ => m

/-- IMAGE_POLL_TIMEOUT (R636). -/
def imagePollTimeout (m : Core) : Core :=
  match nextRec m with
  | some (.poll _ _ _ _) => loadEnd (bootRecord (raise (rsetf m 0x40 29 29 1) 23) 2)
  | _ => m

/-- The code with which a table-load entry is rejected, 0 where it is accepted: the checks that a window command of the
same entry meets, in the order of Table CTL-7. -/
def tableCode (m : Core) (p : WinPend) (raw : List Word) : Nat :=
  if indexBad .cfg p then 0xB
  else if winWrongState m .cfg p then 5
  else if p.set ≠ m.cfg.epoch && setBusy m then 6
  else if raw.any (fun w => decide (fld w 31 27 ≠ 0)) || entryReserved (entryMask .cfg p.table) p.words then 1
  else if winOutOfRange .cfg p then 2
  else 0

/-- One entry of a table load is written to one set (R634, R635). -/
def tablePut (table index : Nat) (raw : List Word) (m : Core) (set : Bool) : Core :=
  let p : WinPend := { seq := 0, write := true, set := set, table := table, index := index, words := raw }
  let c := tableCode m p raw
  if c ≠ 0 then recordReject m bootWho false 0x460 c else
    let m := if set ≠ m.cfg.epoch then modCfg m fun c => { c with copyDone := false } else m
    modSet m set fun c => cfgPut c table index raw

/-- IMAGE_TABLE_LOAD (R634). -/
def imageTable (m : Core) : Core :=
  match nextRec m with
  | some (.table t set first es) =>
    let m := match set with
      | 0 => ((List.range es.length).zip es).foldl (fun m e => tablePut t (first + e.1) e.2 m false) m
      | 1 => ((List.range es.length).zip es).foldl (fun m e => tablePut t (first + e.1) e.2 m true) m
      | 2 => ((List.range es.length).zip es).foldl (fun m e =>
          tablePut t (first + e.1) e.2 (tablePut t (first + e.1) e.2 m false) true) m
      | _ => es.foldl (fun m _ => recordReject m bootWho false 0x460 2) m
    popRec m
  | _ => m

/-- IMAGE_NODE_PLAN (R513, R514); a load after a warm reset skips it (Table BRD-11). -/
def imagePlan (m : Core) : Core :=
  match nextRec m with
  | some (.plan es) =>
    let m := modBoot (popRec m) fun b => { b with planned := true }
    if m.boot.warm then m else
      match es.find? fun e => decide (e.1 = m.pins.straps.chassis) && decide (e.2.1 = m.pins.straps.slot) with
      | some e => rsetf (rsetf m 0x20 15 0 e.2.2.toNat) 0x20 31 31 1
      | none => noIdentity m
  | _ => m

/-- IMAGE_END_SECTION (R634, R742). -/
def imageEnd (m : Core) : Core :=
  match nextRec m with
  | some .fin => loadEnd (bootRecord m (if rfld m 0x40 31 30 = 1 then 1 else 2))
  | _ => m

/-! ### The commands -/

/-- CFG_READ_REQUEST (R591, R596, R981). -/
def execCfgReadRequest (s : State) : Host.Outcome State Fault Refusal := clocked (fun m => cfgPerform false (cfgAdmit m)) s

/-- CFG_WRITE_REQUEST (R591, R981). -/
def execCfgWriteRequest (s : State) : Host.Outcome State Fault Refusal := clocked (fun m => cfgPerform true (cfgAdmit m)) s

/-- CFG_QUEUE_ENTRY (R646, R981). -/
def execCfgQueueEntry (s : State) : Host.Outcome State Fault Refusal := clocked cfgAdmit s

/-- SPB_WRITE (R820, R822). `ready` says whether the result is available at the first edge of the status unit. -/
def execSpbWrite (addr : BitVec 16) (v : Word) (ready : Bool) (s : State) : Host.Outcome State Fault Refusal :=
  clocked (fun m => spbAccess m 56 ready fun m => spbPut m addr.toNat v false) s

/-- SPB_READ (R820, R822). -/
def execSpbRead (addr : BitVec 16) (ready : Bool) (s : State) : Host.Outcome State Fault Refusal :=
  clocked (fun m => spbAccess m 56 ready fun m =>
    let r := regRead m (spbWho m) addr.toNat
    modSpi r.2 fun s => { s with spbLast := some r.1 }) s

/-- SPB_RESULT (R824). -/
def execSpbResult (ready : Bool) (s : State) : Host.Outcome State Fault Refusal :=
  clocked (fun m => spbFrame m 56 fun m => spbAnswer m ready) s

/-- SPB_PAIR (R826). `cycles` is how many MGMT cycles after the first write the second is accepted. -/
def execSpbPair (addr : BitVec 16) (v1 v2 : Word) (cycles : Nat) (ready : Bool) (s : State) : Host.Outcome State Fault Refusal :=
  clocked (fun m => spbAccess m 88 ready fun m => spbPair m addr.toNat v1 v2 (decide (400 < cycles))) s

/-- SPB_FRAME_END (R829). -/
def execSpbFrameEnd (end_ : FrameEnd) (s : State) : Host.Outcome State Fault Refusal := clocked (fun m => spbFrameEnd m end_) s

/-- THROW_CHECK_DONE (R624). -/
def execThrowCheckDone (s : State) : Host.Outcome State Fault Refusal := clocked throwCheckDone s

/-- IMAGE_COPY_READ (R633). -/
def execImageCopyRead (bytes : List Byte) (s : State) : Host.Outcome State Fault Refusal := clocked (fun m => imageCopyRead m bytes) s

/-- IMAGE_WRITE_RECORD (R634). -/
def execImageWriteRecord (s : State) : Host.Outcome State Fault Refusal := clocked imageWrite s

/-- IMAGE_POLL_RECORD (R636). -/
def execImagePollRecord (s : State) : Host.Outcome State Fault Refusal := clocked imagePoll s

/-- IMAGE_POLL_TIMEOUT (R636). -/
def execImagePollTimeout (s : State) : Host.Outcome State Fault Refusal := clocked imagePollTimeout s

/-- IMAGE_TABLE_LOAD (R634). -/
def execImageTableLoad (s : State) : Host.Outcome State Fault Refusal := clocked imageTable s

/-- IMAGE_NODE_PLAN (R513). -/
def execImageNodePlan (s : State) : Host.Outcome State Fault Refusal := clocked imagePlan s

/-- IMAGE_END_SECTION (R742). -/
def execImageEndSection (s : State) : Host.Outcome State Fault Refusal := clocked imageEnd s

end Sys2Proof.Machine
end

