-- ==== Sys2Proof/Machine/Board.lean ====
section
/-! DEFINITION. Resets, clocks, supplies and sensors (spec/19_board_power_reset.md; spec/18_registers_service.md, CKP
bank; the clock-stop monitors of spec/14_deadman_journal.md). -/

namespace Sys2Proof.Machine

/-- The machine with its pins changed. -/
def modPins (m : Core) (f : Pins → Pins) : Core := { m with pins := f m.pins }

/-! ### What a reset keeps (R735, R898, R949, R970) -/

/-- Whether a register of the JNL bank lies in the always-on domain (R898). -/
def aonReg (a : Nat) : Bool :=
  [0x2C00, 0x2C08, 0x2C0C, 0x2C10, 0x2C14, 0x2C18, 0x2C1C, 0x2C20, 0x2C24, 0x2CA0].contains a
    || (decide (0x2CA4 ≤ a) && decide (a < 0x2CC4))

/-- Whether a warm reset keeps a register whole: the always-on ones, GEN.LOCK, the RWL fields, GEN.ROLE, GEN.NODE_ID,
DIR.SPLIT and MEM.CFG (Table BRD-11). -/
def warmReg (a : Nat) : Bool :=
  aonReg a || [0x1C, 0x20, 0x2C, 0x1000, 0x1800, 0x2000, 0x2814].contains a || (decide (0x420 ≤ a) && decide (a < 0x460))

/-- The registers after a reset. -/
def keptRegs (m : Core) (keep : Nat → Bool) : Tab Word := m.regs.filter fun x => keep x.1

/-- The records that a flush has not written return to the queue (R735, R957). -/
def unflush (j : Jnl) : Jnl :=
  match j.flushing with
  | [] => j
  | f :: _ =>
    { j with flushing := [], queue := j.flushing.map (·.qrec) ++ j.queue, tail := j.tail.drop j.flushing.length
             nextSeq := BitVec.ofNat 32 (recSeq f.bytes), lastCrc := f.prev, slot := f.slot }

/-- The journal across a reset: the always-on part and the devices are kept, a head search begins again (R735, R742). -/
def jnlKept (j : Jnl) : Jnl :=
  let j := unflush j
  { j with needSearch := j.needSearch || j.searching, searching := false, jrcQuiet := [] }

/-- What both resets leave of everything else (Table BRD-11, R714, R840, R934). -/
def resetBase (m : Core) (keep : Nat → Bool) : Core :=
  { stmp := m.stmp
    regs := keptRegs m keep
    jnl := jnlKept m.jnl
    spi := { own := b1 m.jnl.cur.isSome, spbSel := m.spi.spbSel, spbBlocked := m.spi.spbSel }
    pins := { m.pins with faultN := false, dmtRstN := false, warmAfterFlush := none }
    tap := m.tap
    free := m.free }

/-- The causes that the always-on domain latches as a reset begins; `own` is the bit of its pin (Table RGS-8). -/
def latchCause (m : Core) (own : Nat) : Core :=
  let bits := [(own, true), (4, m.pins.dmtRstN), (3, m.pins.thermtripN)]
  modPins m fun p => { p with cause := bits.foldl (fun c b => if b.2 then c ||| 2 ^ b.1 else c) p.cause }

/-- The reset that PWRGD holds. -/
def coldCore (m : Core) : Core :=
  let m := resetBase (latchCause m 1) aonReg
  modPins m fun p => { p with resetHeld := true, warmHeld := false, peakSeen := false, locked := false, thermtripN := false
                              lockLostReport := false }

/-- The reset that RESET_N holds (R437, R437, R457, R970). -/
def warmCore (m : Core) : Core :=
  let old := latchCause m 2
  let m := resetBase old warmReg
  let m := rsetf m 0x3C0C 31 16 (rfld old 0x3C0C 31 16)
  let m := rsetf m 0x3848 31 31 (rfld old 0x3848 31 31)
  { m with
    pins := { m.pins with warmHeld := true }
    deck := { mbistRan := old.deck.mbistRan, mbistFail := old.deck.mbistFail, spares := old.deck.spares
              remapped := old.deck.remapped }
    mem := { cfgFrozen := old.mem.cfgFrozen, everReady := old.mem.everReady, warmSeen := true, repaired := old.mem.repaired }
    cfg := { startedCold := old.cfg.startedCold }
    fab := { afterWarm := true }
    boot := { warm := true } }

/-- What a repair cut by a warm reset leaves of its row. The content of DRAM survives the reset (R437), so the buffered
lines of an sPPR are written back; an hPPR does not keep its row's content (R457; assumption log, entry 4). -/
def cutRepair (d : Dram) (m : Core) : Dram × Core :=
  match m.mem.repair with
  | some r => if r.hard then hardContent m (rowLines m r.row) d else (bufferBack m d r, m)
  | none => (d, m)

/-- The image load starts once the clocks run, after MBIST_EN has been judged (R317, R633, R952). -/
def startLoad (m : Core) : Core :=
  if !running m || m.boot.loading ≠ 0 || m.boot.ended then m else
    let m := modDeck m fun d => { d with mbistRunning := m.pins.straps.mbist && !d.mbistRan }
    spaCall (modBoot m fun b => { b with loading := 1 })

/-- CKP.RESET_CAUSE is rewritten and the RESET record queued (Table RGS-8, Table DMJ-6). -/
def resetCause (m : Core) (kind : Nat) : Core :=
  let c := m.pins.cause
  let m := rset m 0x3C30 (word [(28, kind), (0, c)])
  journal (modPins m fun p => { p with cause := 0 }) 2 1 (payload [(8, kind), (32, c)])

/-- The end of a cold reset: the straps are sampled (R830, R933). -/
def coldRelease (m : Core) (s : Straps) : Core :=
  if !m.pins.resetHeld then m else
    let m := modPins m fun p => { p with resetHeld := false, straps := s, refclkStopped := false }
    resetCause (rsetf m 0x3848 31 31 (b1 s.trust)) 1

/-- A warm reset begins, unless a cold one is held (R958); one that falls while the power-fail flush runs waits for its
end (R956). A journal write that it cuts is repeated (R842). -/
def warmHold (d : Dram) (m : Core) : Dram × Core :=
  if m.pins.resetHeld || m.pins.warmHeld then (d, m)
  else if !m.jnl.flushing.isEmpty then (d, modPins m fun p => { p with warmAfterFlush := some false })
  else
    let r := cutRepair d m
    (r.1, warmCore (cutWrite r.2))

/-- A warm reset ends: in the junction role MEM.STATUS.ready is set (R437), and the image is loaded. -/
def warmRelease (m : Core) : Core :=
  if m.pins.warmAfterFlush.isSome then modPins m fun p => { p with warmAfterFlush := some true }
  else if !m.pins.warmHeld then m else
    let m := modPins m fun p => { p with warmHeld := false, refclkStopped := false }
    let m := resetCause m 2
    startLoad (if role m = 1 then modMem m fun x => { x with ready := true } else m)

/-- PFAIL_FLUSH_DONE, and a warm reset that has waited for it (R745, R956). -/
def flushEnd (d : Dram) (m : Core) : Dram × Core :=
  let w := m.pins.warmAfterFlush
  let m := flushDone m
  match w with
  | none => (d, m)
  | some up =>
    let r := warmHold d (modPins m fun p => { p with warmAfterFlush := none })
    (r.1, if up then warmRelease r.2 else r.2)

/-! ### The always-on supply (R740, R898, R964) -/

/-- The always-on contents are lost (R964). -/
def aonLost (m : Core) : Core :=
  let f := rget m 0x2C08
  { m with regs := m.regs.filter fun x => !aonReg x.1
           jnl := { dev0 := m.jnl.dev0, dev1 := m.jnl.dev1, pfail := m.jnl.pfail, faultBefore := f }
           spi := { m.spi with own := if m.spi.own = 1 then 0 else m.spi.own }
           pins := { m.pins with vddAon := false, jfailN := false, thermtripN := false, cause := 0 } }

/-- VDD_AON_RISE: the always-on domain is initialised and its cause latched (R898); the head search is due (R742). -/
def aonRise (m : Core) : Core :=
  let m := { m with regs := m.regs.filter fun x => !aonReg x.1
                    jnl := { dev0 := m.jnl.dev0, dev1 := m.jnl.dev1, pfail := m.jnl.pfail, faultBefore := m.jnl.faultBefore }
                    spi := { m.spi with own := if m.spi.own = 1 then 0 else m.spi.own } }
  rset (modPins m fun p => { p with vddAon := true, jfailN := false, cause := 1 }) 0x3C30 (regReset 0x3C30)

/-! ### Clocks (R692 to R695, R937, R961, R962) -/

/-- Every port loses its link. -/
def allLinksLost (m : Core) : Core := (List.range 16).foldl linkLoss m

/-- PLL_LOCK: the VCO-derived domains run; a loss of lock is now reported (R937, R962). -/
def pllLock (m : Core) : Core :=
  if m.pins.resetHeld then m else
    let due := m.pins.lockLostReport
    let m := modPins m fun p => { p with locked := true, refclkStopped := false, lockLostReport := false }
    let m := if due then journal (raise m 19) 0x10 3 (payload [(8, 255), (8, 5)]) else m
    startLoad m

/-- PLL_LOCK_LOSS (R962). -/
def pllLockLoss (m : Core) : Core :=
  if !m.pins.locked then m else
    let m := allLinksLost (assertFault (rsetf m 0x3C00 1 1 1))
    modPins m fun p => { p with locked := false, lockLostReport := true }

/-- What a stopped clock does to the dead-man timer (R693 to R695, R750): `journaled` says whether a record can still be
filled. -/
def clockTrip (m : Core) (selected journaled : Bool) : Core :=
  let jnl (m : Core) (sev event : Nat) : Core := if journaled then journal m 4 sev (dmtPayload m event 0 0) else m
  if selected && dmtOn m then
    let m := raise (rsetf m 0x2818 7 7 1) 17
    if m.dmt.stage = 2 then jnl m 4 3 else if journaled then dmtStage2 m 3 else dmtOutputs m
  else jnl (raise (rsetf m 0x2818 5 5 1) 17) 3 4

/-- CLOCK_STOP: DMTO or STMP has stopped (R692). STMP stops with REFCLK (R961). -/
def clockStop (m : Core) (dmto : Bool) : Core :=
  if !awake m then m
  else if dmto then clockTrip m (rbit m 0x2800 1) true
  else
    let trip := !rbit m 0x2800 1 && dmtOn m
    let m := clockTrip (allLinksLost (assertFault m)) (!rbit m 0x2800 1) (!trip)
    modPins m fun p => { p with refclkStopped := true }

/-! ### Sensors (R914, R915, R963) -/

/-- The temperature sample. The first sample after a cold reset is the highest so far (Table RGS-8). -/
def sampleTemp (m : Core) (t : BitVec 16) : Core :=
  let m := rsetf m 0x3C04 15 0 t.toNat
  let peak : BitVec 16 := BitVec.ofNat 16 (rfld m 0x3C0C 31 16)
  let m := if !m.pins.peakSeen || decide (peak.toInt < t.toInt) then rsetf m 0x3C0C 31 16 t.toNat else m
  let m := modPins m fun p => { p with peakSeen := true }
  let alert : Int := rfld m 0x3C08 7 0
  let hyst : Int := rfld m 0x3C08 11 8
  if alert * 8 < t.toInt then
    if rbit m 0x3C0C 0 then m else raise (rsetf m 0x3C0C 1 0 3) 21
  else if t.toInt < (alert - hyst) * 8 then rsetf m 0x3C0C 0 0 0
  else m

/-- The nominal voltage of rail `k` in mV and its monitor's tolerance in percent (R939, Table BRD-10). -/
def railLimits (k : Nat) : Nat × Nat :=
  match k with
  | 0 => (700 + 10 * Config.coreVid.toNat, 5)
  | 1 => (800, 5)
  | 2 => (1100, 5)
  | 3 => (850, 5)
  | 4 => (1200, 5)
  | _ => (1800, 7)

/-- Whether a rail lies outside its monitor limits. -/
def railOut (k mv : Nat) : Bool :=
  let l := railLimits k
  decide (mv * 100 < l.1 * (100 - l.2)) || decide (l.1 * (100 + l.2) < mv * 100)

/-- The sample of rail `k` (R963). -/
def sampleRail (m : Core) (k : Nat) (v : BitVec 16) : Core :=
  let m := rsetf m (0x3C10 + 4 * k) 15 0 v.toNat
  let out := railOut k v.toNat
  let was := rbit m 0x3C2C k
  let m := rsetf m 0x3C2C k k (b1 out)
  if out && !was then raise (rsetf m 0x3C2C (16 + k) (16 + k) 1) 20 else m

/-- SENSOR_SAMPLE (R914): the temperature and the seven rails in their order. -/
def sensorSample (m : Core) (t : BitVec 16) (mv : List (BitVec 16)) : Core :=
  if m.pins.refclkStopped then m else
    ((List.range 7).zip mv).foldl (fun m x => sampleRail m x.1 x.2) (sampleTemp m t)

/-! ### The commands -/

/-- COLD_RESET (R933, R949, R957, R958). The DRAM content is undefined after it: the model lists nothing (assumption
log, entry 5). -/
def execColdReset (ph : ColdPhase) (s : State) : Host.Outcome State Fault Refusal :=
  match ph with
  | .hold => .next (if s.m.pins.resetHeld then s else { s with dram := {}, m := coldCore (cutWrite s.m) })
  | .release st => .next { s with m := coldRelease s.m st }

/-- WARM_RESET (R949, R956). -/
def execWarmReset (ph : WarmPhase) (s : State) : Host.Outcome State Fault Refusal :=
  match ph with
  | .hold => .next { s with dram := (warmHold s.dram s.m).1, m := (warmHold s.dram s.m).2 }
  | .release => .next { s with m := warmRelease s.m }

/-- VDD_AON_RISE (R898). -/
def execVddAonRise (s : State) : Host.Outcome State Fault Refusal := always aonRise s

/-- VDD_AON_LOSS (R964). -/
def execVddAonLoss (s : State) : Host.Outcome State Fault Refusal := always aonLost s

/-- PLL_LOCK (R937). -/
def execPllLock (s : State) : Host.Outcome State Fault Refusal := always pllLock s

/-- PLL_LOCK_LOSS (R962). -/
def execPllLockLoss (s : State) : Host.Outcome State Fault Refusal := always pllLockLoss s

/-- THERMTRIP (R946). -/
def execThermtrip (s : State) : Host.Outcome State Fault Refusal :=
  always (fun m => modPins m fun p => { p with thermtripN := true }) s

/-- SENSOR_SAMPLE (R914). -/
def execSensorSample (temp : BitVec 16) (mv : List (BitVec 16)) (s : State) : Host.Outcome State Fault Refusal :=
  awakened (fun m => sensorSample m temp mv) s

/-- CLOCK_STOP (R692). -/
def execClockStop (dmto : Bool) (s : State) : Host.Outcome State Fault Refusal := always (fun m => clockStop m dmto) s

/-- PFAIL_FLUSH_DONE (R745, R956). -/
def execPfailFlushDone (s : State) : Host.Outcome State Fault Refusal := clockedDram flushEnd s

end Sys2Proof.Machine
end

