-- ==== Sys2Proof/Machine/RegCmds.lean ====
section
/-! DEFINITION. The commands that access registers over the LMB (spec/12_control_plane.md), one meaning per row, and the
ends of the frames, copies and soft resets that such writes begin (spec/16_serial_ports.md). -/

namespace Sys2Proof.Machine

/-- COPY_DONE: the active set has been copied into the standby set (R617). -/
def copyDone (m : Core) : Core :=
  if !m.cfg.copying then m else
    let a := setOf m m.cfg.epoch
    let m := modSet m (!m.cfg.epoch) fun _ => a
    raise (modCfg m fun c => { c with copying := false, copyDone := true }) 134

/-- An LMB write by a named accessor. -/
def lmbWriteAs (w : Who) (addr : Nat) (v : Word) (m : Core) : Core :=
  let r := regWrite m w none addr v
  match r.1 with
  | some x => setLmb r.2 x
  | none => r.2

/-- The units received by a frame replace its data registers from `base` on; bits above the unit become zero (R809). -/
def rxUnits (m : Core) (base len n : Nat) (rx : List Word) : Core :=
  (List.range n).foldl (fun m i => rset m (base + 4 * i) (BitVec.ofNat 32 (((rx[i]?).getD 0).toNat % 2 ^ len))) m

/-- SPA_FRAME_DONE: the software frame that runs ends (R809, R814, R815), which is a frame boundary (R807, R843): an
engine that has waited takes SPA, and breaks the hold (R818). A frame that waits for SPA cannot end. -/
def spaFrameDone (m : Core) (rx : List Word) : Core :=
  match m.spi.spaFrame with
  | none => m
  | some f =>
    if m.spi.own ≠ 3 then m else
      let m := rxUnits m 0x3820 f.unitLen f.units rx
      let m : Core := { m with spi := { m.spi with spaFrame := none, held := if f.hold then some f.sel else none } }
      raise (tally .spi 1 1 (rsetf (spaBoundary m) 0x3814 0 0 1)) 160

/-- SPB_TRANSFER_DONE: an SPB master transfer ends (R834). -/
def spbTransferDone (m : Core) (rx : List Word) : Core :=
  match m.spi.spbFrame with
  | none => m
  | some f =>
    let m := rxUnits m 0x3860 f.unitLen f.units rx
    let m := rsetf (rsetf m 0x3848 29 29 1) 0x3848 24 16 (f.unitLen * f.units)
    raise (tally .spi 2 1 { m with spi := { m.spi with spbFrame := none } }) 161

/-- MODE_FAULT: SPB_SEL_N reads asserted in the master role (R837, R838); the port, a slave again, drives
SPB_MISO low. The units received whole before the bit in
progress stand in their registers (assumption log, entry 16). -/
def modeFault (m : Core) (bits : BitVec 9) (rx : List Word) : Core :=
  if !rbit m 0x3840 0 then m else
    let m := match m.spi.spbFrame with
      | none => m
      | some f =>
        let n := min bits.toNat (f.unitLen * f.units)
        rsetf (rsetf (rxUnits m 0x3860 f.unitLen (n / f.unitLen) rx) 0x3848 28 28 1) 0x3848 24 16 n
    let m := rsetf (rsetf m 0x3840 0 0 0) 0x3848 27 27 1
    let m : Core := { m with spi := { m.spi with spbFrame := none, spbSel := true, spbBlocked := true, miso := some [] } }
    raise (tally .spi 4 1 m) 162

/-! ### Control registers -/

/-- LINK_RESET (R58, R949). -/
def execLinkReset (a : Lmb) (p : PortIx) (s : State) : Host.Outcome State Fault Refusal :=
  clocked (lmbWrite a (0x900 + 4 * p.val) 1) s

/-- BOOT_RELOAD (R639). -/
def execBootReload (a : Lmb) (s : State) : Host.Outcome State Fault Refusal := clocked (lmbWrite a 0x44 1) s

/-- WALK_CLEAR (R318). -/
def execWalkClear (a : Lmb) (slot : BitVec 8) (s : State) : Host.Outcome State Fault Refusal :=
  clocked (lmbWrite a 0x1008 (slot.setWidth 32)) s

/-- SPARE_CMD (R332). -/
def execSpareCmd (a : Lmb) (mirror : Bool) (set : BitVec 18) (s : State) : Host.Outcome State Fault Refusal :=
  clocked (lmbWrite a 0x1030 (word [(31, b1 mirror), (0, set.toNat)])) s

/-- HLC_ENABLE (R399). -/
def execHlcEnable (a : Lmb) (v : Word) (s : State) : Host.Outcome State Fault Refusal :=
  clocked (lmbWrite a 0x1400 v) s

/-- HLC_INV_START (R400). -/
def execHlcInvStart (a : Lmb) (s : State) : Host.Outcome State Fault Refusal := clocked (lmbWrite a 0x1408 1) s

/-- MEM_TRAIN_START (R432). -/
def execMemTrainStart (a : Lmb) (s : State) : Host.Outcome State Fault Refusal := clocked (lmbWrite a 0x1804 1) s

/-- HPPR (R457). -/
def execHppr (a : Lmb) (v : Word) (s : State) : Host.Outcome State Fault Refusal := clocked (lmbWrite a 0x1840 v) s

/-- NODE_ID_WRITE (R514). -/
def execNodeIdWrite (a : Lmb) (v : Word) (s : State) : Host.Outcome State Fault Refusal :=
  clocked (lmbWrite a 0x20 v) s

/-- ROLE_WRITE (R23). -/
def execRoleWrite (a : Lmb) (v : Word) (s : State) : Host.Outcome State Fault Refusal := clocked (lmbWrite a 0x1C v) s

/-- FABRIC_THROW_START (R537). -/
def execFabricThrowStart (a : Lmb) (s : State) : Host.Outcome State Fault Refusal := clocked (lmbWrite a 0x2020 1) s

/-- CPL_START (R573). -/
def execCplStart (a : Lmb) (s : State) : Host.Outcome State Fault Refusal := clocked (lmbWrite a 0x2048 1) s

/-- SLOT_EDIT_ADMIT (R557). -/
def execSlotEditAdmit (a : Lmb) (f : SlotEdit) (s : State) : Host.Outcome State Fault Refusal :=
  clocked (lmbWrite a 0x2030 (slotEditWord f 1)) s

/-- SLOT_EDIT_CLEAR (R557). -/
def execSlotEditClear (a : Lmb) (f : SlotEdit) (s : State) : Host.Outcome State Fault Refusal :=
  clocked (lmbWrite a 0x2030 (slotEditWord f 2)) s

/-- SLOT_EDIT_LOST (R557). -/
def execSlotEditLost (a : Lmb) (f : SlotEdit) (s : State) : Host.Outcome State Fault Refusal :=
  clocked (lmbWrite a 0x2030 (slotEditWord f 3)) s

/-- REGISTER_WRITE (R10 to R16). The address counts registers of four bytes. -/
def execRegisterWrite (a : Lmb) (addr : BitVec 14) (v : Word) (s : State) : Host.Outcome State Fault Refusal :=
  clocked (lmbWrite a (4 * addr.toNat) v) s

/-- REJECT_CLEAR (R599). -/
def execRejectClear (a : Lmb) (s : State) : Host.Outcome State Fault Refusal := clocked (lmbWrite a 0x3C 1) s

/-- LOCK (R601). -/
def execLock (a : Lmb) (s : State) : Host.Outcome State Fault Refusal := clocked (lmbWrite a 0x2C 1) s

/-- PORT_CFG_WRITE (R869). -/
def execPortCfgWrite (a : Lmb) (p : PortIx) (v : Word) (s : State) : Host.Outcome State Fault Refusal :=
  clocked (lmbWrite a (0x800 + 4 * p.val) v) s

/-- COUNTER_LOW_READ (R611). -/
def execCounterLowRead (a : Lmb) (i : Fin 8) (s : State) : Host.Outcome State Fault Refusal :=
  clocked (lmbRead a (0x3040 + 4 * i.val)) s

/-- COUNTER_HIGH_READ (R612). -/
def execCounterHighRead (a : Lmb) (i : Fin 8) (s : State) : Host.Outcome State Fault Refusal :=
  clocked (lmbRead a (0x3060 + 4 * i.val)) s

/-- TIME_LO_READ (R879). -/
def execTimeLoRead (a : Lmb) (s : State) : Host.Outcome State Fault Refusal := clocked (lmbRead a 0x2018) s

/-! ### Windows -/

/-- CFG_TABLE_READ (R606, R859). -/
def execCfgTableRead (a : Lmb) (w : WinCmd) (s : State) : Host.Outcome State Fault Refusal :=
  clocked (lmbWrite a (winCmd .cfg) (cmdWord false w)) s

/-- CFG_TABLE_WRITE (R606, R856). -/
def execCfgTableWrite (a : Lmb) (w : WinCmd) (s : State) : Host.Outcome State Fault Refusal :=
  clocked (lmbWrite a (winCmd .cfg) (cmdWord true w)) s

/-- TRK_PROBE (R871). -/
def execTrkProbe (a : Lmb) (w : WinCmd) (s : State) : Host.Outcome State Fault Refusal :=
  clocked (lmbWrite a (winCmd .trk) (cmdWord false w)) s

/-- DIR_PROBE (R873). -/
def execDirProbe (a : Lmb) (w : WinCmd) (s : State) : Host.Outcome State Fault Refusal :=
  clocked (lmbWrite a (winCmd .dir) (cmdWord false w)) s

/-- PREDICTOR_READ (R877). -/
def execPredictorRead (a : Lmb) (w : WinCmd) (s : State) : Host.Outcome State Fault Refusal :=
  clocked (lmbWrite a (winCmd .atm) (cmdWord false w)) s

/-- PREDICTOR_WRITE (R886). -/
def execPredictorWrite (a : Lmb) (w : WinCmd) (s : State) : Host.Outcome State Fault Refusal :=
  clocked (lmbWrite a (winCmd .atm) (cmdWord true w)) s

/-- FAB_TABLE_READ (R883). -/
def execFabTableRead (a : Lmb) (w : WinCmd) (s : State) : Host.Outcome State Fault Refusal :=
  clocked (lmbWrite a (winCmd .fab) (cmdWord false w)) s

/-- FAB_TABLE_WRITE (R885). -/
def execFabTableWrite (a : Lmb) (w : WinCmd) (s : State) : Host.Outcome State Fault Refusal :=
  clocked (lmbWrite a (winCmd .fab) (cmdWord true w)) s

/-- PPR_WINDOW_READ (R609). -/
def execPprWindowRead (a : Lmb) (w : WinCmd) (s : State) : Host.Outcome State Fault Refusal :=
  clocked (lmbWrite a (winCmd .ppr) (cmdWord false w)) s

/-- EIC_SOURCE_READ (R900). -/
def execEicSourceRead (a : Lmb) (w : WinCmd) (s : State) : Host.Outcome State Fault Refusal :=
  clocked (lmbWrite a (winCmd .eic) (cmdWord false w)) s

/-- EIC_SOURCE_WRITE (R657). -/
def execEicSourceWrite (a : Lmb) (w : WinCmd) (s : State) : Host.Outcome State Fault Refusal :=
  clocked (lmbWrite a (winCmd .eic) (cmdWord true w)) s

/-- PMC_COUNTER_READ (R905). -/
def execPmcCounterRead (a : Lmb) (w : WinCmd) (s : State) : Host.Outcome State Fault Refusal :=
  clocked (lmbWrite a (winCmd .pmc) (cmdWord false w)) s

/-- PMC_COUNTER_WRITE (R906). -/
def execPmcCounterWrite (a : Lmb) (w : WinCmd) (s : State) : Host.Outcome State Fault Refusal :=
  clocked (lmbWrite a (winCmd .pmc) (cmdWord true w)) s

/-- SNAPSHOT_READ (R910). -/
def execSnapshotRead (a : Lmb) (w : WinCmd) (s : State) : Host.Outcome State Fault Refusal :=
  clocked (lmbWrite a (winCmd .whs) (cmdWord false w)) s

/-! ### Configuration sets -/

/-- COPY_START (R617). -/
def execCopyStart (a : Lmb) (s : State) : Host.Outcome State Fault Refusal := clocked (lmbWrite a 0x408 1) s

/-- COPY_DONE (R617). -/
def execCopyDone (s : State) : Host.Outcome State Fault Refusal := clocked (copyDone) s

/-- THROW_START (R622). -/
def execThrowStart (a : Lmb) (s : State) : Host.Outcome State Fault Refusal := clocked (lmbWrite a 0x404 1) s

/-! ### Events, the dead-man timer, the journal, observability -/

/-- EVIN_CFG_WRITE (R660). -/
def execEvinCfgWrite (a : Lmb) (n : Fin 16) (v : Word) (s : State) : Host.Outcome State Fault Refusal :=
  clocked (lmbWrite a (0x2500 + 4 * n.val) v) s

/-- DOORBELL (R664). -/
def execDoorbell (a : Lmb) (source : BitVec 8) (s : State) : Host.Outcome State Fault Refusal :=
  clocked (lmbWrite a 0x2448 (source.setWidth 32)) s

/-- PENDING_CLEAR (R653). -/
def execPendingClear (a : Lmb) (k : Fin 8) (v : Word) (s : State) : Host.Outcome State Fault Refusal :=
  clocked (lmbWrite a (0x2400 + 4 * k.val) v) s

/-- CLAIM (R667). -/
def execClaim (a : Lmb) (n : Fin 4) (s : State) : Host.Outcome State Fault Refusal :=
  clocked (lmbWrite a (0x248C + 0x20 * n.val) 1) s

/-- EOI (R669). -/
def execEoi (a : Lmb) (n : Fin 4) (source : BitVec 8) (s : State) : Host.Outcome State Fault Refusal :=
  clocked (lmbWrite a (0x2494 + 0x20 * n.val) (source.setWidth 32)) s

/-- COMPLETE (R671). -/
def execComplete (a : Lmb) (n : Fin 4) (source : BitVec 8) (s : State) : Host.Outcome State Fault Refusal :=
  clocked (lmbWrite a (0x2498 + 0x20 * n.val) (source.setWidth 32)) s

/-- DMT_ENABLE (R697). -/
def execDmtEnable (a : Lmb) (v : Word) (s : State) : Host.Outcome State Fault Refusal :=
  clocked (lmbWrite a 0x2800 v) s

/-- FIRST_KEY (R703). -/
def execFirstKey (a : Lmb) (s : State) : Host.Outcome State Fault Refusal := clocked (lmbWrite a 0x2810 0xA5C3) s

/-- SECOND_KEY (R701, R704). `cycles` is how many MGMT cycles after the first key it is accepted. -/
def execSecondKey (a : Lmb) (cycles : Nat) (s : State) : Host.Outcome State Fault Refusal :=
  clocked (lmbWriteAs { lmbWho a with late := decide (400 < cycles) } 0x2810 0x3C5A) s

/-- RESTORE_PRIMARY (R734). -/
def execRestorePrimary (a : Lmb) (s : State) : Host.Outcome State Fault Refusal := clocked (lmbWrite a 0x2C04 1) s

/-- RESTORE_MIRROR (R734). -/
def execRestoreMirror (a : Lmb) (s : State) : Host.Outcome State Fault Refusal := clocked (lmbWrite a 0x2C04 2) s

/-- SOFTWARE_RECORD (R737). -/
def execSoftwareRecord (a : Lmb) (severity : BitVec 4) (s : State) : Host.Outcome State Fault Refusal :=
  clocked (lmbWrite a 0x2C80 (severity.setWidth 32)) s

/-- TAIL_LATCH (R903). -/
def execTailLatch (a : Lmb) (index : BitVec 4) (s : State) : Host.Outcome State Fault Refusal :=
  clocked (lmbWrite a 0x2CA0 (index.setWidth 32)) s

/-- CAPTURE (R767). -/
def execCapture (a : Lmb) (s : State) : Host.Outcome State Fault Refusal := clocked (lmbWrite a 0x3088 1) s

/-- DUMP_ENABLE (R769). -/
def execDumpEnable (a : Lmb) (v : Word) (s : State) : Host.Outcome State Fault Refusal :=
  clocked (lmbWrite a 0x30A0 v) s

/-- WHISTLE_TRIGGER (R780). -/
def execWhistleTrigger (a : Lmb) (s : State) : Host.Outcome State Fault Refusal := clocked (lmbWrite a 0x3400 1) s

/-- WHISTLE_ARM (R785). The drive bit is written as it stands. -/
def execWhistleArm (a : Lmb) (s : State) : Host.Outcome State Fault Refusal :=
  clocked (fun m => lmbWrite a 0x3404 (rget m 0x3404 ||| 1) m) s

/-- CLR_MISSED (R908). The drive bit is written as it stands. -/
def execClrMissed (a : Lmb) (s : State) : Host.Outcome State Fault Refusal :=
  clocked (fun m => lmbWrite a 0x3404 (rget m 0x3404 ||| 4) m) s

/-- LEVEL_MARK_CLEAR (R794). -/
def execLevelMarkClear (a : Lmb) (n : Fin 16) (s : State) : Host.Outcome State Fault Refusal :=
  clocked (lmbWrite a (0x3490 + 0x20 * n.val) 1) s

/-- LEVEL_MARK_SELECT (R795). `marks` says which of LMn_SEL and LMn_MARKS is written. -/
def execLevelMarkSelect (a : Lmb) (n : Fin 16) (marks : Bool) (v : Word) (s : State) : Host.Outcome State Fault Refusal :=
  clocked (lmbWrite a (0x3480 + 4 * b1 marks + 0x20 * n.val) v) s

/-! ### Serial ports and soft resets -/

/-- SPA_START (R809). -/
def execSpaStart (a : Lmb) (v : Word) (s : State) : Host.Outcome State Fault Refusal :=
  clocked (lmbWrite a 0x3810 v) s

/-- SPA_RELEASE (R817). The other fields are written as they stand. -/
def execSpaRelease (a : Lmb) (s : State) : Host.Outcome State Fault Refusal :=
  clocked (fun m => lmbWrite a 0x3810 (rget m 0x3810 ||| 8) m) s

/-- SPB_ROLE_WRITE (R832). -/
def execSpbRoleWrite (a : Lmb) (v : Word) (s : State) : Host.Outcome State Fault Refusal :=
  clocked (lmbWrite a 0x3840 v) s

/-- SPB_START (R834). -/
def execSpbStart (a : Lmb) (v : Word) (s : State) : Host.Outcome State Fault Refusal :=
  clocked (lmbWrite a 0x3844 v) s

/-- SOFT_RESET_HLC (R404). -/
def execSoftResetHlc (a : Lmb) (s : State) : Host.Outcome State Fault Refusal := clocked (lmbWrite a 0x3C34 1) s

/-- SOFT_RESET_EIC (R683). -/
def execSoftResetEic (a : Lmb) (s : State) : Host.Outcome State Fault Refusal := clocked (lmbWrite a 0x3C34 2) s

/-- SOFT_RESET_PMC (R760). -/
def execSoftResetPmc (a : Lmb) (s : State) : Host.Outcome State Fault Refusal := clocked (lmbWrite a 0x3C34 4) s

/-- SOFT_RESET_SPI (R841). -/
def execSoftResetSpi (a : Lmb) (s : State) : Host.Outcome State Fault Refusal := clocked (lmbWrite a 0x3C34 8) s

/-- SOFT_RESET_DONE (R916). -/
def execSoftResetDone (blk : Fin 4) (s : State) : Host.Outcome State Fault Refusal :=
  clocked (fun m => rsetf m 0x3C34 blk.val blk.val 0) s

/-- SPA_FRAME_DONE (R809, R814, R815). `rx` holds the units received. -/
def execSpaFrameDone (rx : List Word) (s : State) : Host.Outcome State Fault Refusal :=
  clocked (fun m => spaFrameDone m rx) s

/-- SPB_TRANSFER_DONE (R834). -/
def execSpbTransferDone (rx : List Word) (s : State) : Host.Outcome State Fault Refusal :=
  clocked (fun m => spbTransferDone m rx) s

/-- MODE_FAULT (R837). `bits` is how many bits the transfer had shifted, `rx` its whole units. -/
def execModeFault (bits : BitVec 9) (rx : List Word) (s : State) : Host.Outcome State Fault Refusal :=
  clocked (fun m => modeFault m bits rx) s

end Sys2Proof.Machine
end

