-- ==== Sys2Proof/Machine/Tap.lean ====
section
/-! DEFINITION. The boundary-scan TAP (spec/19_board_power_reset.md, R953 to R955): the controller of IEEE 1149.1, which
R953 names, with its instruction, identification, bypass and boundary-scan registers. It runs on TCK alone. -/

namespace Sys2Proof.Machine

/-- The controller's next state for a value of TMS. -/
def tapNext (s : TapSt) (tms : Bool) : TapSt :=
  match s, tms with
  | .reset, true => .reset
  | .reset, false => .idle
  | .idle, true => .drSelect
  | .idle, false => .idle
  | .drSelect, true => .irSelect
  | .drSelect, false => .drCapture
  | .drCapture, true => .drExit1
  | .drCapture, false => .drShift
  | .drShift, true => .drExit1
  | .drShift, false => .drShift
  | .drExit1, true => .drUpdate
  | .drExit1, false => .drPause
  | .drPause, true => .drExit2
  | .drPause, false => .drPause
  | .drExit2, true => .drUpdate
  | .drExit2, false => .drShift
  | .drUpdate, true => .drSelect
  | .drUpdate, false => .idle
  | .irSelect, true => .reset
  | .irSelect, false => .irCapture
  | .irCapture, true => .irExit1
  | .irCapture, false => .irShift
  | .irShift, true => .irExit1
  | .irShift, false => .irShift
  | .irExit1, true => .irUpdate
  | .irExit1, false => .irPause
  | .irPause, true => .irExit2
  | .irPause, false => .irPause
  | .irExit2, true => .irUpdate
  | .irExit2, false => .irShift
  | .irUpdate, true => .drSelect
  | .irUpdate, false => .idle

/-- The instructions in the order of R953; every other code selects BYPASS. -/
def tapInstr (n : Nat) : TapInstr :=
  match n with
  | 1 => .idcode
  | 2 => .samplePreload
  | 3 => .extest
  | 4 => .extestPulse
  | 5 => .extestTrain
  | 6 => .clamp
  | 7 => .highz
  | _ => .bypass

/-- The bits of IDCODE, least significant first (R954). -/
def idcodeBits : List Bool := (List.range 32).map fun i => (0x1240056B : Nat).testBit i

/-- Whether an instruction selects the boundary-scan register. -/
def TapInstr.boundary : TapInstr → Bool
  | .samplePreload => true
  | .extest => true
  | .extestPulse => true
  | .extestTrain => true
  | _ => false

/-- What the selected data register captures; the boundary-scan register captures the pins. -/
def tapCapture (m : Core) : List Bool × Core :=
  if m.tap.instr.boundary then (Config.boundary m.free, { m with free := m.free + 1 })
  else if m.tap.instr = .idcode then (idcodeBits, m)
  else ([false], m)

/-- A shift by one bit: TDI enters at the far end. -/
def shiftIn (l : List Bool) (tdi : Bool) : List Bool := (l ++ [tdi]).drop 1

/-- The TAP in Test-Logic-Reset. -/
def tapReset (t : Tap) : Tap := { t with st := .reset, instr := .idcode, tdo := none }

/-- One TCK: what the controller's state does on it, the next state, and TDO, which is driven only while shifting. -/
def tapClock (m : Core) (tms tdi : Bool) : Core :=
  let t := m.tap
  let r : Tap × Core := match t.st with
    | .drCapture => ({ t with drBits := (tapCapture m).1 }, (tapCapture m).2)
    | .drShift => ({ t with drBits := shiftIn t.drBits tdi }, m)
    | .irCapture => ({ t with irBits := true :: false :: Config.tapIrRest }, m)
    | .irShift => ({ t with irBits := shiftIn t.irBits tdi }, m)
    | _ => (t, m)
  let st := tapNext t.st tms
  let t := { r.1 with st := st, tdo := match st with
    | .drShift => r.1.drBits.head?
    | .irShift => r.1.irBits.head?
    | _ => none }
  let t := match st with
    | .irUpdate => { t with instr := tapInstr (Config.tapDecode t.irBits) }
    | .drUpdate => if t.instr.boundary then { t with boundary := t.drBits } else t
    | .reset => tapReset t
    | _ => t
  { r.2 with tap := t }

/-- TRST_N, or one TCK; TCK is ignored while TRST_N is low (R955). -/
def tapOp (m : Core) : TapOp → Core
  | .trst low => { m with tap := { (if low then tapReset m.tap else m.tap) with trst := low } }
  | .tck tms tdi => if m.tap.trst then m else tapClock m tms tdi

/-- TAP (R953). -/
def execTap (op : TapOp) (s : State) : Host.Outcome State Fault Refusal := always (fun m => tapOp m op) s

end Sys2Proof.Machine
end

