-- ==== Sys2Proof/Machine/Dispatch.lean ====
section
/-! DEFINITION. The dispatch: one arm per command, each a direct call of its meaning. -/

namespace Sys2Proof.Machine

/-- The effect of a command on everything but the queue of waiting commands. -/
def exec (i : Instr) (s : State) : Host.Outcome State Fault Refusal :=
  match i with
  | .coldReset ph => Sys2Proof.Machine.execColdReset ph s
  | .warmReset ph => Sys2Proof.Machine.execWarmReset ph s
  | .linkReset a p => Sys2Proof.Machine.execLinkReset a p s
  | .vddAonRise => Sys2Proof.Machine.execVddAonRise s
  | .vddAonLoss => Sys2Proof.Machine.execVddAonLoss s
  | .pllLock => Sys2Proof.Machine.execPllLock s
  | .pllLockLoss => Sys2Proof.Machine.execPllLockLoss s
  | .mbistDone fails => Sys2Proof.Machine.execMbistDone fails s
  | .initDone => Sys2Proof.Machine.execInitDone s
  | .thermtrip => Sys2Proof.Machine.execThermtrip s
  | .sensorSample temp mv => Sys2Proof.Machine.execSensorSample temp mv s
  | .clockStop dmto => Sys2Proof.Machine.execClockStop dmto s
  | .pfailAssert => Sys2Proof.Machine.execPfailAssert s
  | .pfailFlushDone => Sys2Proof.Machine.execPfailFlushDone s
  | .pfailDeassert => Sys2Proof.Machine.execPfailDeassert s
  | .imageCopyRead bytes => Sys2Proof.Machine.execImageCopyRead bytes s
  | .imageWriteRecord => Sys2Proof.Machine.execImageWriteRecord s
  | .imagePollRecord => Sys2Proof.Machine.execImagePollRecord s
  | .imagePollTimeout => Sys2Proof.Machine.execImagePollTimeout s
  | .imageTableLoad => Sys2Proof.Machine.execImageTableLoad s
  | .imageNodePlan => Sys2Proof.Machine.execImageNodePlan s
  | .imageEndSection => Sys2Proof.Machine.execImageEndSection s
  | .bootReload a => Sys2Proof.Machine.execBootReload a s
  | .phyTrainingStart => Sys2Proof.Machine.execPhyTrainingStart s
  | .phyL0 p t => Sys2Proof.Machine.execPhyL0 p t s
  | .startFlit p => Sys2Proof.Machine.execStartFlit p s
  | .flitReceive p f => Sys2Proof.Machine.execFlitReceive p f s
  | .broadcastEntryExpiry => Sys2Proof.Machine.execBroadcastEntryExpiry s
  | .flitSend p picks => Sys2Proof.Machine.execFlitSend p picks s
  | .replayTimer p => Sys2Proof.Machine.execReplayTimer p s
  | .linkLoss p => Sys2Proof.Machine.execLinkLoss p s
  | .ucpResend node => Sys2Proof.Machine.execUcpResend node s
  | .timeSampleSend => Sys2Proof.Machine.execTimeSampleSend s
  | .passThrough p vc => Sys2Proof.Machine.execPassThrough p vc s
  | .admission => Sys2Proof.Machine.execAdmission s
  | .queueHeadDecision l e => Sys2Proof.Machine.execQueueHeadDecision l e s
  | .rds h e => Sys2Proof.Machine.execRds h e s
  | .rdo h e => Sys2Proof.Machine.execRdo h e s
  | .rdc h e => Sys2Proof.Machine.execRdc h e s
  | .upg h e => Sys2Proof.Machine.execUpg h e s
  | .wrl h e => Sys2Proof.Machine.execWrl h e s
  | .wrp h e => Sys2Proof.Machine.execWrp h e s
  | .wst h e => Sys2Proof.Machine.execWst h e s
  | .atm h e => Sys2Proof.Machine.execAtm h e s
  | .fls h e => Sys2Proof.Machine.execFls h e s
  | .wbd w e => Sys2Proof.Machine.execWbd w e s
  | .wbe w e => Sys2Proof.Machine.execWbe w e s
  | .wbs w e => Sys2Proof.Machine.execWbs w e s
  | .cmp e => Sys2Proof.Machine.execCmp e s
  | .gnt => Sys2Proof.Machine.execGnt s
  | .ria e => Sys2Proof.Machine.execRia e s
  | .rsa e => Sys2Proof.Machine.execRsa e s
  | .rwp e => Sys2Proof.Machine.execRwp e s
  | .acc => Sys2Proof.Machine.execAcc s
  | .dec => Sys2Proof.Machine.execDec s
  | .err => Sys2Proof.Machine.execErr s
  | .dsh => Sys2Proof.Machine.execDsh s
  | .dex => Sys2Proof.Machine.execDex s
  | .dmo => Sys2Proof.Machine.execDmo s
  | .dhm e => Sys2Proof.Machine.execDhm e s
  | .transactionComplete h => Sys2Proof.Machine.execTransactionComplete h s
  | .wayRetry h e => Sys2Proof.Machine.execWayRetry h e s
  | .alcRetry h e => Sys2Proof.Machine.execAlcRetry h e s
  | .hteExpiry h => Sys2Proof.Machine.execHteExpiry h s
  | .quarantineEnd h => Sys2Proof.Machine.execQuarantineEnd h s
  | .atomicQueueGrant ch => Sys2Proof.Machine.execAtomicQueueGrant ch s
  | .memoryAtomicStart ch rf => Sys2Proof.Machine.execMemoryAtomicStart ch rf s
  | .memoryAtomicResult ch => Sys2Proof.Machine.execMemoryAtomicResult ch s
  | .decayPass => Sys2Proof.Machine.execDecayPass s
  | .mirrorWrite layer => Sys2Proof.Machine.execMirrorWrite layer s
  | .deckGroomVisit set e => Sys2Proof.Machine.execDeckGroomVisit set e s
  | .walkClear a slot => Sys2Proof.Machine.execWalkClear a slot s
  | .walkVisit e => Sys2Proof.Machine.execWalkVisit e s
  | .walkArrival h e => Sys2Proof.Machine.execWalkArrival h e s
  | .walkOrderDone => Sys2Proof.Machine.execWalkOrderDone s
  | .bucketLeak => Sys2Proof.Machine.execBucketLeak s
  | .spareCmd a mirror set => Sys2Proof.Machine.execSpareCmd a mirror set s
  | .spareCopyDone uncorrectable => Sys2Proof.Machine.execSpareCopyDone uncorrectable s
  | .dramReadReturn r rf => Sys2Proof.Machine.execDramReadReturn r rf s
  | .missRegisterGrant e => Sys2Proof.Machine.execMissRegisterGrant e s
  | .mbAgeClose n => Sys2Proof.Machine.execMbAgeClose n s
  | .mbPressureClose => Sys2Proof.Machine.execMbPressureClose s
  | .mbIssue n e => Sys2Proof.Machine.execMbIssue n e s
  | .mbEntryFree n => Sys2Proof.Machine.execMbEntryFree n s
  | .mbEntryGrant => Sys2Proof.Machine.execMbEntryGrant s
  | .hlcEnable a v => Sys2Proof.Machine.execHlcEnable a v s
  | .hlcInvStart a => Sys2Proof.Machine.execHlcInvStart a s
  | .hlcInvDone => Sys2Proof.Machine.execHlcInvDone s
  | .hlcCeWriteback set way => Sys2Proof.Machine.execHlcCeWriteback set way s
  | .memTrainStart a => Sys2Proof.Machine.execMemTrainStart a s
  | .memTrainDone fails => Sys2Proof.Machine.execMemTrainDone fails s
  | .refresh ch => Sys2Proof.Machine.execRefresh ch s
  | .pprCopyDone faults => Sys2Proof.Machine.execPprCopyDone faults s
  | .spprWaitEnd => Sys2Proof.Machine.execSpprWaitEnd s
  | .pprDone refused => Sys2Proof.Machine.execPprDone refused s
  | .hppr a v => Sys2Proof.Machine.execHppr a v s
  | .groomRead ch rf => Sys2Proof.Machine.execGroomRead ch rf s
  | .groomRepair h rf => Sys2Proof.Machine.execGroomRepair h rf s
  | .groomPeriodEnd ch => Sys2Proof.Machine.execGroomPeriodEnd ch s
  | .ddrAlert ch => Sys2Proof.Machine.execDdrAlert ch s
  | .writeQueueStall ch => Sys2Proof.Machine.execWriteQueueStall ch s
  | .jctMemberRequest h e => Sys2Proof.Machine.execJctMemberRequest h e s
  | .jctMemberWriteback w e => Sys2Proof.Machine.execJctMemberWriteback w e s
  | .sin e => Sys2Proof.Machine.execSin e s
  | .sfs e => Sys2Proof.Machine.execSfs e s
  | .sfo e => Sys2Proof.Machine.execSfo e s
  | .sfc e => Sys2Proof.Machine.execSfc e s
  | .src e => Sys2Proof.Machine.execSrc e s
  | .swp e => Sys2Proof.Machine.execSwp e s
  | .jctSnoopDeferred h e => Sys2Proof.Machine.execJctSnoopDeferred h e s
  | .jctSnoopHteGrant => Sys2Proof.Machine.execJctSnoopHteGrant s
  | .nodeIdWrite a v => Sys2Proof.Machine.execNodeIdWrite a v s
  | .roleWrite a v => Sys2Proof.Machine.execRoleWrite a v s
  | .listenEnd => Sys2Proof.Machine.execListenEnd s
  | .clm => Sys2Proof.Machine.execClm s
  | .claimResend => Sys2Proof.Machine.execClaimResend s
  | .claimWaitTimeout => Sys2Proof.Machine.execClaimWaitTimeout s
  | .settleEnd => Sys2Proof.Machine.execSettleEnd s
  | .beacon => Sys2Proof.Machine.execBeacon s
  | .sma => Sys2Proof.Machine.execSma s
  | .beaconLoss => Sys2Proof.Machine.execBeaconLoss s
  | .fabricThrowStart a => Sys2Proof.Machine.execFabricThrowStart a s
  | .thrPrepare => Sys2Proof.Machine.execThrPrepare s
  | .prepareCheckDone => Sys2Proof.Machine.execPrepareCheckDone s
  | .thrFlip => Sys2Proof.Machine.execThrFlip s
  | .thrAbort => Sys2Proof.Machine.execThrAbort s
  | .tha => Sys2Proof.Machine.execTha s
  | .throwTimeout => Sys2Proof.Machine.execThrowTimeout s
  | .cpl => Sys2Proof.Machine.execCpl s
  | .cplResend => Sys2Proof.Machine.execCplResend s
  | .cplStart a => Sys2Proof.Machine.execCplStart a s
  | .admitTargetTimeout => Sys2Proof.Machine.execAdmitTargetTimeout s
  | .ucpPlanned => Sys2Proof.Machine.execUcpPlanned s
  | .ucpSurprise => Sys2Proof.Machine.execUcpSurprise s
  | .ucpRestored => Sys2Proof.Machine.execUcpRestored s
  | .lostEditResend node => Sys2Proof.Machine.execLostEditResend node s
  | .slotEditAdmit a f => Sys2Proof.Machine.execSlotEditAdmit a f s
  | .slotEditClear a f => Sys2Proof.Machine.execSlotEditClear a f s
  | .slotEditLost a f => Sys2Proof.Machine.execSlotEditLost a f s
  | .slotEmpty slot => Sys2Proof.Machine.execSlotEmpty slot s
  | .registerWrite a addr v => Sys2Proof.Machine.execRegisterWrite a addr v s
  | .rejectClear a => Sys2Proof.Machine.execRejectClear a s
  | .lock a => Sys2Proof.Machine.execLock a s
  | .portCfgWrite a p v => Sys2Proof.Machine.execPortCfgWrite a p v s
  | .counterLowRead a n => Sys2Proof.Machine.execCounterLowRead a n s
  | .counterHighRead a n => Sys2Proof.Machine.execCounterHighRead a n s
  | .timeLoRead a => Sys2Proof.Machine.execTimeLoRead a s
  | .cfgReadRequest => Sys2Proof.Machine.execCfgReadRequest s
  | .cfgWriteRequest => Sys2Proof.Machine.execCfgWriteRequest s
  | .cfgQueueEntry => Sys2Proof.Machine.execCfgQueueEntry s
  | .cfgTableRead a w => Sys2Proof.Machine.execCfgTableRead a w s
  | .cfgTableWrite a w => Sys2Proof.Machine.execCfgTableWrite a w s
  | .trkProbe a w => Sys2Proof.Machine.execTrkProbe a w s
  | .dirProbe a w => Sys2Proof.Machine.execDirProbe a w s
  | .predictorRead a w => Sys2Proof.Machine.execPredictorRead a w s
  | .predictorWrite a w => Sys2Proof.Machine.execPredictorWrite a w s
  | .fabTableRead a w => Sys2Proof.Machine.execFabTableRead a w s
  | .fabTableWrite a w => Sys2Proof.Machine.execFabTableWrite a w s
  | .pprWindowRead a w => Sys2Proof.Machine.execPprWindowRead a w s
  | .eicSourceRead a w => Sys2Proof.Machine.execEicSourceRead a w s
  | .eicSourceWrite a w => Sys2Proof.Machine.execEicSourceWrite a w s
  | .pmcCounterRead a w => Sys2Proof.Machine.execPmcCounterRead a w s
  | .pmcCounterWrite a w => Sys2Proof.Machine.execPmcCounterWrite a w s
  | .snapshotRead a w => Sys2Proof.Machine.execSnapshotRead a w s
  | .windowComplete w e => Sys2Proof.Machine.execWindowComplete w e s
  | .copyStart a => Sys2Proof.Machine.execCopyStart a s
  | .copyDone => Sys2Proof.Machine.execCopyDone s
  | .throwStart a => Sys2Proof.Machine.execThrowStart a s
  | .throwCheckDone => Sys2Proof.Machine.execThrowCheckDone s
  | .drainEnd => Sys2Proof.Machine.execDrainEnd s
  | .evinChange n level => Sys2Proof.Machine.execEvinChange n level s
  | .evinCfgWrite a n v => Sys2Proof.Machine.execEvinCfgWrite a n v s
  | .doorbell a source => Sys2Proof.Machine.execDoorbell a source s
  | .pendingClear a k v => Sys2Proof.Machine.execPendingClear a k v s
  | .claim a n => Sys2Proof.Machine.execClaim a n s
  | .eoi a n source => Sys2Proof.Machine.execEoi a n source s
  | .complete a n source => Sys2Proof.Machine.execComplete a n source s
  | .evtSend n => Sys2Proof.Machine.execEvtSend n s
  | .evtResend n => Sys2Proof.Machine.execEvtResend n s
  | .evtStall n => Sys2Proof.Machine.execEvtStall n s
  | .dmtEnable a v => Sys2Proof.Machine.execDmtEnable a v s
  | .firstKey a => Sys2Proof.Machine.execFirstKey a s
  | .secondKey a cycles => Sys2Proof.Machine.execSecondKey a cycles s
  | .dmtExpiry => Sys2Proof.Machine.execDmtExpiry s
  | .graceExpiry => Sys2Proof.Machine.execGraceExpiry s
  | .recordTake => Sys2Proof.Machine.execRecordTake s
  | .deviceWriteDone o => Sys2Proof.Machine.execDeviceWriteDone o s
  | .wipTimeout => Sys2Proof.Machine.execWipTimeout s
  | .restorePrimary a => Sys2Proof.Machine.execRestorePrimary a s
  | .restoreMirror a => Sys2Proof.Machine.execRestoreMirror a s
  | .softwareRecord a severity => Sys2Proof.Machine.execSoftwareRecord a severity s
  | .tailLatch a index => Sys2Proof.Machine.execTailLatch a index s
  | .jrc => Sys2Proof.Machine.execJrc s
  | .headSearchStart => Sys2Proof.Machine.execHeadSearchStart s
  | .headSearchDone => Sys2Proof.Machine.execHeadSearchDone s
  | .periodicCapture => Sys2Proof.Machine.execPeriodicCapture s
  | .capture a => Sys2Proof.Machine.execCapture a s
  | .dumpEnable a v => Sys2Proof.Machine.execDumpEnable a v s
  | .dumpPieceSend => Sys2Proof.Machine.execDumpPieceSend s
  | .dumpAbandon => Sys2Proof.Machine.execDumpAbandon s
  | .ttd => Sys2Proof.Machine.execTtd s
  | .whistleTrigger a => Sys2Proof.Machine.execWhistleTrigger a s
  | .whistleFall => Sys2Proof.Machine.execWhistleFall s
  | .whistleDriveEnd => Sys2Proof.Machine.execWhistleDriveEnd s
  | .whistleCapture => Sys2Proof.Machine.execWhistleCapture s
  | .captureDone => Sys2Proof.Machine.execCaptureDone s
  | .auditComplete => Sys2Proof.Machine.execAuditComplete s
  | .whistleArm a => Sys2Proof.Machine.execWhistleArm a s
  | .clrMissed a => Sys2Proof.Machine.execClrMissed a s
  | .levelMarkCrossUp n => Sys2Proof.Machine.execLevelMarkCrossUp n s
  | .levelMarkCrossDown n => Sys2Proof.Machine.execLevelMarkCrossDown n s
  | .levelMarkClear a n => Sys2Proof.Machine.execLevelMarkClear a n s
  | .levelMarkSelect a n marks v => Sys2Proof.Machine.execLevelMarkSelect a n marks v s
  | .spaStart a v => Sys2Proof.Machine.execSpaStart a v s
  | .spaFrameDone rx => Sys2Proof.Machine.execSpaFrameDone rx s
  | .spaRelease a => Sys2Proof.Machine.execSpaRelease a s
  | .spbWrite addr v ready => Sys2Proof.Machine.execSpbWrite addr v ready s
  | .spbRead addr ready => Sys2Proof.Machine.execSpbRead addr ready s
  | .spbResult ready => Sys2Proof.Machine.execSpbResult ready s
  | .spbPair addr v1 v2 cycles ready => Sys2Proof.Machine.execSpbPair addr v1 v2 cycles ready s
  | .spbFrameEnd end_ => Sys2Proof.Machine.execSpbFrameEnd end_ s
  | .spbRoleWrite a v => Sys2Proof.Machine.execSpbRoleWrite a v s
  | .spbStart a v => Sys2Proof.Machine.execSpbStart a v s
  | .spbTransferDone rx => Sys2Proof.Machine.execSpbTransferDone rx s
  | .modeFault bits rx => Sys2Proof.Machine.execModeFault bits rx s
  | .softResetHlc a => Sys2Proof.Machine.execSoftResetHlc a s
  | .softResetEic a => Sys2Proof.Machine.execSoftResetEic a s
  | .softResetPmc a => Sys2Proof.Machine.execSoftResetPmc a s
  | .softResetSpi a => Sys2Proof.Machine.execSoftResetSpi a s
  | .softResetDone blk => Sys2Proof.Machine.execSoftResetDone blk s
  | .recoveryExit p => Sys2Proof.Machine.execRecoveryExit p s
  | .spu e => Sys2Proof.Machine.execSpu e s
  | .tap op => Sys2Proof.Machine.execTap op s

end Sys2Proof.Machine
end

