-- ==== Sys2Proof/Machine/Tick.lean ====
section
/-! DEFINITION. One STMP tick, which passes when no command waits (assumption log, entry 6): what the spec ties to each
tick of the 100 MHz clock. The time-driven events that have rows of their own stay commands. -/

namespace Sys2Proof.Machine

/-- Global time on one tick: 10 ns, or 9 to 11 while the offset from the time parent is slewed away (R534). -/
def timeTick (m : Core) : Core :=
  let o := timeOffset m
  let go := m.fab.parent.isSome
  if go && decide (0 < o) then setOffset { m with time := m.time + 11 } (o - 1)
  else if go && decide (o < 0) then setOffset { m with time := m.time + 9 } (o + 1)
  else { m with time := m.time + 10 }

/-- The quotient of R766. -/
def periodQuot (m : Core) (t : BitVec 64) : Nat := t.toNat / (1000 * rfld m 0x3084 19 0)

/-- The captures of one tick (R766, R767, R800). -/
def captureTick (m : Core) : Core :=
  let due := decide (periodQuot m m.time ≠ periodQuot m m.pmc.lastTime)
  let m := modPmc m fun p => { p with lastTime := m.time }
  let m := if due then periodicCapture m else m
  if m.pmc.capDue then captureW m 0 else m

/-- What one tick does in the blocks that the main PLL clocks: four MGMT cycles of the level-sensed pins (R662), the
drive of WHISTLE_N (R782), the captures and the level marks (R791). -/
def mgmtTick (m : Core) : Core :=
  let m := evinCycle (evinCycle (evinCycle (evinCycle m)))
  let m := if m.whs.drivePend then modWhs m fun w => { w with drivePend := false, driving := true } else m
  lmAll (captureTick m)

/-- A tick in which no command uses a memory channel: its 16 MEMC cycles give the queued writes of each channel 16 command
slots (R443; assumption log, entry 72). -/
def memTick (m : Core) : Core := (List.range 8).foldl (fun m ch => wqDrain m ch 16) m

/-- The dead-man timer counts on its clock: STMP, or DMTO where DMT.CTL.clk_sel selects it (R691; assumption log, entry
80). -/
def dmtClock (m : Core) : Core := if rbit m 0x2800 1 && !Config.dmtoEdge m.stmp then m else dmtTick m

/-- One STMP tick of everything but the DRAM. -/
def tickCore (m : Core) : Core :=
  if !awake m || m.pins.refclkStopped then m else
    let m := timeTick { m with stmp := m.stmp + 1 }
    let m := dmtClock m
    if running m then memTick (mgmtTick m) else m

/-- One STMP tick. -/
def tick (s : State) : State := { s with m := tickCore s.m }

end Sys2Proof.Machine
end

