-- ==== Sys2Proof/Machine/Step.lean ====
section
/-! DEFINITION. One step of the block: the command at the front of the queue, or one STMP tick when none waits. -/

namespace Sys2Proof.Machine

/-- One step: the waiting command at the front is taken and has its effect on the rest; with no command waiting, one
STMP tick passes (assumption log, entry 6). -/
def step (s : State) : Host.Outcome State Fault Refusal :=
  match s.pending with
  | [] => .next (Sys2Proof.Machine.tick s)
  | c :: r => exec c { s with pending := r }

/-- The machine with the command that a word spells put at the front of its queue; no row of the table has bits, so no
word spells a command and the machine is unchanged. -/
def State.withFetchWord (s : State) (nbits w : Nat) : State :=
  match Sys2Proof.decodeTableWord nbits w with
  | none => s
  | some c => { s with pending := c :: s.pending }

end Sys2Proof.Machine
end

