-- ==== Sys2Proof/Safety.lean ====
section
/-! DEFINITION. What the claims about the block speak of: the parts of the machine and which of them a command leaves
alone, the registers it leaves alone, the condition under which a register write is accepted, and the invariants. -/

namespace Sys2Proof.Machine

/-- The parts of the machine, one for each field of `Core`. -/
inductive Part where
  | stmp | time | regs | hold | timeHold | lmb | cfgq | wins | cfg | ports | bcasts | inbox | trk | deck | ca | atm
  | mem | fab | fab2 | eic | dmt | jnl | pmc | whs | spi | boot | tap | pins | free
  deriving DecidableEq, Repr

/-- Whether two machines agree in a part. -/
def Core.agree (m n : Core) : Part → Prop
  | .stmp => n.stmp = m.stmp
  | .time => n.time = m.time
  | .regs => n.regs = m.regs
  | .hold => n.hold = m.hold
  | .timeHold => n.timeHold = m.timeHold
  | .lmb => n.lmb = m.lmb
  | .cfgq => n.cfgq = m.cfgq
  | .wins => n.wins = m.wins
  | .cfg => n.cfg = m.cfg
  | .ports => n.ports = m.ports
  | .bcasts => n.bcasts = m.bcasts
  | .inbox => n.inbox = m.inbox
  | .trk => n.trk = m.trk
  | .deck => n.deck = m.deck
  | .ca => n.ca = m.ca
  | .atm => n.atm = m.atm
  | .mem => n.mem = m.mem
  | .fab => n.fab = m.fab
  | .fab2 => n.fab2 = m.fab2
  | .eic => n.eic = m.eic
  | .dmt => n.dmt = m.dmt
  | .jnl => n.jnl = m.jnl
  | .pmc => n.pmc = m.pmc
  | .whs => n.whs = m.whs
  | .spi => n.spi = m.spi
  | .boot => n.boot = m.boot
  | .tap => n.tap = m.tap
  | .pins => n.pins = m.pins
  | .free => n.free = m.free

/-- Every part of the machine but those listed is as it was. -/
def Core.onlyParts (ps : List Part) (m n : Core) : Prop := ∀ p, p ∉ ps → m.agree n p

/-- Every register but those listed is as it was. -/
def Core.onlyRegs (as : List Nat) (m n : Core) : Prop := ∀ a, a ∉ as → rget n a = rget m a

/-- A command has changed nothing but the listed parts of the machine: the DRAM content and the queue of waiting
commands are as they were too. -/
def State.only (ps : List Part) (s t : State) : Prop :=
  s.m.onlyParts ps t.m ∧ t.dram = s.dram ∧ t.pending = s.pending

/-- The parts that a report changes (R648, R758, R780): the EIC's and the counters' registers, the sources, the
performance counters and the whistle. -/
def Part.report : List Part := [.regs, .eic, .pmc, .whs]

/-- The registers that a report changes: EIC.COALESCE_COUNT, EIC.COALESCE_LAST and PMC.OVF_0 to PMC.OVF_3. -/
def reportRegs : List Nat := [0x2440, 0x2444, 0x3010, 0x3014, 0x3018, 0x301C]

/-- The registers that a journal record changes beside those of a report: the second word of JNL.STATUS (R728). -/
def journalRegs : List Nat := 0x2C20 :: reportRegs

/-- An LMB write of a value to an address is accepted: the clocks run and no check of Table CTL-7 fails (R972). -/
abbrev Accepted (s : State) (a : Lmb) (addr : Nat) (v : Word) : Prop :=
  running s.m = true ∧ writeCode s.m (lmbWho a) addr v = 0

/-- The LMB reports an access that was not rejected (R594). -/
def lmbOk (m : Core) : Prop := m.lmb.ok = true ∧ m.lmb.code = 0

/-- The addresses whose writes do nothing beyond storing their fields: no command register, no key, no window command,
no register of a port, a target, an EVIN pin, a level mark or a counter view. -/
def plainAddr (a : Nat) : Bool :=
  !([0x1C, 0x20, 0x3C, 0x44, 0x404, 0x408, 0x1008, 0x1030, 0x1400, 0x1408, 0x1804, 0x1840, 0x2020, 0x2030, 0x2048, 0x2448,
      0x2800, 0x2810, 0x2C04, 0x2C80, 0x2CA0, 0x3088, 0x30A0, 0x3400, 0x3404, 0x3810, 0x3844, 0x3C34].contains a)
    && !inBlock 0x800 8 a && !inBlock 0x900 16 a && !inBlock 0x2400 8 a && !(decide (0x2480 ≤ a) && decide (a < 0x2500))
    && !inBlock 0x2500 16 a && !isView a && !(decide (0x3480 ≤ a) && decide (a < 0x3680)) && (winOfCmd a).isNone

/-- The invariant of the DRAM: its content is in its canonical form. -/
def State.Inv (s : State) : Prop := Memory.wf s.dram = true

end Sys2Proof.Machine
end

