-- ==== Sys2Proof/WellFormed.lean ====
section
/-! DEFINITION. Well-formed commands: the operands that the environment of the block can present. An ill-formed term
names a report that no device makes: a sensor sample without seven rails, a fault twice in one word, more received units
than there are data registers. Every command is total all the same; a well-formedness check refuses nothing that the
spec lets a sender present, such as an address out of range or a master that R588 rejects. -/

namespace Sys2Proof

/-- The supply rails that R939 monitors. -/
def railCount : Nat := 7

/-- The data registers SPA.DATA_0 to SPA.DATA_7 and SPB.DATA_0 to SPB.DATA_7 (R809, R834). -/
def unitCount : Nat := 8

/-- The length of a Kalpor image copy at most (R633, Table CTL-4). -/
def imageMax : Nat := 65536

/-- Each word of a set is read once: no fault of a way stands twice in the list of what the read met. -/
def Env.wf (e : Env) : Bool := decide e.deck.Nodup

/-- What a command's operands must satisfy. -/
def Instr.wf : Instr → Bool
  | .mbistDone fails => decide fails.Nodup
  | .sensorSample _ mv => decide (mv.length = railCount)
  | .imageCopyRead bytes => decide (bytes.length ≤ imageMax)
  | .memTrainDone fails => decide (fails.map (fun f => f.1)).Nodup
  | .pprCopyDone faults => decide (faults.map (fun f => f.1)).Nodup
  | .spaFrameDone rx | .spbTransferDone rx | .modeFault _ rx => decide (rx.length ≤ unitCount)
  | .queueHeadDecision _ e | .rds _ e | .rdo _ e | .rdc _ e | .upg _ e | .wrl _ e | .wrp _ e | .wst _ e | .atm _ e
  | .fls _ e | .wbd _ e | .wbe _ e | .wbs _ e | .cmp e | .ria e | .rsa e | .rwp e | .dhm e | .wayRetry _ e
  | .alcRetry _ e | .deckGroomVisit _ e | .walkVisit e | .walkArrival _ e | .missRegisterGrant e | .mbIssue _ e
  | .jctMemberRequest _ e | .jctMemberWriteback _ e | .sin e | .sfs e | .sfo e | .sfc e | .src e | .swp e
  | .jctSnoopDeferred _ e | .windowComplete _ e | .spu e => e.wf
  | _ => true

end Sys2Proof
end

