-- ==== Sys2Proof/Certificates/Slice0/Obligations.lean ====
section
/-! DEFINITION. The statements about the block. A clause of the form `∃ t, exec c s = .next t ∧ …` says that the
command completes in every state that meets its hypotheses, and what the next state holds; `State.only`,
`Core.onlyRegs` (Sys2Proof/Safety.lean) say what it leaves alone. -/

open Sys2Proof Sys2Proof.Machine

/-! ### Registers over the LMB (spec/00_scope.md, spec/12_control_plane.md) -/

/-- R10, Table SCP-3: what a write leaves in each bit of a register, by the access type of the bit's field. -/
def Obligations.WrittenBitsFollowTheirAccessType : Prop :=
  ∀ (addr : Nat) (r : RegDesc) (f : FieldDesc) (old v : Word) (i : Nat),
    regAt addr = some r → f ∈ r.fields → f.lo ≤ i → i ≤ f.hi →
    bit (storeFields r old v) i =
      match f.acc with
      | .rw | .rwl => bit v i
      | .w1c => bit old i && !bit v i
      | .w1s => bit old i || bit v i
      | .ro | .wo | .wk => bit old i

/-- REGISTER_WRITE: an accepted write to a register without behaviour of its own sets its fields by their access
types, reports success, and changes nothing else (R10, R14 to R16). -/
def Obligations.RegisterWriteSetsItsFields : Prop :=
  ∀ (s : State) (a : Lmb) (n : BitVec 14) (v : Word) (r : RegDesc),
    Accepted s a (4 * n.toNat) v → regAt (4 * n.toNat) = some r → plainAddr (4 * n.toNat) = true →
    ∃ t, exec (.registerWrite a n v) s = .next t
      ∧ rget t.m (4 * n.toNat) = storeFields r (rget s.m (4 * n.toNat)) v
      ∧ lmbOk t.m ∧ s.only [.regs, .lmb] t ∧ s.m.onlyRegs [4 * n.toNat] t.m

/-- R14, R15, R598: a rejected write changes nothing but the reject record, and completes with the error indication. The
codes that touch the dead-man timer too (R703, R707) are left out. -/
def Obligations.RejectedWriteChangesOnlyTheRecord : Prop :=
  ∀ (s : State) (a : Lmb) (n : BitVec 14) (v : Word),
    running s.m = true → writeCode s.m (lmbWho a) (4 * n.toNat) v ≠ 0 → 4 * n.toNat ≠ 0x2810 →
    ∃ t, exec (.registerWrite a n v) s = .next t
      ∧ t.m.lmb = accRej (writeCode s.m (lmbWho a) (4 * n.toNat) v)
      ∧ rfld t.m 0x30 31 24 = writeCode s.m (lmbWho a) (4 * n.toNat) v
      ∧ rfld t.m 0x30 23 21 = a.mid.toNat ∧ rbit t.m 0x30 20 = false ∧ rbit t.m 0x30 19 = false
      ∧ rfld t.m 0x30 15 0 = 4 * n.toNat
      ∧ rget t.m 0x38 = BitVec.ofNat 32 (min ((rget s.m 0x38).toNat + 1) 0xFFFFFFFF)
      ∧ rget t.m 0x34 = (if rfld s.m 0x34 31 24 = 0 then rget t.m 0x30 else rget s.m 0x34)
      ∧ s.only [.regs, .lmb] t ∧ s.m.onlyRegs [0x30, 0x34, 0x38] t.m

/-- R588, R589: an LMB access of MID 6 or 7, and an unprivileged write to any register but DMT.SERVICE, is rejected with
NOT_PRIVILEGED. R602: while the lock is set, a privileged LMB write to a register with an RWL field is rejected with LOCKED
and the register keeps its value, whatever is written. -/
def Obligations.UnprivilegedAndLockedWritesAreRejected : Prop :=
  (∀ (s : State) (a : Lmb) (n : BitVec 14) (v : Word), running s.m = true →
    (6 ≤ a.mid.toNat ∨ (a.priv = false ∧ (regAt (4 * n.toNat)).isSome = true ∧ 4 * n.toNat ≠ 0x2810)) →
    writeCode s.m (lmbWho a) (4 * n.toNat) v = 4
      ∧ ∃ t, exec (.registerWrite a n v) s = .next t ∧ t.m.lmb = ⟨false, 4, 0⟩) ∧
  (∀ (s : State) (a : Lmb) (n : BitVec 14) (v : Word) (r : RegDesc),
    running s.m = true → rbit s.m 0x2C 0 = true → a.mid.toNat < 6 → a.priv = true → s.m.boot.applying = false →
    regAt (4 * n.toNat) = some r → r.hasRwl = true →
    ∃ t, exec (.registerWrite a n v) s = .next t ∧ t.m.lmb = ⟨false, 3, 0⟩
      ∧ rget t.m (4 * n.toNat) = rget s.m (4 * n.toNat))

/-- LOCK, REJECT_CLEAR, NODE_ID_WRITE, ROLE_WRITE: accepted writes of the GEN bank take effect (R23, R437, R514, R599,
R601). The last two clauses say R23 and R599 of every master that can write a register. -/
def Obligations.GenWritesTakeEffect : Prop :=
  (∀ (s : State) (a : Lmb), Accepted s a 0x2C 1 →
    ∃ t, exec (.lock a) s = .next t ∧ rbit t.m 0x2C 0 = true ∧ lmbOk t.m ∧ s.only [.regs, .lmb] t
      ∧ s.m.onlyRegs [0x2C] t.m) ∧
  (∀ (s : State) (a : Lmb), Accepted s a 0x3C 1 →
    ∃ t, exec (.rejectClear a) s = .next t ∧ rget t.m 0x34 = 0 ∧ rget t.m 0x38 = 0 ∧ lmbOk t.m ∧ s.only [.regs, .lmb] t
      ∧ s.m.onlyRegs [0x34, 0x38] t.m) ∧
  (∀ (s : State) (a : Lmb) (v : Word), Accepted s a 0x20 v →
    ∃ t, exec (.nodeIdWrite a v) s = .next t ∧ nodeId t.m = v.extractLsb' 0 16 ∧ nodeValid t.m = true ∧ lmbOk t.m
      ∧ s.only [.regs, .lmb] t ∧ s.m.onlyRegs [0x20] t.m) ∧
  (∀ (s : State) (a : Lmb) (v : Word), Accepted s a 0x1C v →
    ∃ t, exec (.roleWrite a v) s = .next t ∧ role t.m = fld v 1 0
      ∧ split t.m = (if fld v 1 0 = 0 then 8 else if fld v 1 0 = 1 then 0 else 4)
      ∧ t.m.mem.ready = decide (fld v 1 0 = 1) ∧ lmbOk t.m
      ∧ s.only [.regs, .lmb, .mem] t ∧ s.m.onlyRegs [0x1C, 0x1000] t.m) ∧
  (∀ (m : Core) (w : Who) (g : Option Msg) (v : Word), writeCode m w 0x1C v = 0 →
    split (regWrite m w g 0x1C v).2 = (if fld v 1 0 = 0 then 8 else if fld v 1 0 = 1 then 0 else 4)) ∧
  (∀ (m : Core) (w : Who) (g : Option Msg) (v : Word), writeCode m w 0x3C v = 0 → bit v 0 = true →
    rget (regWrite m w g 0x3C v).2 0x34 = 0 ∧ rget (regWrite m w g 0x3C v).2 0x38 = 0
      ∧ rget (regWrite m w g 0x3C v).2 0x30 = rget m 0x30)

/-- PORT_CFG_WRITE, BOOT_RELOAD, LINK_RESET: accepted writes of the port and boot controls take effect (R58, R251, R639,
R869): the port's fields hold the written values, a change of an x8 port's bifurcate bit loads the defaults of its virtual
channels in both sets, a reload begins reading copy A, and link_reset brings the port down. -/
def Obligations.PortAndBootWritesTakeEffect : Prop :=
  (∀ (s : State) (a : Lmb) (p : PortIx) (v : Word), Accepted s a (0x800 + 4 * p.val) v →
    ∃ t, exec (.portCfgWrite a p v) s = .next t
      ∧ rbit t.m (0x800 + 4 * p.val) 4 = bit v 4 ∧ rfld t.m (0x800 + 4 * p.val) 1 0 = fld v 1 0
      ∧ (p.val < 8 → bifurcated t.m p.val = bit v 8)
      ∧ (p.val < 8 → bifurcated s.m p.val = false → bit v 8 = true → ∀ e : Bool, ∀ vc : Fin 12,
          allotOf (setOf t.m e) p.val vc.val = defaultAllot false vc.val
            ∧ allotOf (setOf t.m e) (p.val + 8) vc.val = defaultAllot false vc.val)
      ∧ (p.val < 8 → bifurcated s.m p.val = true → bit v 8 = false → ∀ e : Bool, ∀ vc : Fin 12,
          allotOf (setOf t.m e) p.val vc.val = defaultAllot true vc.val)
      ∧ lmbOk t.m ∧ s.only [.regs, .lmb, .cfg] t ∧ s.m.onlyRegs [0x800 + 4 * p.val] t.m) ∧
  (∀ (s : State) (a : Lmb), Accepted s a 0x44 1 →
    ∃ t, exec (.bootReload a) s = .next t ∧ t.m.boot.loading = 1 ∧ t.m.boot.ended = false ∧ t.m.boot.recs = []
      ∧ rget t.m 0x40 = 0 ∧ lmbOk t.m ∧ s.only [.regs, .lmb, .boot, .spi] t ∧ s.m.onlyRegs [0x40, 0x3814] t.m) ∧
  (∀ (s : State) (a : Lmb) (p : PortIx), Accepted s a (0x900 + 4 * p.val) 1 → rbit s.m (0x900 + 4 * p.val) 0 = false →
    ∃ t, exec (.linkReset a p) s = .next t ∧ rbit t.m (0x900 + 4 * p.val) 0 = true ∧ (port t.m p.val).link = .down
      ∧ (port t.m p.val).replayBuf = [] ∧ (port t.m p.val).vcs = [] ∧ lmbOk t.m)

/-- COUNTER_LOW_READ, COUNTER_HIGH_READ, TIME_LO_READ: privileged LMB reads of the halves of a 48-bit counter and of
global time (R611, R612, R879). The low half of the live counter that the master's view selects is returned and its high
half latched; a read of the high half returns the latch; neither changes anything else. -/
def Obligations.SplitReadsLatchTheHighHalf : Prop :=
  (∀ (s : State) (a : Lmb) (i : Fin 8), running s.m = true → a.mid.toNat < 6 → a.priv = true →
    softHeld s.m 2 = false → viewSource s.m a.mid.toNat = 0 →
    ∃ t, exec (.counterLowRead a i) s = .next t
      ∧ t.m.lmb = accOk (BitVec.ofNat 32 (tget 0 s.m.pmc.ctr (8 * viewGroup s.m a.mid.toNat + i.val)))
      ∧ tget 0 t.m.hold a.mid.toNat
          = BitVec.ofNat 32 (tget 0 s.m.pmc.ctr (8 * viewGroup s.m a.mid.toNat + i.val) / 2 ^ 32)
      ∧ s.only [.lmb, .hold] t) ∧
  (∀ (s : State) (a : Lmb) (i : Fin 8), running s.m = true → a.mid.toNat < 6 → a.priv = true → softHeld s.m 2 = false →
    ∃ t, exec (.counterHighRead a i) s = .next t ∧ t.m.lmb = accOk (tget 0 s.m.hold a.mid.toNat) ∧ s.only [.lmb] t) ∧
  (∀ (s : State) (a : Lmb), running s.m = true → a.mid.toNat < 6 → a.priv = true →
    ∃ t, exec (.timeLoRead a) s = .next t ∧ t.m.lmb = accOk (s.m.time.extractLsb' 0 32)
      ∧ tget 0 t.m.timeHold a.mid.toNat = s.m.time.extractLsb' 32 32 ∧ s.only [.lmb, .timeHold] t)

/-! ### Windows (spec/12_control_plane.md) -/

/-- The command that a window has accepted and not completed. -/
def windowPending (m : Core) (i : WinId) (write : Bool) (w : WinCmd) : Prop :=
  ∃ p, (winOf m i).pend = some p ∧ p.write = write ∧ p.seq = w.seq ∧ p.set = w.set ∧ p.table = w.table.toNat
    ∧ p.index = w.index.toNat

/-- R606: an accepted window command is pending: the window holds its operation, tag, set, table and index, and every
result register of the window reads with valid clear, the tag, and zero. Nothing else changes, but that a write command to
the standby set of the configuration clears copy_done (Table RGF-3). Stated for the fourteen window commands. -/
def Obligations.WindowCommandsBecomePending : Prop :=
  ∀ (s : State) (a : Lmb) (w : WinCmd) (c : Instr) (i : WinId) (write : Bool),
    (c, i, write) ∈ ([(.cfgTableRead a w, .cfg, false), (.cfgTableWrite a w, .cfg, true), (.trkProbe a w, .trk, false),
      (.dirProbe a w, .dir, false), (.predictorRead a w, .atm, false), (.predictorWrite a w, .atm, true),
      (.fabTableRead a w, .fab, false), (.fabTableWrite a w, .fab, true), (.pprWindowRead a w, .ppr, false),
      (.eicSourceRead a w, .eic, false), (.eicSourceWrite a w, .eic, true), (.pmcCounterRead a w, .pmc, false),
      (.pmcCounterWrite a w, .pmc, true), (.snapshotRead a w, .whs, false)] : List (Instr × WinId × Bool)) →
    Accepted s a (winCmd i) (cmdWord write w) →
    ∃ t, exec c s = .next t ∧ windowPending t.m i write w
      ∧ (∀ k, winResult t.m i k = BitVec.ofNat 32 (w.seq.toNat * 2 ^ 27))
      ∧ (∀ j, j ≠ i → winOf t.m j = winOf s.m j)
      ∧ t.m.cfg = (if i = .cfg ∧ write = true ∧ w.set ≠ s.m.cfg.epoch then { s.m.cfg with copyDone := false } else s.m.cfg)
      ∧ lmbOk t.m ∧ s.only [.regs, .lmb, .wins, .cfg] t ∧ s.m.onlyRegs [] t.m

/-- WINDOW_COMPLETE: a pending read command completes with the entry it names, and the window then shows valid and the
command's tag; a pending write command puts its entry in place, and the window shows the entry as written, here for a
configuration set's way mask, a predictor counter, an event source and a performance counter (R607, R608, R610, R657,
R856, R885, R886, R906). -/
def Obligations.WindowCommandsComplete : Prop :=
  (∀ (s : State) (i : WinId) (e : Env) (p : WinPend), running s.m = true → (winOf s.m i).pend = some p → p.write = false →
    ∃ t, exec (.windowComplete i e) s = .next t
      ∧ winOf t.m i = { pend := none, seq := p.seq, valid := true, res := (winRead s.m i p e).1 }
      ∧ (i ≠ .dir → s.only [.wins] t) ∧ s.only [.wins, .free] t) ∧
  (∀ (s : State) (e : Env) (p : WinPend), running s.m = true → p.write = true →
    ((winOf s.m .cfg).pend = some p → p.table = 2 →
      ∃ t, exec (.windowComplete .cfg e) s = .next t
        ∧ tget 0xFFFF (setOf t.m p.set).wayMasks p.index = BitVec.ofNat 16 (wf p.words 0 15 0)
        ∧ setOf t.m (!p.set) = setOf s.m (!p.set) ∧ (winOf t.m .cfg).valid = true ∧ s.only [.wins, .cfg] t) ∧
    ((winOf s.m .atm).pend = some p →
      ∃ t, exec (.windowComplete .atm e) s = .next t ∧ tget 1 t.m.atm.pred p.index = wf p.words 0 1 0
        ∧ (winOf t.m .atm).valid = true ∧ s.only [.wins, .atm] t) ∧
    ((winOf s.m .eic).pend = some p →
      ∃ t, exec (.windowComplete .eic e) s = .next t ∧ srcCfg t.m p.index = (wf p.words 0 3 0, wf p.words 0 5 4)
        ∧ t.m.eic.st = s.m.eic.st ∧ (winOf t.m .eic).valid = true ∧ s.only [.wins, .eic] t) ∧
    ((winOf s.m .pmc).pend = some p →
      ∃ t, exec (.windowComplete .pmc e) s = .next t
        ∧ (ctrCfg t.m p.index).enable = wb p.words 0 12 ∧ (ctrCfg t.m p.index).ovfInt = wb p.words 0 11
        ∧ (ctrCfg t.m p.index).event = BitVec.ofNat 10 (wf p.words 0 9 0)
        ∧ (winOf t.m .pmc).valid = true ∧ s.only [.wins, .pmc] t))

/-! ### Configuration sets (spec/12_control_plane.md) -/

/-- COPY_START, COPY_DONE: a copy makes the standby set equal to the active one (R617). -/
def Obligations.CopyMakesTheSetsEqual : Prop :=
  (∀ (s : State) (a : Lmb), Accepted s a 0x408 1 →
    ∃ t, exec (.copyStart a) s = .next t ∧ t.m.cfg.copying = true ∧ t.m.cfg.copyDone = false
      ∧ t.m.cfg.set0 = s.m.cfg.set0 ∧ t.m.cfg.set1 = s.m.cfg.set1 ∧ lmbOk t.m ∧ s.only [.regs, .lmb, .cfg] t
      ∧ s.m.onlyRegs [] t.m) ∧
  (∀ (s : State), running s.m = true → s.m.cfg.copying = true →
    ∃ t, exec .copyDone s = .next t ∧ t.m.cfg.set0 = setOf s.m s.m.cfg.epoch ∧ t.m.cfg.set1 = setOf s.m s.m.cfg.epoch
      ∧ t.m.cfg.epoch = s.m.cfg.epoch ∧ t.m.cfg.copying = false ∧ t.m.cfg.copyDone = true ∧ isPending t.m 134 = true
      ∧ s.only (.cfg :: Part.report) t ∧ s.m.onlyRegs reportRegs t.m)

/-- THROW_START, THROW_CHECK_DONE, DRAIN_END: an accepted start begins the check and its access stays open; a passed
check flips the epoch and the drain begins; a failed one rejects the write with code 0x08 and records its table, check and
index; the drain ends once no HTE of the previous epoch holds it (R594, R622, R624, R625). -/
def Obligations.ThrowFlipsTheEpoch : Prop :=
  (∀ (s : State) (a : Lmb), Accepted s a 0x404 1 →
    ∃ t, exec (.throwStart a) s = .next t ∧ t.m.cfg.check = .throwCmd
      ∧ t.m.cfg.thrAcc = some (a.mid.toNat, false, none) ∧ t.m.cfg.epoch = s.m.cfg.epoch ∧ t.m.lmb = s.m.lmb
      ∧ s.only [.regs, .cfg] t ∧ s.m.onlyRegs [] t.m) ∧
  (∀ (s : State) (mid : Nat), running s.m = true → s.m.cfg.check = .throwCmd → s.m.cfg.thrAcc = some (mid, false, none) →
    mid < 6 → throwCheck s.m = none →
    ∃ t, exec .throwCheckDone s = .next t ∧ t.m.cfg.epoch = !s.m.cfg.epoch ∧ t.m.cfg.drain = true
      ∧ t.m.cfg.prepared = false ∧ t.m.cfg.check = .idle ∧ t.m.cfg.set0 = s.m.cfg.set0 ∧ t.m.cfg.set1 = s.m.cfg.set1
      ∧ rbit t.m 0x40C 31 = false ∧ lmbOk t.m ∧ s.only [.regs, .lmb, .cfg] t ∧ s.m.onlyRegs [0x40C] t.m) ∧
  (∀ (s : State) (mid : Nat) (f : CheckFail), running s.m = true → s.m.cfg.check = .throwCmd →
    s.m.cfg.thrAcc = some (mid, false, none) → mid < 6 → throwCheck s.m = some f →
    ∃ t, exec .throwCheckDone s = .next t ∧ t.m.cfg.epoch = s.m.cfg.epoch ∧ t.m.cfg.drain = s.m.cfg.drain
      ∧ t.m.cfg.check = .idle ∧ t.m.lmb = ⟨false, 8, 0⟩
      ∧ rget t.m 0x40C = BitVec.ofNat 32 (2 ^ 31 + f.table * 2 ^ 28 + f.code * 2 ^ 24 + f.index)
      ∧ s.only [.regs, .lmb, .cfg] t ∧ s.m.onlyRegs [0x40C, 0x30, 0x34, 0x38] t.m) ∧
  (∀ (s : State), running s.m = true → s.m.cfg.drain = true → drainHeld s.m = false →
    ∃ t, exec .drainEnd s = .next t ∧ t.m.cfg = { s.m.cfg with drain := false } ∧ isPending t.m 128 = true
      ∧ s.only (.cfg :: .ports :: Part.report) t ∧ s.m.onlyRegs reportRegs t.m)

/-- Table CTL-3, checks 0x01 and 0x02: a check passes no set with a valid region whose limit lies below its base, and
none with a class whose way mask is zero (R622). -/
def Obligations.PassedCheckMeansSoundRegions : Prop :=
  ∀ m : Core, throwCheck m = none →
    (∀ x ∈ (setOf m (!m.cfg.epoch)).regions, x.2.valid = true → x.2.basePn ≤ x.2.limitPn) ∧
    (∀ i < 8, tget 0xFFFF (setOf m (!m.cfg.epoch)).wayMasks i ≠ 0)

/-! ### Line caches, memory and directory: controls -/

/-- HLC_ENABLE, HLC_INV_START, MEM_TRAIN_START, HPPR, WALK_CLEAR, SPARE_CMD: accepted writes of the controls of the line
caches, the memory and the directory take effect (R318, R332, R399, R400, R402, R432, R457). -/
def Obligations.BlockControlsTakeEffect : Prop :=
  (∀ (s : State) (a : Lmb) (v : Word), Accepted s a 0x1400 v →
    ∃ t, exec (.hlcEnable a v) s = .next t ∧ hlcOn t.m = bit v 0
      ∧ t.m.ca.invDone = (s.m.ca.invDone && !(hlcOn s.m && !bit v 0)) ∧ lmbOk t.m ∧ s.only [.regs, .lmb, .ca] t
      ∧ s.m.onlyRegs [0x1400] t.m) ∧
  (∀ (s : State) (a : Lmb), Accepted s a 0x1408 1 →
    ∃ t, exec (.hlcInvStart a) s = .next t ∧ t.m.ca.invRunning = true ∧ t.m.ca.invDone = false ∧ lmbOk t.m
      ∧ s.only [.regs, .lmb, .ca] t ∧ s.m.onlyRegs [] t.m) ∧
  (∀ (s : State) (a : Lmb), Accepted s a 0x1804 1 →
    ∃ t, exec (.memTrainStart a) s = .next t ∧ t.m.mem = { s.m.mem with training := true, trainFail := 0 } ∧ lmbOk t.m
      ∧ s.only [.regs, .lmb, .mem] t ∧ s.m.onlyRegs [] t.m) ∧
  (∀ (s : State) (a : Lmb) (v : Word), Accepted s a 0x1840 v → s.m.mem.repair = none →
    ∃ t, exec (.hppr a v) s = .next t ∧ t.m.mem = { s.m.mem with repair := some { row := pprRow v, hard := true } }
      ∧ lmbOk t.m ∧ s.only [.regs, .lmb, .mem] t ∧ s.m.onlyRegs [] t.m) ∧
  (∀ (s : State) (a : Lmb) (slot : BitVec 8), Accepted s a 0x1008 (slot.setWidth 32) →
    (∀ o ∈ s.m.deck.orders, ¬ (o.kind = .clear ∧ o.slot = slot.toNat)) →
    ∃ t, exec (.walkClear a slot) s = .next t
      ∧ t.m.deck = { s.m.deck with orders := s.m.deck.orders ++
          [{ kind := .clear, slot := slot.toNat, left := 262144, need := s.m.deck.walkSerial }] }
      ∧ lmbOk t.m ∧ s.only [.regs, .lmb, .deck] t ∧ s.m.onlyRegs [] t.m) ∧
  (∀ (s : State) (a : Lmb) (mirror : Bool) (set : BitVec 18),
    Accepted s a 0x1030 (BitVec.ofNat 32 (b1 mirror * 2 ^ 31 + set.toNat)) → retired s.m set.toNat = false →
    ∃ t, exec (.spareCmd a mirror set) s = .next t ∧ t.m.deck = { s.m.deck with copying := some ⟨mirror, set⟩ }
      ∧ lmbOk t.m ∧ s.only [.regs, .lmb, .deck] t ∧ s.m.onlyRegs [] t.m)

/-! ### Events (spec/13_interrupts.md) -/

/-- DOORBELL, PENDING_CLEAR, EVIN_CFG_WRITE, EVIN_CHANGE: raising and clearing sources (R649, R653, R660 to R664). -/
def Obligations.SourcesAreRaisedAndCleared : Prop :=
  (∀ (s : State) (a : Lmb) (source : BitVec 8), Accepted s a 0x2448 (source.setWidth 32) →
    ∃ t, exec (.doorbell a source) s = .next t ∧ isPending t.m source.toNat = true ∧ lmbOk t.m
      ∧ s.only (.lmb :: Part.report) t ∧ s.m.onlyRegs reportRegs t.m) ∧
  (∀ (s : State) (a : Lmb) (k : Fin 8) (v : Word), Accepted s a (0x2400 + 4 * k.val) v →
    ∃ t, exec (.pendingClear a k v) s = .next t
      ∧ (∀ j < 32, bit v j = true → isPending t.m (32 * k.val + j) = false)
      ∧ (∀ n, (n / 32 ≠ k.val ∨ bit v (n % 32) = false) → srcSt t.m n = srcSt s.m n)
      ∧ (∀ n, isActive t.m n = isActive s.m n)
      ∧ lmbOk t.m ∧ s.only [.regs, .lmb, .eic] t ∧ s.m.onlyRegs [0x2400 + 4 * k.val] t.m) ∧
  (∀ (s : State) (a : Lmb) (n : Fin 16) (v : Word), Accepted s a (0x2500 + 4 * n.val) v →
    ∃ t, exec (.evinCfgWrite a n v) s = .next t ∧ evinLevel t.m n.val = bit v 1 ∧ evinActive t.m n.val = false
      ∧ tget false t.m.eic.evinKnown n.val = false ∧ (bit v 1 = true → srcSt t.m n.val ≠ .pending)
      ∧ lmbOk t.m ∧ s.only [.regs, .lmb, .eic] t ∧ s.m.onlyRegs [0x2500 + 4 * n.val] t.m) ∧
  (∀ (s : State) (n : Fin 16) (level : Bool), running s.m = true → tget false s.m.eic.evinKnown n.val = true →
    tget false s.m.eic.evin n.val ≠ level →
    ∃ t, exec (.evinChange n level) s = .next t ∧ tget false t.m.eic.evin n.val = level
      ∧ (level = rbit s.m (0x2500 + 4 * n.val) 0 → isPending t.m n.val = true)
      ∧ (level ≠ rbit s.m (0x2500 + 4 * n.val) 0 → evinLevel s.m n.val = true → srcSt t.m n.val ≠ .pending)
      ∧ s.only Part.report t ∧ s.m.onlyRegs reportRegs t.m)

/-- CLAIM, EOI, COMPLETE: a claim of a target with an eligible source makes that source active, shows it in the claim
result and, in STACK mode, pushes it with its level; without one it shows none; an EOI pops the stack and completes the
source; COMPLETE completes a source (R651, R652, R666 to R671). An EOI of a source that is not on top of the target's stack,
and a COMPLETE of a source that is not active, are rejected with WRONG_STATE and change no source (R670, R672). -/
def Obligations.ClaimsAndCompletionsMoveTheSource : Prop :=
  (∀ (s : State) (a : Lmb) (n : Fin 4) (k : Nat), Accepted s a (0x248C + 0x20 * n.val) 1 → selected s.m n.val = some k →
    k < 256 →
    ∃ t, exec (.claim a n) s = .next t ∧ srcSt t.m k = .active
      ∧ (threshMode s.m n.val = false → stackOf t.m n.val = (k, (srcCfg s.m k).1) :: stackOf s.m n.val)
      ∧ (threshMode s.m n.val = true → stackOf t.m n.val = stackOf s.m n.val)
      ∧ rfld t.m (0x2490 + 0x20 * n.val) 8 0 = k ∧ lmbOk t.m ∧ s.only (.lmb :: Part.report) t
      ∧ s.m.onlyRegs ((0x2490 + 0x20 * n.val) :: reportRegs) t.m) ∧
  (∀ (s : State) (a : Lmb) (n : Fin 4), Accepted s a (0x248C + 0x20 * n.val) 1 → selected s.m n.val = none →
    ∃ t, exec (.claim a n) s = .next t ∧ rbit t.m (0x2490 + 0x20 * n.val) 8 = true
      ∧ stackOf t.m n.val = stackOf s.m n.val ∧ lmbOk t.m ∧ s.only (.lmb :: Part.report) t
      ∧ s.m.onlyRegs ((0x2490 + 0x20 * n.val) :: reportRegs) t.m) ∧
  (∀ (s : State) (a : Lmb) (n : Fin 4) (source : BitVec 8), Accepted s a (0x2494 + 0x20 * n.val) (source.setWidth 32) →
    ∃ t, exec (.eoi a n source) s = .next t ∧ stackOf t.m n.val = (stackOf s.m n.val).drop 1
      ∧ (srcSt s.m source.toNat = .active → srcSt t.m source.toNat = .inactive)
      ∧ (srcSt s.m source.toNat = .both → 16 ≤ source.toNat → srcSt t.m source.toNat = .pending)
      ∧ (∀ k, k ≠ source.toNat → srcSt t.m k = srcSt s.m k)
      ∧ lmbOk t.m ∧ s.only [.regs, .lmb, .eic] t ∧ s.m.onlyRegs [] t.m) ∧
  (∀ (s : State) (a : Lmb) (n : Fin 4) (source : BitVec 8), Accepted s a (0x2498 + 0x20 * n.val) (source.setWidth 32) →
    ∃ t, exec (.complete a n source) s = .next t
      ∧ (srcSt s.m source.toNat = .active → srcSt t.m source.toNat = .inactive)
      ∧ (srcSt s.m source.toNat = .both → 16 ≤ source.toNat → srcSt t.m source.toNat = .pending)
      ∧ (∀ k, k ≠ source.toNat → srcSt t.m k = srcSt s.m k) ∧ t.m.eic.stack = s.m.eic.stack
      ∧ lmbOk t.m ∧ s.only [.regs, .lmb, .eic] t ∧ s.m.onlyRegs [] t.m) ∧
  (∀ (s : State) (a : Lmb) (n : Fin 4) (source : BitVec 8), running s.m = true → a.mid.toNat < 6 → a.priv = true →
    s.m.boot.applying = false → softHeld s.m 1 = false → (stackOf s.m n.val).head?.map (·.1) ≠ some source.toNat →
    ∃ t, exec (.eoi a n source) s = .next t ∧ t.m.lmb = ⟨false, 5, 0⟩ ∧ t.m.eic = s.m.eic) ∧
  (∀ (s : State) (a : Lmb) (n : Fin 4) (source : BitVec 8), running s.m = true → a.mid.toNat < 6 → a.priv = true →
    s.m.boot.applying = false → softHeld s.m 1 = false → isActive s.m source.toNat = false →
    ∃ t, exec (.complete a n source) s = .next t ∧ t.m.lmb = ⟨false, 5, 0⟩ ∧ t.m.eic = s.m.eic)

/-- EVT_SEND, EVT_RESEND, EVT_STALL: a waiting `EVT` of a target is sent to its node with the selected source and level; a
resend makes it wait again while the target has an eligible source; one that waits too long sets stalled (R676 to R680).
The sending is stated with no performance counter configured: an overflow's source 176 could make the next `EVT` due. -/
def Obligations.EventsAreSentAndResent : Prop :=
  (∀ (s : State) (n : Fin 4) (k p : Nat), running s.m = true → (tget {} s.m.eic.evt n.val).waiting = true →
    (tget {} s.m.eic.evt n.val).stalled = false → s.m.pmc.cfg = [] → selected s.m n.val = some k →
    BitVec.ofNat 16 (rfld s.m (0x2488 + 0x20 * n.val) 15 0) ≠ nodeId s.m →
    routeOf s.m s.m.cfg.epoch (BitVec.ofNat 16 (rfld s.m (0x2488 + 0x20 * n.val) 15 0)) = some p →
    ∃ t, exec (.evtSend n) s = .next t ∧ (tget {} t.m.eic.evt n.val).waiting = false
      ∧ (tget {} t.m.eic.evt n.val).sent = (tget {} s.m.eic.evt n.val).sent + 1
      ∧ (∃ x ∈ (port t.m p).txq, x.msg.op = .evt ∧ x.msg.dest = BitVec.ofNat 16 (rfld s.m (0x2488 + 0x20 * n.val) 15 0)
          ∧ x.msg.aux = BitVec.ofNat 16 k ∧ x.msg.src = nodeId s.m)
      ∧ s.only [.ports, .eic] t) ∧
  (∀ (s : State) (n : Fin 4) (k : Nat), running s.m = true → rbit s.m (0x2480 + 0x20 * n.val) 2 = true →
    selected s.m n.val = some k →
    ∃ t, exec (.evtResend n) s = .next t ∧ (tget {} t.m.eic.evt n.val).waiting = true
      ∧ (tget {} t.m.eic.evt n.val).source = k ∧ (tget {} t.m.eic.evt n.val).level = (srcCfg s.m k).1
      ∧ s.only [.eic] t) ∧
  (∀ (s : State) (n : Fin 4), running s.m = true → (tget {} s.m.eic.evt n.val).waiting = true →
    (tget {} s.m.eic.evt n.val).stalled = false →
    ∃ t, exec (.evtStall n) s = .next t ∧ (tget {} t.m.eic.evt n.val).stalled = true
      ∧ s.only (.jnl :: Part.report) t ∧ s.m.onlyRegs journalRegs t.m)

/-! ### The dead-man timer (spec/14_deadman_journal.md) -/

/-- DMT_ENABLE, FIRST_KEY, SECOND_KEY, DMT_EXPIRY, GRACE_EXPIRY: enabling loads DMT.COUNT with DMT.PERIOD; the first key arms
its master; the second key in an open window reloads the count and returns to stage 0, in a closed one it enters stage 1;
an expiry in stage 0 enters stage 1 with the grace count and raises source 16; an expiry in stage 1 enters stage 2 with
the outputs that DMT.CTL enables (R697, R699, R703 to R705, R708 to R712). The clauses on `service` say R704 and R705 of
every permitted master. -/
def Obligations.DeadManTimerIsServedOrExpires : Prop :=
  (∀ (s : State) (a : Lmb) (v : Word), Accepted s a 0x2800 v → dmtOn s.m = false → bit v 0 = true →
    ∃ t, exec (.dmtEnable a v) s = .next t ∧ dmtOn t.m = true ∧ t.m.dmt = { s.m.dmt with count := rget s.m 0x2804 }
      ∧ lmbOk t.m ∧ s.only [.regs, .lmb, .dmt] t ∧ s.m.onlyRegs [0x2800] t.m) ∧
  (∀ (s : State) (a : Lmb), Accepted s a 0x2810 0xA5C3 →
    ∃ t, exec (.firstKey a) s = .next t
      ∧ t.m.dmt = { s.m.dmt with armed := some (a.mid, 0), armedAt := s.m.stmp } ∧ lmbOk t.m
      ∧ s.only [.regs, .lmb, .dmt] t ∧ s.m.onlyRegs [] t.m) ∧
  (∀ (s : State) (a : Lmb) (cycles : Nat), running s.m = true → cycles ≤ 400 → Accepted s a 0x2810 0x3C5A →
    windowOpen s.m = true →
    ∃ t, exec (.secondKey a cycles) s = .next t
      ∧ t.m.dmt = { s.m.dmt with armed := none, stage := 0, count := rget s.m 0x2804 } ∧ lmbOk t.m
      ∧ s.only [.regs, .lmb, .dmt] t ∧ s.m.onlyRegs [] t.m) ∧
  (∀ (s : State) (a : Lmb) (cycles : Nat), running s.m = true → cycles ≤ 400 → Accepted s a 0x2810 0x3C5A →
    windowOpen s.m = false →
    ∃ t, exec (.secondKey a cycles) s = .next t ∧ t.m.dmt.stage = 1 ∧ t.m.dmt.count = rget s.m 0x2808
      ∧ t.m.dmt.armed = none ∧ rbit t.m 0x2818 3 = true ∧ isPending t.m 16 = true ∧ lmbOk t.m) ∧
  (∀ (m : Core) (mid : Nat) (node : NodeId), windowOpen m = true →
    (service m mid node).dmt = { m.dmt with stage := 0, count := rget m 0x2804 }) ∧
  (∀ (m : Core) (mid : Nat) (node : NodeId), windowOpen m = false →
    (service m mid node).dmt.stage = 1 ∧ (service m mid node).dmt.count = rget m 0x2808
      ∧ rbit (service m mid node) 0x2818 3 = true) ∧
  (∀ (s : State), awake s.m = true → dmtOn s.m = true → s.m.dmt.stage = 0 →
    ∃ t, exec .dmtExpiry s = .next t ∧ t.m.dmt.stage = 1 ∧ t.m.dmt.count = rget s.m 0x2808 ∧ t.m.dmt.fence = s.m.dmt.fence
      ∧ rbit t.m 0x2818 2 = true ∧ isPending t.m 16 = true
      ∧ s.only (.dmt :: .jnl :: Part.report) t ∧ s.m.onlyRegs (0x2818 :: journalRegs) t.m) ∧
  (∀ (s : State), awake s.m = true → dmtOn s.m = true → s.m.dmt.stage = 1 →
    ∃ t, exec .graceExpiry s = .next t ∧ t.m.dmt.stage = 2 ∧ t.m.dmt.count = 0
      ∧ t.m.dmt.fence = (s.m.dmt.fence || rbit s.m 0x2800 5)
      ∧ t.m.pins = { s.m.pins with dmtRstN := s.m.pins.dmtRstN || rbit s.m 0x2800 4 }
      ∧ s.only (.dmt :: .pins :: .jnl :: Part.report) t ∧ s.m.onlyRegs journalRegs t.m)

/-! ### The journal (spec/14_deadman_journal.md) -/

/-- SOFTWARE_RECORD, TAIL_LATCH, RESTORE_PRIMARY, RESTORE_MIRROR: what writes to the journal's registers do (R725, R734,
R736, R737). -/
def Obligations.JournalWritesTakeEffect : Prop :=
  (∀ (s : State) (a : Lmb) (severity : BitVec 4), Accepted s a 0x2C80 (severity.setWidth 32) →
    recAction s.m 8 severity.toNat ≠ 3 → s.m.jnl.queue.length < 64 →
    ∃ t, exec (.softwareRecord a severity) s = .next t
      ∧ (∃ r, t.m.jnl.queue = s.m.jnl.queue ++ [r] ∧ r.typ = 8 ∧ r.sev = severity ∧ r.time = s.m.time.extractLsb' 8 52
          ∧ (∀ k : Fin 4, r.payload.extractLsb' (96 - 32 * k.val) 32 = rget s.m (0x2C84 + 4 * k.val)))
      ∧ lmbOk t.m ∧ s.only (.lmb :: .jnl :: Part.report) t ∧ s.m.onlyRegs reportRegs t.m) ∧
  (∀ (s : State) (a : Lmb) (index : BitVec 4) (r : BitVec 256), Accepted s a 0x2CA0 (index.setWidth 32) →
    s.m.jnl.tail[index.toNat]? = some r →
    ∃ t, exec (.tailLatch a index) s = .next t
      ∧ (∀ k : Fin 8, rget t.m (0x2CA4 + 4 * k.val) = r.extractLsb' (224 - 32 * k.val) 32)
      ∧ rfld t.m 0x2CA0 3 0 = index.toNat ∧ lmbOk t.m ∧ s.only [.regs, .lmb] t
      ∧ s.m.onlyRegs [0x2CA0, 0x2CA4, 0x2CA8, 0x2CAC, 0x2CB0, 0x2CB4, 0x2CB8, 0x2CBC, 0x2CC0] t.m) ∧
  (∀ (s : State) (a : Lmb), Accepted s a 0x2C04 1 →
    ∃ t, exec (.restorePrimary a) s = .next t ∧ devLive t.m false = true ∧ devLive t.m true = devLive s.m true
      ∧ rfld t.m 0x2C08 7 4 = 0 ∧ rbit t.m 0x2C08 2 = false ∧ t.m.pins = { s.m.pins with jfailN := false } ∧ lmbOk t.m
      ∧ s.only (.lmb :: .pins :: .jnl :: Part.report) t ∧ s.m.onlyRegs (0x2C08 :: journalRegs) t.m) ∧
  (∀ (s : State) (a : Lmb), Accepted s a 0x2C04 2 →
    ∃ t, exec (.restoreMirror a) s = .next t ∧ devLive t.m true = true ∧ devLive t.m false = devLive s.m false
      ∧ rfld t.m 0x2C08 11 8 = 0 ∧ rbit t.m 0x2C08 2 = false ∧ t.m.pins = { s.m.pins with jfailN := false } ∧ lmbOk t.m
      ∧ s.only (.lmb :: .pins :: .jnl :: Part.report) t ∧ s.m.onlyRegs (0x2C08 :: journalRegs) t.m)

/-- RECORD_TAKE, DEVICE_WRITE_DONE, WIP_TIMEOUT: the engine takes the oldest record, gives it the next sequence number and
slot and writes it to the primary, then to the mirror; a write that fails is repeated once, and the device is then marked
failed (R719, R720, R727, R729, R730, R731). -/
def Obligations.JournalEngineWritesBothDevices : Prop :=
  (∀ (s : State) (r : QRec) (q : List QRec), running s.m = true → engineFree s.m = true → s.m.jnl.queue = r :: q →
    r.action ≠ 2 → s.m.jnl.lost = 0 → rbit s.m 0x2C00 8 = false → devLive s.m false = true →
    ∃ t, exec .recordTake s = .next t ∧ t.m.jnl.queue = q
      ∧ t.m.jnl.nextSeq = BitVec.ofNat 32 (seqNext s.m.jnl.nextSeq.toNat)
      ∧ (∃ c, t.m.jnl.cur = some c ∧ c.mirror = false ∧ c.slot = s.m.jnl.slot
          ∧ recSeq c.bytes = s.m.jnl.nextSeq.toNat ∧ c.bytes.extractLsb' 32 128 = r.payload
          ∧ t.m.jnl.tail.head? = some c.bytes)) ∧
  (∀ (s : State) (c : JWrite), running s.m = true → s.m.jnl.cur = some c → s.m.jnl.pfail = false →
    ∃ t, exec (.deviceWriteDone .ok) s = .next t ∧ devSlot t.m c.mirror c.slot = c.bytes
      ∧ (c.mirror = true → t.m.jnl.cur = none)
      ∧ (c.mirror = false → devLive s.m true = false → t.m.jnl.cur = none)
      ∧ (c.mirror = false → devLive s.m true = true → devLive s.m false = true →
          t.m.jnl.cur = some { c with mirror := true, repeated := false, wrote := true })
      ∧ s.only (.jnl :: .spi :: Part.report) t ∧ s.m.onlyRegs (0x3814 :: reportRegs) t.m) ∧
  (∀ (s : State) (c : JWrite), running s.m = true → s.m.jnl.cur = some c → s.m.jnl.pfail = false → c.repeated = false →
    ∃ t, exec .wipTimeout s = .next t ∧ t.m.jnl.cur = some { c with repeated := true } ∧ s.only [.jnl, .free] t) ∧
  (∀ (s : State) (c : JWrite), running s.m = true → s.m.jnl.cur = some c → s.m.jnl.pfail = false → c.repeated = true →
    ∃ t, exec .wipTimeout s = .next t ∧ devLive t.m c.mirror = false ∧ isPending t.m (if c.mirror then 145 else 144) = true)

/-- The records that a flush takes of a queue, oldest first: seven at most, without those that go to the keepers only
(R722, R744). -/
def flushTakes (q : List QRec) : List QRec := (q.take 7).filter fun r => decide (r.action ≠ 2)

/-- The device that a flush writes: the primary, or the mirror where the primary is failed (R744). -/
abbrev flushDev (m : Core) : Bool := !devLive m false

/-- PFAIL_ASSERT, PFAIL_FLUSH_DONE, PFAIL_DEASSERT: a recognised power failure raises source 22 and, unless the journal
cannot flush, takes at most seven queued records and a POWER_FAIL record of its own for the flush; the end of the flush
puts each into its slot of the one device and raises source 149, and a warm reset that has waited for it begins; after
the deassertion the engine may take records again as soon as nothing else keeps it (R743 to R745, R747, R748, R956). -/
def Obligations.PowerFailFlushesTheQueue : Prop :=
  (∀ (s : State), s.m.jnl.pfail = false → running s.m = true →
    ∃ t, exec .pfailAssert s = .next t ∧ t.m.jnl.pfail = true ∧ t.m.jnl.flushed = false ∧ isPending t.m 22 = true
      ∧ t.dram = s.dram ∧ t.pending = s.pending) ∧
  (∀ (s : State), s.m.jnl.pfail = false → running s.m = true →
    (s.m.jnl.needSearch = true ∨ s.m.jnl.searching = true ∨ (devLive s.m false = false ∧ devLive s.m true = false)) →
    ∃ t, exec .pfailAssert s = .next t ∧ t.m.jnl = { s.m.jnl with pfail := true, flushed := false }
      ∧ isPending t.m 22 = true ∧ s.only (.jnl :: .boot :: Part.report) t ∧ s.m.onlyRegs reportRegs t.m) ∧
  (∀ (s : State), s.m.jnl.pfail = false → running s.m = true → s.m.jnl.needSearch = false → s.m.jnl.searching = false →
    (devLive s.m false = true ∨ devLive s.m true = true) →
    ∃ t r, exec .pfailAssert s = .next t ∧ t.m.jnl.pfail = true ∧ t.m.jnl.flushed = false ∧ isPending t.m 22 = true
      ∧ t.m.jnl.flushing.map (fun f => f.qrec)
          = s.m.jnl.flushing.map (fun f => f.qrec) ++ flushTakes s.m.jnl.queue ++ [r]
      ∧ r.typ = 7 ∧ r.sev = 3 ∧ r.time = s.m.time.extractLsb' 8 52
      ∧ r.payload = payload [(8, min 7 s.m.jnl.queue.length + 1), (8, s.m.jnl.queue.length - 7),
          (32, s.m.jnl.nextSeq.toNat)]
      ∧ (rbit s.m 0x2C00 8 = false → t.m.jnl.queue = s.m.jnl.queue.drop 7
          ∧ s.only (.jnl :: .boot :: .spi :: Part.report) t ∧ s.m.onlyRegs (0x3814 :: reportRegs) t.m)
      ∧ t.dram = s.dram ∧ t.pending = s.pending) ∧
  (∀ (s : State), running s.m = true → s.m.jnl.flushing ≠ [] →
    (s.m.jnl.flushing.map (fun f => f.slot)).Nodup → s.m.pins.warmAfterFlush = none →
    ∃ t, exec .pfailFlushDone s = .next t ∧ t.m.jnl.flushing = [] ∧ t.m.jnl.flushed = s.m.jnl.pfail
      ∧ (∀ f ∈ s.m.jnl.flushing, devSlot t.m (flushDev s.m) f.slot = f.bytes)
      ∧ (∀ k, k ∉ s.m.jnl.flushing.map (fun f => f.slot) → devSlot t.m (flushDev s.m) k = devSlot s.m (flushDev s.m) k)
      ∧ (∀ k, devSlot t.m (!flushDev s.m) k = devSlot s.m (!flushDev s.m) k) ∧ isPending t.m 149 = true
      ∧ s.only (.jnl :: .spi :: Part.report) t ∧ s.m.onlyRegs (0x3814 :: reportRegs) t.m) ∧
  (∀ (s : State), running s.m = true → s.m.jnl.flushing ≠ [] →
    (s.m.jnl.flushing.map (fun f => f.slot)).Nodup → s.m.pins.warmAfterFlush = some false →
    ∃ t, exec .pfailFlushDone s = .next t ∧ t.m.jnl.flushing = []
      ∧ (∀ f ∈ s.m.jnl.flushing, devSlot t.m (flushDev s.m) f.slot = f.bytes)
      ∧ t.m.pins.warmHeld = true ∧ t.m.pins.warmAfterFlush = none ∧ t.m.trk = {} ∧ t.m.ports = []
      ∧ t.pending = s.pending) ∧
  (∀ (s : State), ∃ t, exec .pfailDeassert s = .next t
      ∧ t.m.jnl = { s.m.jnl with pfail := false, flushed := false }
      ∧ engineFree t.m = (!s.m.jnl.needSearch && !s.m.jnl.searching && s.m.jnl.flushing.isEmpty && s.m.jnl.cur.isNone)
      ∧ s.only [.jnl] t)

/-- HEAD_SEARCH_START, HEAD_SEARCH_DONE, JRC: the head search starts once the image apply has ended; on two empty devices
it ends with sequence 0 at slot 0, and the journal goes on; a `JRC` is discarded and counted, as the text
under R739 says (R741, R742). -/
def Obligations.HeadSearchFindsEmptyDevices : Prop :=
  (∀ (s : State), running s.m = true → s.m.jnl.needSearch = true → s.m.boot.ended = true →
    ∃ t, exec .headSearchStart s = .next t ∧ t.m.jnl.searching = true ∧ t.m.jnl.needSearch = false
      ∧ s.only [.jnl, .spi, .regs] t ∧ s.m.onlyRegs [0x3814] t.m) ∧
  (∀ (s : State), running s.m = true → s.m.jnl.searching = true → headOf s.m false = none → headOf s.m true = none →
    ∃ t, exec .headSearchDone s = .next t ∧ t.m.jnl.searching = false ∧ t.m.jnl.searched = true ∧ t.m.jnl.nextSeq = 0
      ∧ t.m.jnl.slot = 0 ∧ s.only (.jnl :: .free :: .spi :: Part.report) t
      ∧ s.m.onlyRegs (0x3814 :: journalRegs) t.m) ∧
  (∀ (s : State) (i : InMsg), running s.m = true → s.m.inbox = [i] → i.msg.op = .jrc →
    ∃ t, exec .jrc s = .next t ∧ t.m.inbox = []
      ∧ t.m.trk = { s.m.trk with counts := tput 0 s.m.trk.counts 739 (tget 0 s.m.trk.counts 739 + 1) }
      ∧ s.only [.inbox, .ports, .trk] t)

/-! ### Counters, captures and dumps (spec/15_observability.md) -/

/-- CAPTURE, DUMP_ENABLE, PERIODIC_CAPTURE: captures and the start of dump records (R766, R767, R769, R779). -/
def Obligations.CapturesLatchTheCounters : Prop :=
  (∀ (s : State) (a : Lmb), Accepted s a 0x3088 1 →
    ∃ t, exec (.capture a) s = .next t ∧ t.m.pmc = { s.m.pmc with capDue := true } ∧ lmbOk t.m
      ∧ s.only [.regs, .lmb, .pmc] t ∧ s.m.onlyRegs [] t.m) ∧
  (∀ (s : State) (a : Lmb) (v : Word), Accepted s a 0x30A0 v → rbit s.m 0x30A0 0 = false → bit v 0 = true →
    ∃ t, exec (.dumpEnable a v) s = .next t ∧ rbit t.m 0x30A0 0 = true ∧ rbit t.m 0x30A0 1 = bit v 1
      ∧ rget t.m 0x30BC = 0 ∧ rget t.m 0x30C0 = 0 ∧ rget t.m 0x30C4 = 0 ∧ lmbOk t.m
      ∧ s.only [.regs, .lmb] t ∧ s.m.onlyRegs [0x30A0, 0x30BC, 0x30C0, 0x30C4] t.m) ∧
  (∀ (s : State), running s.m = true → rbit s.m 0x30A0 0 = false →
    ∃ t, exec .periodicCapture s = .next t ∧ t.m.pmc.capP = s.m.pmc.ctr ∧ t.m.pmc.ctr = s.m.pmc.ctr
      ∧ t.m.pmc.wrapped = [] ∧ s.only [.pmc] t) ∧
  (∀ (s : State), running s.m = true → rbit s.m 0x30A0 0 = true → s.m.pmc.dump = none →
    ∃ t, exec .periodicCapture s = .next t ∧ t.m.pmc.capP = s.m.pmc.ctr
      ∧ (∃ d, t.m.pmc.dump = some d ∧ d.num = rget s.m 0x30BC ∧ d.pieces.length = 17 ∧ d.sent = [] ∧ d.acked = [])
      ∧ s.only [.pmc] t) ∧
  (∀ (s : State) (d : DumpRec), running s.m = true → rbit s.m 0x30A0 0 = true → s.m.pmc.dump = some d →
    ∃ t, exec .periodicCapture s = .next t ∧ t.m.pmc.dump = some d ∧ rbit t.m 0x30B8 0 = true ∧ isPending t.m 178 = true
      ∧ rget t.m 0x30C0 = BitVec.ofNat 32 (min ((rget s.m 0x30C0).toNat + 1) 0xFFFFFFFF)
      ∧ s.only Part.report t ∧ s.m.onlyRegs (0x30B8 :: 0x30C0 :: reportRegs) t.m)

/-- DUMP_PIECE_SEND, DUMP_ABANDON, TTD: the next piece of a record goes to the ring's node; an abandoned record advances the
number and the abandoned count; a `TTD` for a home becomes a local write arrival (R773, R776, R801). -/
def Obligations.DumpPiecesAreSentAndServed : Prop :=
  (∀ (s : State) (d : DumpRec) (i p : Nat), running s.m = true → s.m.pmc.dump = some d → nextPiece d = some i →
    dumpNode s.m ≠ nodeId s.m → routeOf s.m s.m.cfg.epoch (dumpNode s.m) = some p →
    ∃ t, exec .dumpPieceSend s = .next t ∧ t.m.pmc.dump = some { d with sent := d.sent ++ [(i, s.m.fab.mtag)] }
      ∧ (∃ x ∈ (port t.m p).txq, x.msg.op = .ttd ∧ x.msg.dest = dumpNode s.m ∧ x.msg.tag = s.m.fab.mtag
          ∧ x.msg.line = pieceLine s.m d.num.toNat i ∧ x.msg.data = (d.pieces[i]?).getD 0)
      ∧ t.m.fab = { s.m.fab with mtag := s.m.fab.mtag + 1 }
      ∧ s.only (.fab :: .ports :: Part.report) t ∧ s.m.onlyRegs reportRegs t.m) ∧
  (∀ (s : State) (d : DumpRec), running s.m = true → s.m.pmc.dump = some d →
    ∃ t, exec .dumpAbandon s = .next t ∧ t.m.pmc.dump = none ∧ rget t.m 0x30BC = d.num + 1
      ∧ rget t.m 0x30C4 = BitVec.ofNat 32 (min ((rget s.m 0x30C4).toNat + 1) 0xFFFFFFFF)
      ∧ s.only (.jnl :: Part.report) t ∧ s.m.onlyRegs (0x30BC :: 0x30C4 :: journalRegs) t.m) ∧
  (∀ (s : State) (i : InMsg), running s.m = true → s.m.inbox = [i] → i.msg.op = .ttd → isHome s.m = true →
    ∃ t, exec .ttd s = .next t ∧ t.m.inbox = []
      ∧ (∃ x ∈ t.m.trk.arrivals, x.job = .ttd ∧ x.port = 16 ∧ x.msg = { i.msg with op := .wrl })
      ∧ s.only [.inbox, .ports, .trk] t)

/-! ### The whistle and the level marks (spec/15_observability.md) -/

/-- WHISTLE_TRIGGER, WHISTLE_ARM, CLR_MISSED, WHISTLE_FALL, WHISTLE_DRIVE_END: triggers are recognised, driven on the pin, or
counted as missed (R780 to R782, R785, Table RGS-5). -/
def Obligations.WhistleTriggersAreRecognisedOrMissed : Prop :=
  (∀ (s : State) (a : Lmb), Accepted s a 0x3400 1 →
    ∃ t, exec (.whistleTrigger a) s = .next t
      ∧ t.m.whs = (if s.m.whs.armed = false then { s.m.whs with missed := min (s.m.whs.missed + 1) 0xFFFF }
          else if rbit s.m 0x3404 1 = true then { s.m.whs with drivePend := true } else { s.m.whs with recog := true })
      ∧ lmbOk t.m ∧ s.only [.regs, .lmb, .whs] t ∧ s.m.onlyRegs [] t.m) ∧
  (∀ (s : State) (a : Lmb), Accepted s a 0x3404 (rget s.m 0x3404 ||| 1) →
    ∃ t, exec (.whistleArm a) s = .next t ∧ t.m.whs.armed = true ∧ rbit t.m 0x3404 1 = rbit s.m 0x3404 1 ∧ lmbOk t.m
      ∧ s.only [.regs, .lmb, .whs] t ∧ s.m.onlyRegs [0x3404] t.m) ∧
  (∀ (s : State) (a : Lmb), Accepted s a 0x3404 (rget s.m 0x3404 ||| 4) →
    ∃ t, exec (.clrMissed a) s = .next t ∧ t.m.whs.missed = 0 ∧ rbit t.m 0x3404 1 = rbit s.m 0x3404 1 ∧ lmbOk t.m
      ∧ s.only [.regs, .lmb, .whs] t ∧ s.m.onlyRegs [0x3404] t.m) ∧
  (∀ (s : State), running s.m = true →
    ∃ t, exec .whistleFall s = .next t
      ∧ t.m.whs = (if s.m.whs.armed = true then { s.m.whs with recog := true }
          else { s.m.whs with missed := min (s.m.whs.missed + 1) 0xFFFF }) ∧ s.only [.whs] t) ∧
  (∀ (s : State), running s.m = true →
    ∃ t, exec .whistleDriveEnd s = .next t ∧ t.m.whs = { s.m.whs with driving := false, drivePend := false }
      ∧ s.only [.whs] t)

/-- WHISTLE_CAPTURE, CAPTURE_DONE, AUDIT_COMPLETE: the capture edge, whichever ports are building a flit, latches the snapshot and the counters and disarms; the
capture ends with source 179, the audit with source 180, and with source 32 where a book mismatches (R276, R277, R784 to
R786). -/
def Obligations.WhistleCaptureLatchesEverything : Prop :=
  (∀ (s : State), running s.m = true → s.m.whs.recog = true →
    ∃ t, exec .whistleCapture s = .next t ∧ t.m.whs.snap = snapshot s.m (building s.m) ∧ t.m.whs.armed = false
      ∧ t.m.whs.recog = false ∧ t.m.whs.captureDone = false ∧ t.m.whs.auditDue = true ∧ t.m.pmc.capW = s.m.pmc.ctr
      ∧ rbit t.m 0x308C 31 = true ∧ rbit t.m 0x308C 0 = true ∧ rget t.m 0x3090 = s.m.time.extractLsb' 0 32
      ∧ rget t.m 0x3094 = s.m.time.extractLsb' 32 32 ∧ rbit t.m 0xC04 31 = false
      ∧ s.only [.regs, .pmc, .whs, .free] t ∧ s.m.onlyRegs [0x308C, 0x3090, 0x3094, 0xC04] t.m) ∧
  (∀ (s : State), running s.m = true → s.m.whs.captured = true → s.m.whs.captureDone = false →
    ∃ t, exec .captureDone s = .next t ∧ t.m.whs.captureDone = true ∧ isPending t.m 179 = true ∧ s.only Part.report t
      ∧ s.m.onlyRegs reportRegs t.m) ∧
  (∀ (s : State), running s.m = true → s.m.whs.auditDue = true →
    ∃ t, exec .auditComplete s = .next t ∧ t.m.whs.auditDue = false ∧ rbit t.m 0xC04 31 = true ∧ isPending t.m 180 = true
      ∧ (∀ b < 5, rbit t.m 0xC04 b = ((auditBooks s.m)[b]?.getD none).isSome)
      ∧ ((∃ b < 5, ((auditBooks s.m)[b]?.getD none).isSome = true) → isPending t.m 32 = true)
      ∧ s.only (.jnl :: Part.report) t ∧ s.m.onlyRegs (0xC04 :: journalRegs) t.m)

/-- LEVEL_MARK_CROSS_UP, LEVEL_MARK_CROSS_DOWN, LEVEL_MARK_CLEAR, LEVEL_MARK_SELECT: a level above its high mark sets
above and crossed_up and raises source 96 + 2m; one below its low mark clears above, sets crossed_down and raises source
97 + 2m; a clear resets the count and the peak; a select forms above anew without a crossing (R792 to R795). -/
def Obligations.LevelMarksCross : Prop :=
  (∀ (s : State) (n : Fin 16), running s.m = true → (lmOf s.m n.val).above = false →
    rfld s.m (0x3484 + 0x20 * n.val) 31 16 < levelOf s.m n.val →
    ∃ t, exec (.levelMarkCrossUp n) s = .next t ∧ (lmOf t.m n.val).above = true ∧ (lmOf t.m n.val).up = true
      ∧ (lmOf t.m n.val).count = min ((lmOf s.m n.val).count + 1) 255 ∧ isPending t.m (96 + 2 * n.val) = true
      ∧ s.only Part.report t ∧ s.m.onlyRegs reportRegs t.m) ∧
  (∀ (s : State) (n : Fin 16), running s.m = true → (lmOf s.m n.val).above = true →
    levelOf s.m n.val < rfld s.m (0x3484 + 0x20 * n.val) 15 0 →
    ∃ t, exec (.levelMarkCrossDown n) s = .next t ∧ (lmOf t.m n.val).above = false ∧ (lmOf t.m n.val).down = true
      ∧ (lmOf t.m n.val).count = (lmOf s.m n.val).count ∧ isPending t.m (97 + 2 * n.val) = true
      ∧ s.only Part.report t ∧ s.m.onlyRegs reportRegs t.m) ∧
  (∀ (s : State) (a : Lmb) (n : Fin 16), Accepted s a (0x3490 + 0x20 * n.val) 1 →
    ∃ t, exec (.levelMarkClear a n) s = .next t ∧ (lmOf t.m n.val).count = 0
      ∧ (lmOf t.m n.val).peak = levelOf s.m n.val ∧ (lmOf t.m n.val).above = (lmOf s.m n.val).above
      ∧ (lmOf t.m n.val).up = (lmOf s.m n.val).up ∧ (lmOf t.m n.val).down = (lmOf s.m n.val).down ∧ lmbOk t.m
      ∧ s.only [.regs, .lmb, .whs] t ∧ s.m.onlyRegs [] t.m) ∧
  (∀ (s : State) (a : Lmb) (n : Fin 16) (marks : Bool) (v : Word), Accepted s a (0x3480 + 4 * b1 marks + 0x20 * n.val) v →
    ∃ t, exec (.levelMarkSelect a n marks v) s = .next t
      ∧ (lmOf t.m n.val).above = decide (rfld t.m (0x3484 + 0x20 * n.val) 31 16 < levelOf t.m n.val)
      ∧ (lmOf t.m n.val).count = 0 ∧ (lmOf t.m n.val).peak = levelOf t.m n.val
      ∧ (lmOf t.m n.val).up = (lmOf s.m n.val).up ∧ (lmOf t.m n.val).down = (lmOf s.m n.val).down ∧ lmbOk t.m
      ∧ s.only [.regs, .lmb, .whs] t ∧ s.m.onlyRegs [0x3480 + 4 * b1 marks + 0x20 * n.val] t.m)

/-! ### Serial ports and soft resets (spec/16_serial_ports.md, spec/18_registers_service.md) -/

/-- SPA_START, SPA_FRAME_DONE, SPA_RELEASE, SPB_ROLE_WRITE, SPB_START, SPB_TRANSFER_DONE, MODE_FAULT: a start queues the
frame that its word describes; at its end the received units replace the data registers, done is set, source 160 or 161
raised, and an SPA select stays held where hold was set, unless the journal or the loader has a frame ready, which takes
SPA and breaks the hold; a release ends the hold; the role bit follows an accepted write, and a mode fault clears it,
sets mode_fault and raises source 162 (R807, R809, R814, R815, R817, R818, R832, R834, R837). -/
def Obligations.SerialPortsTransferAsMasters : Prop :=
  (∀ (s : State) (a : Lmb) (v : Word), Accepted s a 0x3810 v → bit v 0 = true →
    ∃ t, exec (.spaStart a v) s = .next t ∧ t.m.spi.spaFrame = some (frameOf v (fld v 5 4)) ∧ lmbOk t.m
      ∧ (s.m.spi.own ≠ 0 → t.m.spi.own = s.m.spi.own)
      ∧ (s.m.spi.own = 0 → spaJournal s.m = false → spaLoader s.m = false → t.m.spi.own = 3)
      ∧ s.only [.regs, .lmb, .spi] t ∧ s.m.onlyRegs [0x3810, 0x3814] t.m) ∧
  (∀ (s : State) (f : SpiFrame) (rx : List Word), running s.m = true → s.m.spi.spaFrame = some f → f.units ≤ 8 →
    s.m.spi.own = 3 → (spaJournal s.m = true ∨ spaLoader s.m = true) → f.hold = true →
    ∃ t, exec (.spaFrameDone rx) s = .next t ∧ t.m.spi.spaFrame = none ∧ t.m.spi.held = none ∧ rbit t.m 0x3814 2 = true
      ∧ t.m.spi.own = (if spaJournal s.m = true then 1 else 2) ∧ isPending t.m 160 = true
      ∧ s.only (.spi :: Part.report) t) ∧
  (∀ (s : State) (f : SpiFrame) (rx : List Word), running s.m = true → s.m.spi.spaFrame = some f → f.units ≤ 8 →
    s.m.spi.own = 3 → spaJournal s.m = false → spaLoader s.m = false →
    ∃ t, exec (.spaFrameDone rx) s = .next t
      ∧ t.m.spi = { s.m.spi with own := 0, spaFrame := none, held := if f.hold then some f.sel else none }
      ∧ (∀ k < f.units, rget t.m (0x3820 + 4 * k) = BitVec.ofNat 32 (((rx[k]?).getD 0).toNat % 2 ^ f.unitLen))
      ∧ rbit t.m 0x3814 0 = true ∧ isPending t.m 160 = true
      ∧ s.only (.spi :: Part.report) t
      ∧ s.m.onlyRegs (0x3814 :: (List.range 8).map (fun k => 0x3820 + 4 * k) ++ reportRegs) t.m) ∧
  (∀ (s : State) (a : Lmb), Accepted s a 0x3810 (rget s.m 0x3810 ||| 8) →
    ∃ t, exec (.spaRelease a) s = .next t ∧ t.m.spi.held = none ∧ lmbOk t.m ∧ s.only [.regs, .lmb, .spi] t
      ∧ s.m.onlyRegs [0x3810] t.m) ∧
  (∀ (s : State) (a : Lmb) (v : Word), Accepted s a 0x3840 v →
    ∃ t, exec (.spbRoleWrite a v) s = .next t ∧ rbit t.m 0x3840 0 = bit v 0 ∧ lmbOk t.m ∧ s.only [.regs, .lmb] t
      ∧ s.m.onlyRegs [0x3840] t.m) ∧
  (∀ (s : State) (a : Lmb) (v : Word), Accepted s a 0x3844 v → bit v 0 = true →
    ∃ t, exec (.spbStart a v) s = .next t ∧ t.m.spi.spbFrame = some (frameOf v (fld v 1 1)) ∧ lmbOk t.m
      ∧ s.only [.regs, .lmb, .spi] t ∧ s.m.onlyRegs [0x3844, 0x3848] t.m) ∧
  (∀ (s : State) (f : SpiFrame) (rx : List Word), running s.m = true → s.m.spi.spbFrame = some f → f.units ≤ 8 →
    ∃ t, exec (.spbTransferDone rx) s = .next t ∧ t.m.spi = { s.m.spi with spbFrame := none }
      ∧ (∀ k < f.units, rget t.m (0x3860 + 4 * k) = BitVec.ofNat 32 (((rx[k]?).getD 0).toNat % 2 ^ f.unitLen))
      ∧ rbit t.m 0x3848 29 = true ∧ isPending t.m 161 = true
      ∧ s.only (.spi :: Part.report) t
      ∧ s.m.onlyRegs (0x3848 :: (List.range 8).map (fun k => 0x3860 + 4 * k) ++ reportRegs) t.m) ∧
  (∀ (s : State) (f : SpiFrame) (bits : BitVec 9) (rx : List Word), running s.m = true → rbit s.m 0x3840 0 = true →
    s.m.spi.spbFrame = some f →
    ∃ t, exec (.modeFault bits rx) s = .next t ∧ rbit t.m 0x3840 0 = false ∧ rbit t.m 0x3848 27 = true
      ∧ rbit t.m 0x3848 28 = true ∧ rfld t.m 0x3848 24 16 = min bits.toNat (f.unitLen * f.units) % 512
      ∧ t.m.spi.spbFrame = none ∧ t.m.spi.spbBlocked = true ∧ isPending t.m 162 = true ∧ s.only (.spi :: Part.report) t)

/-- What a recognised frame of `req` request bits shifts out on SPB_MISO: zero in the request and the turn, then the status
unit and the data unit (R821, R827). -/
abbrev spbLine (m : Core) (req st : Nat) (d : Word) : List Bool :=
  List.replicate (req + rfld m 0x3840 13 8) false ++ spbBits 4 st ++ spbBits 32 d.toNat

/-- SPB_WRITE, SPB_READ, SPB_RESULT, SPB_PAIR, SPB_FRAME_END: a slave frame that is recognised and finds no access pending
performs its accesses as MID 6 and shifts out the result; at the end of a frame SPB_MISO is released; one cut short
performs nothing, is counted and raises source 163 (R820 to R822, R824, R826, R827, R829). -/
def Obligations.SpbSlaveFramesAccessRegisters : Prop :=
  (∀ (s : State) (addr : BitVec 16) (v : Word) (r : RegDesc), running s.m = true → rbit s.m 0x3840 0 = false →
    s.m.spi.spbBlocked = false → s.m.spi.spbWait = false → writeCode s.m (spbWho s.m) addr.toNat v = 0 →
    regAt addr.toNat = some r → plainAddr addr.toNat = true →
    ∃ t, exec (.spbWrite addr v true) s = .next t ∧ rget t.m addr.toNat = storeFields r (rget s.m addr.toNat) v
      ∧ t.m.spi = { s.m.spi with spbLast := some ⟨true, 0, 0⟩, spbSel := true, spbStatus := 0b1001, spbData := 0,
                                 miso := some (spbLine s.m 56 0b1001 0) }
      ∧ s.only [.regs, .spi] t ∧ s.m.onlyRegs [addr.toNat] t.m) ∧
  (∀ (s : State) (addr : BitVec 16), running s.m = true → rbit s.m 0x3840 0 = false →
    s.m.spi.spbBlocked = false → s.m.spi.spbWait = false → readCode s.m (spbWho s.m) addr.toNat = 0 →
    ∃ t, exec (.spbRead addr true) s = .next t ∧ t.m.spi.spbStatus = 0b1001
      ∧ t.m.spi.spbData = (readValue s.m (spbWho s.m) addr.toNat).1
      ∧ t.m.spi.miso = some (spbLine s.m 56 0b1001 (readValue s.m (spbWho s.m) addr.toNat).1)
      ∧ s.only [.spi, .hold, .timeHold] t) ∧
  (∀ (s : State) (r : AccRes), running s.m = true → rbit s.m 0x3840 0 = false → s.m.spi.spbBlocked = false →
    s.m.spi.spbWait = false → s.m.spi.spbLast = some r → r.ok = true →
    ∃ t, exec (.spbResult true) s = .next t
      ∧ t.m.spi = { s.m.spi with spbSel := true, spbStatus := 0b1001, spbData := r.data,
                                 miso := some (spbLine s.m 56 0b1001 r.data) }
      ∧ s.only [.spi] t) ∧
  (∀ (s : State) (addr : BitVec 16) (v1 v2 : Word) (cycles : Nat) (r : RegDesc), running s.m = true →
    rbit s.m 0x3840 0 = false → s.m.spi.spbBlocked = false → s.m.spi.spbWait = false → cycles ≤ 400 →
    writeCode s.m (spbWho s.m) addr.toNat v1 = 0 →
    writeCode (spbPut s.m addr.toNat v1 false) (spbWho (spbPut s.m addr.toNat v1 false)) addr.toNat v2 = 0 →
    regAt addr.toNat = some r → plainAddr addr.toNat = true → addr.toNat ≠ 0x3848 →
    ∃ t, exec (.spbPair addr v1 v2 cycles true) s = .next t
      ∧ rget t.m addr.toNat = storeFields r (storeFields r (rget s.m addr.toNat) v1) v2
      ∧ t.m.spi.spbStatus = 0b1001 ∧ t.m.spi.miso = some (spbLine s.m 88 0b1001 0)
      ∧ s.only [.regs, .spi] t ∧ s.m.onlyRegs [addr.toNat] t.m) ∧
  (∀ (s : State), running s.m = true → rbit s.m 0x3840 0 = false →
    ∃ t, exec (.spbFrameEnd .whole) s = .next t
      ∧ t.m.spi = { s.m.spi with spbSel := false, spbBlocked := false, spbStatus := 0, spbData := 0, miso := none }
      ∧ s.only (.spi :: Part.report) t ∧ s.m.onlyRegs reportRegs t.m) ∧
  (∀ (s : State), running s.m = true → rbit s.m 0x3840 0 = false → s.m.spi.spbBlocked = false →
    ∃ t, exec (.spbFrameEnd .truncated) s = .next t
      ∧ t.m.spi = { s.m.spi with spbSel := false, spbStatus := 0, spbData := 0, miso := none }
      ∧ rfld t.m 0x3848 15 0 = min (rfld s.m 0x3848 15 0 + 1) 0xFFFF ∧ isPending t.m 163 = true
      ∧ s.only (.spi :: Part.report) t ∧ s.m.onlyRegs (0x3848 :: reportRegs) t.m)

/-- SOFT_RESET_HLC, SOFT_RESET_EIC, SOFT_RESET_PMC, SOFT_RESET_SPI, SOFT_RESET_DONE: what a soft reset clears and keeps, and
its end (R404, R683, R760, R841, R916, R917, R920). The clauses on `softReset` say R404 and R841 of every master that can
start one. -/
def Obligations.SoftResetsClearTheirBlocks : Prop :=
  (∀ (s : State) (a : Lmb), Accepted s a 0x3C34 1 →
    ∃ t, exec (.softResetHlc a) s = .next t ∧ softHeld t.m 0 = true ∧ hlcOn t.m = false ∧ t.m.ca.siding = []
      ∧ t.m.ca.streams = [] ∧ t.m.ca.invRunning = false ∧ t.m.ca.invDone = false ∧ t.m.ca.mb = s.m.ca.mb
      ∧ t.m.ca.miss = s.m.ca.miss ∧ t.m.ca.alc = s.m.ca.alc ∧ rbit t.m 0x3C30 8 = true ∧ lmbOk t.m
      ∧ s.only [.regs, .lmb, .ca] t ∧ s.m.onlyRegs [0x3C34, 0x3C30, 0x1400] t.m) ∧
  (∀ (s : State) (a : Lmb), Accepted s a 0x3C34 2 →
    ∃ t, exec (.softResetEic a) s = .next t ∧ softHeld t.m 1 = true ∧ (∀ n, srcSt t.m n = .inactive)
      ∧ (∀ n, stackOf t.m n = []) ∧ t.m.eic.cfg = s.m.eic.cfg ∧ (∀ n, tget false t.m.eic.evinKnown n = false)
      ∧ rbit t.m 0x3C30 9 = true ∧ lmbOk t.m ∧ s.only [.regs, .lmb, .eic] t ∧ s.m.onlyRegs [0x3C34, 0x3C30] t.m) ∧
  (∀ (s : State) (a : Lmb), Accepted s a 0x3C34 4 →
    ∃ t, exec (.softResetPmc a) s = .next t ∧ softHeld t.m 2 = true ∧ t.m.pmc.ctr = [] ∧ t.m.pmc.cfg = s.m.pmc.cfg
      ∧ t.m.pmc.dump = none ∧ rbit t.m 0x30A0 0 = false ∧ rbit t.m 0x3C30 10 = true ∧ lmbOk t.m
      ∧ s.only (.lmb :: .jnl :: Part.report) t
      ∧ s.m.onlyRegs (0x3C34 :: 0x3C30 :: 0x30A0 :: 0x30BC :: 0x30C4 :: journalRegs) t.m) ∧
  (∀ (s : State) (a : Lmb), Accepted s a 0x3C34 8 →
    ∃ t, exec (.softResetSpi a) s = .next t ∧ softHeld t.m 3 = true ∧ t.m.spi.held = none ∧ t.m.spi.spaFrame = none
      ∧ t.m.spi.spbFrame = none ∧ rbit t.m 0x3840 0 = false
      ∧ (∀ k : Fin 8, rget t.m (0x3820 + 4 * k.val) = 0 ∧ rget t.m (0x3860 + 4 * k.val) = 0)
      ∧ (s.m.spi.held.isSome = true → rbit t.m 0x3814 2 = true) ∧ rbit t.m 0x3C30 11 = true ∧ lmbOk t.m
      ∧ s.only [.regs, .lmb, .spi, .jnl] t) ∧
  (∀ m : Core, hlcOn (softReset m 0) = false ∧ (softReset m 0).ca.siding = [] ∧ (softReset m 0).ca.streams = []
    ∧ (softReset m 0).ca.mb = m.ca.mb ∧ (softReset m 0).ca.miss = m.ca.miss ∧ (softReset m 0).ca.alc = m.ca.alc) ∧
  (∀ m : Core, (softReset m 3).spi.held = none ∧ (softReset m 3).spi.spaFrame = none ∧ (softReset m 3).spi.spbFrame = none
    ∧ (∀ k : Fin 8, rget (softReset m 3) (0x3820 + 4 * k.val) = 0 ∧ rget (softReset m 3) (0x3860 + 4 * k.val) = 0)
    ∧ rbit (softReset m 3) 0x3840 0 = false ∧ (∀ i, i ≠ 0 → rbit (softReset m 3) 0x3840 i = rbit m 0x3840 i)
    ∧ rget (softReset m 3) 0x3808 = rget m 0x3808 ∧ rget (softReset m 3) 0x380C = rget m 0x380C) ∧
  (∀ (s : State) (blk : Fin 4), running s.m = true →
    ∃ t, exec (.softResetDone blk) s = .next t ∧ softHeld t.m blk.val = false
      ∧ (∀ j < 4, j ≠ blk.val → softHeld t.m j = softHeld s.m j) ∧ s.only [.regs] t ∧ s.m.onlyRegs [0x3C34] t.m)

/-! ### Resets, clocks, supplies and sensors (spec/18_registers_service.md, spec/19_board_power_reset.md) -/

/-- COLD_RESET, WARM_RESET: a cold reset resets every register outside the always-on domain and everything else; a warm
reset keeps the registers of Table BRD-11, the DRAM and MEM.CFG, and resets the directory, the tracker, the caches and the
link layers; the ends of both rewrite CKP.RESET_CAUSE (R933, R949, R956, Table BRD-11). The empty DRAM list after a cold
reset is the model's choice (assumption log, entry 5). -/
def Obligations.ResetsKeepWhatTheyKeep : Prop :=
  (∀ (s : State), s.m.pins.resetHeld = false → s.m.jnl.cur = none →
    ∃ t, exec (.coldReset .hold) s = .next t ∧ t.m.pins.resetHeld = true ∧ t.m.pins.locked = false ∧ t.dram = {}
      ∧ (∀ a, aonReg a = true → rget t.m a = rget s.m a) ∧ (∀ a, aonReg a = false → rget t.m a = regReset a)
      ∧ t.m.cfg = {} ∧ t.m.ports = [] ∧ t.m.trk = {} ∧ t.m.deck = {} ∧ t.m.ca = {} ∧ t.m.atm = {} ∧ t.m.mem = {}
      ∧ t.m.fab = {} ∧ t.m.eic = {} ∧ t.m.dmt = {} ∧ t.m.pmc = {} ∧ t.m.whs = {} ∧ t.m.jnl.dev0 = s.m.jnl.dev0
      ∧ t.m.jnl.dev1 = s.m.jnl.dev1 ∧ t.m.jnl.tail = s.m.jnl.tail.drop s.m.jnl.flushing.length
      ∧ t.pending = s.pending) ∧
  (∀ (s : State) (st : Straps), s.m.pins.resetHeld = true →
    ∃ t, exec (.coldReset (.release st)) s = .next t ∧ t.m.pins.resetHeld = false ∧ t.m.pins.straps = st
      ∧ rbit t.m 0x3848 31 = st.trust ∧ rget t.m 0x3C30 = word [(28, 1), (0, s.m.pins.cause)]
      ∧ s.only (.jnl :: .pins :: Part.report) t) ∧
  (∀ (s : State), s.m.pins.resetHeld = false → s.m.pins.warmHeld = false → s.m.jnl.flushing = [] → s.m.jnl.cur = none →
    s.m.mem.repair = none →
    ∃ t, exec (.warmReset .hold) s = .next t ∧ t.m.pins.warmHeld = true ∧ t.dram = s.dram
      ∧ (∀ a, warmReg a = true → rget t.m a = rget s.m a)
      ∧ (∀ a, warmReg a = false → a ≠ 0x3C0C → a ≠ 0x3848 → rget t.m a = regReset a)
      ∧ rfld t.m 0x3C0C 31 16 = rfld s.m 0x3C0C 31 16 ∧ rfld t.m 0x3C0C 15 0 = fld (regReset 0x3C0C) 15 0
      ∧ t.m.ports = [] ∧ t.m.trk = {} ∧ t.m.deck.ents = [] ∧ t.m.deck.initDone = false ∧ t.m.ca = {} ∧ t.m.mem.ready = false
      ∧ t.m.cfg.set0 = {} ∧ t.m.cfg.set1 = {} ∧ t.m.jnl = { s.m.jnl with
          needSearch := s.m.jnl.needSearch || s.m.jnl.searching, searching := false, jrcQuiet := [] }
      ∧ t.pending = s.pending) ∧
  (∀ (s : State), s.m.pins.resetHeld = false → s.m.pins.warmHeld = true → s.m.pins.warmAfterFlush = none →
    s.m.pins.locked = true → s.m.boot.loading = 0 → s.m.boot.ended = false →
    ∃ t, exec (.warmReset .release) s = .next t ∧ t.m.pins.warmHeld = false ∧ t.m.boot.loading = 1
      ∧ (role s.m = 1 → t.m.mem.ready = true) ∧ rget t.m 0x3C30 = word [(28, 2), (0, s.m.pins.cause)]
      ∧ s.only (.mem :: .deck :: .boot :: .jnl :: .pins :: .spi :: Part.report) t)

/-- VDD_AON_RISE, VDD_AON_LOSS, PLL_LOCK, PLL_LOCK_LOSS, CLOCK_STOP, THERMTRIP: the always-on registers take their reset
values and the journal's always-on part is initialised, so that a head search is due, while the devices keep their content;
the clocks start and stop with the PLL and the monitors, and the thermal trip is latched (R692 to R695, R898, R937, R946,
R961, R962, R964). -/
def Obligations.SuppliesAndClocksComeAndGo : Prop :=
  (∀ (s : State), ∃ t, exec .vddAonRise s = .next t ∧ t.m.pins.vddAon = true
    ∧ (∀ a, aonReg a = true → rget t.m a = regReset a) ∧ rget t.m 0x3C30 = regReset 0x3C30
    ∧ (∀ a, aonReg a = false → a ≠ 0x3C30 → rget t.m a = rget s.m a)
    ∧ t.m.jnl.queue = [] ∧ t.m.jnl.tail = [] ∧ t.m.jnl.needSearch = true ∧ t.m.jnl.dev0 = s.m.jnl.dev0
    ∧ t.m.jnl.dev1 = s.m.jnl.dev1 ∧ s.only [.regs, .jnl, .pins, .spi] t) ∧
  (∀ (s : State), ∃ t, exec .vddAonLoss s = .next t ∧ t.m.pins.vddAon = false
    ∧ (∀ a, aonReg a = true → rget t.m a = regReset a) ∧ (∀ a, aonReg a = false → rget t.m a = rget s.m a)
    ∧ t.m.jnl.queue = [] ∧ t.m.jnl.tail = [] ∧ t.m.jnl.needSearch = true ∧ t.m.jnl.dev0 = s.m.jnl.dev0
    ∧ t.m.jnl.dev1 = s.m.jnl.dev1 ∧ s.only [.regs, .jnl, .pins, .spi] t) ∧
  (∀ (s : State), s.m.pins.resetHeld = false → s.m.pins.warmHeld = false → s.m.pins.lockLostReport = false →
    s.m.boot.loading = 0 → s.m.boot.ended = false →
    ∃ t, exec .pllLock s = .next t ∧ running t.m = true ∧ t.m.boot = { s.m.boot with loading := 1 }
      ∧ t.m.deck = { s.m.deck with mbistRunning := s.m.pins.straps.mbist && !s.m.deck.mbistRan }
      ∧ s.only [.pins, .boot, .deck, .spi, .regs] t ∧ s.m.onlyRegs [0x3814] t.m) ∧
  (∀ (s : State), s.m.pins.locked = true →
    ∃ t, exec .pllLockLoss s = .next t ∧ t.m.pins.locked = false ∧ t.m.pins.faultN = true ∧ rbit t.m 0x3C00 1 = true
      ∧ (∀ p : PortIx, started t.m p.val = false) ∧ t.dram = s.dram ∧ t.pending = s.pending) ∧
  (∀ (s : State), awake s.m = true →
    ∃ t, exec (.clockStop true) s = .next t ∧ isPending t.m 17 = true
      ∧ (rbit s.m 0x2800 1 = true → dmtOn s.m = true → rbit t.m 0x2818 7 = true ∧ t.m.dmt.stage = 2)
      ∧ ((rbit s.m 0x2800 1 && dmtOn s.m) = false → rbit t.m 0x2818 5 = true ∧ t.m.dmt = s.m.dmt)
      ∧ s.only (.dmt :: .jnl :: .pins :: Part.report) t) ∧
  (∀ (s : State), awake s.m = true →
    ∃ t, exec (.clockStop false) s = .next t ∧ t.m.pins.refclkStopped = true ∧ t.m.pins.faultN = true
      ∧ isPending t.m 17 = true ∧ t.dram = s.dram ∧ t.pending = s.pending) ∧
  (∀ (s : State), exec .thermtrip s = .next { s with m := { s.m with pins := { s.m.pins with thermtripN := true } } })

/-- MBIST_DONE, INIT_DONE: MBIST maps its failing rows to spares, and a layer without a spare left sets mbist_fail and
asserts FAULT_N; the initialisation ends with init_done (R314, R317). -/
def Obligations.DeckStartsUp : Prop :=
  (∀ (s : State), running s.m = true → s.m.deck.mbistRunning = true →
    ∃ t, exec (.mbistDone []) s = .next t ∧ t.m.deck = { s.m.deck with mbistRunning := false, mbistRan := true }
      ∧ s.only [.deck] t) ∧
  (∀ (s : State) (r : DeckRow), running s.m = true → s.m.deck.mbistRunning = true → 1 < sparesLeft s.m r →
    ∃ t, exec (.mbistDone [r]) s = .next t ∧ t.m.deck.mbistRan = true ∧ t.m.deck.mbistRunning = false
      ∧ t.m.deck.remapped = s.m.deck.remapped ++ [r] ∧ sparesLeft t.m r = sparesLeft s.m r - 1
      ∧ t.m.deck.mbistFail = s.m.deck.mbistFail ∧ s.only [.deck] t) ∧
  (∀ (s : State) (r : DeckRow), running s.m = true → s.m.deck.mbistRunning = true → s.m.deck.mbistFail = false →
    sparesLeft s.m r = 0 →
    ∃ t, exec (.mbistDone [r]) s = .next t ∧ t.m.deck.mbistRan = true ∧ t.m.deck.mbistFail = true
      ∧ t.m.pins.faultN = true ∧ isPending t.m 56 = true ∧ s.only (.deck :: .pins :: Part.report) t) ∧
  (∀ (s : State), running s.m = true → s.m.deck.mbistRunning = false →
    ∃ t, exec .initDone s = .next t ∧ t.m.deck = { s.m.deck with initDone := true } ∧ s.only [.deck] t)

/-- SENSOR_SAMPLE: the temperature and the rails are sampled into CKP.TEMP and CKP.SUPPLY_k; a temperature above the alert
sets CKP.THERM.above, a rail outside its limits its bit of CKP.SUPPLY_STATUS (R914, R915, R963). -/
def Obligations.SensorsAreSampled : Prop :=
  ∀ (s : State) (temp : BitVec 16) (mv : List (BitVec 16)), awake s.m = true → s.m.pins.refclkStopped = false →
    mv.length = 7 →
    ∃ t, exec (.sensorSample temp mv) s = .next t ∧ rfld t.m 0x3C04 15 0 = temp.toNat
      ∧ (∀ k : Fin 7, rfld t.m (0x3C10 + 4 * k.val) 15 0 = ((mv[k.val]?).getD 0).toNat
          ∧ rbit t.m 0x3C2C k.val = railOut k.val ((mv[k.val]?).getD 0).toNat)
      ∧ ((rfld s.m 0x3C08 7 0 : Int) * 8 < temp.toInt → rbit t.m 0x3C0C 0 = true)
      ∧ ((rfld s.m 0x3C08 7 0 : Int) * 8 < temp.toInt → rbit s.m 0x3C0C 0 = false → isPending t.m 21 = true)
      ∧ s.only (.pins :: Part.report) t

/-- TAP: TRST_N low resets the controller and selects IDCODE; each TCK with TRST_N high moves the controller by TMS, the
capture of IDCODE is 0x1240056B, a shift moves the selected register by one bit (R953 to R955). -/
def Obligations.TapFollowsItsController : Prop :=
  (∀ (s : State), ∃ t, exec (.tap (.trst true)) s = .next t ∧ t.m.tap.st = .reset ∧ t.m.tap.instr = .idcode
    ∧ t.m.tap.trst = true ∧ s.only [.tap] t) ∧
  (∀ (s : State) (tms tdi : Bool), s.m.tap.trst = true → exec (.tap (.tck tms tdi)) s = .next s) ∧
  (∀ (s : State) (tms tdi : Bool), s.m.tap.trst = false →
    ∃ t, exec (.tap (.tck tms tdi)) s = .next t ∧ t.m.tap.st = tapNext s.m.tap.st tms
      ∧ (s.m.tap.st = .drShift → t.m.tap.drBits = (s.m.tap.drBits ++ [tdi]).drop 1)
      ∧ (s.m.tap.st = .drCapture → s.m.tap.instr = .idcode →
          t.m.tap.drBits = (List.range 32).map fun i => (0x1240056B : Nat).testBit i)
      ∧ (s.m.tap.st = .drCapture → s.m.tap.instr = .bypass → t.m.tap.drBits = [false])
      ∧ s.only [.tap, .free] t)

/-! ### The Kalpor image (spec/12_control_plane.md) -/

/-- The image loader's read frame runs, or runs next: no engine before it holds SPA or has a frame ready (R807). -/
abbrev loaderReads (m : Core) : Prop :=
  m.boot.applying = false ∧ (m.spi.own = 2 ∨ (m.spi.own = 0 ∧ spaJournal m = false))

/-- The read frame of `bs` is not ended early (R808). -/
abbrev readsWhole (m : Core) (bs : List Byte) : Prop := readEnds m = false ∨ bs.length ≤ 32

/-- IMAGE_COPY_READ, IMAGE_WRITE_RECORD, IMAGE_POLL_RECORD, IMAGE_POLL_TIMEOUT, IMAGE_TABLE_LOAD, IMAGE_NODE_PLAN,
IMAGE_END_SECTION: a copy that has been read whole and passes its checks is applied, copy A that fails gives way to copy
B, and the load ends where copy B fails too; a read frame that ends early brings one segment, which the next one goes on
from; the records take effect in their order, each leaving the list when it has (R513, R514, R633, R634, R636 to R638,
R808). -/
def Obligations.ImageIsCheckedAndApplied : Prop :=
  (∀ (s : State) (bs : List Byte) (rs : List ImgRec), running s.m = true → loaderReads s.m → readsWhole s.m bs →
    (s.m.boot.loading = 1 ∨ s.m.boot.loading = 2) → imgCheck (s.m.boot.read ++ bs) = .ok rs →
    ∃ t, exec (.imageCopyRead bs) s = .next t ∧ t.m.boot.applying = true ∧ t.m.boot.recs = rs
      ∧ t.m.boot.loading = s.m.boot.loading ∧ rfld t.m 0x40 31 30 = s.m.boot.loading
      ∧ s.only [.regs, .boot, .spi] t ∧ s.m.onlyRegs [0x40, 0x3814] t.m) ∧
  (∀ (s : State) (bs : List Byte), running s.m = true → loaderReads s.m → s.m.boot.loading ≠ 0 →
    readEnds s.m = true → 32 < bs.length →
    ∃ t, exec (.imageCopyRead bs) s = .next t
      ∧ t.m.boot = { s.m.boot with read := s.m.boot.read ++ bs.take 32, cut := false }
      ∧ t.m.spi.own = (if spaJournal s.m = true then 1 else 2) ∧ t.m.spi.held = none
      ∧ s.only [.regs, .boot, .spi] t ∧ s.m.onlyRegs [0x3814] t.m) ∧
  (∀ (s : State) (bs : List Byte) (k : Nat), running s.m = true → loaderReads s.m → readsWhole s.m bs →
    s.m.boot.loading = 1 → imgCheck (s.m.boot.read ++ bs) = .error k →
    ∃ t, exec (.imageCopyRead bs) s = .next t ∧ t.m.boot.loading = 2 ∧ t.m.boot.applying = false
      ∧ rfld t.m 0x40 23 20 = k % 16 ∧ isPending t.m 23 = true ∧ s.only (.boot :: .spi :: .jnl :: Part.report) t) ∧
  (∀ (s : State) (bs : List Byte) (k : Nat), running s.m = true → loaderReads s.m → readsWhole s.m bs →
    s.m.boot.loading = 2 → imgCheck (s.m.boot.read ++ bs) = .error k →
    ∃ t, exec (.imageCopyRead bs) s = .next t ∧ t.m.boot.loading = 0 ∧ t.m.boot.ended = true
      ∧ rfld t.m 0x40 19 16 = k % 16 ∧ isPending t.m 23 = true ∧ s.only (.boot :: .spi :: .jnl :: Part.report) t) ∧
  (∀ (s : State) (a : BitVec 16) (v : Word) (r : RegDesc), running s.m = true → nextRec s.m = some (.write a v) →
    writeCode s.m bootWho a.toNat v = 0 → regAt a.toNat = some r → plainAddr a.toNat = true →
    ∃ t, exec .imageWriteRecord s = .next t ∧ rget t.m a.toNat = storeFields r (rget s.m a.toNat) v
      ∧ t.m.boot = { s.m.boot with recs := s.m.boot.recs.tail } ∧ s.only [.regs, .boot] t
      ∧ s.m.onlyRegs [a.toNat] t.m) ∧
  (∀ (s : State) (ms : Nat) (a : BitVec 16) (k v : Word), running s.m = true → nextRec s.m = some (.poll ms a k v) →
    readCode s.m bootWho a.toNat = 0 →
    ∃ t, exec .imagePollRecord s = .next t
      ∧ t.m.boot.recs = (if (readValue s.m bootWho a.toNat).1 &&& k = v then s.m.boot.recs.tail else s.m.boot.recs)
      ∧ s.only [.boot, .hold, .timeHold] t) ∧
  (∀ (s : State) (ms : Nat) (a : BitVec 16) (k v : Word), running s.m = true → nextRec s.m = some (.poll ms a k v) →
    ∃ t, exec .imagePollTimeout s = .next t ∧ rbit t.m 0x40 29 = true ∧ isPending t.m 23 = true ∧ t.m.boot.ended = true
      ∧ t.m.boot.loading = 0 ∧ t.m.boot.applying = false ∧ t.m.boot.recs = []
      ∧ s.only (.boot :: .jnl :: Part.report) t) ∧
  (∀ (s : State) (k first : Nat) (set : Bool) (raw : List Word), running s.m = true →
    nextRec s.m = some (.table k (b1 set) first [raw]) →
    tableCode s.m { seq := 0, write := true, set := set, table := k, index := first, words := raw } raw = 0 →
    ∃ t, exec .imageTableLoad s = .next t ∧ setOf t.m set = cfgPut (setOf s.m set) k first raw
      ∧ setOf t.m (!set) = setOf s.m (!set) ∧ t.m.boot = { s.m.boot with recs := s.m.boot.recs.tail }
      ∧ s.only [.cfg, .boot] t) ∧
  (∀ (s : State) (es : List (BitVec 8 × BitVec 6 × NodeId)) (n : NodeId), running s.m = true →
    nextRec s.m = some (.plan es) → s.m.boot.warm = false →
    es.find? (fun e => decide (e.1 = s.m.pins.straps.chassis) && decide (e.2.1 = s.m.pins.straps.slot))
      = some (s.m.pins.straps.chassis, s.m.pins.straps.slot, n) →
    ∃ t, exec .imageNodePlan s = .next t ∧ nodeId t.m = n ∧ nodeValid t.m = true
      ∧ t.m.boot = { s.m.boot with recs := s.m.boot.recs.tail, planned := true } ∧ s.only [.regs, .boot] t
      ∧ s.m.onlyRegs [0x20] t.m) ∧
  (∀ (s : State) (es : List (BitVec 8 × BitVec 6 × NodeId)), running s.m = true →
    nextRec s.m = some (.plan es) → s.m.boot.warm = false →
    es.find? (fun e => decide (e.1 = s.m.pins.straps.chassis) && decide (e.2.1 = s.m.pins.straps.slot)) = none →
    ∃ t, exec .imageNodePlan s = .next t ∧ rget t.m 0x20 = rget s.m 0x20 ∧ isPending t.m 24 = true
      ∧ t.m.boot = { s.m.boot with recs := s.m.boot.recs.tail, planned := true }
      ∧ s.only (.boot :: .jnl :: Part.report) t) ∧
  (∀ (s : State), running s.m = true → nextRec s.m = some .fin →
    ∃ t, exec .imageEndSection s = .next t ∧ t.m.boot.ended = true ∧ t.m.boot.loading = 0 ∧ t.m.boot.applying = false
      ∧ t.m.boot.recs = [] ∧ s.only (.boot :: .jnl :: Part.report) t)

/-! ### Ports (spec/02_olfer_messages.md, spec/11_bringup_coupling.md) -/

/-- Every port but `p` is as it was. -/
def otherPorts (p : Nat) (m n : Core) : Prop := ∀ q, q ≠ p → port n q = port m q

/-- PHY_TRAINING_START, PHY_L0, START_FLIT, TIME_SAMPLE_SEND, REPLAY_TIMER, RECOVERY_EXIT, LINK_LOSS,
BROADCAST_ENTRY_EXPIRY: how links start, recover and are lost (R44, R45, R54, R56, R63 to R65, R85, R94, R530, R563,
R951). -/
def Obligations.LinksStartRecoverAndAreLost : Prop :=
  (∀ (s : State), running s.m = true → s.m.boot.ended = true → s.m.deck.initDone = true →
    ∃ t, exec .phyTrainingStart s = .next t
      ∧ (∀ p : PortIx, port t.m p.val =
          (if portExists s.m p.val = true ∧ (port s.m p.val).link = .down ∧ linkHeld s.m p.val = false
           then { port s.m p.val with link := .training, act := rget s.m (0x800 + 4 * p.val) } else port s.m p.val))
      ∧ s.only [.ports] t) ∧
  (∀ (s : State) (p : PortIx) (tr : PhyTrain), running s.m = true → (port s.m p.val).link = .training →
    linkHeld s.m p.val = false → portExists s.m p.val = true → tr.loopback = false → tr.olfer = true →
    phySupports s.m p.val tr = true →
    ∃ t, exec (.phyL0 p tr) s = .next t ∧ (port t.m p.val).link = .starting ∧ (port t.m p.val).width = tr.lanes
      ∧ (port t.m p.val).speed = tr.speed ∧ (port t.m p.val).reversed = tr.reversed ∧ (port t.m p.val).upper = tr.upper
      ∧ (∀ v : Fin 12, vcb (port t.m p.val) v.val =
          { p := allotOf (allotSet s.m) p.val v.val, g := allotOf (allotSet s.m) p.val v.val })
      ∧ otherPorts p.val s.m t.m ∧ s.only [.ports] t) ∧
  (∀ (s : State) (p : PortIx) (tr : PhyTrain), running s.m = true → (port s.m p.val).link = .training →
    linkHeld s.m p.val = false → portExists s.m p.val = true → tr.loopback = false → tr.olfer = false →
    ∃ t, exec (.phyL0 p tr) s = .next t ∧ rbit t.m (0x8C0 + 4 * p.val) 1 = true ∧ isPending t.m (64 + p.val) = true
      ∧ s.only Part.report t) ∧
  (∀ (s : State) (p : PortIx) (tr : PhyTrain), running s.m = true → (port s.m p.val).link = .training →
    linkHeld s.m p.val = false → portExists s.m p.val = true → tr.loopback = true →
    ∃ t, exec (.phyL0 p tr) s = .next t ∧ port t.m p.val = { port s.m p.val with loop := true }
      ∧ otherPorts p.val s.m t.m ∧ s.only [.ports] t) ∧
  (∀ (s : State) (p : PortIx), running s.m = true →
    ((port s.m p.val).link = .starting ∨ (port s.m p.val).link = .complete) → linkHeld s.m p.val = false →
    (port s.m p.val).recovery = false →
    ∃ t, exec (.startFlit p) s = .next t ∧ port t.m p.val = { port s.m p.val with gotStart := true }
      ∧ otherPorts p.val s.m t.m ∧ s.only [.ports] t) ∧
  (∀ (s : State), running s.m = true →
    ∃ t, exec .timeSampleSend s = .next t
      ∧ (∀ p : PortIx, port t.m p.val =
          (if started s.m p.val = true then { port s.m p.val with sampleDue := true } else port s.m p.val))
      ∧ s.only [.ports] t) ∧
  (∀ (s : State) (p : PortIx), running s.m = true → (port s.m p.val).replayBuf ≠ [] →
    (port s.m p.val).recovery = false → linkHeld s.m p.val = false →
    ∃ t, exec (.replayTimer p) s = .next t
      ∧ port t.m p.val = (if 4 ≤ (port s.m p.val).replays
          then { port s.m p.val with recovery := true, replays := 0 }
          else { port s.m p.val with
            replays := (port s.m p.val).replays + 1, replay := true,
            wire := (port s.m p.val).replayBuf.map fun f => refit f.bits ((port s.m p.val).nextRx - 1) })
      ∧ otherPorts p.val s.m t.m ∧ s.only (.ports :: Part.report) t) ∧
  (∀ (s : State) (p : PortIx), running s.m = true →
    ∃ t, exec (.recoveryExit p) s = .next t ∧ port t.m p.val = { port s.m p.val with recovery := false }
      ∧ otherPorts p.val s.m t.m ∧ s.only [.ports] t) ∧
  (∀ (s : State) (p : PortIx), running s.m = true → (port s.m p.val).link = .complete →
    ∃ t, exec (.linkLoss p) s = .next t
      ∧ (port t.m p.val).link = (if linkHeld s.m p.val = true then .down else .training)
      ∧ (port t.m p.val).replayBuf = [] ∧ (port t.m p.val).vcs = [] ∧ rbit t.m (0x8C0 + 4 * p.val) 0 = true
      ∧ isPending t.m (64 + p.val) = true ∧ t.dram = s.dram ∧ t.pending = s.pending) ∧
  (∀ (s : State), running s.m = true →
    ∃ t, exec .broadcastEntryExpiry s = .next t ∧ t.m.bcasts = s.m.bcasts.drop 1 ∧ s.only [.bcasts] t)

/-- FLIT_SEND, FLIT_RECEIVE, PASS_THROUGH, UCP_RESEND: start flits until one has come; then sequenced flits that carry
the next seq and the current ack and are kept for replay; a flit in error or out of sequence is discarded, one in
sequence moves the expected seq on and frees what it acknowledges; its messages for other nodes are steered with the hop
count lowered; an unanswered report is sent again (R30, R53, R54, R57 to R60, R79, R88, R90, R564). -/
def Obligations.FlitsAreSentAndReceived : Prop :=
  (∀ (s : State) (p : PortIx) (picks : List (Fin 12)), running s.m = true →
    ((port s.m p.val).link = .starting ∨ (port s.m p.val).link = .complete) → linkHeld s.m p.val = false →
    (port s.m p.val).recovery = false → (port s.m p.val).gotStart = false →
    ∃ t, exec (.flitSend p picks) s = .next t
      ∧ port t.m p.val = { port s.m p.val with wire := [packFlit 0 { seq := 0, ack := 0, kind := 2 }] }
      ∧ otherPorts p.val s.m t.m ∧ s.only [.ports] t) ∧
  (∀ (s : State) (p : PortIx) (picks : List (Fin 12)), running s.m = true →
    ((port s.m p.val).link = .starting ∨ (port s.m p.val).link = .complete) → linkHeld s.m p.val = false →
    (port s.m p.val).recovery = false → (port s.m p.val).gotStart = true → (port s.m p.val).replayBuf.length < 256 →
    ∃ t bits, exec (.flitSend p picks) s = .next t
      ∧ (port t.m p.val).wire = [bits] ∧ (flitTrailer bits).seq = (port s.m p.val).nextTx
      ∧ (flitTrailer bits).ack = (port s.m p.val).nextRx - 1
      ∧ (port t.m p.val).nextTx = (port s.m p.val).nextTx + 1
      ∧ (port t.m p.val).replayBuf = (port s.m p.val).replayBuf ++ [⟨(port s.m p.val).nextTx, bits⟩]
      ∧ otherPorts p.val s.m t.m ∧ s.only (.ports :: Part.report) t) ∧
  (∀ (s : State) (p : PortIx) (f : Flit), running s.m = true → (port s.m p.val).loop = true →
    (port s.m p.val).link = .training → linkHeld s.m p.val = false →
    ∃ t, exec (.flitReceive p f) s = .next t ∧ port t.m p.val = { port s.m p.val with wire := [f.bits] }
      ∧ otherPorts p.val s.m t.m ∧ s.only [.ports] t) ∧
  (∀ (s : State) (p : PortIx) (f : Flit), running s.m = true → (port s.m p.val).loop = false →
    (f.fecOk = false ∨ flitCrcOk f.bits = false
      ∨ ((flitTrailer f.bits).kind ≠ 2 ∧ (flitTrailer f.bits).seq ≠ (port s.m p.val).nextRx)) →
    ∃ t, exec (.flitReceive p f) s = .next t ∧ s.only Part.report t ∧ s.m.onlyRegs reportRegs t.m) ∧
  (∀ (s : State) (p : PortIx) (f : Flit), running s.m = true →
    ((port s.m p.val).link = .starting ∨ (port s.m p.val).link = .complete) → linkHeld s.m p.val = false →
    (port s.m p.val).recovery = false → (port s.m p.val).gotStart = true → f.fecOk = true → flitCrcOk f.bits = true →
    (flitTrailer f.bits).kind = 1 → (flitTrailer f.bits).seq = (port s.m p.val).nextRx →
    ∃ t, exec (.flitReceive p f) s = .next t ∧ (port t.m p.val).nextRx = (port s.m p.val).nextRx + 1
      ∧ (port t.m p.val).replayBuf = (takeAck (port s.m p.val) (flitTrailer f.bits).ack).replayBuf
      ∧ t.dram = s.dram ∧ t.pending = s.pending) ∧
  (∀ (s : State) (p : PortIx) (f : Flit) (x : Msg), running s.m = true →
    ((port s.m p.val).link = .starting ∨ (port s.m p.val).link = .complete) → linkHeld s.m p.val = false →
    (port s.m p.val).recovery = false → (port s.m p.val).gotStart = true → f.fecOk = true → flitCrcOk f.bits = true →
    (flitTrailer f.bits).kind = 0 → (flitTrailer f.bits).seq = (port s.m p.val).nextRx →
    parseArea (flitArea f.bits) = ([x], false) → x.hop ≠ 0 → x.broadcast = false → x.dest ≠ nodeId s.m →
    s.m.cfg.prepared = false →
    (vcb (port s.m p.val) (vcOf x)).sacc + slotsOf x ≤ (vcb (port s.m p.val) (vcOf x)).cret →
    ∃ t, exec (.flitReceive p f) s = .next t ∧ (port t.m p.val).nextRx = (port s.m p.val).nextRx + 1
      ∧ (port t.m p.val).rxq = (port s.m p.val).rxq
          ++ [⟨vcOf x, x, (vcb (port s.m p.val) (vcOf x)).sacc + slotsOf x⟩]
      ∧ (vcb (port t.m p.val) (vcOf x)).sacc = (vcb (port s.m p.val) (vcOf x)).sacc + slotsOf x
      ∧ t.dram = s.dram ∧ t.pending = s.pending) ∧
  (∀ (s : State) (p : PortIx) (vc : Fin 12) (r : RxMsg) (rest : List RxMsg) (o : Nat), running s.m = true →
    takeFirst (fun y => decide (y.vc = vc.val)) (port s.m p.val).rxq = some (r, rest) → 1 < r.msg.hop.toNat →
    wbkAhead s.m p.val vc.val r.at_ = false →
    routeOf s.m (epochFor s.m r.msg.epoch) r.msg.dest = some o →
    ∃ t, exec (.passThrough p vc) s = .next t ∧ (port t.m p.val).rxq = rest
      ∧ (∃ y ∈ (port t.m o).txq, y.src = p.val ∧ y.owner = none ∧ y.msg.op = r.msg.op ∧ y.msg.dest = r.msg.dest
          ∧ y.msg.src = r.msg.src ∧ y.msg.tag = r.msg.tag ∧ y.msg.line = r.msg.line ∧ y.msg.data = r.msg.data
          ∧ y.msg.hop = r.msg.hop - 1)
      ∧ s.only (.ports :: Part.report) t ∧ s.m.onlyRegs reportRegs t.m) ∧
  (∀ (s : State) (n : NodeId) (tag : BitVec 12) (p : Nat), running s.m = true → s.m.fab2.reports = [(n, tag)] →
    s.m.fab.termValid = true → s.m.fab.master ≠ nodeId s.m → routeOf s.m s.m.cfg.epoch s.m.fab.master = some p →
    ∃ t, exec (.ucpResend n) s = .next t
      ∧ (∃ y ∈ (port t.m p).txq, y.msg.op = .ucp ∧ y.msg.dest = s.m.fab.master ∧ y.msg.tag = tag ∧ y.msg.status = 1
          ∧ y.msg.aux = n)
      ∧ s.only (.ports :: Part.report) t ∧ s.m.onlyRegs reportRegs t.m)

/-! ### The home tracker (spec/04_ordering_races.md, spec/06_progress.md) -/

/-- ADMISSION, TRANSACTION_COMPLETE, HTE_EXPIRY, QUARANTINE_END: the arbiter's arrival takes the lowest free HTE and joins
its line's queue where the line is busy; a completed transaction writes its directory entry, frees its HTE and the head of
its line's queue goes on; one whose age has passed the limit is quarantined, counted and raised, and a quarantined HTE frees
after a further limit (R106, R156, R163 to R165, R196, R280 to R283, R978). A transaction that surrenders its line, one that
recovers an entry and one of the junction function expire otherwise and are left out. -/
def Obligations.TrackerAdmitsAndCompletes : Prop :=
  (∀ (s : State) (i : Nat) (a : Arrival), running s.m = true → s.m.deck.initDone = true →
    arbitrate { s.m with trk := { s.m.trk with core := s.m.trk.core + 1 } } = some (i, a) →
    (clsOf a.msg.op ≠ .wbk ∨ wbAtOnce s.m a.msg = false) → a.msg.epoch = s.m.cfg.epoch → sweptBy s.m a = false →
    ∃ t x, exec .admission s = .next t ∧ hte t.m (tfree s.m.trk.htes 0) = some x ∧ x.msg = a.msg ∧ x.port = a.port
      ∧ x.job = a.job ∧ x.slot = arrSlot s.m a ∧ x.epoch = a.msg.epoch
      ∧ x.kind = (if lineBusy s.m a.msg.line = true then .queued else .active)
      ∧ x.wait = (if lineBusy s.m a.msg.line = true then .queue else .decision) ∧ x.awaits = [] ∧ x.done = false
      ∧ (∀ h, h ≠ tfree s.m.trk.htes 0 → hte t.m h = hte s.m h)
      ∧ t.m.trk.arrivals = s.m.trk.arrivals.eraseIdx i ∧ t.m.trk.ptr = (a.port + 1) % 17
      ∧ t.m.trk.core = s.m.trk.core + 1 ∧ s.only (.trk :: .ports :: Part.report) t) ∧
  (∀ (s : State) (h : HteIx) (x : Hte), running s.m = true → hte s.m h.val = some x → x.kind = .active →
    x.done = true → x.awaits = [] → x.held = [] → x.cmps = [] → x.expired = false → unsent s.m h.val = false →
    (s.m.trk.atOnce.any fun a => decide (a.msg.line = x.msg.line)) = false →
    ∃ t, exec (.transactionComplete h) s = .next t ∧ hte t.m h.val = none
      ∧ (∀ k d, x.key = some k → x.fin = some d → retired s.m (k / 16) = false → dirEnt t.m k = d)
      ∧ (∀ q, lineBusy (freeHte s.m h.val) x.msg.line = false →
          queueHead (freeHte s.m h.val) x.msg.line = some q →
          ∃ y z, hte s.m q = some y ∧ hte t.m q = some z ∧ z = { y with kind := .active, wait := .decision })
      ∧ s.only [.trk, .deck] t) ∧
  (∀ (s : State) (h g : HteIx) (x w : Hte), running s.m = true → hte s.m h.val = some x → x.kind = .queued →
    x.done = false → x.expired = false → x.vline = none → x.recov = none → aged s.m x = true → h ≠ g →
    hte s.m g.val = some w → keepsBusy w x.msg.line = true →
    ∃ t y, exec (.hteExpiry h) s = .next t ∧ hte t.m h.val = some y ∧ y.kind = .quarantined ∧ y.awaits = []
      ∧ y.done = true ∧ y.adm = s.m.stmp
      ∧ rget t.m 0xC14 = BitVec.ofNat 32 (min ((rget s.m 0xC14).toNat + 1) 0xFFFFFFFF) ∧ isPending t.m 33 = true
      ∧ t.dram = s.dram ∧ t.pending = s.pending) ∧
  (∀ (s : State) (h : HteIx) (x : Hte), running s.m = true → hte s.m h.val = some x → x.kind = .active →
    surrenders x = false → x.recov = none → isJct s.m x = false → x.done = false → x.expired = false →
    aged s.m x = true →
    (s.m.trk.htes.all fun y => decide (y.2.kind ≠ .queued)) = true →
    ∃ t y, exec (.hteExpiry h) s = .next t ∧ hte t.m h.val = some y ∧ y.kind = .quarantined ∧ y.awaits = []
      ∧ y.done = true ∧ y.adm = s.m.stmp
      ∧ rget t.m 0xC14 = BitVec.ofNat 32 (min ((rget s.m 0xC14).toNat + 1) 0xFFFFFFFF) ∧ isPending t.m 33 = true
      ∧ t.dram = s.dram ∧ t.pending = s.pending) ∧
  (∀ (s : State) (h : HteIx) (x : Hte), running s.m = true → hte s.m h.val = some x → x.kind = .quarantined →
    ageLimit s.m ≤ s.m.stmp - x.adm →
    ∃ t, exec (.quarantineEnd h) s = .next t ∧ hte t.m h.val = none
      ∧ (∀ g, g ≠ h.val → hte t.m g = hte s.m g) ∧ s.only [.trk] t)

/-! ### Decisions in the home function (spec/03_coherence_flows.md, spec/04_ordering_races.md, spec/05_atomics.md) -/

/-- HTE `h` holds request `x` of an opcode that waits for its decision (`w`: for its first one, or for a way), in the home
function, and no cause of R980 meets it before. -/
abbrev atDecision (m : Core) (h : Nat) (x : Hte) (op : Op) (w : Wait) : Prop :=
  hte m h = some x ∧ x.kind = .active ∧ x.wait = w ∧ x.job = .external ∧ x.msg.op = op ∧ x.awaits = []
    ∧ x.cont = .idle ∧ x.done = false ∧ x.fin = none ∧ x.vline = none ∧ x.recov = none
    ∧ homeServes m x.epoch x.msg.line x.slot = true ∧ reqLost m x = false ∧ judge m x = none

/-- The home function's entry of a line is `d`, in way `k`. -/
abbrev hasEntry (m : Core) (l : LineAddr) (k : Nat) (d : DirEnt) : Prop := dirFind m true l = some k ∧ dirEnt m k = d

/-- An atomic can take the ALC entry `i`, which holds no line: it is the one the replacement takes, and no HELD order is
pending (R219, R221, R417, R418). -/
abbrev entryFree (m : Core) (i : Nat) : Prop :=
  heldPending m = false ∧ alcAllOff m = false ∧ alcPick m = some i ∧ tfind m.ca.alc i = none

/-- The parts that a decision may change; the DRAM content is not among them. -/
def decisionParts : List Part := [.trk, .deck, .ca, .atm, .ports, .inbox, .jnl, .regs, .eic, .pmc, .whs, .free]

/-- A message of HTE `h`'s transaction waits at port `p`. -/
def hteSends (t : Core) (p h : Nat) (f : Msg → Prop) : Prop := ∃ y ∈ (port t p).txq, y.owner = some h ∧ f y.msg

/-- RDS, RDO, RDC, UPG, WRL, WRP, WST, ATM, FLS, QUEUE_HEAD_DECISION: a request to a line in X of another slot that joins no
chain (Table COH-4): a read is forwarded to the owner, a write, stash, flush or atomic recalls its copy, the atomic with a
free ALC entry taken. The entry that the transaction writes at its end is the next state of Table COH-4 (R113, R114, R165,
R169, R221). -/
def Obligations.OwnedLinesAreForwardedOrRecalled : Prop :=
  ∀ (s : State) (h : HteIx) (x : Hte) (op sn : Op) (c : Instr) (k own : Nat) (d : DirEnt), running s.m = true →
    atDecision s.m h.val x op .decision → hasEntry s.m x.msg.line k d → d.st = .x → x.slot = some own → d.owner.toNat ≠ own →
    mayChain s.m x = false → snoopable s.m x.epoch d.owner.toNat = true →
    (op = .atm → x.alcIx = none ∧ ∃ i, entryFree s.m i) →
    (c, op, sn) ∈ ([(.rds h Env.clean, .rds, .sfs), (.rdo h Env.clean, .rdo, .sfo), (.upg h Env.clean, .upg, .sfo),
      (.rdc h Env.clean, .rdc, .sfc), (.wrl h Env.clean, .wrl, .src), (.wrp h Env.clean, .wrp, .src),
      (.wst h Env.clean, .wst, .src), (.fls h Env.clean, .fls, .src), (.atm h Env.clean, .atm, .src)]
        : List (Instr × Op × Op)) →
    ∃ t y, exec c s = .next t ∧ hte t.m h.val = some y ∧ y.key = some k ∧ y.wait = .none ∧ y.done = false
      ∧ y.awaits = (if sn = .src then [.owner d.owner.toNat .src] else [.owner d.owner.toNat sn, .reqCmp x.msg.src])
      ∧ y.fin = (match op with
          | .rds => some { entOf x.msg.line x.epoch .s with vec := vecOf d.owner.toNat ||| vecOf own }
          | .rdo | .upg => some { entOf x.msg.line x.epoch .x with owner := BitVec.ofNat 8 own }
          | .rdc => none
          | _ => some {})
      ∧ (∀ p, nodeOf s.m x.epoch d.owner.toNat ≠ nodeId s.m →
          routeOf s.m x.epoch (nodeOf s.m x.epoch d.owner.toNat) = some p →
          hteSends t.m p h.val fun g => g.op = sn ∧ g.dest = nodeOf s.m x.epoch d.owner.toNat ∧ g.src = nodeId s.m
            ∧ g.tag = BitVec.ofNat 12 h.val ∧ g.htag = BitVec.ofNat 12 h.val ∧ g.line = x.msg.line ∧ g.epoch = x.epoch
            ∧ g.staff = false
            ∧ (if sn = .src then g.fnode = 0 ∧ g.ftag = 0 else g.fnode = x.msg.src ∧ g.ftag = x.msg.tag))
      ∧ s.only decisionParts t
      ∧ (s.m.trk.htes.find? (fun z => decide (z.2.msg.line = x.msg.line) && decide (z.2.kind = .active)
            && decide (z.2.wait = .decision)) = some (h.val, x) →
          exec (.queueHeadDecision x.msg.line Env.clean) s = .next t)

/-- RDO, UPG, WRL, WRP, WST, FLS, ATM: a request to a line in S invalidates: every snoopable slot of the vector, but the
requester's own for `RDO` and `UPG`, is sent `SIN` and awaited, and the entry written at the end is X with the requester,
or I (R113, R114, Table COH-4). RDS and RDC change no other copy: the requester joins the vector, or nothing changes. -/
def Obligations.SharedLinesAreInvalidated : Prop :=
  (∀ (s : State) (h : HteIx) (x : Hte) (op : Op) (c : Instr) (k own : Nat) (d : DirEnt) (v : BitVec 256),
    running s.m = true → atDecision s.m h.val x op .decision → hasEntry s.m x.msg.line k d → d.st = .s → x.slot = some own →
    (op = .atm → x.alcIx = none ∧ ∃ i, entryFree s.m i) →
    (c, op, v) ∈ ([(.rdo h Env.clean, .rdo, d.vec &&& ~~~(vecOf own)), (.upg h Env.clean, .upg, d.vec &&& ~~~(vecOf own)),
      (.wrl h Env.clean, .wrl, d.vec), (.wrp h Env.clean, .wrp, d.vec), (.wst h Env.clean, .wst, d.vec),
      (.fls h Env.clean, .fls, d.vec), (.atm h Env.clean, .atm, d.vec)] : List (Instr × Op × BitVec 256)) →
    (∃ i < 256, v.getLsbD i = true ∧ snoopable s.m x.epoch i = true) →
    ∃ t y, exec c s = .next t ∧ hte t.m h.val = some y ∧ y.key = some k ∧ y.done = false
      ∧ y.fin = (if op = .rdo ∨ op = .upg then some { entOf x.msg.line x.epoch .x with owner := BitVec.ofNat 8 own }
          else some {})
      ∧ (∀ i < 256, (v.getLsbD i = true ∧ snoopable s.m x.epoch i = true) ↔ Await.ria i ∈ y.awaits)
      ∧ (∀ i < 256, ∀ p, v.getLsbD i = true → snoopable s.m x.epoch i = true → nodeOf s.m x.epoch i ≠ nodeId s.m →
          routeOf s.m x.epoch (nodeOf s.m x.epoch i) = some p →
          hteSends t.m p h.val fun g => g.op = .sin ∧ g.dest = nodeOf s.m x.epoch i ∧ g.line = x.msg.line
            ∧ g.tag = BitVec.ofNat 12 h.val)
      ∧ s.only decisionParts t) ∧
  (∀ (s : State) (h : HteIx) (x : Hte) (k own : Nat) (d : DirEnt),
    running s.m = true → atDecision s.m h.val x .rds .decision → hasEntry s.m x.msg.line k d → d.st = .s → x.slot = some own →
    ∃ t y, exec (.rds h Env.clean) s = .next t ∧ hte t.m h.val = some y ∧ y.key = some k
      ∧ y.fin = some { entOf x.msg.line x.epoch .s with vec := d.vec ||| vecOf own }
      ∧ (y.done = true ∧ y.awaits = [] ∨ y.done = false ∧ y.awaits = [.mem]) ∧ s.only decisionParts t) ∧
  (∀ (s : State) (h : HteIx) (x : Hte) (k own : Nat) (d : DirEnt),
    running s.m = true → atDecision s.m h.val x .rdc .decision → hasEntry s.m x.msg.line k d → d.st = .s → x.slot = some own →
    ∃ t y, exec (.rdc h Env.clean) s = .next t ∧ hte t.m h.val = some y ∧ y.fin = none
      ∧ (y.done = true ∧ y.awaits = [] ∨ y.done = false ∧ y.awaits = [.mem]) ∧ s.only decisionParts t)

/-- The atomic of HTE entry `y` has taken ALC entry `i`: it has executed there, or awaits the line from memory. -/
abbrev fillsEntry (t : Core) (y : Hte) (i : Nat) (l : LineAddr) : Prop :=
  (y.done = true ∧ y.awaits = [] ∧ ∃ c, tfind t.ca.alc i = some c ∧ c.line = l)
    ∨ (y.done = false ∧ y.awaits = [.mem] ∧ y.alcIx = some i)

/-- RDS, RDO, UPG, WAY_RETRY, WRL, WRP, WST, FLS, ATM, ALC_RETRY: a request to a line that the directory does not list:
the reads that need an entry take a free way, at once or when they choose again; a write, a stash without a live target
and a flush with nothing held are answered `CMP` at once, the written bytes in the merging buffer; a stash to a live slot
is pushed to it; a home-placed atomic takes its ALC entry, at once or when it chooses again (R110, R113, R114, R118, R195,
R220, R221, R306). -/
def Obligations.UnlistedLinesAreServed : Prop :=
  (∀ (s : State) (h : HteIx) (x : Hte) (op : Op) (w : Wait) (c : Instr) (k own : Nat), running s.m = true →
    atDecision s.m h.val x op w → dirFind s.m true x.msg.line = none → x.slot = some own →
    (pickWay s.m h.val true (dirSet x.msg.line) false).1 = .free k →
    (c, op, w) ∈ ([(.rds h Env.clean, .rds, .decision), (.rdo h Env.clean, .rdo, .decision),
      (.upg h Env.clean, .upg, .decision), (.wayRetry h Env.clean, .rds, .way), (.wayRetry h Env.clean, .rdo, .way),
      (.wayRetry h Env.clean, .upg, .way)] : List (Instr × Op × Wait)) →
    ∃ t y, exec c s = .next t ∧ hte t.m h.val = some y ∧ y.key = some k
      ∧ y.fin = (if op = .rds ∧ (regionOf s.m x.epoch x.msg.line).exclGrant = false
          then some { entOf x.msg.line x.epoch .s with vec := vecOf own }
          else some { entOf x.msg.line x.epoch .x with owner := BitVec.ofNat 8 own })
      ∧ (y.done = true ∧ y.awaits = [] ∨ y.done = false ∧ y.awaits = [.mem]) ∧ s.only decisionParts t) ∧
  (∀ (s : State) (h : HteIx) (x : Hte) (op : Op) (c : Instr) (p : Nat), running s.m = true →
    atDecision s.m h.val x op .decision → dirFind s.m true x.msg.line = none → s.m.ca.mbWait = [] →
    tfree s.m.ca.mb 0 < 128 → (op = .fls → mbUnissued s.m x.msg.line = false) →
    (op = .wst → (slotEnt s.m x.epoch (fld x.msg.aux 15 8)).status ≠ .live) → x.msg.src ≠ nodeId s.m →
    routeOf s.m x.epoch x.msg.src = some p →
    (c, op) ∈ ([(.wrl h Env.clean, .wrl), (.wrp h Env.clean, .wrp), (.wst h Env.clean, .wst), (.fls h Env.clean, .fls)]
      : List (Instr × Op)) →
    ∃ t y, exec c s = .next t ∧ hte t.m h.val = some y ∧ y.done = true ∧ y.awaits = []
      ∧ hteSends t.m p h.val (fun g => g.op = .cmp ∧ g.dest = x.msg.src ∧ g.tag = x.msg.tag
          ∧ g.htag = BitVec.ofNat 12 h.val ∧ g.line = x.msg.line ∧ g.epoch = x.epoch)
      ∧ (op ≠ .fls → ∃ e ∈ t.m.ca.mb, e.2.line = x.msg.line ∧ ∀ i < 64, (op ≠ .wrp ∨ x.msg.mask.getLsbD i = true) →
          e.2.mask.getLsbD i = true ∧ lineByte e.2.data i = lineByte x.msg.data i)
      ∧ s.only decisionParts t) ∧
  (∀ (s : State) (h : HteIx) (x : Hte) (k : Nat), running s.m = true → atDecision s.m h.val x .wst .decision →
    dirFind s.m true x.msg.line = none → (slotEnt s.m x.epoch (fld x.msg.aux 15 8)).status = .live →
    (pickWay s.m h.val true (dirSet x.msg.line) false).1 = .free k →
    ∃ t y, exec (.wst h Env.clean) s = .next t ∧ hte t.m h.val = some y ∧ y.key = some k ∧ y.done = false
      ∧ y.awaits = [.acc (fld x.msg.aux 15 8)]
      ∧ (∀ p, nodeOf s.m x.epoch (fld x.msg.aux 15 8) ≠ nodeId s.m →
          routeOf s.m x.epoch (nodeOf s.m x.epoch (fld x.msg.aux 15 8)) = some p →
          hteSends t.m p h.val fun g => g.op = .spu ∧ g.dest = nodeOf s.m x.epoch (fld x.msg.aux 15 8)
            ∧ g.line = x.msg.line ∧ g.data = x.msg.data ∧ g.poison = x.msg.poison)
      ∧ s.only decisionParts t) ∧
  (∀ (s : State) (h : HteIx) (x : Hte) (k i : Nat), running s.m = true → atDecision s.m h.val x .atm .decision →
    dirFind s.m true x.msg.line = none → (regionOf s.m x.epoch x.msg.line).placement = 0 → x.alcIx = none →
    x.atUnit = false → entryFree s.m i → (pickWay s.m h.val true (dirSet x.msg.line) false).1 = .free k →
    ∃ t y, exec (.atm h Env.clean) s = .next t ∧ hte t.m h.val = some y ∧ y.key = some k
      ∧ y.fin = some { entOf x.msg.line x.epoch .i with homeHeld := true } ∧ fillsEntry t.m y i x.msg.line
      ∧ s.only decisionParts t) ∧
  (∀ (s : State) (h : HteIx) (x : Hte) (k i : Nat), running s.m = true → hte s.m h.val = some x → x.kind = .active →
    x.wait = .alcEntry → x.msg.op = .atm → x.key = some k → x.awaits = [] → x.done = false → x.alcIx = none →
    x.atUnit = false → entryFree s.m i →
    ∃ t y, exec (.alcRetry h Env.clean) s = .next t ∧ hte t.m h.val = some y ∧ y.key = some k
      ∧ y.fin = some { entOf x.msg.line x.epoch .i with homeHeld := true } ∧ fillsEntry t.m y i x.msg.line
      ∧ s.only decisionParts t)

/-! ### Writebacks and replies at the home (spec/03_coherence_flows.md, spec/04_ordering_races.md) -/

/-- WBD, WBE, WBS: a writeback of the owner frees the entry, the dirty data going to memory; a `WBS` removes its slot from
the vector; each is answered `CMP` (R119, Table COH-5). A writeback to a busy line whose holder has snooped its sender is
kept until the reply (R167, R189). -/
def Obligations.WritebacksAreServed : Prop :=
  (∀ (s : State) (h : HteIx) (x : Hte) (op : Op) (c : Instr) (k own p : Nat) (d : DirEnt), running s.m = true →
    hte s.m h.val = some x → x.kind = .active → x.wait = .decision → x.job = .external → x.msg.op = op →
    x.slot = some own → x.awaits = [] → x.ended = false → x.done = false → homeServes s.m x.epoch x.msg.line x.slot = true →
    homeOf s.m x.epoch x.msg.line = some (nodeId s.m) → 64 * llaOf s.m x.epoch x.msg.line < capacity s.m →
    uncoupled s.m = false → retired s.m (dirSet x.msg.line) = false → hasEntry s.m x.msg.line k d → own < 256 →
    (if op = .wbs then d.st = .s ∧ d.vec.getLsbD own = true else d.st = .x ∧ d.owner.toNat = own) →
    s.m.ca.mbWait = [] → tfree s.m.ca.mb 0 < 128 → x.msg.src ≠ nodeId s.m → routeOf s.m x.epoch x.msg.src = some p →
    (c, op) ∈ ([(.wbd (.hte h) Env.clean, .wbd), (.wbe (.hte h) Env.clean, .wbe), (.wbs (.hte h) Env.clean, .wbs)]
      : List (Instr × Op)) →
    ∃ t y, exec c s = .next t ∧ hte t.m h.val = some y ∧ y.done = true ∧ y.awaits = [] ∧ y.key = some k
      ∧ y.fin = (if op = .wbs ∧ d.vec &&& ~~~(vecOf own) ≠ 0
          then some { d with vec := d.vec &&& ~~~(vecOf own), epoch := x.epoch } else some {})
      ∧ hteSends t.m p h.val (fun g => g.op = .cmp ∧ g.dest = x.msg.src ∧ g.tag = x.msg.tag ∧ g.line = x.msg.line)
      ∧ (op = .wbd → ∃ e ∈ t.m.ca.mb, e.2.line = x.msg.line ∧ e.2.mask = fullMask ∧ e.2.data = x.msg.data)
      ∧ (op ≠ .wbd → t.m.ca = s.m.ca) ∧ s.only decisionParts t) ∧
  (∀ (s : State) (a : Arrival) (rest : List Arrival) (g : Nat) (x : Hte) (op : Op) (c : Instr), running s.m = true →
    role s.m = 0 → a.msg.op = op → s.m.trk.atOnce = a :: rest → wbTaker s.m a.msg.line a.msg.src = some (g, x) →
    hte s.m g = some x →
    x.awaits.contains (.wb ((anySlotOf s.m x.epoch a.msg.src).getD 256) false) = false →
    x.awaits.contains (.wb ((anySlotOf s.m x.epoch a.msg.src).getD 256) true) = false →
    (c, op) ∈ ([(.wbd .atOnce Env.clean, .wbd), (.wbe .atOnce Env.clean, .wbe)] : List (Instr × Op)) →
    ∃ t, exec c s = .next t ∧ t.m.trk.atOnce = rest ∧ hte t.m g = some { x with held := x.held ++ [a] }
      ∧ s.only [.trk] t)

/-- The oldest reply in the inbox is `g`, and it answers what HTE `h` awaits in the home function: `x` awaits `a` from the
sender's slot, and the reply is one that Table OLF-8 allows, of the HTE's epoch (R150, R161, R207). -/
abbrev answers (m : Core) (h : Nat) (x : Hte) (a : Await) (g : Msg) : Prop :=
  m.inbox.map (·.msg) = [g] ∧ isJunction m = false ∧ g.htag.toNat = h ∧ hte m h = some x ∧ x.kind = .active
    ∧ x.cmps = [] ∧ upHome x = none ∧ isJct m x = false ∧ (anySlotOf m x.epoch g.src).bind (awaitOf x) = some a
    ∧ g.epoch = x.epoch ∧ legalReply a g = true

/-- RIA, RSA, RWP, ACC, DEC, DHM, CMP: a reply that the home awaits is counted: the step it answers is awaited no longer,
an `RWP` makes the home await the slot's writeback, an `ACC` gives the line to the target, a `DEC` and a `DHM` write
their data to memory, and the requester's `CMP` ends a forwarded read (R108, R113, R145, R188, R194). -/
def Obligations.AwaitedRepliesAreCounted : Prop :=
  (∀ (s : State) (h : HteIx) (x : Hte) (a : Await) (g : Msg) (c : Instr), running s.m = true →
    answers s.m h.val x a g → x.awaits.erase a ≠ [] →
    (c, g.op) ∈ ([(.ria Env.clean, .ria), (.rsa Env.clean, .rsa)] : List (Instr × Op)) →
    ∃ t, exec c s = .next t ∧ t.m.inbox = [] ∧ hte t.m h.val = some { x with awaits := x.awaits.erase a }
      ∧ s.only [.inbox, .trk] t) ∧
  (∀ (s : State) (h : HteIx) (x : Hte) (a : Await) (g : Msg) (sl : Nat), running s.m = true →
    answers s.m h.val x a g → g.op = .rwp → anySlotOf s.m x.epoch g.src = some sl → x.job ≠ .snoop → x.recov = none →
    takeWbOf s.m h.val sl (awaitLine x) = none →
    ∃ t, exec (.rwp Env.clean) s = .next t ∧ t.m.inbox = []
      ∧ hte t.m h.val = some { x with awaits := x.awaits.erase a ++ [.wb sl (match a with
          | .ssu _ => true
          | _ => false)] }
      ∧ s.only [.inbox, .trk] t) ∧
  (∀ (s : State) (h : HteIx) (x : Hte) (g : Msg) (sl p : Nat), running s.m = true → answers s.m h.val x (.acc sl) g →
    g.op = .acc → anySlotOf s.m x.epoch g.src = some sl → x.msg.op = .wst → x.awaits = [.acc sl] → x.cont = .answer →
    x.wait = .none → x.done = false → x.msg.src ≠ nodeId s.m → routeOf s.m x.epoch x.msg.src = some p →
    ∃ t y, exec .acc s = .next t ∧ t.m.inbox = [] ∧ hte t.m h.val = some y ∧ y.awaits = [] ∧ y.done = true
      ∧ y.fin = some { entOf x.msg.line x.epoch .x with owner := BitVec.ofNat 8 sl }
      ∧ hteSends t.m p h.val (fun r => r.op = .cmp ∧ r.dest = x.msg.src ∧ r.tag = x.msg.tag ∧ r.line = x.msg.line)
      ∧ s.only decisionParts t) ∧
  (∀ (s : State) (h : HteIx) (x : Hte) (g : Msg) (sl p : Nat), running s.m = true → answers s.m h.val x (.acc sl) g →
    g.op = .dec → x.msg.op = .wst → x.awaits = [.acc sl] → x.wait = .none → x.done = false → x.cont = .answer →
    s.m.ca.mbWait = [] → tfree s.m.ca.mb 0 < 128 → x.msg.src ≠ nodeId s.m → routeOf s.m x.epoch x.msg.src = some p →
    ∃ t y, exec .dec s = .next t ∧ t.m.inbox = [] ∧ hte t.m h.val = some y ∧ y.awaits = [] ∧ y.done = true
      ∧ y.fin = x.fin ∧ (∃ e ∈ t.m.ca.mb, e.2.line = x.msg.line ∧ e.2.mask = fullMask ∧ e.2.data = x.msg.data)
      ∧ hteSends t.m p h.val (fun r => r.op = .cmp ∧ r.dest = x.msg.src ∧ r.tag = x.msg.tag ∧ r.line = x.msg.line)
      ∧ s.only decisionParts t) ∧
  (∀ (s : State) (h : HteIx) (x : Hte) (g : Msg) (o : Nat), running s.m = true →
    answers s.m h.val x (.owner o .sfs) g → g.op = .dhm → x.job = .external → x.msg.op = .rds →
    x.recov = none → x.vline = none → x.awaits.erase (.owner o .sfs) ≠ [] → s.m.ca.mbWait = [] →
    tfree s.m.ca.mb 0 < 128 →
    ∃ t, exec (.dhm Env.clean) s = .next t ∧ t.m.inbox = []
      ∧ hte t.m h.val = some { x with awaits := x.awaits.erase (.owner o .sfs) }
      ∧ (∃ e ∈ t.m.ca.mb, e.2.line = x.msg.line ∧ e.2.mask = fullMask ∧ e.2.data = g.data)
      ∧ s.only (.inbox :: .trk :: .ca :: Part.report) t) ∧
  (∀ (s : State) (h : HteIx) (x : Hte) (g : Msg), running s.m = true → s.m.inbox.map (·.msg) = [g] →
    isJunction s.m = false → g.op = .cmp → g.htag.toNat = h.val → mgtAnswer { s.m with inbox := [] } g = none →
    dumpAnswer { s.m with inbox := [] } g = none → hte s.m h.val = some x → x.kind = .active → upHome x = none →
    g.staff = false → g.epoch = x.epoch → x.awaits = [.reqCmp g.src] → x.wait = .none → x.cont = .finish →
    x.done = false → x.cmps = [] →
    ∃ t, exec (.cmp Env.clean) s = .next t ∧ t.m.inbox = []
      ∧ hte t.m h.val = some { x with awaits := [], done := true, cont := .idle } ∧ s.only [.inbox, .trk] t)

/-! ### The junction function (spec/10_junction_scale.md) -/

/-- The epoch of what the junction sends upstream: the one last acknowledged to the station master (R481). -/
abbrev upEpochOf (m : Core) : Bool := m.cfg.ackEpoch.getD m.cfg.epoch

/-- JCT_MEMBER_REQUEST, JCT_MEMBER_WRITEBACK, GNT, DSH, DEX, DMO, ERR: a member's request that the junction does not hold
becomes one upstream request under the HTE's index, its reply is relayed to the member with its opcode, data, poison and
status, and the owner's writeback goes upstream (R480, R481, R486, R489, R512). -/
def Obligations.JunctionRelaysItsMembers : Prop :=
  (∀ (s : State) (h : HteIx) (x : Hte) (n : NodeId) (p : Nat), running s.m = true → hte s.m h.val = some x →
    x.kind = .active → x.wait = .decision → x.job = .external → x.awaits = [] → x.done = false →
    (x.msg.op = .rdc ∨ x.msg.op = .wrl ∨ x.msg.op = .wrp ∨ x.msg.op = .wst ∨ x.msg.op = .atm ∨ x.msg.op = .fls) →
    homeServes s.m x.epoch x.msg.line x.slot = false → reqLost s.m x = false → uncoupled s.m = false →
    s.m.fab.cplState = 2 → memberSlot s.m x.epoch x.slot = true → (homeOf s.m x.epoch x.msg.line).isSome = true →
    homeOf s.m (upEpochOf s.m) x.msg.line = some n → retired s.m (dirSet x.msg.line) = false →
    dirFind s.m false x.msg.line = none → n ≠ nodeId s.m → routeOf s.m (upEpochOf s.m) n = some p →
    ∃ t y, exec (.jctMemberRequest h Env.clean) s = .next t ∧ hte t.m h.val = some y ∧ y.awaits = [.up n]
      ∧ y.cont = .jctRelay ∧ y.done = false ∧ y.upEpoch = upEpochOf s.m
      ∧ hteSends t.m p h.val (fun g => g.op = (if x.msg.op = .wst then .wrl else x.msg.op) ∧ g.dest = n
          ∧ g.src = nodeId s.m ∧ g.tag = BitVec.ofNat 12 h.val ∧ g.htag = 0 ∧ g.line = x.msg.line ∧ g.data = x.msg.data
          ∧ g.mask = x.msg.mask ∧ g.poison = x.msg.poison ∧ g.epoch = upEpochOf s.m)
      ∧ s.only decisionParts t) ∧
  (∀ (s : State) (h : HteIx) (x : Hte) (n : NodeId) (g : Msg) (op : Op) (c : Instr) (p : Nat), running s.m = true →
    s.m.inbox.map (·.msg) = [g] → isJunction s.m = true → g.op = op → g.tag.toNat = h.val → g.line ≠ 0 →
    s.m.pmc.dump = none → s.m.pmc.abandonedTags = [] → hte s.m h.val = some x → x.kind = .active → x.awaits = [.up n] →
    legalUp x g = true → g.src = n → g.epoch = x.upEpoch → x.cont = .jctRelay → x.wait = .none → x.done = false →
    x.cmps = [] → x.msg.src ≠ nodeId s.m → routeOf s.m x.epoch x.msg.src = some p →
    (c, op) ∈ ([(.gnt, .gnt), (.dsh, .dsh), (.dex, .dex), (.dmo, .dmo), (.err, .err)] : List (Instr × Op)) →
    ∃ t y, exec c s = .next t ∧ t.m.inbox = [] ∧ hte t.m h.val = some y ∧ y.awaits = [] ∧ y.done = true
      ∧ y.fin = (if op = .err then none else if x.msg.op = .rds ∧ op = .dex
          then some { entOf x.msg.line x.epoch .x with owner := BitVec.ofNat 8 (x.slot.getD 0) } else x.fin)
      ∧ hteSends t.m p h.val (fun r => r.op = op ∧ r.dest = x.msg.src ∧ r.tag = x.msg.tag
          ∧ r.htag = BitVec.ofNat 12 h.val ∧ r.line = x.msg.line ∧ r.data = g.data ∧ r.poison = g.poison
          ∧ r.status = g.status)
      ∧ s.only (.inbox :: .trk :: .ports :: Part.report) t) ∧
  (∀ (s : State) (h : HteIx) (x : Hte) (k own p : Nat) (d : DirEnt) (n : NodeId), running s.m = true →
    hte s.m h.val = some x → x.kind = .active → x.wait = .decision → x.job = .external → x.awaits = [] →
    x.ended = false → (x.msg.op = .wbd ∨ x.msg.op = .wbe) → homeServes s.m x.epoch x.msg.line x.slot = false → uncoupled s.m = false →
    (homeOf s.m x.epoch x.msg.line).isSome = true → homeOf s.m (upEpochOf s.m) x.msg.line = some n →
    retired s.m (dirSet x.msg.line) = false → dirFind s.m false x.msg.line = some k → dirEnt s.m k = d → d.st = .x →
    x.slot = some own → d.owner.toNat = own → n ≠ nodeId s.m → routeOf s.m (upEpochOf s.m) n = some p →
    ∃ t y, exec (.jctMemberWriteback (.hte h) Env.clean) s = .next t ∧ hte t.m h.val = some y ∧ y.awaits = [.up n]
      ∧ y.key = some k ∧ y.fin = some {} ∧ y.cont = .wbDone
      ∧ hteSends t.m p h.val (fun g => g.op = x.msg.op ∧ g.dest = n ∧ g.tag = BitVec.ofNat 12 h.val
          ∧ g.line = x.msg.line ∧ g.data = x.msg.data ∧ g.poison = x.msg.poison)
      ∧ s.only decisionParts t)

/-- SIN, SFS, SFO, SFC, SRC, SWP, JCT_SNOOP_HTE_GRANT, JCT_SNOOP_DEFERRED, SPU: an upstream snoop takes a snoop HTE; of a
line that the junction does not hold, an invalidation, a recall or a sweep is answered `RIA`, and a forward with the reply
of Table OLF-8 and poisoned data to its requester; of a line that a member owns a snoop goes on to the member, a
forward with the requester that it names; a push is declined (R73, R491 to R493, R511, Table JCT-4). What a forward of a line
that the junction does not hold is answered with, and that every `SPU` is declined, is the model's choice (assumption log,
entries 74 and 13). -/
def Obligations.JunctionAnswersSnoops : Prop :=
  (∀ (s : State) (g : Msg) (op : Op) (c : Instr) (p : Nat), running s.m = true →
    s.m.inbox.map (·.msg) = [g] → isJunction s.m = true → g.op = op → snoopRoom s.m = true →
    (∀ y ∈ s.m.trk.htes, keepsBusy y.2 g.line = false) → retired s.m (dirSet g.line) = false →
    dirFind s.m false g.line = none → readers s.m g.line = 0 → g.src ≠ nodeId s.m →
    routeOf s.m (epochFor s.m g.epoch) g.src = some p →
    (c, op) ∈ ([(.sin Env.clean, .sin), (.src Env.clean, .src), (.swp Env.clean, .swp), (.jctSnoopHteGrant, .sin),
      (.jctSnoopHteGrant, .src), (.jctSnoopHteGrant, .swp)] : List (Instr × Op)) →
    ∃ t y, exec c s = .next t ∧ t.m.inbox = [] ∧ hte t.m (tfree s.m.trk.htes 0) = some y ∧ y.job = .snoop
      ∧ y.done = true
      ∧ hteSends t.m p (tfree s.m.trk.htes 0) (fun r => r.op = .ria ∧ r.dest = g.src ∧ r.tag = g.tag ∧ r.htag = g.htag
          ∧ r.line = g.line ∧ r.epoch = g.epoch)
      ∧ s.only (.inbox :: .trk :: .ports :: Part.report) t) ∧
  (∀ (s : State) (g : Msg) (op rop dop : Op) (c : Instr) (p q : Nat), running s.m = true →
    s.m.inbox.map (·.msg) = [g] → isJunction s.m = true → g.op = op → snoopRoom s.m = true →
    (∀ y ∈ s.m.trk.htes, keepsBusy y.2 g.line = false) → retired s.m (dirSet g.line) = false →
    dirFind s.m false g.line = none → readers s.m g.line = 0 → g.src ≠ nodeId s.m → g.fnode ≠ nodeId s.m →
    routeOf s.m (epochFor s.m g.epoch) g.src = some p → routeOf s.m (epochFor s.m g.epoch) g.fnode = some q →
    (c, op, rop, dop) ∈ ([(.sfs Env.clean, .sfs, .rsa, .dsh), (.sfo Env.clean, .sfo, .ria, .dex),
      (.sfc Env.clean, .sfc, .rsa, .dsh)] : List (Instr × Op × Op × Op)) →
    ∃ t y, exec c s = .next t ∧ t.m.inbox = [] ∧ hte t.m (tfree s.m.trk.htes 0) = some y ∧ y.job = .snoop
      ∧ y.done = true
      ∧ hteSends t.m p (tfree s.m.trk.htes 0) (fun r => r.op = rop ∧ r.dest = g.src ∧ r.tag = g.tag ∧ r.htag = g.htag
          ∧ r.line = g.line ∧ r.epoch = g.epoch)
      ∧ hteSends t.m q (tfree s.m.trk.htes 0) (fun r => r.op = dop ∧ r.dest = g.fnode ∧ r.tag = g.ftag ∧ r.htag = g.htag
          ∧ r.line = g.line ∧ r.poison = true)
      ∧ s.only (.inbox :: .trk :: .ports :: .free :: Part.report) t) ∧
  (∀ (s : State) (g : Msg) (op : Op) (c : Instr) (k p : Nat) (d : DirEnt), running s.m = true →
    s.m.inbox.map (·.msg) = [g] → isJunction s.m = true → g.op = op → snoopRoom s.m = true →
    (∀ y ∈ s.m.trk.htes, keepsBusy y.2 g.line = false) → retired s.m (dirSet g.line) = false →
    dirFind s.m false g.line = some k → dirEnt s.m k = d → d.st = .x →
    snoopable s.m (epochFor s.m g.epoch) d.owner.toNat = true →
    nodeOf s.m (epochFor s.m g.epoch) d.owner.toNat ≠ nodeId s.m →
    routeOf s.m (epochFor s.m g.epoch) (nodeOf s.m (epochFor s.m g.epoch) d.owner.toNat) = some p →
    (c, op) ∈ ([(.sin Env.clean, .sin), (.sfs Env.clean, .sfs), (.sfo Env.clean, .sfo), (.sfc Env.clean, .sfc),
      (.src Env.clean, .src), (.swp Env.clean, .swp)] : List (Instr × Op)) →
    ∃ t y, exec c s = .next t ∧ t.m.inbox = [] ∧ hte t.m (tfree s.m.trk.htes 0) = some y ∧ y.done = false
      ∧ y.key = some k ∧ y.cont = .snoopAnswer
      ∧ y.awaits = [match op with
          | .sin => .ria d.owner.toNat
          | .sfs | .sfo | .sfc => .owner d.owner.toNat op
          | _ => .owner d.owner.toNat .src]
      ∧ y.fin = (match op with
          | .sfs => some { entOf g.line (epochFor s.m g.epoch) .s with vec := vecOf d.owner.toNat }
          | .sfc => none
          | _ => some {})
      ∧ hteSends t.m p (tfree s.m.trk.htes 0) (fun r => r.line = g.line
          ∧ r.dest = nodeOf s.m (epochFor s.m g.epoch) d.owner.toNat
          ∧ (match op with
              | .sin => r.op = .sin
              | .sfs | .sfo | .sfc => r.op = op ∧ r.fnode = g.fnode ∧ r.ftag = g.ftag ∧ r.htag = g.htag
              | _ => r.op = .src))
      ∧ s.only (.inbox :: .trk :: .ports :: Part.report) t) ∧
  (∀ (s : State) (h : HteIx) (x : Hte) (p : Nat), running s.m = true → hte s.m h.val = some x → x.kind = .active →
    x.job = .snoop → x.wait = .deferred → x.awaits = [] → x.done = false → x.cmps = [] → forwards x.msg.op = false →
    snoopCase s.m h.val x.msg.op x.msg.line = .act → retired s.m (dirSet x.msg.line) = false →
    dirFind s.m false x.msg.line = none → readers s.m x.msg.line = 0 → x.msg.src ≠ nodeId s.m →
    routeOf s.m x.epoch x.msg.src = some p →
    ∃ t y, exec (.jctSnoopDeferred h Env.clean) s = .next t ∧ hte t.m h.val = some y ∧ y.done = true
      ∧ hteSends t.m p h.val (fun r => r.op = .ria ∧ r.dest = x.msg.src ∧ r.tag = x.msg.tag ∧ r.line = x.msg.line)
      ∧ s.only (.trk :: .ports :: Part.report) t) ∧
  (∀ (s : State) (g : Msg) (p : Nat), running s.m = true → s.m.inbox.map (·.msg) = [g] → g.op = .spu →
    isJunction s.m = true → g.src ≠ nodeId s.m → routeOf s.m (epochFor s.m g.epoch) g.src = some p →
    ∃ t, exec (.spu Env.clean) s = .next t ∧ t.m.inbox = []
      ∧ (∃ y ∈ (port t.m p).txq, y.msg.op = .dec ∧ y.msg.dest = g.src ∧ y.msg.tag = g.tag ∧ y.msg.htag = g.htag
          ∧ y.msg.line = g.line)
      ∧ s.only (.inbox :: .ports :: Part.report) t)

/-! ### Atomics, caches, the directory's engines (spec/05_atomics.md, spec/07_directory_deck.md, spec/08_line_caches.md) -/

/-- ATOMIC_QUEUE_GRANT, MEMORY_ATOMIC_START, MEMORY_ATOMIC_RESULT, DECAY_PASS: a waiting atomic enters its unit's queue; the
unit reads the line once the channel is home memory, and its result, where the write queue takes it, writes the new line to
DRAM and gives the old data to the HTE; a decay pass lowers every nonzero counter by 1 (R210, R222 to R226, R234, R459, Table ATM-1). -/
def Obligations.MemorySideAtomicsRun : Prop :=
  (∀ (s : State) (ch : Fin 8) (h : Nat) (x : Hte), running s.m = true → s.m.trk.htes = [(h, x)] →
    x.wait = .unitQueue ch.val → (tget [] s.m.atm.units ch.val).length < 16 →
    ∃ t, exec (.atomicQueueGrant ch) s = .next t
      ∧ tget [] t.m.atm.units ch.val = tget [] s.m.atm.units ch.val ++ [{ hte := h, line := x.msg.line, lla := llaOf s.m x.epoch x.msg.line, msg := x.msg, order := s.m.ca.mbSeq }]
      ∧ hte t.m h = some { x with awaits := x.awaits ++ [.unit], wait := .none } ∧ s.only [.atm, .ca, .trk] t) ∧
  (∀ (s : State) (ch : Fin 8) (o : UnitOp) (q : List UnitOp), running s.m = true →
    tget [] s.m.atm.units ch.val = o :: q → o.started = false → unitReady s.m (o :: q) o = true → isHome s.m = true →
    chFailed s.m (coords s.m o.lla).1.ch = false → s.m.mem.repair = none → isPoisoned s.dram o.lla = false →
    ∃ t, exec (.memoryAtomicStart ch .clean) s = .next t
      ∧ tget [] t.m.atm.units ch.val
          = { o with started := true, old := readLine s.dram o.lla, poison := false, ue := false } :: q
      ∧ s.only (.atm :: .mem :: Part.report) t) ∧
  (∀ (s : State) (ch : Fin 8) (o : UnitOp) (q : List UnitOp), running s.m = true →
    tget [] s.m.atm.units ch.val = o :: q → o.started = true → o.ue = false → o.poison = false → o.dropped = true →
    isHome s.m = true → wqTakes s.m o.lla = true → chFailed s.m (chanOf s.m o.lla) = false → s.m.mem.repair = none →
    ∃ t, exec (.memoryAtomicResult ch) s = .next t ∧ tget [] t.m.atm.units ch.val = q
      ∧ t.dram = writeLine s.dram o.lla (atmLine o.msg o.old) false ∧ t.pending = s.pending
      ∧ s.m.onlyParts (.atm :: .mem :: Part.report) t.m) ∧
  (∀ (s : State) (ch : Fin 8) (o : UnitOp) (q : List UnitOp) (x : Hte) (p : Nat), running s.m = true →
    tget [] s.m.atm.units ch.val = o :: q → o.started = true → o.ue = false → o.poison = false → o.dropped = false →
    isHome s.m = true → wqTakes s.m o.lla = true → chFailed s.m (chanOf s.m o.lla) = false → s.m.mem.repair = none →
    hte s.m o.hte = some x → x.kind = .active → x.cmps = [] → x.msg.op = .atm → x.awaits = [.unit] → x.wait = .none → x.cont = .answer → x.atUnit = true → x.done = false →
    x.msg.src ≠ nodeId s.m → routeOf s.m x.epoch x.msg.src = some p →
    ∃ t y, exec (.memoryAtomicResult ch) s = .next t ∧ tget [] t.m.atm.units ch.val = q
      ∧ t.dram = writeLine s.dram o.lla (atmLine o.msg o.old) false ∧ t.pending = s.pending
      ∧ hte t.m o.hte = some y ∧ y.done = true ∧ y.awaits = []
      ∧ hteSends t.m p o.hte (fun g => g.op = .dsh ∧ g.dest = x.msg.src ∧ g.tag = x.msg.tag ∧ g.status = 1
          ∧ g.data = atmResult x.msg o.old ∧ g.poison = false)
      ∧ s.m.onlyParts (.atm :: .mem :: .trk :: .ports :: Part.report) t.m) ∧
  (∀ (s : State), running s.m = true → rfld s.m 0x1C00 15 0 ≠ 0 →
    ∃ t, exec .decayPass s = .next t ∧ (∀ i < 1024, predCtr t.m i = predCtr s.m i - 1)
      ∧ t.m.atm.recent = s.m.atm.recent ∧ t.m.atm.units = s.m.atm.units ∧ s.only [.atm] t)

/-- MIRROR_WRITE, DECK_GROOM_VISIT, WALK_VISIT, WALK_ARRIVAL, WALK_ORDER_DONE, BUCKET_LEAK, SPARE_COPY_DONE: the oldest
posted mirror tag reaches its bank; a fault-free groom visit of a set notes the set and the entries that something holds, which are
left for the end of the pass, changes nothing else, and is made once a pass; at the end of the pass those entries are visited
again; the walk submits an arrival for each entry that an order concerns and moves on; an arrival removes the ordered slots of a shared entry; an order whose window and
arrivals have ended sets its done bit and raises source 55; buckets leak; a copied row is remapped, a row with an
uncorrectable word is abandoned, and a row that waits is copied next (R310, R313, R318 to R323, R327, R331, R333, R338,
R464). -/
def Obligations.DirectoryEnginesRun : Prop :=
  (∀ (s : State) (y : Fin 4) (k : Nat) (tag : BitVec 24) (r : List (Nat × BitVec 24)), running s.m = true →
    tget [] s.m.deck.posted y.val = (k, tag) :: r →
    ∃ t, exec (.mirrorWrite y) s = .next t ∧ tget 0 t.m.deck.mirror k = tag ∧ tget [] t.m.deck.posted y.val = r
      ∧ t.m.deck.ents = s.m.deck.ents ∧ s.only [.deck] t) ∧
  (∀ (s : State) (set : BitVec 18), running s.m = true → s.m.deck.initDone = true →
    s.m.deck.groomSeen.length < 262144 → set.toNat ∉ s.m.deck.groomSeen →
    ∃ t, exec (.deckGroomVisit set Env.clean) s = .next t
      ∧ t.m.deck = { s.m.deck with
          groomSeen := set.toNat :: s.m.deck.groomSeen
          groomSkip := s.m.deck.groomSkip ++ (groomHeld s.m set.toNat).map fun w => 16 * set.toNat + w }
      ∧ s.only [.deck] t) ∧
  (∀ (s : State) (set : BitVec 18), running s.m = true → s.m.deck.initDone = true →
    s.m.deck.groomSeen.length < 262144 → set.toNat ∈ s.m.deck.groomSeen →
    exec (.deckGroomVisit set Env.clean) s = .next s) ∧
  (∀ (s : State) (set : BitVec 18), running s.m = true → s.m.deck.initDone = true →
    262144 ≤ s.m.deck.groomSeen.length → s.m.deck.groomSkip ≠ [] →
    ∃ t, exec (.deckGroomVisit set Env.clean) s = .next t
      ∧ t.m.deck = { s.m.deck with groomSkip := s.m.deck.groomSkip.filter fun k => !decide (k / 16 = set.toNat) }
      ∧ s.only [.deck, .trk] t) ∧
  (∀ (s : State), running s.m = true → s.m.deck.orders ≠ [] → retired s.m s.m.deck.pos = true →
    s.m.deck.walkOut.length < 64 →
    ∃ t, exec (.walkVisit Env.clean) s = .next t ∧ t.m.deck.pos = (s.m.deck.pos + 1) % 262144
      ∧ t.m.deck.walkOut = s.m.deck.walkOut ∧ s.only [.deck] t) ∧
  (∀ (s : State) (w : Fin 16), running s.m = true → s.m.deck.orders ≠ [] → retired s.m s.m.deck.pos = false →
    s.m.deck.walkOut.length < 64 → s.m.trk.htes = [] →
    (∀ v : Fin 16, concerns s.m (dirEnt s.m (16 * s.m.deck.pos + v.val)) = decide (v = w)) →
    ∃ t, exec (.walkVisit Env.clean) s = .next t ∧ t.m.deck.pos = (s.m.deck.pos + 1) % 262144
      ∧ t.m.deck.walkOut = s.m.deck.walkOut ++ [s.m.deck.walkSerial] ∧ t.m.deck.walkSerial = s.m.deck.walkSerial + 1
      ∧ t.m.deck.ents = s.m.deck.ents
      ∧ (∃ a ∈ t.m.trk.arrivals, a.job = .walk s.m.deck.walkSerial ∧ a.port = 16
          ∧ a.msg.line = lineOf s.m.deck.pos (dirEnt s.m (16 * s.m.deck.pos + w.val)).tag)
      ∧ s.only [.deck, .trk, .ports] t) ∧
  (∀ (s : State) (h : HteIx) (x : Hte) (n k : Nat) (d : DirEnt), running s.m = true → hte s.m h.val = some x →
    x.kind = .active → x.wait = .decision → x.job = .walk n → hasEntry s.m x.msg.line k d → d.st = .s →
    orderedIn s.m .lost d.vec ≠ 0 → orderedIn s.m .clear d.vec = 0 → x.awaits = [] → x.cmps = [] →
    retired s.m (dirSet x.msg.line) = false →
    ∃ t y, exec (.walkArrival h Env.clean) s = .next t ∧ hte t.m h.val = some y ∧ y.done = true ∧ y.key = some k
      ∧ y.fin = some (if d.vec &&& ~~~(orderedIn s.m .lost d.vec) = 0 then {}
          else { d with vec := d.vec &&& ~~~(orderedIn s.m .lost d.vec), epoch := x.epoch })
      ∧ s.only (.trk :: Part.report) t) ∧
  (∀ (s : State) (slot : Nat), running s.m = true →
    s.m.deck.orders = [{ kind := .clear, slot := slot, left := 0, need := s.m.deck.walkSerial }] →
    s.m.deck.walkOut = [] →
    ∃ t, exec .walkOrderDone s = .next t ∧ t.m.deck.orders = [] ∧ rbit t.m 0x1010 30 = true
      ∧ rfld t.m 0x1010 23 16 = slot % 256 ∧ isPending t.m 55 = true ∧ s.only (.deck :: Part.report) t) ∧
  (∀ (s : State) (b v : Nat), running s.m = true → s.m.deck.buckets = [(b, v)] →
    ∃ t, exec .bucketLeak s = .next t ∧ tget 0 t.m.deck.buckets b = v - 1 ∧ s.only [.deck] t) ∧
  (∀ (s : State) (r : DeckRow), running s.m = true → s.m.deck.copying = some r → s.m.deck.spareQ = [] →
    1 < sparesLeft s.m r →
    ∃ t, exec (.spareCopyDone false) s = .next t ∧ t.m.deck.copying = none
      ∧ t.m.deck.remapped = s.m.deck.remapped ++ [r] ∧ sparesLeft t.m r = sparesLeft s.m r - 1
      ∧ s.only (.deck :: .jnl :: Part.report) t) ∧
  (∀ (s : State) (r : DeckRow), running s.m = true → s.m.deck.copying = some r → s.m.deck.spareQ = [] →
    ∃ t, exec (.spareCopyDone true) s = .next t ∧ t.m.deck.copying = none ∧ t.m.deck.remapped = s.m.deck.remapped
      ∧ rbit t.m 0x1034 1 = true ∧ isPending t.m 46 = true ∧ s.only (.deck :: Part.report) t) ∧
  (∀ (s : State) (r n : DeckRow) (q : List DeckRow), running s.m = true → s.m.deck.copying = some r →
    s.m.deck.spareQ = n :: q → retired s.m n.set.toNat = false → 0 < sparesLeft s.m n →
    ∃ t, exec (.spareCopyDone true) s = .next t ∧ t.m.deck.copying = some n ∧ t.m.deck.spareQ = q
      ∧ t.m.deck.remapped = s.m.deck.remapped ∧ s.only (.deck :: Part.report) t)

/-- The transactions whose answer to their requester is data, and the message that carries it (Table COH-4). -/
abbrev dataAnswer (x : Hte) (op : Op) : Prop :=
  (x.msg.op = .rds ∧ op = if x.fin.map (·.st) = some .x then .dex else .dsh) ∨ (x.msg.op = .rdo ∧ op = .dex)
    ∨ (x.msg.op = .upg ∧ op = .dex) ∨ (x.msg.op = .rdc ∧ op = .dsh)

/-- A merging-buffer entry that may be issued: closed, not issued, awaiting no base, behind no earlier entry and no earlier
memory-side atomic of its line. -/
abbrev issuable (m : Core) (x : MbEnt) : Prop :=
  x.isOpen = false ∧ x.issued = false ∧ x.basePending = false ∧ unitBefore m x.line x.order = false
    ∧ ((mbOf m x.line).any fun y => decide (y.2.order < x.order)) = false
    ∧ (m.trk.htes.any fun y => y.2.awaits.contains .flush && decide (y.2.msg.line = x.line)) = false

/-- DRAM_READ_RETURN, MISS_REGISTER_GRANT, MB_AGE_CLOSE, MB_PRESSURE_CLOSE, MB_ISSUE, MB_ENTRY_FREE, MB_ENTRY_GRANT,
HLC_INV_DONE, HLC_CE_WRITEBACK: a returned read frees its register and gives a transaction its data under the bytes that the
merging buffer held, an entry its base, the siding a prefetched line; a waiting read takes a register, joins its line's
register, or is dropped as a prefetch whose line is near; entries close by age and pressure, are issued whole or after
their merge base, and free as the write queue takes their line, held while it is full; a waiting write takes an entry and
its transaction goes on; the invalidation empties the HLC, its siding and its trackers (R374 to R377, R382 to R389, R395,
R396, R400, R405, R421, R425, R975). -/
def Obligations.CachesAndMergingBufferRun : Prop :=
  (∀ (s : State) (r : Fin 256) (h p lla : Nat) (x : Hte) (reg : MissReg) (op : Op), running s.m = true →
    tfind s.m.ca.miss r.val = some reg → reg.reader = .hte h → reg.line = x.msg.line → reg.secs = [] →
    hte s.m h = some x → x.kind = .active → dataAnswer x op → x.awaits = [.mem] → x.wait = .none → x.cont = .answer →
    x.done = false → x.cmps = [] → lla = llaOf s.m (decide (8 ≤ reg.cls)) x.msg.line →
    chFailed s.m (coords s.m lla).1.ch = false → s.m.mem.repair = none → x.msg.src ≠ nodeId s.m →
    routeOf s.m x.epoch x.msg.src = some p →
    ∃ t y, exec (.dramReadReturn r .clean) s = .next t ∧ tfind t.m.ca.miss r.val = none ∧ hte t.m h = some y
      ∧ y.done = true ∧ y.awaits = []
      ∧ hteSends t.m p h (fun g => g.op = op ∧ g.dest = x.msg.src ∧ g.tag = x.msg.tag
          ∧ (g.data, g.poison)
              = overBase (x.ovData, x.ovMask, x.bufPoison) (readLine s.dram lla) (isPoisoned s.dram lla))
      ∧ s.only (.ca :: .trk :: .mem :: .ports :: Part.report) t) ∧
  (∀ (s : State) (r : Fin 256) (i lla : Nat) (x : MbEnt) (reg : MissReg), running s.m = true →
    tfind s.m.ca.miss r.val = some reg → reg.reader = .drain i → reg.line = x.line → reg.secs = [] →
    tfind s.m.ca.mb i = some x → x.basePending = true → lla = llaOf s.m (decide (8 ≤ reg.cls)) x.line →
    chFailed s.m (coords s.m lla).1.ch = false → s.m.mem.repair = none →
    ∃ t, exec (.dramReadReturn r .clean) s = .next t ∧ tfind t.m.ca.miss r.val = none
      ∧ tfind t.m.ca.mb i = some { x with data := mergeBytes x.mask x.data (readLine s.dram lla), mask := fullMask
                                          poison := x.poison || isPoisoned s.dram lla, basePending := false }
      ∧ s.only (.ca :: .mem :: Part.report) t) ∧
  (∀ (s : State) (r : Fin 256) (lla : Nat) (reg : MissReg), running s.m = true →
    tfind s.m.ca.miss r.val = some reg → reg.reader = .prefetch → reg.secs = [] → reg.stale = false → reg.fill = true →
    reg.install = false → hlcOn s.m = true → hlcKey s.m reg.line = none → sidingKey s.m reg.line = none →
    (mbOverlay s.m reg.line).2.2 = false → lla = llaOf s.m (decide (8 ≤ reg.cls)) reg.line →
    chFailed s.m (coords s.m lla).1.ch = false → s.m.mem.repair = none → isPoisoned s.dram lla = false →
    ∃ t, exec (.dramReadReturn r .clean) s = .next t ∧ tfind t.m.ca.miss r.val = none
      ∧ tfind t.m.ca.siding
            (if s.m.ca.sidFreed.contains (s.m.ca.sptr, s.m.trk.core) then (s.m.ca.sptr + 1) % 64 else s.m.ca.sptr)
          = some { line := reg.line, data := (overBase (mbOverlay s.m reg.line) (readLine s.dram lla) false).1, poison := false }
      ∧ t.m.ca.mb = s.m.ca.mb ∧ s.only (.ca :: .mem :: Part.report) t) ∧
  (∀ (s : State) (w : MissWait) (q : List MissWait), running s.m = true →
    takeFirst (fun v => missRoom s.m v) s.m.ca.missWait = some (w, q) → prefetchDead s.m w = false →
    hlcKey s.m w.line = none → sidingKey s.m w.line = none →
    ∃ t, exec (.missRegisterGrant Env.clean) s = .next t ∧ t.m.ca.missWait = q
      ∧ ((s.m.ca.miss.find? fun x => decide (x.2.line = w.line)) = none →
          tfind t.m.ca.miss (tfree s.m.ca.miss 0)
            = some { line := w.line, reader := w.reader, install := w.install, cls := w.cls })
      ∧ (∀ i x, (s.m.ca.miss.find? fun x => decide (x.2.line = w.line)) = some (i, x) →
          tfind t.m.ca.miss i = some { x with secs := x.secs ++ [(w.reader, w.install, w.cls)] })
      ∧ s.only (.ca :: Part.report) t) ∧
  (∀ (s : State) (w : MissWait) (q : List MissWait), running s.m = true →
    takeFirst (fun v => missRoom s.m v) s.m.ca.missWait = some (w, q) → prefetchDead s.m w = true →
    ∃ t, exec (.missRegisterGrant Env.clean) s = .next t ∧ t.m.ca = { s.m.ca with missWait := q } ∧ s.only [.ca] t) ∧
  (∀ (s : State) (i : Fin 128) (x : MbEnt), running s.m = true → tfind s.m.ca.mb i.val = some x → x.isOpen = true →
    ∃ t, exec (.mbAgeClose i) s = .next t ∧ tfind t.m.ca.mb i.val = some { x with isOpen := false }
      ∧ s.only (.ca :: Part.report) t) ∧
  (∀ (s : State) (i : Nat) (x : MbEnt), running s.m = true → rfld s.m 0x140C 6 0 ≤ s.m.ca.mb.length →
    (i, x) ∈ s.m.ca.mb → x.isOpen = true →
    (∀ y ∈ s.m.ca.mb, y.2.isOpen = true → y ≠ (i, x) → x.born < y.2.born) →
    ∃ t, exec .mbPressureClose s = .next t ∧ tfind t.m.ca.mb i = some { x with isOpen := false }
      ∧ s.only (.ca :: Part.report) t) ∧
  (∀ (s : State) (i : Fin 128) (x : MbEnt), running s.m = true → tfind s.m.ca.mb i.val = some x → issuable s.m x →
    x.mask = fullMask →
    ∃ t, exec (.mbIssue i Env.clean) s = .next t ∧ tfind t.m.ca.mb i.val = some { x with issued := true }
      ∧ s.only [.ca] t) ∧
  (∀ (s : State) (i : Fin 128) (k : Nat) (x : MbEnt) (b : CLine), running s.m = true → tfind s.m.ca.mb i.val = some x →
    issuable s.m x → x.mask ≠ fullMask → hlcOn s.m = true → hlcKey s.m x.line = some k → tfind s.m.ca.hlc k = some b →
    ∃ t, exec (.mbIssue i Env.clean) s = .next t
      ∧ tfind t.m.ca.mb i.val = some { x with data := mergeBytes x.mask x.data b.data, mask := fullMask, issued := true }
      ∧ s.only [.ca] t) ∧
  (∀ (s : State) (i : Fin 128) (x : MbEnt), running s.m = true → tfind s.m.ca.mb i.val = some x → issuable s.m x →
    x.mask ≠ fullMask → (hlcOn s.m = false ∨ hlcKey s.m x.line = none) → s.m.ca.missWait = [] →
    (s.m.ca.miss.any fun y => decide (y.2.line = x.line)) = false → s.m.ca.miss.length < 256 →
    ∃ t, exec (.mbIssue i Env.clean) s = .next t ∧ tfind t.m.ca.mb i.val = some { x with basePending := true }
      ∧ tfind t.m.ca.miss (tfree s.m.ca.miss 0)
          = some { line := x.line, reader := .drain i.val, install := false, cls := 8 * b1 x.epoch }
      ∧ s.only [.ca] t) ∧
  (∀ (s : State) (i : Fin 128) (x : MbEnt) (lla : Nat), running s.m = true → tfind s.m.ca.mb i.val = some x →
    x.issued = true → lla = llaOf s.m x.epoch x.line → chFailed s.m (chanOf s.m lla) = false → s.m.mem.repair = none →
    wqFull s.m (chanOf s.m lla) = false →
    ∃ t, exec (.mbEntryFree i) s = .next t ∧ tfind t.m.ca.mb i.val = none
      ∧ t.dram = writeLine s.dram lla x.data x.poison ∧ t.pending = s.pending
      ∧ writeQueue t.m (chanOf s.m lla) = writeQueue s.m (chanOf s.m lla) ++ [lla]
      ∧ s.m.onlyParts (.ca :: .mem :: Part.report) t.m) ∧
  (∀ (s : State) (i : Fin 128) (x : MbEnt) (lla : Nat), running s.m = true → tfind s.m.ca.mb i.val = some x →
    lla = llaOf s.m x.epoch x.line → chFailed s.m (chanOf s.m lla) = false → s.m.mem.repair = none →
    wqFull s.m (chanOf s.m lla) = true → exec (.mbEntryFree i) s = .next s) ∧
  (∀ (s : State) (w : MbWrite) (q : List MbWrite), running s.m = true → s.m.ca.mbWait = w :: q →
    (s.m.ca.mb.any fun x => x.2.isOpen && decide (x.2.line = w.line)) = false → tfree s.m.ca.mb 0 < 128 →
    (hte s.m w.hte = none ∨ (q.any fun v => decide (v.hte = w.hte)) = true) →
    ∃ t, exec .mbEntryGrant s = .next t ∧ t.m.ca.mbWait = q
      ∧ tfind t.m.ca.mb (tfree s.m.ca.mb 0)
          = some { line := w.line, data := mergeBytes w.mask w.data 0, mask := w.mask, poison := w.poison
                   isOpen := decide (w.mask ≠ fullMask) && !unitAfter s.m w.line w.order, born := s.m.stmp
                   order := w.order, epoch := w.epoch }
      ∧ t.m.deck.ents = s.m.deck.ents ∧ s.only (.ca :: .deck :: .free :: Part.report) t) ∧
  (∀ (s : State) (w : MbWrite) (q : List MbWrite) (x : Hte) (p : Nat), running s.m = true → s.m.ca.mbWait = w :: q →
    (s.m.ca.mb.any fun x => x.2.isOpen && decide (x.2.line = w.line)) = false → tfree s.m.ca.mb 0 < 128 →
    (q.any fun v => decide (v.hte = w.hte)) = false → hte s.m w.hte = some x → x.kind = .active →
    (x.msg.op = .wrl ∨ x.msg.op = .wrp ∨ x.msg.op = .wst) → x.awaits = [.mbIn] → x.wait = .none → x.cont = .answer →
    x.done = false → x.cmps = [] → x.msg.src ≠ nodeId s.m → routeOf s.m x.epoch x.msg.src = some p →
    ∃ t y, exec .mbEntryGrant s = .next t ∧ t.m.ca.mbWait = q
      ∧ (tfind t.m.ca.mb (tfree s.m.ca.mb 0)).map (·.line) = some w.line
      ∧ hte t.m w.hte = some y ∧ y.done = true ∧ y.awaits = []
      ∧ hteSends t.m p w.hte (fun g => g.op = .cmp ∧ g.dest = x.msg.src ∧ g.tag = x.msg.tag)
      ∧ t.m.deck.ents = s.m.deck.ents ∧ s.only (.ca :: .deck :: .trk :: .ports :: .free :: Part.report) t) ∧
  (∀ (s : State), running s.m = true → s.m.ca.invRunning = true →
    ∃ t, exec .hlcInvDone s = .next t ∧ t.m.ca.hlc = [] ∧ t.m.ca.siding = [] ∧ t.m.ca.streams = []
      ∧ t.m.ca.invRunning = false ∧ t.m.ca.invDone = true ∧ t.m.ca.mb = s.m.ca.mb ∧ t.m.ca.alc = s.m.ca.alc
      ∧ s.only [.ca] t) ∧
  (∀ (s : State) (set : BitVec 16) (way : Fin 16), running s.m = true →
    ∃ t, exec (.hlcCeWriteback set way) s = .next t
      ∧ t.m.ca = { s.m.ca with ceWb := s.m.ca.ceWb.filter (· != 16 * set.toNat + way.val) } ∧ s.only [.ca] t)

/-! ### Memory (spec/09_memory_groom.md) -/

/-- MEM_TRAIN_DONE, REFRESH, DDR_ALERT, WRITE_QUEUE_STALL: training sets ready and starts the groom's first pass, or sets
train_fail and raises source 52; a refresh ends a run of failed command retries; the fourth failed retry and a stalled
write queue fail the channel (R432, R436, R444, R466, R474, R477). -/
def Obligations.ChannelsTrainAndFail : Prop :=
  (∀ (s : State), running s.m = true → s.m.mem.training = true →
    ∃ t, exec (.memTrainDone []) s = .next t
      ∧ t.m.mem = { s.m.mem with training := false, ready := true, everReady := true, cfgFrozen := true,
                                  groomPos := [], groomSkip := [], groomFin := [], groomLate := [] }
      ∧ s.only [.mem] t) ∧
  (∀ (s : State) (ch : Fin 8) (code : BitVec 8), running s.m = true → s.m.mem.training = true → ch.val < channels s.m →
    ∃ t, exec (.memTrainDone [(ch, code)]) s = .next t
      ∧ t.m.mem = { s.m.mem with training := false, trainFail := s.m.mem.trainFail ||| (1#8 <<< ch.val) }
      ∧ isPending t.m 52 = true ∧ s.only (.mem :: .jnl :: Part.report) t) ∧
  (∀ (s : State) (ch : Fin 8), running s.m = true →
    ∃ t, exec (.refresh ch) s = .next t ∧ t.m.mem = { s.m.mem with caFails := tput 0 s.m.mem.caFails ch.val 0 }
      ∧ s.only (.mem :: Part.report) t ∧ s.m.onlyRegs reportRegs t.m) ∧
  (∀ (s : State) (ch : Fin 8), running s.m = true → chFailed s.m ch.val = false →
    ∃ t, exec (.ddrAlert ch) s = .next t
      ∧ (tget 0 s.m.mem.caFails ch.val < 3 →
          t.m.mem = { s.m.mem with caFails := tput 0 s.m.mem.caFails ch.val (tget 0 s.m.mem.caFails ch.val + 1) }
            ∧ s.only [.mem] t)
      ∧ (3 ≤ tget 0 s.m.mem.caFails ch.val → chFailed t.m ch.val = true ∧ isPending t.m 51 = true
            ∧ t.m.pins.faultN = true ∧ s.only (.mem :: .pins :: .jnl :: Part.report) t)) ∧
  (∀ (s : State) (ch : Fin 8), running s.m = true → chFailed s.m ch.val = false →
    ∃ t, exec (.writeQueueStall ch) s = .next t ∧ t.m.mem.failed = s.m.mem.failed ||| (1#8 <<< ch.val)
      ∧ chFailed t.m ch.val = true ∧ isPending t.m 51 = true ∧ t.m.pins.faultN = true
      ∧ s.only (.mem :: .pins :: .jnl :: Part.report) t)

/-- PPR_COPY_DONE, SPPR_WAIT_END, PPR_DONE, GROOM_READ, GROOM_REPAIR, GROOM_PERIOD_END: a repair copies its row, each line
with its poison flag, writes it back, and ends with a record in the PPR window, when the next row in wait is repaired; the
groom visits the lines of its channel, submits a repair arrival for a line in error, counts its passes, rewrites a
corrected line, and reports a period that ends before its pass (R453 to R456, R458, R466 to R469, Table MEM-6). -/
def Obligations.RepairAndGroomRun : Prop :=
  (∀ (s : State) (r : Repair) (faults : List (Fin 128 × ReadFault)), running s.m = true → isHome s.m = true →
    s.m.mem.repair = some r → r.hard = false → r.phase = 0 →
    ∃ t b, exec (.pprCopyDone faults) s = .next t ∧ t.m.mem.repair = some { r with phase := 1, buf := b }
      ∧ s.only (.mem :: .jnl :: .free :: Part.report) t) ∧
  (∀ (s : State) (r : Repair), running s.m = true → isHome s.m = true → s.m.mem.repair = some r → r.hard = false →
    r.phase = 0 → r.buf = [] → s.m.mem.failed = 0 →
    ∃ t b, exec (.pprCopyDone []) s = .next t ∧ t.m.mem.repair = some { r with phase := 1, buf := b }
      ∧ (∀ c < 128, tfind b (llaAt s.m r.row c)
          = some (readLine s.dram (llaAt s.m r.row c), isPoisoned s.dram (llaAt s.m r.row c)))
      ∧ s.only (.mem :: Part.report) t) ∧
  (∀ (s : State) (r : Repair), running s.m = true → isHome s.m = true → s.m.mem.repair = some r → r.hard = false →
    r.phase = 1 → chFailed s.m r.row.ch = false →
    ∃ t, exec .spprWaitEnd s = .next t ∧ t.m.mem = { s.m.mem with repair := some { r with phase := 2 } }
      ∧ t.dram = r.buf.foldl (fun d x => writeLine d x.1 x.2.1 x.2.2) s.dram ∧ t.pending = s.pending
      ∧ s.m.onlyParts [.mem] t.m) ∧
  (∀ (s : State) (r : Repair), running s.m = true → isHome s.m = true → s.m.mem.repair = some r → r.hard = false →
    r.phase = 2 → chFailed s.m r.row.ch = false → s.m.mem.repairQ = [] →
    ∃ t, exec (.pprDone false) s = .next t ∧ t.m.mem.repair = none
      ∧ tfind t.m.mem.ppr s.m.mem.pprNext = some { hard := false, refused := false, row := r.row }
      ∧ t.m.mem.pprNext = (s.m.mem.pprNext + 1) % 64
      ∧ tget 0 t.m.mem.repaired (groupKey r.row) = tget 0 s.m.mem.repaired (groupKey r.row) + 1
      ∧ t.dram = r.buf.foldl (fun d x => writeLine d x.1 x.2.1 x.2.2) s.dram ∧ t.pending = s.pending
      ∧ s.m.onlyParts (.mem :: .jnl :: Part.report) t.m) ∧
  (∀ (s : State) (r : Repair), running s.m = true → isHome s.m = true → s.m.mem.repair = some r → r.hard = true →
    r.buf = [] → s.m.mem.repairQ = [] →
    ∃ t, exec (.pprDone true) s = .next t ∧ t.m.mem.repair = none
      ∧ tfind t.m.mem.ppr s.m.mem.pprNext = some { hard := true, refused := true, row := r.row }
      ∧ isPending t.m 53 = true ∧ s.only (.mem :: .jnl :: Part.report) t) ∧
  (∀ (s : State) (r : Repair) (n : RowId) (q : List (RowId × Bool)), running s.m = true → isHome s.m = true →
    s.m.mem.repair = some r → r.hard = false → r.phase = 2 → s.m.mem.repairQ = (n, true) :: q →
    ∃ t, exec (.pprDone false) s = .next t ∧ t.m.mem.repair = some { row := n, hard := true } ∧ t.m.mem.repairQ = q
      ∧ t.pending = s.pending ∧ s.m.onlyParts (.mem :: .jnl :: Part.report) t.m) ∧
  (∀ (s : State) (ch : Fin 8), running s.m = true → s.m.mem.ready = true → isHome s.m = true → ch.val < channels s.m →
    chFailed s.m ch.val = false → tget 0 s.m.mem.groomPos ch.val + 1 < chanLines s.m →
    chFailed s.m (coords s.m (chanLine s.m ch.val (tget 0 s.m.mem.groomPos ch.val))).1.ch = false →
    s.m.mem.repair = none →
    ∃ t, exec (.groomRead ch .clean) s = .next t
      ∧ tget 0 t.m.mem.groomPos ch.val = tget 0 s.m.mem.groomPos ch.val + 1
      ∧ t.m.trk = s.m.trk ∧ s.only (.mem :: Part.report) t) ∧
  (∀ (s : State) (ch : Fin 8) (lla : Nat) (rf : ReadFault), running s.m = true → s.m.mem.ready = true →
    isHome s.m = true → ch.val < channels s.m → chFailed s.m ch.val = false →
    tget 0 s.m.mem.groomPos ch.val < chanLines s.m → lla = chanLine s.m ch.val (tget 0 s.m.mem.groomPos ch.val) →
    groomSkips s.m (lineAt s.m lla) lla = false → readSees s.dram s.m lla rf ≠ .clean →
    ∃ t, exec (.groomRead ch rf) s = .next t
      ∧ tget 0 t.m.mem.groomPos ch.val = tget 0 s.m.mem.groomPos ch.val + 1
      ∧ (∃ a ∈ t.m.trk.arrivals, a.job = .groom ch.val lla false ∧ a.port = 16 ∧ a.msg.line = lineAt s.m lla)
      ∧ s.only (.mem :: .trk :: .ports :: .jnl :: .free :: Part.report) t) ∧
  (∀ (s : State) (ch : Fin 8), running s.m = true → s.m.mem.ready = true → isHome s.m = true → ch.val < channels s.m →
    chFailed s.m ch.val = false → chanLines s.m ≤ tget 0 s.m.mem.groomPos ch.val →
    tget [] s.m.mem.groomSkip ch.val = [] → groomOut s.m ch.val = false →
    ∃ t, exec (.groomRead ch .clean) s = .next t ∧ tget 0 t.m.mem.groomPos ch.val = 0
      ∧ rfld t.m 0x1848 15 0 = min (rfld s.m 0x1848 15 0 + 1) 65535
      ∧ s.only [.mem, .regs] t ∧ s.m.onlyRegs [0x1848] t.m) ∧
  (∀ (s : State) (h : HteIx) (x : Hte) (ch lla : Nat) (again : Bool) (dev : Fin 10), running s.m = true →
    hte s.m h.val = some x → x.kind = .active → x.wait = .decision → x.job = .groom ch lla again →
    wqTakes s.m lla = true → alcKey s.m x.msg.line = none →
    (s.m.atm.units.any fun u => u.2.any fun o => decide (o.line = x.msg.line)) = false → s.m.mem.repair = none →
    readSees s.dram s.m lla (.correctable dev) = .correctable dev → mbOf s.m x.msg.line = [] →
    homeState s.m x.msg.line = .i → rfld s.m 0x183C 3 0 = 0 →
    ∃ t y, exec (.groomRepair h (.correctable dev)) s = .next t ∧ hte t.m h.val = some y ∧ y.done = true
      ∧ t.dram = writeLine s.dram lla (readLine s.dram lla) false ∧ t.pending = s.pending
      ∧ s.m.onlyParts (.mem :: .trk :: Part.report) t.m) ∧
  (∀ (s : State) (ch : Fin 8), running s.m = true → s.m.mem.ready = true → isHome s.m = true → ch.val < channels s.m →
    chFailed s.m ch.val = false →
    ∃ t, exec (.groomPeriodEnd ch) s = .next t
      ∧ (tget false s.m.mem.groomFin ch.val = true →
          tget false t.m.mem.groomFin ch.val = false ∧ s.only [.mem] t)
      ∧ (tget false s.m.mem.groomFin ch.val = false →
          tget false t.m.mem.groomLate ch.val = true ∧ rbit t.m 0x1848 31 = true ∧ isPending t.m 54 = true
            ∧ s.only (.mem :: Part.report) t))

/-! ### Fabric management (spec/11_bringup_coupling.md) -/

/-- A message of the management engines waits at port `p`. -/
def mgtSends (t : Core) (p : Nat) (f : Msg → Prop) : Prop := ∃ y ∈ (port t p).txq, y.owner = none ∧ f y.msg

/-- LISTEN_END, CLAIM_RESEND, CLAIM_WAIT_TIMEOUT, CLM, SETTLE_END, BEACON, SMA, BEACON_LOSS: the station master's election
(R520 to R528): silence makes a candidate, whose claim is flooded with its priority and the highest term heard, after a loss
of beacons with the current term; a claim that ranks above stops it; the candidate that settles becomes master of the next term and couples itself; a beacon of a newer term is followed. -/
def Obligations.StationMasterIsElected : Prop :=
  (∀ (s : State) (c : Instr), running s.m = true → smPrio s.m ≠ 0 →
    ((c = .listenEnd ∧ s.m.fab.listening = true ∧ s.m.fab.sm = .listener ∧ s.m.fab.termValid = false)
      ∨ (c = .claimWaitTimeout ∧ s.m.fab.sm = .candidate ∧ s.m.fab.stopped = true)
      ∨ (c = .claimResend ∧ s.m.fab.sm = .candidate ∧ s.m.fab.stopped = false)
      ∨ (c = .beaconLoss ∧ s.m.fab.sm = .listener ∧ s.m.fab.termValid = true)) →
    ∃ t, exec c s = .next t ∧ t.m.fab.sm = .candidate ∧ t.m.fab.stopped = false ∧ t.m.fab.seq = s.m.fab.seq + 1
      ∧ (∀ p : PortIx, started s.m p.val = true →
          mgtSends t.m p.val fun g => g.op = .clm ∧ g.tag = s.m.fab.seq + 1 ∧ g.status = smPrio s.m
            ∧ g.aux = (if c = .beaconLoss then s.m.fab.term else claimAux s.m) ∧ g.broadcast = true ∧ g.src = nodeId s.m)
      ∧ s.only (.fab :: .ports :: Part.report) t) ∧
  (∀ (s : State) (g : Msg), running s.m = true → s.m.inbox.map (·.msg) = [g] → g.op = .clm →
    dupSerial s.m g = false → s.m.fab.sm = .candidate → claimAbove (g.status, serialOf g) (smPrio s.m, Config.serial) = true →
    ∃ t, exec .clm s = .next t ∧ t.m.inbox = [] ∧ t.m.fab.sm = .candidate ∧ t.m.fab.stopped = true
      ∧ s.only [.inbox, .fab, .ports] t) ∧
  (∀ (s : State), running s.m = true → s.m.fab.sm = .candidate → s.m.fab.stopped = false → s.m.cfg.prepared = false →
    ∃ t, exec .settleEnd s = .next t ∧ t.m.fab.sm = .master ∧ t.m.fab.termValid = true
      ∧ t.m.fab.term = s.m.fab.heardTerm.getD 0 + 1 ∧ t.m.fab.master = nodeId s.m ∧ isPending t.m 81 = true
      ∧ (∀ p : PortIx, started s.m p.val = true →
          mgtSends t.m p.val fun g => g.op = .sma ∧ g.aux = s.m.fab.heardTerm.getD 0 + 1 ∧ g.status = smPrio s.m
            ∧ g.broadcast = true)
      ∧ t.dram = s.dram ∧ t.pending = s.pending) ∧
  (∀ (s : State), running s.m = true → s.m.fab.sm = .master →
    ∃ t, exec .beacon s = .next t ∧ t.m.fab = { s.m.fab with seq := s.m.fab.seq + 1 }
      ∧ (∀ p : PortIx, started s.m p.val = true →
          mgtSends t.m p.val fun g => g.op = .sma ∧ g.tag = s.m.fab.seq + 1 ∧ g.aux = s.m.fab.term
            ∧ g.status = smPrio s.m ∧ g.broadcast = true ∧ g.src = nodeId s.m)
      ∧ s.only (.fab :: .ports :: Part.report) t) ∧
  (∀ (s : State) (i : InMsg), running s.m = true → s.m.inbox = [i] → i.msg.op = .sma → i.port < 16 →
    dupSerial s.m i.msg = false → i.msg.src ≠ nodeId s.m → s.m.fab.termValid = false → s.m.fab.sm = .listener →
    s.m.cfg.prepared = false → s.m.cfg.check = .idle →
    ∃ t, exec .sma s = .next t ∧ t.m.fab.sm = .listener ∧ t.m.fab.termValid = true ∧ t.m.fab.term = i.msg.aux
      ∧ t.m.fab.master = i.msg.src ∧ t.m.fab.parent = some i.port ∧ t.m.time = BitVec.ofNat 64 (beAt i.msg.data 8 8)
      ∧ isPending t.m 81 = true ∧ s.only (.inbox :: .fab :: .ports :: .time :: .jnl :: Part.report) t)

/-- FABRIC_THROW_START, THA, THROW_TIMEOUT, THR_PREPARE, PREPARE_CHECK_DONE, THR_FLIP, THR_ABORT: the master numbers a throw
and sends `PREPARE` to its roster, flips once every node is ready and aborts at a refusal or a silence; a node checks its
standby set, answers under the epoch of the message, and flips or leaves the prepared state (R538, R540, R541, R626 to R631). -/
def Obligations.FabricWideThrowsRun : Prop :=
  (∀ (s : State) (a : Lmb) (n : Nat) (k : RosterRec) (p : Nat), Accepted s a 0x2020 1 → s.m.fab.roster = [(n, k)] →
    BitVec.ofNat 16 n ≠ nodeId s.m → routeOf s.m s.m.cfg.epoch (BitVec.ofNat 16 n) = some p →
    ∃ t, exec (.fabricThrowStart a) s = .next t ∧ t.m.fab2.thrPhase = 1 ∧ t.m.fab2.thrNum = s.m.fab2.thrNum + 1
      ∧ t.m.fab2.thrWait = [BitVec.ofNat 16 n] ∧ lmbOk t.m
      ∧ mgtSends t.m p (fun g => g.op = .thr ∧ g.dest = BitVec.ofNat 16 n ∧ g.status = 1 ∧ g.aux = s.m.fab2.thrNum + 1
          ∧ g.epoch = s.m.cfg.epoch)
      ∧ s.only (.lmb :: .fab :: .fab2 :: .ports :: Part.report) t) ∧
  (∀ (s : State) (g : Msg) (p : Nat), running s.m = true → s.m.inbox.map (·.msg) = [g] → g.op = .tha →
    s.m.fab2.thrPhase = 1 → s.m.fab2.thrBad = false → g.aux = s.m.fab2.thrNum → s.m.fab2.thrWait = [g.src] →
    g.status = 0 → s.m.fab.roster.map (fun x => BitVec.ofNat 16 x.1) = [g.src] → g.src ≠ nodeId s.m →
    routeOf s.m s.m.cfg.epoch g.src = some p →
    ∃ t, exec .tha s = .next t ∧ t.m.inbox = [] ∧ t.m.fab2.thrPhase = 2 ∧ t.m.fab2.thrWait = [g.src]
      ∧ mgtSends t.m p (fun r => r.op = .thr ∧ r.dest = g.src ∧ r.status = 2 ∧ r.aux = s.m.fab2.thrNum
          ∧ r.epoch = !s.m.cfg.epoch)
      ∧ s.only (.inbox :: .fab :: .fab2 :: .ports :: Part.report) t) ∧
  (∀ (s : State) (n : NodeId) (r : List NodeId), running s.m = true → s.m.fab.queue = [] → s.m.fab2.thrPhase = 1 →
    s.m.fab2.thrWait = n :: r →
    ∃ t, exec .throwTimeout s = .next t ∧ t.m.fab2.thrPhase = 4 ∧ t.m.fab2.thrWait = [] ∧ t.m.fab2.thrBad = true
      ∧ (s.m.fab2.thrCode = 0 → t.m.fab2.thrCode = 0xFF ∧ t.m.fab2.thrNode = n) ∧ isPending t.m 130 = true
      ∧ t.dram = s.dram ∧ t.pending = s.pending) ∧
  (∀ (s : State) (g : Msg), running s.m = true → s.m.inbox.map (·.msg) = [g] → g.op = .thr → g.status = 1 →
    s.m.fab.termValid = true → g.src = s.m.fab.master → s.m.cfg.drain = false → s.m.cfg.check = .idle →
    ∃ t, exec .thrPrepare s = .next t ∧ t.m.inbox = []
      ∧ t.m.cfg = { s.m.cfg with throwNum := g.aux, check := .prepare g.src g.tag g.aux g.epoch false }
      ∧ s.only (.inbox :: .cfg :: .ports :: Part.report) t) ∧
  (∀ (s : State) (src : NodeId) (tag : BitVec 12) (num : BitVec 16) (e : Bool) (p : Nat), running s.m = true →
    s.m.cfg.check = .prepare src tag num e false → src ≠ nodeId s.m → routeOf s.m (epochFor s.m e) src = some p →
    ∃ t, exec .prepareCheckDone s = .next t ∧ t.m.cfg.check = .idle ∧ t.m.cfg.prepared = (throwCheck s.m).isNone
      ∧ t.m.cfg.ackEpoch = (if (throwCheck s.m).isNone = true then some e else s.m.cfg.ackEpoch)
      ∧ mgtSends t.m p (fun r => r.op = .tha ∧ r.dest = src ∧ r.tag = tag ∧ r.aux = num ∧ r.epoch = e
          ∧ r.status = (if (throwCheck s.m).isNone = true then 0 else 8))
      ∧ s.only (.cfg :: .ports :: Part.report) t ∧ s.m.onlyRegs (0x40C :: reportRegs) t.m) ∧
  (∀ (s : State) (g : Msg), running s.m = true → s.m.inbox.map (·.msg) = [g] → g.op = .thr → g.status = 2 →
    s.m.fab.termValid = true → g.src = s.m.fab.master → s.m.cfg.prepared = true → g.epoch ≠ s.m.cfg.epoch →
    ∃ t, exec .thrFlip s = .next t ∧ (g.src ≠ nodeId s.m → t.m.inbox = []) ∧ t.m.cfg.epoch = g.epoch
      ∧ t.m.cfg.drain = true ∧ t.m.cfg.prepared = false ∧ t.m.cfg.throwNum = g.aux ∧ t.m.cfg.ackEpoch = some g.epoch
      ∧ t.dram = s.dram ∧ t.pending = s.pending) ∧
  (∀ (s : State) (g : Msg), running s.m = true → s.m.inbox.map (·.msg) = [g] → g.op = .thr → g.status = 3 →
    s.m.fab.termValid = true → g.src = s.m.fab.master →
    ∃ t, exec .thrAbort s = .next t ∧ (g.src ≠ nodeId s.m → t.m.inbox = []) ∧ t.m.cfg.prepared = false
      ∧ t.m.cfg.epoch = s.m.cfg.epoch ∧ (∀ a b c e d, t.m.cfg.check = .prepare a b c e d → d = true)
      ∧ t.dram = s.dram ∧ t.pending = s.pending)

/-- CPL_START, CPL_RESEND, CPL, ADMIT_TARGET_TIMEOUT, UCP_PLANNED, UCP_SURPRISE, UCP_RESTORED, LOST_EDIT_RESEND,
SLOT_EDIT_ADMIT, SLOT_EDIT_CLEAR, SLOT_EDIT_LOST, SLOT_EMPTY: how nodes couple and uncouple, and what a slot edit makes of
a slot: a node without an admission entry is refused, one that passes is edited in at its first target or admitted with
`CMP`; a target's silence refuses; a planned uncoupling clears the node's slot at its target; the last link reported down
takes the node from the roster and sends its target the LOST edit (R543, R544, R550 to R554, R557, R558, R562, R566, R567,
R582, R584, Table FAB-5). -/
def Obligations.NodesCoupleAndSlotsChange : Prop :=
  (∀ (s : State) (a : Lmb) (p : Nat), Accepted s a 0x2048 1 → s.m.fab.termValid = true → s.m.fab.master ≠ nodeId s.m →
    routeOf s.m s.m.cfg.epoch s.m.fab.master = some p →
    ∃ t, exec (.cplStart a) s = .next t ∧ t.m.fab.cplState = 1 ∧ t.m.fab.cplTag = s.m.fab.mtag
      ∧ t.m.fab.cplRejoin = false ∧ lmbOk t.m
      ∧ mgtSends t.m p (fun g => g.op = .cpl ∧ g.dest = s.m.fab.master ∧ g.tag = s.m.fab.mtag ∧ g.status = 0)
      ∧ s.only (.lmb :: .fab :: .ports :: Part.report) t) ∧
  (∀ (s : State) (p : Nat), running s.m = true → s.m.fab.termValid = true → s.m.fab.sm = .listener →
    s.m.fab.cplState = 1 → s.m.fab.master ≠ nodeId s.m → routeOf s.m s.m.cfg.epoch s.m.fab.master = some p →
    ∃ t, exec .cplResend s = .next t
      ∧ mgtSends t.m p (fun g => g.op = .cpl ∧ g.dest = s.m.fab.master ∧ g.tag = s.m.fab.cplTag)
      ∧ s.only (.ports :: Part.report) t) ∧
  (∀ (s : State) (g : Msg) (p : Nat), running s.m = true → s.m.inbox.map (·.msg) = [g] →
    g.op = .cpl → s.m.fab.sm = .master → s.m.fab.queue = [] → s.m.fab.admitting = none → throwRuns s.m = false →
    admissionOf s.m g.src = none → g.src ≠ nodeId s.m → routeOf s.m (epochFor s.m g.epoch) g.src = some p →
    ∃ t, exec .cpl s = .next t ∧ t.m.inbox = [] ∧ t.m.fab = { s.m.fab with queue := [], admitting := none }
      ∧ mgtSends t.m p (fun r => r.op = .err ∧ r.dest = g.src ∧ r.tag = g.tag ∧ r.status = 0x20)
      ∧ s.only (.inbox :: .fab :: .ports :: .jnl :: Part.report) t) ∧
  (∀ (s : State) (i : InMsg) (a : Admission) (p : Nat), running s.m = true → s.m.inbox = [i] → i.msg.op = .cpl →
    s.m.fab.sm = .master → s.m.fab.queue = [] → s.m.fab.admitting = none → throwRuns s.m = false →
    admissionOf s.m i.msg.src = some a → tfind s.m.fab.roster i.msg.src.toNat = none →
    plateCheck (tget {} s.m.fab.profiles a.profile.toNat) (BitVec.ofNat 256 (beAt i.msg.data 0 32)) = none →
    (bit i.msg.status 0 = true ∨ (targetsOf s.m a = [] ∧ reverseEdits s.m i.msg.src = [])) →
    i.msg.src ≠ nodeId s.m → routeOf s.m (epochFor s.m i.msg.epoch) i.msg.src = some p →
    ∃ t, exec .cpl s = .next t ∧ t.m.inbox = []
      ∧ tfind t.m.fab.roster i.msg.src.toNat = some { port := i.port, plate := BitVec.ofNat 256 (beAt i.msg.data 0 32) }
      ∧ (∀ k, k ≠ i.msg.src.toNat → tfind t.m.fab.roster k = tfind s.m.fab.roster k)
      ∧ mgtSends t.m p (fun r => r.op = .cmp ∧ r.dest = i.msg.src ∧ r.tag = i.msg.tag)
      ∧ s.only (.inbox :: .fab :: .ports :: Part.report) t) ∧
  (∀ (s : State) (i : InMsg) (a : Admission) (n : NodeId) (ns : List NodeId) (p : Nat), running s.m = true →
    s.m.inbox = [i] → i.msg.op = .cpl → s.m.fab.sm = .master → s.m.fab.queue = [] → s.m.fab.admitting = none →
    throwRuns s.m = false → admissionOf s.m i.msg.src = some a → tfind s.m.fab.roster i.msg.src.toNat = none →
    plateCheck (tget {} s.m.fab.profiles a.profile.toNat) (BitVec.ofNat 256 (beAt i.msg.data 0 32)) = none →
    bit i.msg.status 0 = false → targetsOf s.m a = n :: ns → i.msg.src ≠ nodeId s.m → n ≠ nodeId s.m →
    routeOf s.m s.m.cfg.epoch n = some p →
    ∃ t r q, exec .cpl s = .next t ∧ t.m.inbox = [] ∧ t.m.fab.roster = s.m.fab.roster
      ∧ t.m.fab.admitting
          = some { req := r, todo := { editFor a i.msg.src n 1 with tag := s.m.fab.mtag, sent := true } :: q }
      ∧ r.node = i.msg.src ∧ r.tag = i.msg.tag
      ∧ mgtSends t.m p (fun g => g.op = .cfg ∧ g.dest = n ∧ g.tag = s.m.fab.mtag ∧ g.status = 2 ∧ g.aux = 0x2030
          ∧ g.data = bePut (editWord (editFor a i.msg.src n 1)) 0 4)
      ∧ s.only (.inbox :: .fab :: .ports :: Part.report) t) ∧
  (∀ (s : State) (a : Admit) (p : Nat), running s.m = true → s.m.fab.admitting = some a → s.m.fab.sm = .master →
    s.m.fab.queue = [] → a.done = [] → a.req.node ≠ nodeId s.m →
    routeOf s.m (epochFor s.m a.req.epoch) a.req.node = some p →
    ∃ t, exec .admitTargetTimeout s = .next t ∧ t.m.fab = { s.m.fab with admitting := none }
      ∧ mgtSends t.m p (fun r => r.op = .err ∧ r.dest = a.req.node ∧ r.tag = a.req.tag ∧ r.status = 0x28)
      ∧ s.only (.fab :: .ports :: .jnl :: Part.report) t) ∧
  (∀ (s : State) (a : Admit), running s.m = true → s.m.fab.admitting = some a → s.m.fab.sm = .master →
    s.m.fab.queue = [] → a.done = [] → a.req.node = nodeId s.m → a.req.port = 16 →
    ∃ t, exec .admitTargetTimeout s = .next t
      ∧ t.m.fab = { s.m.fab with admitting := none, cplState := 3, cplCode := 0x28 } ∧ isPending t.m 80 = true
      ∧ s.only (.fab :: .jnl :: Part.report) t) ∧
  (∀ (s : State) (g : Msg) (p : Nat) (op : Nat) (c : Instr), running s.m = true →
    s.m.inbox.map (·.msg) = [g] → g.op = .ucp → g.status = BitVec.ofNat 8 op → s.m.fab.sm ≠ .master →
    g.src ≠ nodeId s.m → routeOf s.m (epochFor s.m g.epoch) g.src = some p →
    (c, op) ∈ ([(.ucpPlanned, 0), (.ucpSurprise, 1), (.ucpRestored, 2)] : List (Instr × Nat)) →
    ∃ t, exec c s = .next t ∧ t.m.inbox = []
      ∧ mgtSends t.m p (fun r => r.op = .err ∧ r.dest = g.src ∧ r.tag = g.tag ∧ r.status = 0x29)
      ∧ s.only (.inbox :: .ports :: Part.report) t) ∧
  (∀ (s : State) (g : Msg) (p : Nat) (k : RosterRec), running s.m = true → s.m.inbox.map (·.msg) = [g] →
    g.op = .ucp → g.status = 0 → s.m.fab.sm = .master → tfind s.m.fab.roster g.src.toNat = some k →
    admissionOf s.m g.src = none → s.m.fab2.leaving = [] → g.src ≠ nodeId s.m →
    routeOf s.m (epochFor s.m g.epoch) g.src = some p →
    ∃ t, exec .ucpPlanned s = .next t ∧ t.m.inbox = [] ∧ tfind t.m.fab.roster g.src.toNat = none
      ∧ t.m.fab2.leaving = []
      ∧ mgtSends t.m p (fun r => r.op = .cmp ∧ r.dest = g.src ∧ r.tag = g.tag)
      ∧ s.only (.inbox :: .fab :: .fab2 :: .ports :: Part.report) t) ∧
  (∀ (s : State) (g : Msg) (p : Nat) (k : RosterRec) (a : Admission) (n : NodeId), running s.m = true →
    s.m.inbox.map (·.msg) = [g] → g.op = .ucp → g.status = 0 → s.m.fab.sm = .master →
    tfind s.m.fab.roster g.src.toNat = some k → admissionOf s.m g.src = some a → targetsOf s.m a = [n] →
    s.m.fab2.leaving = [] → n ≠ nodeId s.m → routeOf s.m s.m.cfg.epoch n = some p →
    ∃ t, exec .ucpPlanned s = .next t ∧ t.m.inbox = [] ∧ t.m.fab.roster = s.m.fab.roster
      ∧ t.m.fab2.leaving = [{ node := g.src, src := g.src, tag := g.tag, epoch := g.epoch, waiting := [(n, s.m.fab.mtag)] }]
      ∧ mgtSends t.m p (fun r => r.op = .cfg ∧ r.dest = n ∧ r.tag = s.m.fab.mtag ∧ r.status = 2 ∧ r.aux = 0x2030
          ∧ r.data = bePut (editWord (editFor a g.src n 2)) 0 4)
      ∧ s.only (.inbox :: .fab :: .fab2 :: .ports :: Part.report) t) ∧
  (∀ (s : State) (g : Msg) (p q : Nat) (a : Admission) (n : NodeId), running s.m = true →
    s.m.inbox.map (·.msg) = [g] → g.op = .ucp → g.status = 1 → s.m.fab.sm = .master →
    admissionOf s.m g.aux = some a → tget 0 s.m.fab2.down g.aux.toNat = a.links1.toNat → targetsOf s.m a = [n] →
    junctionNode s.m g.aux = false → s.m.fab2.thrPhase = 0 → s.m.fab2.leaving = [] → s.m.fab.queue = [] →
    g.src ≠ nodeId s.m → routeOf s.m (epochFor s.m g.epoch) g.src = some p →
    n ≠ nodeId s.m → routeOf s.m s.m.cfg.epoch n = some q →
    ∃ t, exec .ucpSurprise s = .next t ∧ t.m.inbox = [] ∧ tfind t.m.fab.roster g.aux.toNat = none
      ∧ { editFor a g.aux n 3 with tag := s.m.fab.mtag, sent := true } ∈ t.m.fab2.lostJobs
      ∧ mgtSends t.m p (fun r => r.op = .cmp ∧ r.dest = g.src ∧ r.tag = g.tag)
      ∧ mgtSends t.m q (fun r => r.op = .cfg ∧ r.dest = n ∧ r.tag = s.m.fab.mtag ∧ r.status = 2 ∧ r.aux = 0x2030
          ∧ r.data = bePut (editWord (editFor a g.aux n 3)) 0 4)
      ∧ s.only (.inbox :: .fab :: .fab2 :: .ports :: Part.report) t) ∧
  (∀ (s : State) (g : Msg) (c : Instr) (op p : Nat), running s.m = true → s.m.inbox.map (·.msg) = [g] →
    g.op = .ucp → g.status = BitVec.ofNat 8 op → s.m.fab.sm = .master → admissionOf s.m g.aux = none →
    s.m.fab2.leaving = [] → s.m.fab.queue = [] → g.src ≠ nodeId s.m →
    routeOf s.m (epochFor s.m g.epoch) g.src = some p →
    (c, op) ∈ ([(.ucpSurprise, 1), (.ucpRestored, 2)] : List (Instr × Nat)) →
    ∃ t, exec c s = .next t ∧ t.m.inbox = []
      ∧ tget 0 t.m.fab2.down g.aux.toNat = (if op = 1 then tget 0 s.m.fab2.down g.aux.toNat + 1
          else tget 0 s.m.fab2.down g.aux.toNat - 1)
      ∧ mgtSends t.m p (fun r => r.op = .cmp ∧ r.dest = g.src ∧ r.tag = g.tag)
      ∧ s.only (.inbox :: .fab2 :: .ports :: Part.report) t) ∧
  (∀ (s : State) (n : NodeId) (j : EditJob) (p : Nat), running s.m = true → s.m.fab2.lostJobs = [j] → j.target = n →
    n ≠ nodeId s.m → routeOf s.m s.m.cfg.epoch n = some p →
    ∃ t, exec (.lostEditResend n) s = .next t ∧ tget false t.m.fab2.lostLate n.toNat = true
      ∧ mgtSends t.m p (fun r => r.op = .cfg ∧ r.dest = n ∧ r.tag = j.tag ∧ r.status = 2 ∧ r.aux = 0x2030)
      ∧ s.only (.fab2 :: .ports :: .jnl :: Part.report) t) ∧
  (∀ (s : State) (a : Lmb) (f : SlotEdit), Accepted s a 0x2030 (slotEditWord f 1) →
    (slotEnt s.m s.m.cfg.epoch f.slot.toNat).status = .empty →
    ∃ t, exec (.slotEditAdmit a f) s = .next t ∧ lmbOk t.m
      ∧ (∀ e, slotEnt t.m e f.slot.toNat
          = { cls := f.cls, junction := f.junction, member := f.member, status := .live, node := f.node })
      ∧ (∀ e k, k ≠ f.slot.toNat → slotEnt t.m e k = slotEnt s.m e k) ∧ s.only (.lmb :: .cfg :: Part.report) t) ∧
  (∀ (s : State) (a : Lmb) (f : SlotEdit), Accepted s a 0x2030 (slotEditWord f 2) →
    (slotEnt s.m s.m.cfg.epoch f.slot.toNat).status = .live → (slotEnt s.m s.m.cfg.epoch f.slot.toNat).node = f.node →
    ∃ t, exec (.slotEditClear a f) s = .next t ∧ lmbOk t.m
      ∧ (∀ e, slotEnt t.m e f.slot.toNat = { slotEnt s.m s.m.cfg.epoch f.slot.toNat with status := .leaving })
      ∧ ordered t.m .clear f.slot.toNat = true ∧ s.only (.lmb :: .cfg :: .deck :: Part.report) t) ∧
  (∀ (s : State) (a : Lmb) (f : SlotEdit), Accepted s a 0x2030 (slotEditWord f 3) →
    (slotEnt s.m s.m.cfg.epoch f.slot.toNat).status = .leaving →
    ∃ t, exec (.slotEditLost a f) s = .next t ∧ lmbOk t.m
      ∧ (∀ e, slotEnt t.m e f.slot.toNat = { slotEnt s.m s.m.cfg.epoch f.slot.toNat with status := .lost })
      ∧ ordered t.m .lost f.slot.toNat = true ∧ isPending t.m 82 = true ∧ t.dram = s.dram ∧ t.pending = s.pending) ∧
  (∀ (s : State) (slot : BitVec 8), running s.m = true → slotHeld s.m slot.toNat = false →
    ((slotEnt s.m s.m.cfg.epoch slot.toNat).status = .leaving ∨ (slotEnt s.m s.m.cfg.epoch slot.toNat).status = .lost) →
    ∃ t, exec (.slotEmpty slot) s = .next t ∧ (∀ e, slotEnt t.m e slot.toNat = {}) ∧ isPending t.m 83 = true
      ∧ (∀ x ∈ t.m.fab2.pendCmp, x.1 ≠ slot.toNat) ∧ t.dram = s.dram ∧ t.pending = s.pending)

/-! ### `CFG` messages (spec/12_control_plane.md) -/

/-- CFG_QUEUE_ENTRY, CFG_READ_REQUEST, CFG_WRITE_REQUEST: a `CFG` of an unlisted node is answered `ERR` CFG_DENIED; one of a
listed node enters the queue of sixteen; the head is performed in its turn and answered with `CMP`, a read's value in the
first payload word (R590, R591, R596, R646). -/
def Obligations.CfgMessagesAccessRegisters : Prop :=
  (∀ (s : State) (g : Msg) (p : Nat), running s.m = true → s.m.inbox.map (·.msg) = [g] → g.op = .cfg →
    cfgAllowed s.m g.src = false → g.src ≠ nodeId s.m → routeOf s.m (epochFor s.m g.epoch) g.src = some p →
    ∃ t, exec .cfgQueueEntry s = .next t ∧ t.m.inbox = [] ∧ t.m.cfgq = s.m.cfgq
      ∧ mgtSends t.m p (fun r => r.op = .err ∧ r.dest = g.src ∧ r.tag = g.tag ∧ r.status = 9)
      ∧ s.only (.inbox :: .ports :: Part.report) t) ∧
  (∀ (s : State) (i : InMsg), running s.m = true → s.m.inbox = [i] → i.msg.op = .cfg → cfgAllowed s.m i.msg.src = true →
    ∃ t, exec .cfgQueueEntry s = .next t
      ∧ (s.m.cfgq.length < 16 → t.m.inbox = [] ∧ t.m.cfgq = s.m.cfgq ++ [⟨i.port, i.msg⟩])
      ∧ (16 ≤ s.m.cfgq.length → t.m.inbox = [i] ∧ t.m.cfgq = s.m.cfgq)
      ∧ s.only [.inbox, .cfgq, .ports] t) ∧
  (∀ (s : State) (a : CfgAcc) (q : List CfgAcc) (p : Nat), running s.m = true → s.m.inbox = [] → s.m.cfgq = a :: q →
    a.msg.status = 0 → cfgWaits s.m = false → readCode s.m (cfgWho a.msg) a.msg.aux.toNat = 0 →
    a.msg.src ≠ nodeId s.m → routeOf s.m (epochFor s.m a.msg.epoch) a.msg.src = some p →
    ∃ t, exec .cfgReadRequest s = .next t ∧ t.m.cfgq = q
      ∧ mgtSends t.m p (fun r => r.op = .cmp ∧ r.dest = a.msg.src ∧ r.tag = a.msg.tag ∧ r.status = 1
          ∧ r.data = bePut (readValue s.m (cfgWho a.msg) a.msg.aux.toNat).1.toNat 0 4)
      ∧ s.only (.cfgq :: .hold :: .timeHold :: .ports :: Part.report) t) ∧
  (∀ (s : State) (a : CfgAcc) (q : List CfgAcc) (p : Nat) (r : RegDesc), running s.m = true → s.m.inbox = [] →
    s.m.cfgq = a :: q → a.msg.status = 2 → cfgWaits s.m = false →
    writeCode s.m (cfgWho a.msg) a.msg.aux.toNat (BitVec.ofNat 32 (beAt a.msg.data 0 4)) = 0 →
    regAt a.msg.aux.toNat = some r → plainAddr a.msg.aux.toNat = true → a.msg.aux.toNat ∉ reportRegs →
    a.msg.src ≠ nodeId s.m → routeOf s.m (epochFor s.m a.msg.epoch) a.msg.src = some p →
    ∃ t, exec .cfgWriteRequest s = .next t ∧ t.m.cfgq = q
      ∧ rget t.m a.msg.aux.toNat
          = storeFields r (rget s.m a.msg.aux.toNat) (BitVec.ofNat 32 (beAt a.msg.data 0 4))
      ∧ mgtSends t.m p (fun x => x.op = .cmp ∧ x.dest = a.msg.src ∧ x.tag = a.msg.tag ∧ x.status = 0)
      ∧ s.only (.cfgq :: .ports :: Part.report) t)

/-! ### The whole block -/

/-- A step with a command in front of the queue is the command's effect on the state with the queue's rest. -/
def Obligations.StepRunsTheFrontCommand : Prop :=
  ∀ (s : State) (c : Instr) (r : List Instr), s.pending = c :: r → step s = exec c { s with pending := r }

/-- The model's choice for an empty queue (assumption log, entry 6): one STMP tick passes: the time advances by 10 ns where
no time parent is set, and the DRAM content and the queue stay. -/
def Obligations.IdleStepIsATick : Prop :=
  ∀ (s : State), s.pending = [] →
    ∃ t, step s = .next t ∧ t.dram = s.dram ∧ t.pending = []
      ∧ (awake s.m = true → s.m.pins.refclkStopped = false →
          t.m.stmp = s.m.stmp + 1 ∧ (s.m.fab.parent = none → t.m.time = s.m.time + 10))
      ∧ (awake s.m = false ∨ s.m.pins.refclkStopped = true → t = s)

/-- No command stops the block: every one answers a next state, and takes nothing from the queue (R14, R15: misuse is
answered, not a fault). -/
def Obligations.NoCommandStopsTheBlock : Prop :=
  ∀ (c : Instr) (s : State), ∃ t, exec c s = .next t ∧ t.pending = s.pending

/-- The commands that can change the DRAM content. -/
def writesDram : Instr → Bool
  | .mbEntryFree _ | .memoryAtomicResult _ | .groomRepair _ _ | .spprWaitEnd | .pprDone _ | .coldReset _ | .warmReset _
  | .pfailFlushDone => true
  | _ => false

/-- R387, R447, R453, R459, R468: only a freed merging-buffer entry, a memory-side atomic's result, a groom repair and the
steps of a row repair write DRAM; only resets (at once, or after the power-fail flush) may change it otherwise. -/
def Obligations.OnlyMemoryWritesChangeTheDram : Prop :=
  ∀ (c : Instr) (s t : State), writesDram c = false → exec c s = .next t → t.dram = s.dram

/-- Every step keeps the DRAM content in its canonical form: byte addresses strictly rising, no listed byte equal to what
an unlisted one reads as, poisoned lines strictly rising. -/
def Obligations.StepsKeepTheDramCanonical : Prop :=
  ∀ (s t : State), s.Inv → step s = .next t → t.Inv

/-- The state right after reset: the registers at their table values, the DRAM canonical and empty of listed bytes, no
source pending, no HTE in use, the PLL not locked, the election listening, the DMT off, no command waiting (R933, R949,
Tables RGF-2 to RGF-17, RGS-1 to RGS-8). The empty DRAM list is the model's choice (assumption log, entry 5). -/
def Obligations.ResetStateIsAsStated : Prop :=
  State.reset.Inv ∧ State.reset.dram = {} ∧ State.reset.pending = [] ∧ running State.reset.m = false
    ∧ awake State.reset.m = true ∧ (∀ a, rget State.reset.m a = regReset a) ∧ (∀ n, srcSt State.reset.m n = .inactive)
    ∧ (∀ h, hte State.reset.m h = none) ∧ State.reset.m.fab.sm = .listener ∧ dmtOn State.reset.m = false
    ∧ State.reset.m.deck.initDone = false ∧ State.reset.m.jnl.needSearch = true ∧ State.reset.m.tap.instr = .idcode
    ∧ role State.reset.m = 0 ∧ split State.reset.m = 8
end

