-- ==== Sys2Proof/Laws/State.lean ====
section
/-! SUPPORT. One lemma per part of the machine for each of its updates, so that no later proof unfolds a record update. -/

namespace Sys2Proof.Laws

open Sys2Proof.Machine

/-! ### `modPins` -/

@[simp] theorem modPins_stmp (m : Core) (f : Pins → Pins) : (modPins m f).stmp = m.stmp := rfl
@[simp] theorem modPins_time (m : Core) (f : Pins → Pins) : (modPins m f).time = m.time := rfl
@[simp] theorem modPins_regs (m : Core) (f : Pins → Pins) : (modPins m f).regs = m.regs := rfl
@[simp] theorem modPins_hold (m : Core) (f : Pins → Pins) : (modPins m f).hold = m.hold := rfl
@[simp] theorem modPins_timeHold (m : Core) (f : Pins → Pins) : (modPins m f).timeHold = m.timeHold := rfl
@[simp] theorem modPins_lmb (m : Core) (f : Pins → Pins) : (modPins m f).lmb = m.lmb := rfl
@[simp] theorem modPins_cfgq (m : Core) (f : Pins → Pins) : (modPins m f).cfgq = m.cfgq := rfl
@[simp] theorem modPins_wins (m : Core) (f : Pins → Pins) : (modPins m f).wins = m.wins := rfl
@[simp] theorem modPins_cfg (m : Core) (f : Pins → Pins) : (modPins m f).cfg = m.cfg := rfl
@[simp] theorem modPins_ports (m : Core) (f : Pins → Pins) : (modPins m f).ports = m.ports := rfl
@[simp] theorem modPins_bcasts (m : Core) (f : Pins → Pins) : (modPins m f).bcasts = m.bcasts := rfl
@[simp] theorem modPins_inbox (m : Core) (f : Pins → Pins) : (modPins m f).inbox = m.inbox := rfl
@[simp] theorem modPins_trk (m : Core) (f : Pins → Pins) : (modPins m f).trk = m.trk := rfl
@[simp] theorem modPins_deck (m : Core) (f : Pins → Pins) : (modPins m f).deck = m.deck := rfl
@[simp] theorem modPins_ca (m : Core) (f : Pins → Pins) : (modPins m f).ca = m.ca := rfl
@[simp] theorem modPins_atm (m : Core) (f : Pins → Pins) : (modPins m f).atm = m.atm := rfl
@[simp] theorem modPins_mem (m : Core) (f : Pins → Pins) : (modPins m f).mem = m.mem := rfl
@[simp] theorem modPins_fab (m : Core) (f : Pins → Pins) : (modPins m f).fab = m.fab := rfl
@[simp] theorem modPins_fab2 (m : Core) (f : Pins → Pins) : (modPins m f).fab2 = m.fab2 := rfl
@[simp] theorem modPins_eic (m : Core) (f : Pins → Pins) : (modPins m f).eic = m.eic := rfl
@[simp] theorem modPins_dmt (m : Core) (f : Pins → Pins) : (modPins m f).dmt = m.dmt := rfl
@[simp] theorem modPins_jnl (m : Core) (f : Pins → Pins) : (modPins m f).jnl = m.jnl := rfl
@[simp] theorem modPins_pmc (m : Core) (f : Pins → Pins) : (modPins m f).pmc = m.pmc := rfl
@[simp] theorem modPins_whs (m : Core) (f : Pins → Pins) : (modPins m f).whs = m.whs := rfl
@[simp] theorem modPins_spi (m : Core) (f : Pins → Pins) : (modPins m f).spi = m.spi := rfl
@[simp] theorem modPins_boot (m : Core) (f : Pins → Pins) : (modPins m f).boot = m.boot := rfl
@[simp] theorem modPins_tap (m : Core) (f : Pins → Pins) : (modPins m f).tap = m.tap := rfl
@[simp] theorem modPins_pins (m : Core) (f : Pins → Pins) : (modPins m f).pins = f m.pins := rfl
@[simp] theorem modPins_free (m : Core) (f : Pins → Pins) : (modPins m f).free = m.free := rfl

/-! ### `modCa` -/

@[simp] theorem modCa_stmp (m : Core) (f : Caches → Caches) : (modCa m f).stmp = m.stmp := rfl
@[simp] theorem modCa_time (m : Core) (f : Caches → Caches) : (modCa m f).time = m.time := rfl
@[simp] theorem modCa_regs (m : Core) (f : Caches → Caches) : (modCa m f).regs = m.regs := rfl
@[simp] theorem modCa_hold (m : Core) (f : Caches → Caches) : (modCa m f).hold = m.hold := rfl
@[simp] theorem modCa_timeHold (m : Core) (f : Caches → Caches) : (modCa m f).timeHold = m.timeHold := rfl
@[simp] theorem modCa_lmb (m : Core) (f : Caches → Caches) : (modCa m f).lmb = m.lmb := rfl
@[simp] theorem modCa_cfgq (m : Core) (f : Caches → Caches) : (modCa m f).cfgq = m.cfgq := rfl
@[simp] theorem modCa_wins (m : Core) (f : Caches → Caches) : (modCa m f).wins = m.wins := rfl
@[simp] theorem modCa_cfg (m : Core) (f : Caches → Caches) : (modCa m f).cfg = m.cfg := rfl
@[simp] theorem modCa_ports (m : Core) (f : Caches → Caches) : (modCa m f).ports = m.ports := rfl
@[simp] theorem modCa_bcasts (m : Core) (f : Caches → Caches) : (modCa m f).bcasts = m.bcasts := rfl
@[simp] theorem modCa_inbox (m : Core) (f : Caches → Caches) : (modCa m f).inbox = m.inbox := rfl
@[simp] theorem modCa_trk (m : Core) (f : Caches → Caches) : (modCa m f).trk = m.trk := rfl
@[simp] theorem modCa_deck (m : Core) (f : Caches → Caches) : (modCa m f).deck = m.deck := rfl
@[simp] theorem modCa_ca (m : Core) (f : Caches → Caches) : (modCa m f).ca = f m.ca := rfl
@[simp] theorem modCa_atm (m : Core) (f : Caches → Caches) : (modCa m f).atm = m.atm := rfl
@[simp] theorem modCa_mem (m : Core) (f : Caches → Caches) : (modCa m f).mem = m.mem := rfl
@[simp] theorem modCa_fab (m : Core) (f : Caches → Caches) : (modCa m f).fab = m.fab := rfl
@[simp] theorem modCa_fab2 (m : Core) (f : Caches → Caches) : (modCa m f).fab2 = m.fab2 := rfl
@[simp] theorem modCa_eic (m : Core) (f : Caches → Caches) : (modCa m f).eic = m.eic := rfl
@[simp] theorem modCa_dmt (m : Core) (f : Caches → Caches) : (modCa m f).dmt = m.dmt := rfl
@[simp] theorem modCa_jnl (m : Core) (f : Caches → Caches) : (modCa m f).jnl = m.jnl := rfl
@[simp] theorem modCa_pmc (m : Core) (f : Caches → Caches) : (modCa m f).pmc = m.pmc := rfl
@[simp] theorem modCa_whs (m : Core) (f : Caches → Caches) : (modCa m f).whs = m.whs := rfl
@[simp] theorem modCa_spi (m : Core) (f : Caches → Caches) : (modCa m f).spi = m.spi := rfl
@[simp] theorem modCa_boot (m : Core) (f : Caches → Caches) : (modCa m f).boot = m.boot := rfl
@[simp] theorem modCa_tap (m : Core) (f : Caches → Caches) : (modCa m f).tap = m.tap := rfl
@[simp] theorem modCa_pins (m : Core) (f : Caches → Caches) : (modCa m f).pins = m.pins := rfl
@[simp] theorem modCa_free (m : Core) (f : Caches → Caches) : (modCa m f).free = m.free := rfl

/-! ### `modMem` -/

@[simp] theorem modMem_stmp (m : Core) (f : Mem → Mem) : (modMem m f).stmp = m.stmp := rfl
@[simp] theorem modMem_time (m : Core) (f : Mem → Mem) : (modMem m f).time = m.time := rfl
@[simp] theorem modMem_regs (m : Core) (f : Mem → Mem) : (modMem m f).regs = m.regs := rfl
@[simp] theorem modMem_hold (m : Core) (f : Mem → Mem) : (modMem m f).hold = m.hold := rfl
@[simp] theorem modMem_timeHold (m : Core) (f : Mem → Mem) : (modMem m f).timeHold = m.timeHold := rfl
@[simp] theorem modMem_lmb (m : Core) (f : Mem → Mem) : (modMem m f).lmb = m.lmb := rfl
@[simp] theorem modMem_cfgq (m : Core) (f : Mem → Mem) : (modMem m f).cfgq = m.cfgq := rfl
@[simp] theorem modMem_wins (m : Core) (f : Mem → Mem) : (modMem m f).wins = m.wins := rfl
@[simp] theorem modMem_cfg (m : Core) (f : Mem → Mem) : (modMem m f).cfg = m.cfg := rfl
@[simp] theorem modMem_ports (m : Core) (f : Mem → Mem) : (modMem m f).ports = m.ports := rfl
@[simp] theorem modMem_bcasts (m : Core) (f : Mem → Mem) : (modMem m f).bcasts = m.bcasts := rfl
@[simp] theorem modMem_inbox (m : Core) (f : Mem → Mem) : (modMem m f).inbox = m.inbox := rfl
@[simp] theorem modMem_trk (m : Core) (f : Mem → Mem) : (modMem m f).trk = m.trk := rfl
@[simp] theorem modMem_deck (m : Core) (f : Mem → Mem) : (modMem m f).deck = m.deck := rfl
@[simp] theorem modMem_ca (m : Core) (f : Mem → Mem) : (modMem m f).ca = m.ca := rfl
@[simp] theorem modMem_atm (m : Core) (f : Mem → Mem) : (modMem m f).atm = m.atm := rfl
@[simp] theorem modMem_mem (m : Core) (f : Mem → Mem) : (modMem m f).mem = f m.mem := rfl
@[simp] theorem modMem_fab (m : Core) (f : Mem → Mem) : (modMem m f).fab = m.fab := rfl
@[simp] theorem modMem_fab2 (m : Core) (f : Mem → Mem) : (modMem m f).fab2 = m.fab2 := rfl
@[simp] theorem modMem_eic (m : Core) (f : Mem → Mem) : (modMem m f).eic = m.eic := rfl
@[simp] theorem modMem_dmt (m : Core) (f : Mem → Mem) : (modMem m f).dmt = m.dmt := rfl
@[simp] theorem modMem_jnl (m : Core) (f : Mem → Mem) : (modMem m f).jnl = m.jnl := rfl
@[simp] theorem modMem_pmc (m : Core) (f : Mem → Mem) : (modMem m f).pmc = m.pmc := rfl
@[simp] theorem modMem_whs (m : Core) (f : Mem → Mem) : (modMem m f).whs = m.whs := rfl
@[simp] theorem modMem_spi (m : Core) (f : Mem → Mem) : (modMem m f).spi = m.spi := rfl
@[simp] theorem modMem_boot (m : Core) (f : Mem → Mem) : (modMem m f).boot = m.boot := rfl
@[simp] theorem modMem_tap (m : Core) (f : Mem → Mem) : (modMem m f).tap = m.tap := rfl
@[simp] theorem modMem_pins (m : Core) (f : Mem → Mem) : (modMem m f).pins = m.pins := rfl
@[simp] theorem modMem_free (m : Core) (f : Mem → Mem) : (modMem m f).free = m.free := rfl

/-! ### `modDeck` -/

@[simp] theorem modDeck_stmp (m : Core) (f : Deck → Deck) : (modDeck m f).stmp = m.stmp := rfl
@[simp] theorem modDeck_time (m : Core) (f : Deck → Deck) : (modDeck m f).time = m.time := rfl
@[simp] theorem modDeck_regs (m : Core) (f : Deck → Deck) : (modDeck m f).regs = m.regs := rfl
@[simp] theorem modDeck_hold (m : Core) (f : Deck → Deck) : (modDeck m f).hold = m.hold := rfl
@[simp] theorem modDeck_timeHold (m : Core) (f : Deck → Deck) : (modDeck m f).timeHold = m.timeHold := rfl
@[simp] theorem modDeck_lmb (m : Core) (f : Deck → Deck) : (modDeck m f).lmb = m.lmb := rfl
@[simp] theorem modDeck_cfgq (m : Core) (f : Deck → Deck) : (modDeck m f).cfgq = m.cfgq := rfl
@[simp] theorem modDeck_wins (m : Core) (f : Deck → Deck) : (modDeck m f).wins = m.wins := rfl
@[simp] theorem modDeck_cfg (m : Core) (f : Deck → Deck) : (modDeck m f).cfg = m.cfg := rfl
@[simp] theorem modDeck_ports (m : Core) (f : Deck → Deck) : (modDeck m f).ports = m.ports := rfl
@[simp] theorem modDeck_bcasts (m : Core) (f : Deck → Deck) : (modDeck m f).bcasts = m.bcasts := rfl
@[simp] theorem modDeck_inbox (m : Core) (f : Deck → Deck) : (modDeck m f).inbox = m.inbox := rfl
@[simp] theorem modDeck_trk (m : Core) (f : Deck → Deck) : (modDeck m f).trk = m.trk := rfl
@[simp] theorem modDeck_deck (m : Core) (f : Deck → Deck) : (modDeck m f).deck = f m.deck := rfl
@[simp] theorem modDeck_ca (m : Core) (f : Deck → Deck) : (modDeck m f).ca = m.ca := rfl
@[simp] theorem modDeck_atm (m : Core) (f : Deck → Deck) : (modDeck m f).atm = m.atm := rfl
@[simp] theorem modDeck_mem (m : Core) (f : Deck → Deck) : (modDeck m f).mem = m.mem := rfl
@[simp] theorem modDeck_fab (m : Core) (f : Deck → Deck) : (modDeck m f).fab = m.fab := rfl
@[simp] theorem modDeck_fab2 (m : Core) (f : Deck → Deck) : (modDeck m f).fab2 = m.fab2 := rfl
@[simp] theorem modDeck_eic (m : Core) (f : Deck → Deck) : (modDeck m f).eic = m.eic := rfl
@[simp] theorem modDeck_dmt (m : Core) (f : Deck → Deck) : (modDeck m f).dmt = m.dmt := rfl
@[simp] theorem modDeck_jnl (m : Core) (f : Deck → Deck) : (modDeck m f).jnl = m.jnl := rfl
@[simp] theorem modDeck_pmc (m : Core) (f : Deck → Deck) : (modDeck m f).pmc = m.pmc := rfl
@[simp] theorem modDeck_whs (m : Core) (f : Deck → Deck) : (modDeck m f).whs = m.whs := rfl
@[simp] theorem modDeck_spi (m : Core) (f : Deck → Deck) : (modDeck m f).spi = m.spi := rfl
@[simp] theorem modDeck_boot (m : Core) (f : Deck → Deck) : (modDeck m f).boot = m.boot := rfl
@[simp] theorem modDeck_tap (m : Core) (f : Deck → Deck) : (modDeck m f).tap = m.tap := rfl
@[simp] theorem modDeck_pins (m : Core) (f : Deck → Deck) : (modDeck m f).pins = m.pins := rfl
@[simp] theorem modDeck_free (m : Core) (f : Deck → Deck) : (modDeck m f).free = m.free := rfl

/-! ### `modDmt` -/

@[simp] theorem modDmt_stmp (m : Core) (f : Dmt → Dmt) : (modDmt m f).stmp = m.stmp := rfl
@[simp] theorem modDmt_time (m : Core) (f : Dmt → Dmt) : (modDmt m f).time = m.time := rfl
@[simp] theorem modDmt_regs (m : Core) (f : Dmt → Dmt) : (modDmt m f).regs = m.regs := rfl
@[simp] theorem modDmt_hold (m : Core) (f : Dmt → Dmt) : (modDmt m f).hold = m.hold := rfl
@[simp] theorem modDmt_timeHold (m : Core) (f : Dmt → Dmt) : (modDmt m f).timeHold = m.timeHold := rfl
@[simp] theorem modDmt_lmb (m : Core) (f : Dmt → Dmt) : (modDmt m f).lmb = m.lmb := rfl
@[simp] theorem modDmt_cfgq (m : Core) (f : Dmt → Dmt) : (modDmt m f).cfgq = m.cfgq := rfl
@[simp] theorem modDmt_wins (m : Core) (f : Dmt → Dmt) : (modDmt m f).wins = m.wins := rfl
@[simp] theorem modDmt_cfg (m : Core) (f : Dmt → Dmt) : (modDmt m f).cfg = m.cfg := rfl
@[simp] theorem modDmt_ports (m : Core) (f : Dmt → Dmt) : (modDmt m f).ports = m.ports := rfl
@[simp] theorem modDmt_bcasts (m : Core) (f : Dmt → Dmt) : (modDmt m f).bcasts = m.bcasts := rfl
@[simp] theorem modDmt_inbox (m : Core) (f : Dmt → Dmt) : (modDmt m f).inbox = m.inbox := rfl
@[simp] theorem modDmt_trk (m : Core) (f : Dmt → Dmt) : (modDmt m f).trk = m.trk := rfl
@[simp] theorem modDmt_deck (m : Core) (f : Dmt → Dmt) : (modDmt m f).deck = m.deck := rfl
@[simp] theorem modDmt_ca (m : Core) (f : Dmt → Dmt) : (modDmt m f).ca = m.ca := rfl
@[simp] theorem modDmt_atm (m : Core) (f : Dmt → Dmt) : (modDmt m f).atm = m.atm := rfl
@[simp] theorem modDmt_mem (m : Core) (f : Dmt → Dmt) : (modDmt m f).mem = m.mem := rfl
@[simp] theorem modDmt_fab (m : Core) (f : Dmt → Dmt) : (modDmt m f).fab = m.fab := rfl
@[simp] theorem modDmt_fab2 (m : Core) (f : Dmt → Dmt) : (modDmt m f).fab2 = m.fab2 := rfl
@[simp] theorem modDmt_eic (m : Core) (f : Dmt → Dmt) : (modDmt m f).eic = m.eic := rfl
@[simp] theorem modDmt_dmt (m : Core) (f : Dmt → Dmt) : (modDmt m f).dmt = f m.dmt := rfl
@[simp] theorem modDmt_jnl (m : Core) (f : Dmt → Dmt) : (modDmt m f).jnl = m.jnl := rfl
@[simp] theorem modDmt_pmc (m : Core) (f : Dmt → Dmt) : (modDmt m f).pmc = m.pmc := rfl
@[simp] theorem modDmt_whs (m : Core) (f : Dmt → Dmt) : (modDmt m f).whs = m.whs := rfl
@[simp] theorem modDmt_spi (m : Core) (f : Dmt → Dmt) : (modDmt m f).spi = m.spi := rfl
@[simp] theorem modDmt_boot (m : Core) (f : Dmt → Dmt) : (modDmt m f).boot = m.boot := rfl
@[simp] theorem modDmt_tap (m : Core) (f : Dmt → Dmt) : (modDmt m f).tap = m.tap := rfl
@[simp] theorem modDmt_pins (m : Core) (f : Dmt → Dmt) : (modDmt m f).pins = m.pins := rfl
@[simp] theorem modDmt_free (m : Core) (f : Dmt → Dmt) : (modDmt m f).free = m.free := rfl

/-! ### `modEic` -/

@[simp] theorem modEic_stmp (m : Core) (f : Eic → Eic) : (modEic m f).stmp = m.stmp := rfl
@[simp] theorem modEic_time (m : Core) (f : Eic → Eic) : (modEic m f).time = m.time := rfl
@[simp] theorem modEic_regs (m : Core) (f : Eic → Eic) : (modEic m f).regs = m.regs := rfl
@[simp] theorem modEic_hold (m : Core) (f : Eic → Eic) : (modEic m f).hold = m.hold := rfl
@[simp] theorem modEic_timeHold (m : Core) (f : Eic → Eic) : (modEic m f).timeHold = m.timeHold := rfl
@[simp] theorem modEic_lmb (m : Core) (f : Eic → Eic) : (modEic m f).lmb = m.lmb := rfl
@[simp] theorem modEic_cfgq (m : Core) (f : Eic → Eic) : (modEic m f).cfgq = m.cfgq := rfl
@[simp] theorem modEic_wins (m : Core) (f : Eic → Eic) : (modEic m f).wins = m.wins := rfl
@[simp] theorem modEic_cfg (m : Core) (f : Eic → Eic) : (modEic m f).cfg = m.cfg := rfl
@[simp] theorem modEic_ports (m : Core) (f : Eic → Eic) : (modEic m f).ports = m.ports := rfl
@[simp] theorem modEic_bcasts (m : Core) (f : Eic → Eic) : (modEic m f).bcasts = m.bcasts := rfl
@[simp] theorem modEic_inbox (m : Core) (f : Eic → Eic) : (modEic m f).inbox = m.inbox := rfl
@[simp] theorem modEic_trk (m : Core) (f : Eic → Eic) : (modEic m f).trk = m.trk := rfl
@[simp] theorem modEic_deck (m : Core) (f : Eic → Eic) : (modEic m f).deck = m.deck := rfl
@[simp] theorem modEic_ca (m : Core) (f : Eic → Eic) : (modEic m f).ca = m.ca := rfl
@[simp] theorem modEic_atm (m : Core) (f : Eic → Eic) : (modEic m f).atm = m.atm := rfl
@[simp] theorem modEic_mem (m : Core) (f : Eic → Eic) : (modEic m f).mem = m.mem := rfl
@[simp] theorem modEic_fab (m : Core) (f : Eic → Eic) : (modEic m f).fab = m.fab := rfl
@[simp] theorem modEic_fab2 (m : Core) (f : Eic → Eic) : (modEic m f).fab2 = m.fab2 := rfl
@[simp] theorem modEic_eic (m : Core) (f : Eic → Eic) : (modEic m f).eic = f m.eic := rfl
@[simp] theorem modEic_dmt (m : Core) (f : Eic → Eic) : (modEic m f).dmt = m.dmt := rfl
@[simp] theorem modEic_jnl (m : Core) (f : Eic → Eic) : (modEic m f).jnl = m.jnl := rfl
@[simp] theorem modEic_pmc (m : Core) (f : Eic → Eic) : (modEic m f).pmc = m.pmc := rfl
@[simp] theorem modEic_whs (m : Core) (f : Eic → Eic) : (modEic m f).whs = m.whs := rfl
@[simp] theorem modEic_spi (m : Core) (f : Eic → Eic) : (modEic m f).spi = m.spi := rfl
@[simp] theorem modEic_boot (m : Core) (f : Eic → Eic) : (modEic m f).boot = m.boot := rfl
@[simp] theorem modEic_tap (m : Core) (f : Eic → Eic) : (modEic m f).tap = m.tap := rfl
@[simp] theorem modEic_pins (m : Core) (f : Eic → Eic) : (modEic m f).pins = m.pins := rfl
@[simp] theorem modEic_free (m : Core) (f : Eic → Eic) : (modEic m f).free = m.free := rfl

/-! ### `modFab` -/

@[simp] theorem modFab_stmp (m : Core) (f : Fab → Fab) : (modFab m f).stmp = m.stmp := rfl
@[simp] theorem modFab_time (m : Core) (f : Fab → Fab) : (modFab m f).time = m.time := rfl
@[simp] theorem modFab_regs (m : Core) (f : Fab → Fab) : (modFab m f).regs = m.regs := rfl
@[simp] theorem modFab_hold (m : Core) (f : Fab → Fab) : (modFab m f).hold = m.hold := rfl
@[simp] theorem modFab_timeHold (m : Core) (f : Fab → Fab) : (modFab m f).timeHold = m.timeHold := rfl
@[simp] theorem modFab_lmb (m : Core) (f : Fab → Fab) : (modFab m f).lmb = m.lmb := rfl
@[simp] theorem modFab_cfgq (m : Core) (f : Fab → Fab) : (modFab m f).cfgq = m.cfgq := rfl
@[simp] theorem modFab_wins (m : Core) (f : Fab → Fab) : (modFab m f).wins = m.wins := rfl
@[simp] theorem modFab_cfg (m : Core) (f : Fab → Fab) : (modFab m f).cfg = m.cfg := rfl
@[simp] theorem modFab_ports (m : Core) (f : Fab → Fab) : (modFab m f).ports = m.ports := rfl
@[simp] theorem modFab_bcasts (m : Core) (f : Fab → Fab) : (modFab m f).bcasts = m.bcasts := rfl
@[simp] theorem modFab_inbox (m : Core) (f : Fab → Fab) : (modFab m f).inbox = m.inbox := rfl
@[simp] theorem modFab_trk (m : Core) (f : Fab → Fab) : (modFab m f).trk = m.trk := rfl
@[simp] theorem modFab_deck (m : Core) (f : Fab → Fab) : (modFab m f).deck = m.deck := rfl
@[simp] theorem modFab_ca (m : Core) (f : Fab → Fab) : (modFab m f).ca = m.ca := rfl
@[simp] theorem modFab_atm (m : Core) (f : Fab → Fab) : (modFab m f).atm = m.atm := rfl
@[simp] theorem modFab_mem (m : Core) (f : Fab → Fab) : (modFab m f).mem = m.mem := rfl
@[simp] theorem modFab_fab (m : Core) (f : Fab → Fab) : (modFab m f).fab = f m.fab := rfl
@[simp] theorem modFab_fab2 (m : Core) (f : Fab → Fab) : (modFab m f).fab2 = m.fab2 := rfl
@[simp] theorem modFab_eic (m : Core) (f : Fab → Fab) : (modFab m f).eic = m.eic := rfl
@[simp] theorem modFab_dmt (m : Core) (f : Fab → Fab) : (modFab m f).dmt = m.dmt := rfl
@[simp] theorem modFab_jnl (m : Core) (f : Fab → Fab) : (modFab m f).jnl = m.jnl := rfl
@[simp] theorem modFab_pmc (m : Core) (f : Fab → Fab) : (modFab m f).pmc = m.pmc := rfl
@[simp] theorem modFab_whs (m : Core) (f : Fab → Fab) : (modFab m f).whs = m.whs := rfl
@[simp] theorem modFab_spi (m : Core) (f : Fab → Fab) : (modFab m f).spi = m.spi := rfl
@[simp] theorem modFab_boot (m : Core) (f : Fab → Fab) : (modFab m f).boot = m.boot := rfl
@[simp] theorem modFab_tap (m : Core) (f : Fab → Fab) : (modFab m f).tap = m.tap := rfl
@[simp] theorem modFab_pins (m : Core) (f : Fab → Fab) : (modFab m f).pins = m.pins := rfl
@[simp] theorem modFab_free (m : Core) (f : Fab → Fab) : (modFab m f).free = m.free := rfl

/-! ### `modFab2` -/

@[simp] theorem modFab2_stmp (m : Core) (f : Fab2 → Fab2) : (modFab2 m f).stmp = m.stmp := rfl
@[simp] theorem modFab2_time (m : Core) (f : Fab2 → Fab2) : (modFab2 m f).time = m.time := rfl
@[simp] theorem modFab2_regs (m : Core) (f : Fab2 → Fab2) : (modFab2 m f).regs = m.regs := rfl
@[simp] theorem modFab2_hold (m : Core) (f : Fab2 → Fab2) : (modFab2 m f).hold = m.hold := rfl
@[simp] theorem modFab2_timeHold (m : Core) (f : Fab2 → Fab2) : (modFab2 m f).timeHold = m.timeHold := rfl
@[simp] theorem modFab2_lmb (m : Core) (f : Fab2 → Fab2) : (modFab2 m f).lmb = m.lmb := rfl
@[simp] theorem modFab2_cfgq (m : Core) (f : Fab2 → Fab2) : (modFab2 m f).cfgq = m.cfgq := rfl
@[simp] theorem modFab2_wins (m : Core) (f : Fab2 → Fab2) : (modFab2 m f).wins = m.wins := rfl
@[simp] theorem modFab2_cfg (m : Core) (f : Fab2 → Fab2) : (modFab2 m f).cfg = m.cfg := rfl
@[simp] theorem modFab2_ports (m : Core) (f : Fab2 → Fab2) : (modFab2 m f).ports = m.ports := rfl
@[simp] theorem modFab2_bcasts (m : Core) (f : Fab2 → Fab2) : (modFab2 m f).bcasts = m.bcasts := rfl
@[simp] theorem modFab2_inbox (m : Core) (f : Fab2 → Fab2) : (modFab2 m f).inbox = m.inbox := rfl
@[simp] theorem modFab2_trk (m : Core) (f : Fab2 → Fab2) : (modFab2 m f).trk = m.trk := rfl
@[simp] theorem modFab2_deck (m : Core) (f : Fab2 → Fab2) : (modFab2 m f).deck = m.deck := rfl
@[simp] theorem modFab2_ca (m : Core) (f : Fab2 → Fab2) : (modFab2 m f).ca = m.ca := rfl
@[simp] theorem modFab2_atm (m : Core) (f : Fab2 → Fab2) : (modFab2 m f).atm = m.atm := rfl
@[simp] theorem modFab2_mem (m : Core) (f : Fab2 → Fab2) : (modFab2 m f).mem = m.mem := rfl
@[simp] theorem modFab2_fab (m : Core) (f : Fab2 → Fab2) : (modFab2 m f).fab = m.fab := rfl
@[simp] theorem modFab2_fab2 (m : Core) (f : Fab2 → Fab2) : (modFab2 m f).fab2 = f m.fab2 := rfl
@[simp] theorem modFab2_eic (m : Core) (f : Fab2 → Fab2) : (modFab2 m f).eic = m.eic := rfl
@[simp] theorem modFab2_dmt (m : Core) (f : Fab2 → Fab2) : (modFab2 m f).dmt = m.dmt := rfl
@[simp] theorem modFab2_jnl (m : Core) (f : Fab2 → Fab2) : (modFab2 m f).jnl = m.jnl := rfl
@[simp] theorem modFab2_pmc (m : Core) (f : Fab2 → Fab2) : (modFab2 m f).pmc = m.pmc := rfl
@[simp] theorem modFab2_whs (m : Core) (f : Fab2 → Fab2) : (modFab2 m f).whs = m.whs := rfl
@[simp] theorem modFab2_spi (m : Core) (f : Fab2 → Fab2) : (modFab2 m f).spi = m.spi := rfl
@[simp] theorem modFab2_boot (m : Core) (f : Fab2 → Fab2) : (modFab2 m f).boot = m.boot := rfl
@[simp] theorem modFab2_tap (m : Core) (f : Fab2 → Fab2) : (modFab2 m f).tap = m.tap := rfl
@[simp] theorem modFab2_pins (m : Core) (f : Fab2 → Fab2) : (modFab2 m f).pins = m.pins := rfl
@[simp] theorem modFab2_free (m : Core) (f : Fab2 → Fab2) : (modFab2 m f).free = m.free := rfl

/-! ### `modAtm` -/

@[simp] theorem modAtm_stmp (m : Core) (f : Atomics → Atomics) : (modAtm m f).stmp = m.stmp := rfl
@[simp] theorem modAtm_time (m : Core) (f : Atomics → Atomics) : (modAtm m f).time = m.time := rfl
@[simp] theorem modAtm_regs (m : Core) (f : Atomics → Atomics) : (modAtm m f).regs = m.regs := rfl
@[simp] theorem modAtm_hold (m : Core) (f : Atomics → Atomics) : (modAtm m f).hold = m.hold := rfl
@[simp] theorem modAtm_timeHold (m : Core) (f : Atomics → Atomics) : (modAtm m f).timeHold = m.timeHold := rfl
@[simp] theorem modAtm_lmb (m : Core) (f : Atomics → Atomics) : (modAtm m f).lmb = m.lmb := rfl
@[simp] theorem modAtm_cfgq (m : Core) (f : Atomics → Atomics) : (modAtm m f).cfgq = m.cfgq := rfl
@[simp] theorem modAtm_wins (m : Core) (f : Atomics → Atomics) : (modAtm m f).wins = m.wins := rfl
@[simp] theorem modAtm_cfg (m : Core) (f : Atomics → Atomics) : (modAtm m f).cfg = m.cfg := rfl
@[simp] theorem modAtm_ports (m : Core) (f : Atomics → Atomics) : (modAtm m f).ports = m.ports := rfl
@[simp] theorem modAtm_bcasts (m : Core) (f : Atomics → Atomics) : (modAtm m f).bcasts = m.bcasts := rfl
@[simp] theorem modAtm_inbox (m : Core) (f : Atomics → Atomics) : (modAtm m f).inbox = m.inbox := rfl
@[simp] theorem modAtm_trk (m : Core) (f : Atomics → Atomics) : (modAtm m f).trk = m.trk := rfl
@[simp] theorem modAtm_deck (m : Core) (f : Atomics → Atomics) : (modAtm m f).deck = m.deck := rfl
@[simp] theorem modAtm_ca (m : Core) (f : Atomics → Atomics) : (modAtm m f).ca = m.ca := rfl
@[simp] theorem modAtm_atm (m : Core) (f : Atomics → Atomics) : (modAtm m f).atm = f m.atm := rfl
@[simp] theorem modAtm_mem (m : Core) (f : Atomics → Atomics) : (modAtm m f).mem = m.mem := rfl
@[simp] theorem modAtm_fab (m : Core) (f : Atomics → Atomics) : (modAtm m f).fab = m.fab := rfl
@[simp] theorem modAtm_fab2 (m : Core) (f : Atomics → Atomics) : (modAtm m f).fab2 = m.fab2 := rfl
@[simp] theorem modAtm_eic (m : Core) (f : Atomics → Atomics) : (modAtm m f).eic = m.eic := rfl
@[simp] theorem modAtm_dmt (m : Core) (f : Atomics → Atomics) : (modAtm m f).dmt = m.dmt := rfl
@[simp] theorem modAtm_jnl (m : Core) (f : Atomics → Atomics) : (modAtm m f).jnl = m.jnl := rfl
@[simp] theorem modAtm_pmc (m : Core) (f : Atomics → Atomics) : (modAtm m f).pmc = m.pmc := rfl
@[simp] theorem modAtm_whs (m : Core) (f : Atomics → Atomics) : (modAtm m f).whs = m.whs := rfl
@[simp] theorem modAtm_spi (m : Core) (f : Atomics → Atomics) : (modAtm m f).spi = m.spi := rfl
@[simp] theorem modAtm_boot (m : Core) (f : Atomics → Atomics) : (modAtm m f).boot = m.boot := rfl
@[simp] theorem modAtm_tap (m : Core) (f : Atomics → Atomics) : (modAtm m f).tap = m.tap := rfl
@[simp] theorem modAtm_pins (m : Core) (f : Atomics → Atomics) : (modAtm m f).pins = m.pins := rfl
@[simp] theorem modAtm_free (m : Core) (f : Atomics → Atomics) : (modAtm m f).free = m.free := rfl

/-! ### `modJnl` -/

@[simp] theorem modJnl_stmp (m : Core) (f : Jnl → Jnl) : (modJnl m f).stmp = m.stmp := rfl
@[simp] theorem modJnl_time (m : Core) (f : Jnl → Jnl) : (modJnl m f).time = m.time := rfl
@[simp] theorem modJnl_regs (m : Core) (f : Jnl → Jnl) : (modJnl m f).regs = m.regs := rfl
@[simp] theorem modJnl_hold (m : Core) (f : Jnl → Jnl) : (modJnl m f).hold = m.hold := rfl
@[simp] theorem modJnl_timeHold (m : Core) (f : Jnl → Jnl) : (modJnl m f).timeHold = m.timeHold := rfl
@[simp] theorem modJnl_lmb (m : Core) (f : Jnl → Jnl) : (modJnl m f).lmb = m.lmb := rfl
@[simp] theorem modJnl_cfgq (m : Core) (f : Jnl → Jnl) : (modJnl m f).cfgq = m.cfgq := rfl
@[simp] theorem modJnl_wins (m : Core) (f : Jnl → Jnl) : (modJnl m f).wins = m.wins := rfl
@[simp] theorem modJnl_cfg (m : Core) (f : Jnl → Jnl) : (modJnl m f).cfg = m.cfg := rfl
@[simp] theorem modJnl_ports (m : Core) (f : Jnl → Jnl) : (modJnl m f).ports = m.ports := rfl
@[simp] theorem modJnl_bcasts (m : Core) (f : Jnl → Jnl) : (modJnl m f).bcasts = m.bcasts := rfl
@[simp] theorem modJnl_inbox (m : Core) (f : Jnl → Jnl) : (modJnl m f).inbox = m.inbox := rfl
@[simp] theorem modJnl_trk (m : Core) (f : Jnl → Jnl) : (modJnl m f).trk = m.trk := rfl
@[simp] theorem modJnl_deck (m : Core) (f : Jnl → Jnl) : (modJnl m f).deck = m.deck := rfl
@[simp] theorem modJnl_ca (m : Core) (f : Jnl → Jnl) : (modJnl m f).ca = m.ca := rfl
@[simp] theorem modJnl_atm (m : Core) (f : Jnl → Jnl) : (modJnl m f).atm = m.atm := rfl
@[simp] theorem modJnl_mem (m : Core) (f : Jnl → Jnl) : (modJnl m f).mem = m.mem := rfl
@[simp] theorem modJnl_fab (m : Core) (f : Jnl → Jnl) : (modJnl m f).fab = m.fab := rfl
@[simp] theorem modJnl_fab2 (m : Core) (f : Jnl → Jnl) : (modJnl m f).fab2 = m.fab2 := rfl
@[simp] theorem modJnl_eic (m : Core) (f : Jnl → Jnl) : (modJnl m f).eic = m.eic := rfl
@[simp] theorem modJnl_dmt (m : Core) (f : Jnl → Jnl) : (modJnl m f).dmt = m.dmt := rfl
@[simp] theorem modJnl_jnl (m : Core) (f : Jnl → Jnl) : (modJnl m f).jnl = f m.jnl := rfl
@[simp] theorem modJnl_pmc (m : Core) (f : Jnl → Jnl) : (modJnl m f).pmc = m.pmc := rfl
@[simp] theorem modJnl_whs (m : Core) (f : Jnl → Jnl) : (modJnl m f).whs = m.whs := rfl
@[simp] theorem modJnl_spi (m : Core) (f : Jnl → Jnl) : (modJnl m f).spi = m.spi := rfl
@[simp] theorem modJnl_boot (m : Core) (f : Jnl → Jnl) : (modJnl m f).boot = m.boot := rfl
@[simp] theorem modJnl_tap (m : Core) (f : Jnl → Jnl) : (modJnl m f).tap = m.tap := rfl
@[simp] theorem modJnl_pins (m : Core) (f : Jnl → Jnl) : (modJnl m f).pins = m.pins := rfl
@[simp] theorem modJnl_free (m : Core) (f : Jnl → Jnl) : (modJnl m f).free = m.free := rfl

/-! ### `modSpi` -/

@[simp] theorem modSpi_stmp (m : Core) (f : Spi → Spi) : (modSpi m f).stmp = m.stmp := rfl
@[simp] theorem modSpi_time (m : Core) (f : Spi → Spi) : (modSpi m f).time = m.time := rfl
@[simp] theorem modSpi_regs (m : Core) (f : Spi → Spi) : (modSpi m f).regs = m.regs := rfl
@[simp] theorem modSpi_hold (m : Core) (f : Spi → Spi) : (modSpi m f).hold = m.hold := rfl
@[simp] theorem modSpi_timeHold (m : Core) (f : Spi → Spi) : (modSpi m f).timeHold = m.timeHold := rfl
@[simp] theorem modSpi_lmb (m : Core) (f : Spi → Spi) : (modSpi m f).lmb = m.lmb := rfl
@[simp] theorem modSpi_cfgq (m : Core) (f : Spi → Spi) : (modSpi m f).cfgq = m.cfgq := rfl
@[simp] theorem modSpi_wins (m : Core) (f : Spi → Spi) : (modSpi m f).wins = m.wins := rfl
@[simp] theorem modSpi_cfg (m : Core) (f : Spi → Spi) : (modSpi m f).cfg = m.cfg := rfl
@[simp] theorem modSpi_ports (m : Core) (f : Spi → Spi) : (modSpi m f).ports = m.ports := rfl
@[simp] theorem modSpi_bcasts (m : Core) (f : Spi → Spi) : (modSpi m f).bcasts = m.bcasts := rfl
@[simp] theorem modSpi_inbox (m : Core) (f : Spi → Spi) : (modSpi m f).inbox = m.inbox := rfl
@[simp] theorem modSpi_trk (m : Core) (f : Spi → Spi) : (modSpi m f).trk = m.trk := rfl
@[simp] theorem modSpi_deck (m : Core) (f : Spi → Spi) : (modSpi m f).deck = m.deck := rfl
@[simp] theorem modSpi_ca (m : Core) (f : Spi → Spi) : (modSpi m f).ca = m.ca := rfl
@[simp] theorem modSpi_atm (m : Core) (f : Spi → Spi) : (modSpi m f).atm = m.atm := rfl
@[simp] theorem modSpi_mem (m : Core) (f : Spi → Spi) : (modSpi m f).mem = m.mem := rfl
@[simp] theorem modSpi_fab (m : Core) (f : Spi → Spi) : (modSpi m f).fab = m.fab := rfl
@[simp] theorem modSpi_fab2 (m : Core) (f : Spi → Spi) : (modSpi m f).fab2 = m.fab2 := rfl
@[simp] theorem modSpi_eic (m : Core) (f : Spi → Spi) : (modSpi m f).eic = m.eic := rfl
@[simp] theorem modSpi_dmt (m : Core) (f : Spi → Spi) : (modSpi m f).dmt = m.dmt := rfl
@[simp] theorem modSpi_jnl (m : Core) (f : Spi → Spi) : (modSpi m f).jnl = m.jnl := rfl
@[simp] theorem modSpi_pmc (m : Core) (f : Spi → Spi) : (modSpi m f).pmc = m.pmc := rfl
@[simp] theorem modSpi_whs (m : Core) (f : Spi → Spi) : (modSpi m f).whs = m.whs := rfl
@[simp] theorem modSpi_spi (m : Core) (f : Spi → Spi) : (modSpi m f).spi = f m.spi := rfl
@[simp] theorem modSpi_boot (m : Core) (f : Spi → Spi) : (modSpi m f).boot = m.boot := rfl
@[simp] theorem modSpi_tap (m : Core) (f : Spi → Spi) : (modSpi m f).tap = m.tap := rfl
@[simp] theorem modSpi_pins (m : Core) (f : Spi → Spi) : (modSpi m f).pins = m.pins := rfl
@[simp] theorem modSpi_free (m : Core) (f : Spi → Spi) : (modSpi m f).free = m.free := rfl

/-! ### `modBoot` -/

@[simp] theorem modBoot_stmp (m : Core) (f : Boot → Boot) : (modBoot m f).stmp = m.stmp := rfl
@[simp] theorem modBoot_time (m : Core) (f : Boot → Boot) : (modBoot m f).time = m.time := rfl
@[simp] theorem modBoot_regs (m : Core) (f : Boot → Boot) : (modBoot m f).regs = m.regs := rfl
@[simp] theorem modBoot_hold (m : Core) (f : Boot → Boot) : (modBoot m f).hold = m.hold := rfl
@[simp] theorem modBoot_timeHold (m : Core) (f : Boot → Boot) : (modBoot m f).timeHold = m.timeHold := rfl
@[simp] theorem modBoot_lmb (m : Core) (f : Boot → Boot) : (modBoot m f).lmb = m.lmb := rfl
@[simp] theorem modBoot_cfgq (m : Core) (f : Boot → Boot) : (modBoot m f).cfgq = m.cfgq := rfl
@[simp] theorem modBoot_wins (m : Core) (f : Boot → Boot) : (modBoot m f).wins = m.wins := rfl
@[simp] theorem modBoot_cfg (m : Core) (f : Boot → Boot) : (modBoot m f).cfg = m.cfg := rfl
@[simp] theorem modBoot_ports (m : Core) (f : Boot → Boot) : (modBoot m f).ports = m.ports := rfl
@[simp] theorem modBoot_bcasts (m : Core) (f : Boot → Boot) : (modBoot m f).bcasts = m.bcasts := rfl
@[simp] theorem modBoot_inbox (m : Core) (f : Boot → Boot) : (modBoot m f).inbox = m.inbox := rfl
@[simp] theorem modBoot_trk (m : Core) (f : Boot → Boot) : (modBoot m f).trk = m.trk := rfl
@[simp] theorem modBoot_deck (m : Core) (f : Boot → Boot) : (modBoot m f).deck = m.deck := rfl
@[simp] theorem modBoot_ca (m : Core) (f : Boot → Boot) : (modBoot m f).ca = m.ca := rfl
@[simp] theorem modBoot_atm (m : Core) (f : Boot → Boot) : (modBoot m f).atm = m.atm := rfl
@[simp] theorem modBoot_mem (m : Core) (f : Boot → Boot) : (modBoot m f).mem = m.mem := rfl
@[simp] theorem modBoot_fab (m : Core) (f : Boot → Boot) : (modBoot m f).fab = m.fab := rfl
@[simp] theorem modBoot_fab2 (m : Core) (f : Boot → Boot) : (modBoot m f).fab2 = m.fab2 := rfl
@[simp] theorem modBoot_eic (m : Core) (f : Boot → Boot) : (modBoot m f).eic = m.eic := rfl
@[simp] theorem modBoot_dmt (m : Core) (f : Boot → Boot) : (modBoot m f).dmt = m.dmt := rfl
@[simp] theorem modBoot_jnl (m : Core) (f : Boot → Boot) : (modBoot m f).jnl = m.jnl := rfl
@[simp] theorem modBoot_pmc (m : Core) (f : Boot → Boot) : (modBoot m f).pmc = m.pmc := rfl
@[simp] theorem modBoot_whs (m : Core) (f : Boot → Boot) : (modBoot m f).whs = m.whs := rfl
@[simp] theorem modBoot_spi (m : Core) (f : Boot → Boot) : (modBoot m f).spi = m.spi := rfl
@[simp] theorem modBoot_boot (m : Core) (f : Boot → Boot) : (modBoot m f).boot = f m.boot := rfl
@[simp] theorem modBoot_tap (m : Core) (f : Boot → Boot) : (modBoot m f).tap = m.tap := rfl
@[simp] theorem modBoot_pins (m : Core) (f : Boot → Boot) : (modBoot m f).pins = m.pins := rfl
@[simp] theorem modBoot_free (m : Core) (f : Boot → Boot) : (modBoot m f).free = m.free := rfl

/-! ### `modPmc` -/

@[simp] theorem modPmc_stmp (m : Core) (f : Pmc → Pmc) : (modPmc m f).stmp = m.stmp := rfl
@[simp] theorem modPmc_time (m : Core) (f : Pmc → Pmc) : (modPmc m f).time = m.time := rfl
@[simp] theorem modPmc_regs (m : Core) (f : Pmc → Pmc) : (modPmc m f).regs = m.regs := rfl
@[simp] theorem modPmc_hold (m : Core) (f : Pmc → Pmc) : (modPmc m f).hold = m.hold := rfl
@[simp] theorem modPmc_timeHold (m : Core) (f : Pmc → Pmc) : (modPmc m f).timeHold = m.timeHold := rfl
@[simp] theorem modPmc_lmb (m : Core) (f : Pmc → Pmc) : (modPmc m f).lmb = m.lmb := rfl
@[simp] theorem modPmc_cfgq (m : Core) (f : Pmc → Pmc) : (modPmc m f).cfgq = m.cfgq := rfl
@[simp] theorem modPmc_wins (m : Core) (f : Pmc → Pmc) : (modPmc m f).wins = m.wins := rfl
@[simp] theorem modPmc_cfg (m : Core) (f : Pmc → Pmc) : (modPmc m f).cfg = m.cfg := rfl
@[simp] theorem modPmc_ports (m : Core) (f : Pmc → Pmc) : (modPmc m f).ports = m.ports := rfl
@[simp] theorem modPmc_bcasts (m : Core) (f : Pmc → Pmc) : (modPmc m f).bcasts = m.bcasts := rfl
@[simp] theorem modPmc_inbox (m : Core) (f : Pmc → Pmc) : (modPmc m f).inbox = m.inbox := rfl
@[simp] theorem modPmc_trk (m : Core) (f : Pmc → Pmc) : (modPmc m f).trk = m.trk := rfl
@[simp] theorem modPmc_deck (m : Core) (f : Pmc → Pmc) : (modPmc m f).deck = m.deck := rfl
@[simp] theorem modPmc_ca (m : Core) (f : Pmc → Pmc) : (modPmc m f).ca = m.ca := rfl
@[simp] theorem modPmc_atm (m : Core) (f : Pmc → Pmc) : (modPmc m f).atm = m.atm := rfl
@[simp] theorem modPmc_mem (m : Core) (f : Pmc → Pmc) : (modPmc m f).mem = m.mem := rfl
@[simp] theorem modPmc_fab (m : Core) (f : Pmc → Pmc) : (modPmc m f).fab = m.fab := rfl
@[simp] theorem modPmc_fab2 (m : Core) (f : Pmc → Pmc) : (modPmc m f).fab2 = m.fab2 := rfl
@[simp] theorem modPmc_eic (m : Core) (f : Pmc → Pmc) : (modPmc m f).eic = m.eic := rfl
@[simp] theorem modPmc_dmt (m : Core) (f : Pmc → Pmc) : (modPmc m f).dmt = m.dmt := rfl
@[simp] theorem modPmc_jnl (m : Core) (f : Pmc → Pmc) : (modPmc m f).jnl = m.jnl := rfl
@[simp] theorem modPmc_pmc (m : Core) (f : Pmc → Pmc) : (modPmc m f).pmc = f m.pmc := rfl
@[simp] theorem modPmc_whs (m : Core) (f : Pmc → Pmc) : (modPmc m f).whs = m.whs := rfl
@[simp] theorem modPmc_spi (m : Core) (f : Pmc → Pmc) : (modPmc m f).spi = m.spi := rfl
@[simp] theorem modPmc_boot (m : Core) (f : Pmc → Pmc) : (modPmc m f).boot = m.boot := rfl
@[simp] theorem modPmc_tap (m : Core) (f : Pmc → Pmc) : (modPmc m f).tap = m.tap := rfl
@[simp] theorem modPmc_pins (m : Core) (f : Pmc → Pmc) : (modPmc m f).pins = m.pins := rfl
@[simp] theorem modPmc_free (m : Core) (f : Pmc → Pmc) : (modPmc m f).free = m.free := rfl

/-! ### `modCfg` -/

@[simp] theorem modCfg_stmp (m : Core) (f : Cfg → Cfg) : (modCfg m f).stmp = m.stmp := rfl
@[simp] theorem modCfg_time (m : Core) (f : Cfg → Cfg) : (modCfg m f).time = m.time := rfl
@[simp] theorem modCfg_regs (m : Core) (f : Cfg → Cfg) : (modCfg m f).regs = m.regs := rfl
@[simp] theorem modCfg_hold (m : Core) (f : Cfg → Cfg) : (modCfg m f).hold = m.hold := rfl
@[simp] theorem modCfg_timeHold (m : Core) (f : Cfg → Cfg) : (modCfg m f).timeHold = m.timeHold := rfl
@[simp] theorem modCfg_lmb (m : Core) (f : Cfg → Cfg) : (modCfg m f).lmb = m.lmb := rfl
@[simp] theorem modCfg_cfgq (m : Core) (f : Cfg → Cfg) : (modCfg m f).cfgq = m.cfgq := rfl
@[simp] theorem modCfg_wins (m : Core) (f : Cfg → Cfg) : (modCfg m f).wins = m.wins := rfl
@[simp] theorem modCfg_cfg (m : Core) (f : Cfg → Cfg) : (modCfg m f).cfg = f m.cfg := rfl
@[simp] theorem modCfg_ports (m : Core) (f : Cfg → Cfg) : (modCfg m f).ports = m.ports := rfl
@[simp] theorem modCfg_bcasts (m : Core) (f : Cfg → Cfg) : (modCfg m f).bcasts = m.bcasts := rfl
@[simp] theorem modCfg_inbox (m : Core) (f : Cfg → Cfg) : (modCfg m f).inbox = m.inbox := rfl
@[simp] theorem modCfg_trk (m : Core) (f : Cfg → Cfg) : (modCfg m f).trk = m.trk := rfl
@[simp] theorem modCfg_deck (m : Core) (f : Cfg → Cfg) : (modCfg m f).deck = m.deck := rfl
@[simp] theorem modCfg_ca (m : Core) (f : Cfg → Cfg) : (modCfg m f).ca = m.ca := rfl
@[simp] theorem modCfg_atm (m : Core) (f : Cfg → Cfg) : (modCfg m f).atm = m.atm := rfl
@[simp] theorem modCfg_mem (m : Core) (f : Cfg → Cfg) : (modCfg m f).mem = m.mem := rfl
@[simp] theorem modCfg_fab (m : Core) (f : Cfg → Cfg) : (modCfg m f).fab = m.fab := rfl
@[simp] theorem modCfg_fab2 (m : Core) (f : Cfg → Cfg) : (modCfg m f).fab2 = m.fab2 := rfl
@[simp] theorem modCfg_eic (m : Core) (f : Cfg → Cfg) : (modCfg m f).eic = m.eic := rfl
@[simp] theorem modCfg_dmt (m : Core) (f : Cfg → Cfg) : (modCfg m f).dmt = m.dmt := rfl
@[simp] theorem modCfg_jnl (m : Core) (f : Cfg → Cfg) : (modCfg m f).jnl = m.jnl := rfl
@[simp] theorem modCfg_pmc (m : Core) (f : Cfg → Cfg) : (modCfg m f).pmc = m.pmc := rfl
@[simp] theorem modCfg_whs (m : Core) (f : Cfg → Cfg) : (modCfg m f).whs = m.whs := rfl
@[simp] theorem modCfg_spi (m : Core) (f : Cfg → Cfg) : (modCfg m f).spi = m.spi := rfl
@[simp] theorem modCfg_boot (m : Core) (f : Cfg → Cfg) : (modCfg m f).boot = m.boot := rfl
@[simp] theorem modCfg_tap (m : Core) (f : Cfg → Cfg) : (modCfg m f).tap = m.tap := rfl
@[simp] theorem modCfg_pins (m : Core) (f : Cfg → Cfg) : (modCfg m f).pins = m.pins := rfl
@[simp] theorem modCfg_free (m : Core) (f : Cfg → Cfg) : (modCfg m f).free = m.free := rfl

/-! ### `modWhs` -/

@[simp] theorem modWhs_stmp (m : Core) (f : Whs → Whs) : (modWhs m f).stmp = m.stmp := rfl
@[simp] theorem modWhs_time (m : Core) (f : Whs → Whs) : (modWhs m f).time = m.time := rfl
@[simp] theorem modWhs_regs (m : Core) (f : Whs → Whs) : (modWhs m f).regs = m.regs := rfl
@[simp] theorem modWhs_hold (m : Core) (f : Whs → Whs) : (modWhs m f).hold = m.hold := rfl
@[simp] theorem modWhs_timeHold (m : Core) (f : Whs → Whs) : (modWhs m f).timeHold = m.timeHold := rfl
@[simp] theorem modWhs_lmb (m : Core) (f : Whs → Whs) : (modWhs m f).lmb = m.lmb := rfl
@[simp] theorem modWhs_cfgq (m : Core) (f : Whs → Whs) : (modWhs m f).cfgq = m.cfgq := rfl
@[simp] theorem modWhs_wins (m : Core) (f : Whs → Whs) : (modWhs m f).wins = m.wins := rfl
@[simp] theorem modWhs_cfg (m : Core) (f : Whs → Whs) : (modWhs m f).cfg = m.cfg := rfl
@[simp] theorem modWhs_ports (m : Core) (f : Whs → Whs) : (modWhs m f).ports = m.ports := rfl
@[simp] theorem modWhs_bcasts (m : Core) (f : Whs → Whs) : (modWhs m f).bcasts = m.bcasts := rfl
@[simp] theorem modWhs_inbox (m : Core) (f : Whs → Whs) : (modWhs m f).inbox = m.inbox := rfl
@[simp] theorem modWhs_trk (m : Core) (f : Whs → Whs) : (modWhs m f).trk = m.trk := rfl
@[simp] theorem modWhs_deck (m : Core) (f : Whs → Whs) : (modWhs m f).deck = m.deck := rfl
@[simp] theorem modWhs_ca (m : Core) (f : Whs → Whs) : (modWhs m f).ca = m.ca := rfl
@[simp] theorem modWhs_atm (m : Core) (f : Whs → Whs) : (modWhs m f).atm = m.atm := rfl
@[simp] theorem modWhs_mem (m : Core) (f : Whs → Whs) : (modWhs m f).mem = m.mem := rfl
@[simp] theorem modWhs_fab (m : Core) (f : Whs → Whs) : (modWhs m f).fab = m.fab := rfl
@[simp] theorem modWhs_fab2 (m : Core) (f : Whs → Whs) : (modWhs m f).fab2 = m.fab2 := rfl
@[simp] theorem modWhs_eic (m : Core) (f : Whs → Whs) : (modWhs m f).eic = m.eic := rfl
@[simp] theorem modWhs_dmt (m : Core) (f : Whs → Whs) : (modWhs m f).dmt = m.dmt := rfl
@[simp] theorem modWhs_jnl (m : Core) (f : Whs → Whs) : (modWhs m f).jnl = m.jnl := rfl
@[simp] theorem modWhs_pmc (m : Core) (f : Whs → Whs) : (modWhs m f).pmc = m.pmc := rfl
@[simp] theorem modWhs_whs (m : Core) (f : Whs → Whs) : (modWhs m f).whs = f m.whs := rfl
@[simp] theorem modWhs_spi (m : Core) (f : Whs → Whs) : (modWhs m f).spi = m.spi := rfl
@[simp] theorem modWhs_boot (m : Core) (f : Whs → Whs) : (modWhs m f).boot = m.boot := rfl
@[simp] theorem modWhs_tap (m : Core) (f : Whs → Whs) : (modWhs m f).tap = m.tap := rfl
@[simp] theorem modWhs_pins (m : Core) (f : Whs → Whs) : (modWhs m f).pins = m.pins := rfl
@[simp] theorem modWhs_free (m : Core) (f : Whs → Whs) : (modWhs m f).free = m.free := rfl

/-! ### `rset` -/

@[simp] theorem rset_stmp (m : Core) (a : Nat) (v : Word) : (rset m a v).stmp = m.stmp := rfl
@[simp] theorem rset_time (m : Core) (a : Nat) (v : Word) : (rset m a v).time = m.time := rfl
@[simp] theorem rset_regs (m : Core) (a : Nat) (v : Word) : (rset m a v).regs = tput (regReset a) m.regs a v := rfl
@[simp] theorem rset_hold (m : Core) (a : Nat) (v : Word) : (rset m a v).hold = m.hold := rfl
@[simp] theorem rset_timeHold (m : Core) (a : Nat) (v : Word) : (rset m a v).timeHold = m.timeHold := rfl
@[simp] theorem rset_lmb (m : Core) (a : Nat) (v : Word) : (rset m a v).lmb = m.lmb := rfl
@[simp] theorem rset_cfgq (m : Core) (a : Nat) (v : Word) : (rset m a v).cfgq = m.cfgq := rfl
@[simp] theorem rset_wins (m : Core) (a : Nat) (v : Word) : (rset m a v).wins = m.wins := rfl
@[simp] theorem rset_cfg (m : Core) (a : Nat) (v : Word) : (rset m a v).cfg = m.cfg := rfl
@[simp] theorem rset_ports (m : Core) (a : Nat) (v : Word) : (rset m a v).ports = m.ports := rfl
@[simp] theorem rset_bcasts (m : Core) (a : Nat) (v : Word) : (rset m a v).bcasts = m.bcasts := rfl
@[simp] theorem rset_inbox (m : Core) (a : Nat) (v : Word) : (rset m a v).inbox = m.inbox := rfl
@[simp] theorem rset_trk (m : Core) (a : Nat) (v : Word) : (rset m a v).trk = m.trk := rfl
@[simp] theorem rset_deck (m : Core) (a : Nat) (v : Word) : (rset m a v).deck = m.deck := rfl
@[simp] theorem rset_ca (m : Core) (a : Nat) (v : Word) : (rset m a v).ca = m.ca := rfl
@[simp] theorem rset_atm (m : Core) (a : Nat) (v : Word) : (rset m a v).atm = m.atm := rfl
@[simp] theorem rset_mem (m : Core) (a : Nat) (v : Word) : (rset m a v).mem = m.mem := rfl
@[simp] theorem rset_fab (m : Core) (a : Nat) (v : Word) : (rset m a v).fab = m.fab := rfl
@[simp] theorem rset_fab2 (m : Core) (a : Nat) (v : Word) : (rset m a v).fab2 = m.fab2 := rfl
@[simp] theorem rset_eic (m : Core) (a : Nat) (v : Word) : (rset m a v).eic = m.eic := rfl
@[simp] theorem rset_dmt (m : Core) (a : Nat) (v : Word) : (rset m a v).dmt = m.dmt := rfl
@[simp] theorem rset_jnl (m : Core) (a : Nat) (v : Word) : (rset m a v).jnl = m.jnl := rfl
@[simp] theorem rset_pmc (m : Core) (a : Nat) (v : Word) : (rset m a v).pmc = m.pmc := rfl
@[simp] theorem rset_whs (m : Core) (a : Nat) (v : Word) : (rset m a v).whs = m.whs := rfl
@[simp] theorem rset_spi (m : Core) (a : Nat) (v : Word) : (rset m a v).spi = m.spi := rfl
@[simp] theorem rset_boot (m : Core) (a : Nat) (v : Word) : (rset m a v).boot = m.boot := rfl
@[simp] theorem rset_tap (m : Core) (a : Nat) (v : Word) : (rset m a v).tap = m.tap := rfl
@[simp] theorem rset_pins (m : Core) (a : Nat) (v : Word) : (rset m a v).pins = m.pins := rfl
@[simp] theorem rset_free (m : Core) (a : Nat) (v : Word) : (rset m a v).free = m.free := rfl

/-! ### `rsetf` -/

@[simp] theorem rsetf_stmp (m : Core) (a hi lo v : Nat) : (rsetf m a hi lo v).stmp = m.stmp := rfl
@[simp] theorem rsetf_time (m : Core) (a hi lo v : Nat) : (rsetf m a hi lo v).time = m.time := rfl
@[simp] theorem rsetf_hold (m : Core) (a hi lo v : Nat) : (rsetf m a hi lo v).hold = m.hold := rfl
@[simp] theorem rsetf_timeHold (m : Core) (a hi lo v : Nat) : (rsetf m a hi lo v).timeHold = m.timeHold := rfl
@[simp] theorem rsetf_lmb (m : Core) (a hi lo v : Nat) : (rsetf m a hi lo v).lmb = m.lmb := rfl
@[simp] theorem rsetf_cfgq (m : Core) (a hi lo v : Nat) : (rsetf m a hi lo v).cfgq = m.cfgq := rfl
@[simp] theorem rsetf_wins (m : Core) (a hi lo v : Nat) : (rsetf m a hi lo v).wins = m.wins := rfl
@[simp] theorem rsetf_cfg (m : Core) (a hi lo v : Nat) : (rsetf m a hi lo v).cfg = m.cfg := rfl
@[simp] theorem rsetf_ports (m : Core) (a hi lo v : Nat) : (rsetf m a hi lo v).ports = m.ports := rfl
@[simp] theorem rsetf_bcasts (m : Core) (a hi lo v : Nat) : (rsetf m a hi lo v).bcasts = m.bcasts := rfl
@[simp] theorem rsetf_inbox (m : Core) (a hi lo v : Nat) : (rsetf m a hi lo v).inbox = m.inbox := rfl
@[simp] theorem rsetf_trk (m : Core) (a hi lo v : Nat) : (rsetf m a hi lo v).trk = m.trk := rfl
@[simp] theorem rsetf_deck (m : Core) (a hi lo v : Nat) : (rsetf m a hi lo v).deck = m.deck := rfl
@[simp] theorem rsetf_ca (m : Core) (a hi lo v : Nat) : (rsetf m a hi lo v).ca = m.ca := rfl
@[simp] theorem rsetf_atm (m : Core) (a hi lo v : Nat) : (rsetf m a hi lo v).atm = m.atm := rfl
@[simp] theorem rsetf_mem (m : Core) (a hi lo v : Nat) : (rsetf m a hi lo v).mem = m.mem := rfl
@[simp] theorem rsetf_fab (m : Core) (a hi lo v : Nat) : (rsetf m a hi lo v).fab = m.fab := rfl
@[simp] theorem rsetf_fab2 (m : Core) (a hi lo v : Nat) : (rsetf m a hi lo v).fab2 = m.fab2 := rfl
@[simp] theorem rsetf_eic (m : Core) (a hi lo v : Nat) : (rsetf m a hi lo v).eic = m.eic := rfl
@[simp] theorem rsetf_dmt (m : Core) (a hi lo v : Nat) : (rsetf m a hi lo v).dmt = m.dmt := rfl
@[simp] theorem rsetf_jnl (m : Core) (a hi lo v : Nat) : (rsetf m a hi lo v).jnl = m.jnl := rfl
@[simp] theorem rsetf_pmc (m : Core) (a hi lo v : Nat) : (rsetf m a hi lo v).pmc = m.pmc := rfl
@[simp] theorem rsetf_whs (m : Core) (a hi lo v : Nat) : (rsetf m a hi lo v).whs = m.whs := rfl
@[simp] theorem rsetf_spi (m : Core) (a hi lo v : Nat) : (rsetf m a hi lo v).spi = m.spi := rfl
@[simp] theorem rsetf_boot (m : Core) (a hi lo v : Nat) : (rsetf m a hi lo v).boot = m.boot := rfl
@[simp] theorem rsetf_tap (m : Core) (a hi lo v : Nat) : (rsetf m a hi lo v).tap = m.tap := rfl
@[simp] theorem rsetf_pins (m : Core) (a hi lo v : Nat) : (rsetf m a hi lo v).pins = m.pins := rfl
@[simp] theorem rsetf_free (m : Core) (a hi lo v : Nat) : (rsetf m a hi lo v).free = m.free := rfl

/-! ### `rinc` -/

@[simp] theorem rinc_stmp (m : Core) (a n : Nat) : (rinc m a n).stmp = m.stmp := rfl
@[simp] theorem rinc_time (m : Core) (a n : Nat) : (rinc m a n).time = m.time := rfl
@[simp] theorem rinc_hold (m : Core) (a n : Nat) : (rinc m a n).hold = m.hold := rfl
@[simp] theorem rinc_timeHold (m : Core) (a n : Nat) : (rinc m a n).timeHold = m.timeHold := rfl
@[simp] theorem rinc_lmb (m : Core) (a n : Nat) : (rinc m a n).lmb = m.lmb := rfl
@[simp] theorem rinc_cfgq (m : Core) (a n : Nat) : (rinc m a n).cfgq = m.cfgq := rfl
@[simp] theorem rinc_wins (m : Core) (a n : Nat) : (rinc m a n).wins = m.wins := rfl
@[simp] theorem rinc_cfg (m : Core) (a n : Nat) : (rinc m a n).cfg = m.cfg := rfl
@[simp] theorem rinc_ports (m : Core) (a n : Nat) : (rinc m a n).ports = m.ports := rfl
@[simp] theorem rinc_bcasts (m : Core) (a n : Nat) : (rinc m a n).bcasts = m.bcasts := rfl
@[simp] theorem rinc_inbox (m : Core) (a n : Nat) : (rinc m a n).inbox = m.inbox := rfl
@[simp] theorem rinc_trk (m : Core) (a n : Nat) : (rinc m a n).trk = m.trk := rfl
@[simp] theorem rinc_deck (m : Core) (a n : Nat) : (rinc m a n).deck = m.deck := rfl
@[simp] theorem rinc_ca (m : Core) (a n : Nat) : (rinc m a n).ca = m.ca := rfl
@[simp] theorem rinc_atm (m : Core) (a n : Nat) : (rinc m a n).atm = m.atm := rfl
@[simp] theorem rinc_mem (m : Core) (a n : Nat) : (rinc m a n).mem = m.mem := rfl
@[simp] theorem rinc_fab (m : Core) (a n : Nat) : (rinc m a n).fab = m.fab := rfl
@[simp] theorem rinc_fab2 (m : Core) (a n : Nat) : (rinc m a n).fab2 = m.fab2 := rfl
@[simp] theorem rinc_eic (m : Core) (a n : Nat) : (rinc m a n).eic = m.eic := rfl
@[simp] theorem rinc_dmt (m : Core) (a n : Nat) : (rinc m a n).dmt = m.dmt := rfl
@[simp] theorem rinc_jnl (m : Core) (a n : Nat) : (rinc m a n).jnl = m.jnl := rfl
@[simp] theorem rinc_pmc (m : Core) (a n : Nat) : (rinc m a n).pmc = m.pmc := rfl
@[simp] theorem rinc_whs (m : Core) (a n : Nat) : (rinc m a n).whs = m.whs := rfl
@[simp] theorem rinc_spi (m : Core) (a n : Nat) : (rinc m a n).spi = m.spi := rfl
@[simp] theorem rinc_boot (m : Core) (a n : Nat) : (rinc m a n).boot = m.boot := rfl
@[simp] theorem rinc_tap (m : Core) (a n : Nat) : (rinc m a n).tap = m.tap := rfl
@[simp] theorem rinc_pins (m : Core) (a n : Nat) : (rinc m a n).pins = m.pins := rfl
@[simp] theorem rinc_free (m : Core) (a n : Nat) : (rinc m a n).free = m.free := rfl

/-! ### `setPort` -/

@[simp] theorem setPort_stmp (m : Core) (p : Nat) (x : Port) : (setPort m p x).stmp = m.stmp := rfl
@[simp] theorem setPort_time (m : Core) (p : Nat) (x : Port) : (setPort m p x).time = m.time := rfl
@[simp] theorem setPort_regs (m : Core) (p : Nat) (x : Port) : (setPort m p x).regs = m.regs := rfl
@[simp] theorem setPort_hold (m : Core) (p : Nat) (x : Port) : (setPort m p x).hold = m.hold := rfl
@[simp] theorem setPort_timeHold (m : Core) (p : Nat) (x : Port) : (setPort m p x).timeHold = m.timeHold := rfl
@[simp] theorem setPort_lmb (m : Core) (p : Nat) (x : Port) : (setPort m p x).lmb = m.lmb := rfl
@[simp] theorem setPort_cfgq (m : Core) (p : Nat) (x : Port) : (setPort m p x).cfgq = m.cfgq := rfl
@[simp] theorem setPort_wins (m : Core) (p : Nat) (x : Port) : (setPort m p x).wins = m.wins := rfl
@[simp] theorem setPort_cfg (m : Core) (p : Nat) (x : Port) : (setPort m p x).cfg = m.cfg := rfl
@[simp] theorem setPort_ports (m : Core) (p : Nat) (x : Port) : (setPort m p x).ports = tput {} m.ports p x := rfl
@[simp] theorem setPort_bcasts (m : Core) (p : Nat) (x : Port) : (setPort m p x).bcasts = m.bcasts := rfl
@[simp] theorem setPort_inbox (m : Core) (p : Nat) (x : Port) : (setPort m p x).inbox = m.inbox := rfl
@[simp] theorem setPort_trk (m : Core) (p : Nat) (x : Port) : (setPort m p x).trk = m.trk := rfl
@[simp] theorem setPort_deck (m : Core) (p : Nat) (x : Port) : (setPort m p x).deck = m.deck := rfl
@[simp] theorem setPort_ca (m : Core) (p : Nat) (x : Port) : (setPort m p x).ca = m.ca := rfl
@[simp] theorem setPort_atm (m : Core) (p : Nat) (x : Port) : (setPort m p x).atm = m.atm := rfl
@[simp] theorem setPort_mem (m : Core) (p : Nat) (x : Port) : (setPort m p x).mem = m.mem := rfl
@[simp] theorem setPort_fab (m : Core) (p : Nat) (x : Port) : (setPort m p x).fab = m.fab := rfl
@[simp] theorem setPort_fab2 (m : Core) (p : Nat) (x : Port) : (setPort m p x).fab2 = m.fab2 := rfl
@[simp] theorem setPort_eic (m : Core) (p : Nat) (x : Port) : (setPort m p x).eic = m.eic := rfl
@[simp] theorem setPort_dmt (m : Core) (p : Nat) (x : Port) : (setPort m p x).dmt = m.dmt := rfl
@[simp] theorem setPort_jnl (m : Core) (p : Nat) (x : Port) : (setPort m p x).jnl = m.jnl := rfl
@[simp] theorem setPort_pmc (m : Core) (p : Nat) (x : Port) : (setPort m p x).pmc = m.pmc := rfl
@[simp] theorem setPort_whs (m : Core) (p : Nat) (x : Port) : (setPort m p x).whs = m.whs := rfl
@[simp] theorem setPort_spi (m : Core) (p : Nat) (x : Port) : (setPort m p x).spi = m.spi := rfl
@[simp] theorem setPort_boot (m : Core) (p : Nat) (x : Port) : (setPort m p x).boot = m.boot := rfl
@[simp] theorem setPort_tap (m : Core) (p : Nat) (x : Port) : (setPort m p x).tap = m.tap := rfl
@[simp] theorem setPort_pins (m : Core) (p : Nat) (x : Port) : (setPort m p x).pins = m.pins := rfl
@[simp] theorem setPort_free (m : Core) (p : Nat) (x : Port) : (setPort m p x).free = m.free := rfl

/-! ### `setHte` -/

@[simp] theorem setHte_stmp (m : Core) (h : Nat) (x : Hte) : (setHte m h x).stmp = m.stmp := rfl
@[simp] theorem setHte_time (m : Core) (h : Nat) (x : Hte) : (setHte m h x).time = m.time := rfl
@[simp] theorem setHte_regs (m : Core) (h : Nat) (x : Hte) : (setHte m h x).regs = m.regs := rfl
@[simp] theorem setHte_hold (m : Core) (h : Nat) (x : Hte) : (setHte m h x).hold = m.hold := rfl
@[simp] theorem setHte_timeHold (m : Core) (h : Nat) (x : Hte) : (setHte m h x).timeHold = m.timeHold := rfl
@[simp] theorem setHte_lmb (m : Core) (h : Nat) (x : Hte) : (setHte m h x).lmb = m.lmb := rfl
@[simp] theorem setHte_cfgq (m : Core) (h : Nat) (x : Hte) : (setHte m h x).cfgq = m.cfgq := rfl
@[simp] theorem setHte_wins (m : Core) (h : Nat) (x : Hte) : (setHte m h x).wins = m.wins := rfl
@[simp] theorem setHte_cfg (m : Core) (h : Nat) (x : Hte) : (setHte m h x).cfg = m.cfg := rfl
@[simp] theorem setHte_ports (m : Core) (h : Nat) (x : Hte) : (setHte m h x).ports = m.ports := rfl
@[simp] theorem setHte_bcasts (m : Core) (h : Nat) (x : Hte) : (setHte m h x).bcasts = m.bcasts := rfl
@[simp] theorem setHte_inbox (m : Core) (h : Nat) (x : Hte) : (setHte m h x).inbox = m.inbox := rfl
@[simp] theorem setHte_trk (m : Core) (h : Nat) (x : Hte) : (setHte m h x).trk = { m.trk with htes := tset m.trk.htes h x } := rfl
@[simp] theorem setHte_deck (m : Core) (h : Nat) (x : Hte) : (setHte m h x).deck = m.deck := rfl
@[simp] theorem setHte_ca (m : Core) (h : Nat) (x : Hte) : (setHte m h x).ca = m.ca := rfl
@[simp] theorem setHte_atm (m : Core) (h : Nat) (x : Hte) : (setHte m h x).atm = m.atm := rfl
@[simp] theorem setHte_mem (m : Core) (h : Nat) (x : Hte) : (setHte m h x).mem = m.mem := rfl
@[simp] theorem setHte_fab (m : Core) (h : Nat) (x : Hte) : (setHte m h x).fab = m.fab := rfl
@[simp] theorem setHte_fab2 (m : Core) (h : Nat) (x : Hte) : (setHte m h x).fab2 = m.fab2 := rfl
@[simp] theorem setHte_eic (m : Core) (h : Nat) (x : Hte) : (setHte m h x).eic = m.eic := rfl
@[simp] theorem setHte_dmt (m : Core) (h : Nat) (x : Hte) : (setHte m h x).dmt = m.dmt := rfl
@[simp] theorem setHte_jnl (m : Core) (h : Nat) (x : Hte) : (setHte m h x).jnl = m.jnl := rfl
@[simp] theorem setHte_pmc (m : Core) (h : Nat) (x : Hte) : (setHte m h x).pmc = m.pmc := rfl
@[simp] theorem setHte_whs (m : Core) (h : Nat) (x : Hte) : (setHte m h x).whs = m.whs := rfl
@[simp] theorem setHte_spi (m : Core) (h : Nat) (x : Hte) : (setHte m h x).spi = m.spi := rfl
@[simp] theorem setHte_boot (m : Core) (h : Nat) (x : Hte) : (setHte m h x).boot = m.boot := rfl
@[simp] theorem setHte_tap (m : Core) (h : Nat) (x : Hte) : (setHte m h x).tap = m.tap := rfl
@[simp] theorem setHte_pins (m : Core) (h : Nat) (x : Hte) : (setHte m h x).pins = m.pins := rfl
@[simp] theorem setHte_free (m : Core) (h : Nat) (x : Hte) : (setHte m h x).free = m.free := rfl

/-! ### `setSrc` -/

@[simp] theorem setSrc_stmp (m : Core) (n : Nat) (x : SrcSt) : (setSrc m n x).stmp = m.stmp := rfl
@[simp] theorem setSrc_time (m : Core) (n : Nat) (x : SrcSt) : (setSrc m n x).time = m.time := rfl
@[simp] theorem setSrc_regs (m : Core) (n : Nat) (x : SrcSt) : (setSrc m n x).regs = m.regs := rfl
@[simp] theorem setSrc_hold (m : Core) (n : Nat) (x : SrcSt) : (setSrc m n x).hold = m.hold := rfl
@[simp] theorem setSrc_timeHold (m : Core) (n : Nat) (x : SrcSt) : (setSrc m n x).timeHold = m.timeHold := rfl
@[simp] theorem setSrc_lmb (m : Core) (n : Nat) (x : SrcSt) : (setSrc m n x).lmb = m.lmb := rfl
@[simp] theorem setSrc_cfgq (m : Core) (n : Nat) (x : SrcSt) : (setSrc m n x).cfgq = m.cfgq := rfl
@[simp] theorem setSrc_wins (m : Core) (n : Nat) (x : SrcSt) : (setSrc m n x).wins = m.wins := rfl
@[simp] theorem setSrc_cfg (m : Core) (n : Nat) (x : SrcSt) : (setSrc m n x).cfg = m.cfg := rfl
@[simp] theorem setSrc_ports (m : Core) (n : Nat) (x : SrcSt) : (setSrc m n x).ports = m.ports := rfl
@[simp] theorem setSrc_bcasts (m : Core) (n : Nat) (x : SrcSt) : (setSrc m n x).bcasts = m.bcasts := rfl
@[simp] theorem setSrc_inbox (m : Core) (n : Nat) (x : SrcSt) : (setSrc m n x).inbox = m.inbox := rfl
@[simp] theorem setSrc_trk (m : Core) (n : Nat) (x : SrcSt) : (setSrc m n x).trk = m.trk := rfl
@[simp] theorem setSrc_deck (m : Core) (n : Nat) (x : SrcSt) : (setSrc m n x).deck = m.deck := rfl
@[simp] theorem setSrc_ca (m : Core) (n : Nat) (x : SrcSt) : (setSrc m n x).ca = m.ca := rfl
@[simp] theorem setSrc_atm (m : Core) (n : Nat) (x : SrcSt) : (setSrc m n x).atm = m.atm := rfl
@[simp] theorem setSrc_mem (m : Core) (n : Nat) (x : SrcSt) : (setSrc m n x).mem = m.mem := rfl
@[simp] theorem setSrc_fab (m : Core) (n : Nat) (x : SrcSt) : (setSrc m n x).fab = m.fab := rfl
@[simp] theorem setSrc_fab2 (m : Core) (n : Nat) (x : SrcSt) : (setSrc m n x).fab2 = m.fab2 := rfl
@[simp] theorem setSrc_eic (m : Core) (n : Nat) (x : SrcSt) : (setSrc m n x).eic = { m.eic with st := tput .inactive m.eic.st n x } := rfl
@[simp] theorem setSrc_dmt (m : Core) (n : Nat) (x : SrcSt) : (setSrc m n x).dmt = m.dmt := rfl
@[simp] theorem setSrc_jnl (m : Core) (n : Nat) (x : SrcSt) : (setSrc m n x).jnl = m.jnl := rfl
@[simp] theorem setSrc_pmc (m : Core) (n : Nat) (x : SrcSt) : (setSrc m n x).pmc = m.pmc := rfl
@[simp] theorem setSrc_whs (m : Core) (n : Nat) (x : SrcSt) : (setSrc m n x).whs = m.whs := rfl
@[simp] theorem setSrc_spi (m : Core) (n : Nat) (x : SrcSt) : (setSrc m n x).spi = m.spi := rfl
@[simp] theorem setSrc_boot (m : Core) (n : Nat) (x : SrcSt) : (setSrc m n x).boot = m.boot := rfl
@[simp] theorem setSrc_tap (m : Core) (n : Nat) (x : SrcSt) : (setSrc m n x).tap = m.tap := rfl
@[simp] theorem setSrc_pins (m : Core) (n : Nat) (x : SrcSt) : (setSrc m n x).pins = m.pins := rfl
@[simp] theorem setSrc_free (m : Core) (n : Nat) (x : SrcSt) : (setSrc m n x).free = m.free := rfl

/-! ### `setWin` -/

@[simp] theorem setWin_stmp (m : Core) (i : WinId) (x : Window) : (setWin m i x).stmp = m.stmp := rfl
@[simp] theorem setWin_time (m : Core) (i : WinId) (x : Window) : (setWin m i x).time = m.time := rfl
@[simp] theorem setWin_regs (m : Core) (i : WinId) (x : Window) : (setWin m i x).regs = m.regs := rfl
@[simp] theorem setWin_hold (m : Core) (i : WinId) (x : Window) : (setWin m i x).hold = m.hold := rfl
@[simp] theorem setWin_timeHold (m : Core) (i : WinId) (x : Window) : (setWin m i x).timeHold = m.timeHold := rfl
@[simp] theorem setWin_lmb (m : Core) (i : WinId) (x : Window) : (setWin m i x).lmb = m.lmb := rfl
@[simp] theorem setWin_cfgq (m : Core) (i : WinId) (x : Window) : (setWin m i x).cfgq = m.cfgq := rfl
@[simp] theorem setWin_wins (m : Core) (i : WinId) (x : Window) : (setWin m i x).wins = tput {} m.wins (winNum i) x := rfl
@[simp] theorem setWin_cfg (m : Core) (i : WinId) (x : Window) : (setWin m i x).cfg = m.cfg := rfl
@[simp] theorem setWin_ports (m : Core) (i : WinId) (x : Window) : (setWin m i x).ports = m.ports := rfl
@[simp] theorem setWin_bcasts (m : Core) (i : WinId) (x : Window) : (setWin m i x).bcasts = m.bcasts := rfl
@[simp] theorem setWin_inbox (m : Core) (i : WinId) (x : Window) : (setWin m i x).inbox = m.inbox := rfl
@[simp] theorem setWin_trk (m : Core) (i : WinId) (x : Window) : (setWin m i x).trk = m.trk := rfl
@[simp] theorem setWin_deck (m : Core) (i : WinId) (x : Window) : (setWin m i x).deck = m.deck := rfl
@[simp] theorem setWin_ca (m : Core) (i : WinId) (x : Window) : (setWin m i x).ca = m.ca := rfl
@[simp] theorem setWin_atm (m : Core) (i : WinId) (x : Window) : (setWin m i x).atm = m.atm := rfl
@[simp] theorem setWin_mem (m : Core) (i : WinId) (x : Window) : (setWin m i x).mem = m.mem := rfl
@[simp] theorem setWin_fab (m : Core) (i : WinId) (x : Window) : (setWin m i x).fab = m.fab := rfl
@[simp] theorem setWin_fab2 (m : Core) (i : WinId) (x : Window) : (setWin m i x).fab2 = m.fab2 := rfl
@[simp] theorem setWin_eic (m : Core) (i : WinId) (x : Window) : (setWin m i x).eic = m.eic := rfl
@[simp] theorem setWin_dmt (m : Core) (i : WinId) (x : Window) : (setWin m i x).dmt = m.dmt := rfl
@[simp] theorem setWin_jnl (m : Core) (i : WinId) (x : Window) : (setWin m i x).jnl = m.jnl := rfl
@[simp] theorem setWin_pmc (m : Core) (i : WinId) (x : Window) : (setWin m i x).pmc = m.pmc := rfl
@[simp] theorem setWin_whs (m : Core) (i : WinId) (x : Window) : (setWin m i x).whs = m.whs := rfl
@[simp] theorem setWin_spi (m : Core) (i : WinId) (x : Window) : (setWin m i x).spi = m.spi := rfl
@[simp] theorem setWin_boot (m : Core) (i : WinId) (x : Window) : (setWin m i x).boot = m.boot := rfl
@[simp] theorem setWin_tap (m : Core) (i : WinId) (x : Window) : (setWin m i x).tap = m.tap := rfl
@[simp] theorem setWin_pins (m : Core) (i : WinId) (x : Window) : (setWin m i x).pins = m.pins := rfl
@[simp] theorem setWin_free (m : Core) (i : WinId) (x : Window) : (setWin m i x).free = m.free := rfl

/-! ### `deliver` -/

@[simp] theorem deliver_stmp (m : Core) (p v : Nat) (x : Msg) : (deliver m p v x).stmp = m.stmp := rfl
@[simp] theorem deliver_time (m : Core) (p v : Nat) (x : Msg) : (deliver m p v x).time = m.time := rfl
@[simp] theorem deliver_regs (m : Core) (p v : Nat) (x : Msg) : (deliver m p v x).regs = m.regs := rfl
@[simp] theorem deliver_hold (m : Core) (p v : Nat) (x : Msg) : (deliver m p v x).hold = m.hold := rfl
@[simp] theorem deliver_timeHold (m : Core) (p v : Nat) (x : Msg) : (deliver m p v x).timeHold = m.timeHold := rfl
@[simp] theorem deliver_lmb (m : Core) (p v : Nat) (x : Msg) : (deliver m p v x).lmb = m.lmb := rfl
@[simp] theorem deliver_cfgq (m : Core) (p v : Nat) (x : Msg) : (deliver m p v x).cfgq = m.cfgq := rfl
@[simp] theorem deliver_wins (m : Core) (p v : Nat) (x : Msg) : (deliver m p v x).wins = m.wins := rfl
@[simp] theorem deliver_cfg (m : Core) (p v : Nat) (x : Msg) : (deliver m p v x).cfg = m.cfg := rfl
@[simp] theorem deliver_ports (m : Core) (p v : Nat) (x : Msg) : (deliver m p v x).ports = m.ports := rfl
@[simp] theorem deliver_bcasts (m : Core) (p v : Nat) (x : Msg) : (deliver m p v x).bcasts = m.bcasts := rfl
@[simp] theorem deliver_inbox (m : Core) (p v : Nat) (x : Msg) : (deliver m p v x).inbox = m.inbox ++ [{ port := p, vc := v, msg := x }] := rfl
@[simp] theorem deliver_trk (m : Core) (p v : Nat) (x : Msg) : (deliver m p v x).trk = m.trk := rfl
@[simp] theorem deliver_deck (m : Core) (p v : Nat) (x : Msg) : (deliver m p v x).deck = m.deck := rfl
@[simp] theorem deliver_ca (m : Core) (p v : Nat) (x : Msg) : (deliver m p v x).ca = m.ca := rfl
@[simp] theorem deliver_atm (m : Core) (p v : Nat) (x : Msg) : (deliver m p v x).atm = m.atm := rfl
@[simp] theorem deliver_mem (m : Core) (p v : Nat) (x : Msg) : (deliver m p v x).mem = m.mem := rfl
@[simp] theorem deliver_fab (m : Core) (p v : Nat) (x : Msg) : (deliver m p v x).fab = m.fab := rfl
@[simp] theorem deliver_fab2 (m : Core) (p v : Nat) (x : Msg) : (deliver m p v x).fab2 = m.fab2 := rfl
@[simp] theorem deliver_eic (m : Core) (p v : Nat) (x : Msg) : (deliver m p v x).eic = m.eic := rfl
@[simp] theorem deliver_dmt (m : Core) (p v : Nat) (x : Msg) : (deliver m p v x).dmt = m.dmt := rfl
@[simp] theorem deliver_jnl (m : Core) (p v : Nat) (x : Msg) : (deliver m p v x).jnl = m.jnl := rfl
@[simp] theorem deliver_pmc (m : Core) (p v : Nat) (x : Msg) : (deliver m p v x).pmc = m.pmc := rfl
@[simp] theorem deliver_whs (m : Core) (p v : Nat) (x : Msg) : (deliver m p v x).whs = m.whs := rfl
@[simp] theorem deliver_spi (m : Core) (p v : Nat) (x : Msg) : (deliver m p v x).spi = m.spi := rfl
@[simp] theorem deliver_boot (m : Core) (p v : Nat) (x : Msg) : (deliver m p v x).boot = m.boot := rfl
@[simp] theorem deliver_tap (m : Core) (p v : Nat) (x : Msg) : (deliver m p v x).tap = m.tap := rfl
@[simp] theorem deliver_pins (m : Core) (p v : Nat) (x : Msg) : (deliver m p v x).pins = m.pins := rfl
@[simp] theorem deliver_free (m : Core) (p v : Nat) (x : Msg) : (deliver m p v x).free = m.free := rfl

/-! ### `setLmb` -/

@[simp] theorem setLmb_stmp (m : Core) (r : AccRes) : (setLmb m r).stmp = m.stmp := rfl
@[simp] theorem setLmb_time (m : Core) (r : AccRes) : (setLmb m r).time = m.time := rfl
@[simp] theorem setLmb_regs (m : Core) (r : AccRes) : (setLmb m r).regs = m.regs := rfl
@[simp] theorem setLmb_hold (m : Core) (r : AccRes) : (setLmb m r).hold = m.hold := rfl
@[simp] theorem setLmb_timeHold (m : Core) (r : AccRes) : (setLmb m r).timeHold = m.timeHold := rfl
@[simp] theorem setLmb_lmb (m : Core) (r : AccRes) : (setLmb m r).lmb = r := rfl
@[simp] theorem setLmb_cfgq (m : Core) (r : AccRes) : (setLmb m r).cfgq = m.cfgq := rfl
@[simp] theorem setLmb_wins (m : Core) (r : AccRes) : (setLmb m r).wins = m.wins := rfl
@[simp] theorem setLmb_cfg (m : Core) (r : AccRes) : (setLmb m r).cfg = m.cfg := rfl
@[simp] theorem setLmb_ports (m : Core) (r : AccRes) : (setLmb m r).ports = m.ports := rfl
@[simp] theorem setLmb_bcasts (m : Core) (r : AccRes) : (setLmb m r).bcasts = m.bcasts := rfl
@[simp] theorem setLmb_inbox (m : Core) (r : AccRes) : (setLmb m r).inbox = m.inbox := rfl
@[simp] theorem setLmb_trk (m : Core) (r : AccRes) : (setLmb m r).trk = m.trk := rfl
@[simp] theorem setLmb_deck (m : Core) (r : AccRes) : (setLmb m r).deck = m.deck := rfl
@[simp] theorem setLmb_ca (m : Core) (r : AccRes) : (setLmb m r).ca = m.ca := rfl
@[simp] theorem setLmb_atm (m : Core) (r : AccRes) : (setLmb m r).atm = m.atm := rfl
@[simp] theorem setLmb_mem (m : Core) (r : AccRes) : (setLmb m r).mem = m.mem := rfl
@[simp] theorem setLmb_fab (m : Core) (r : AccRes) : (setLmb m r).fab = m.fab := rfl
@[simp] theorem setLmb_fab2 (m : Core) (r : AccRes) : (setLmb m r).fab2 = m.fab2 := rfl
@[simp] theorem setLmb_eic (m : Core) (r : AccRes) : (setLmb m r).eic = m.eic := rfl
@[simp] theorem setLmb_dmt (m : Core) (r : AccRes) : (setLmb m r).dmt = m.dmt := rfl
@[simp] theorem setLmb_jnl (m : Core) (r : AccRes) : (setLmb m r).jnl = m.jnl := rfl
@[simp] theorem setLmb_pmc (m : Core) (r : AccRes) : (setLmb m r).pmc = m.pmc := rfl
@[simp] theorem setLmb_whs (m : Core) (r : AccRes) : (setLmb m r).whs = m.whs := rfl
@[simp] theorem setLmb_spi (m : Core) (r : AccRes) : (setLmb m r).spi = m.spi := rfl
@[simp] theorem setLmb_boot (m : Core) (r : AccRes) : (setLmb m r).boot = m.boot := rfl
@[simp] theorem setLmb_tap (m : Core) (r : AccRes) : (setLmb m r).tap = m.tap := rfl
@[simp] theorem setLmb_pins (m : Core) (r : AccRes) : (setLmb m r).pins = m.pins := rfl
@[simp] theorem setLmb_free (m : Core) (r : AccRes) : (setLmb m r).free = m.free := rfl

/-! ### `assertFault` -/

@[simp] theorem assertFault_stmp (m : Core) : (assertFault m).stmp = m.stmp := rfl
@[simp] theorem assertFault_time (m : Core) : (assertFault m).time = m.time := rfl
@[simp] theorem assertFault_regs (m : Core) : (assertFault m).regs = m.regs := rfl
@[simp] theorem assertFault_hold (m : Core) : (assertFault m).hold = m.hold := rfl
@[simp] theorem assertFault_timeHold (m : Core) : (assertFault m).timeHold = m.timeHold := rfl
@[simp] theorem assertFault_lmb (m : Core) : (assertFault m).lmb = m.lmb := rfl
@[simp] theorem assertFault_cfgq (m : Core) : (assertFault m).cfgq = m.cfgq := rfl
@[simp] theorem assertFault_wins (m : Core) : (assertFault m).wins = m.wins := rfl
@[simp] theorem assertFault_cfg (m : Core) : (assertFault m).cfg = m.cfg := rfl
@[simp] theorem assertFault_ports (m : Core) : (assertFault m).ports = m.ports := rfl
@[simp] theorem assertFault_bcasts (m : Core) : (assertFault m).bcasts = m.bcasts := rfl
@[simp] theorem assertFault_inbox (m : Core) : (assertFault m).inbox = m.inbox := rfl
@[simp] theorem assertFault_trk (m : Core) : (assertFault m).trk = m.trk := rfl
@[simp] theorem assertFault_deck (m : Core) : (assertFault m).deck = m.deck := rfl
@[simp] theorem assertFault_ca (m : Core) : (assertFault m).ca = m.ca := rfl
@[simp] theorem assertFault_atm (m : Core) : (assertFault m).atm = m.atm := rfl
@[simp] theorem assertFault_mem (m : Core) : (assertFault m).mem = m.mem := rfl
@[simp] theorem assertFault_fab (m : Core) : (assertFault m).fab = m.fab := rfl
@[simp] theorem assertFault_fab2 (m : Core) : (assertFault m).fab2 = m.fab2 := rfl
@[simp] theorem assertFault_eic (m : Core) : (assertFault m).eic = m.eic := rfl
@[simp] theorem assertFault_dmt (m : Core) : (assertFault m).dmt = m.dmt := rfl
@[simp] theorem assertFault_jnl (m : Core) : (assertFault m).jnl = m.jnl := rfl
@[simp] theorem assertFault_pmc (m : Core) : (assertFault m).pmc = m.pmc := rfl
@[simp] theorem assertFault_whs (m : Core) : (assertFault m).whs = m.whs := rfl
@[simp] theorem assertFault_spi (m : Core) : (assertFault m).spi = m.spi := rfl
@[simp] theorem assertFault_boot (m : Core) : (assertFault m).boot = m.boot := rfl
@[simp] theorem assertFault_tap (m : Core) : (assertFault m).tap = m.tap := rfl
@[simp] theorem assertFault_pins (m : Core) : (assertFault m).pins = { m.pins with faultN := true } := rfl
@[simp] theorem assertFault_free (m : Core) : (assertFault m).free = m.free := rfl

/-! ### `countRule` -/

@[simp] theorem countRule_stmp (m : Core) (r : Nat) : (countRule m r).stmp = m.stmp := rfl
@[simp] theorem countRule_time (m : Core) (r : Nat) : (countRule m r).time = m.time := rfl
@[simp] theorem countRule_regs (m : Core) (r : Nat) : (countRule m r).regs = m.regs := rfl
@[simp] theorem countRule_hold (m : Core) (r : Nat) : (countRule m r).hold = m.hold := rfl
@[simp] theorem countRule_timeHold (m : Core) (r : Nat) : (countRule m r).timeHold = m.timeHold := rfl
@[simp] theorem countRule_lmb (m : Core) (r : Nat) : (countRule m r).lmb = m.lmb := rfl
@[simp] theorem countRule_cfgq (m : Core) (r : Nat) : (countRule m r).cfgq = m.cfgq := rfl
@[simp] theorem countRule_wins (m : Core) (r : Nat) : (countRule m r).wins = m.wins := rfl
@[simp] theorem countRule_cfg (m : Core) (r : Nat) : (countRule m r).cfg = m.cfg := rfl
@[simp] theorem countRule_ports (m : Core) (r : Nat) : (countRule m r).ports = m.ports := rfl
@[simp] theorem countRule_bcasts (m : Core) (r : Nat) : (countRule m r).bcasts = m.bcasts := rfl
@[simp] theorem countRule_inbox (m : Core) (r : Nat) : (countRule m r).inbox = m.inbox := rfl
@[simp] theorem countRule_trk (m : Core) (r : Nat) : (countRule m r).trk = { m.trk with counts := tput 0 m.trk.counts r (tget 0 m.trk.counts r + 1) } := rfl
@[simp] theorem countRule_deck (m : Core) (r : Nat) : (countRule m r).deck = m.deck := rfl
@[simp] theorem countRule_ca (m : Core) (r : Nat) : (countRule m r).ca = m.ca := rfl
@[simp] theorem countRule_atm (m : Core) (r : Nat) : (countRule m r).atm = m.atm := rfl
@[simp] theorem countRule_mem (m : Core) (r : Nat) : (countRule m r).mem = m.mem := rfl
@[simp] theorem countRule_fab (m : Core) (r : Nat) : (countRule m r).fab = m.fab := rfl
@[simp] theorem countRule_fab2 (m : Core) (r : Nat) : (countRule m r).fab2 = m.fab2 := rfl
@[simp] theorem countRule_eic (m : Core) (r : Nat) : (countRule m r).eic = m.eic := rfl
@[simp] theorem countRule_dmt (m : Core) (r : Nat) : (countRule m r).dmt = m.dmt := rfl
@[simp] theorem countRule_jnl (m : Core) (r : Nat) : (countRule m r).jnl = m.jnl := rfl
@[simp] theorem countRule_pmc (m : Core) (r : Nat) : (countRule m r).pmc = m.pmc := rfl
@[simp] theorem countRule_whs (m : Core) (r : Nat) : (countRule m r).whs = m.whs := rfl
@[simp] theorem countRule_spi (m : Core) (r : Nat) : (countRule m r).spi = m.spi := rfl
@[simp] theorem countRule_boot (m : Core) (r : Nat) : (countRule m r).boot = m.boot := rfl
@[simp] theorem countRule_tap (m : Core) (r : Nat) : (countRule m r).tap = m.tap := rfl
@[simp] theorem countRule_pins (m : Core) (r : Nat) : (countRule m r).pins = m.pins := rfl
@[simp] theorem countRule_free (m : Core) (r : Nat) : (countRule m r).free = m.free := rfl

/-! ### `spaOwn` -/

@[simp] theorem spaOwn_stmp (m : Core) (k : Nat) : (spaOwn m k).stmp = m.stmp := rfl
@[simp] theorem spaOwn_time (m : Core) (k : Nat) : (spaOwn m k).time = m.time := rfl
@[simp] theorem spaOwn_regs (m : Core) (k : Nat) : (spaOwn m k).regs = m.regs := rfl
@[simp] theorem spaOwn_hold (m : Core) (k : Nat) : (spaOwn m k).hold = m.hold := rfl
@[simp] theorem spaOwn_timeHold (m : Core) (k : Nat) : (spaOwn m k).timeHold = m.timeHold := rfl
@[simp] theorem spaOwn_lmb (m : Core) (k : Nat) : (spaOwn m k).lmb = m.lmb := rfl
@[simp] theorem spaOwn_cfgq (m : Core) (k : Nat) : (spaOwn m k).cfgq = m.cfgq := rfl
@[simp] theorem spaOwn_wins (m : Core) (k : Nat) : (spaOwn m k).wins = m.wins := rfl
@[simp] theorem spaOwn_cfg (m : Core) (k : Nat) : (spaOwn m k).cfg = m.cfg := rfl
@[simp] theorem spaOwn_ports (m : Core) (k : Nat) : (spaOwn m k).ports = m.ports := rfl
@[simp] theorem spaOwn_bcasts (m : Core) (k : Nat) : (spaOwn m k).bcasts = m.bcasts := rfl
@[simp] theorem spaOwn_inbox (m : Core) (k : Nat) : (spaOwn m k).inbox = m.inbox := rfl
@[simp] theorem spaOwn_trk (m : Core) (k : Nat) : (spaOwn m k).trk = m.trk := rfl
@[simp] theorem spaOwn_deck (m : Core) (k : Nat) : (spaOwn m k).deck = m.deck := rfl
@[simp] theorem spaOwn_ca (m : Core) (k : Nat) : (spaOwn m k).ca = m.ca := rfl
@[simp] theorem spaOwn_atm (m : Core) (k : Nat) : (spaOwn m k).atm = m.atm := rfl
@[simp] theorem spaOwn_mem (m : Core) (k : Nat) : (spaOwn m k).mem = m.mem := rfl
@[simp] theorem spaOwn_fab (m : Core) (k : Nat) : (spaOwn m k).fab = m.fab := rfl
@[simp] theorem spaOwn_fab2 (m : Core) (k : Nat) : (spaOwn m k).fab2 = m.fab2 := rfl
@[simp] theorem spaOwn_eic (m : Core) (k : Nat) : (spaOwn m k).eic = m.eic := rfl
@[simp] theorem spaOwn_dmt (m : Core) (k : Nat) : (spaOwn m k).dmt = m.dmt := rfl
@[simp] theorem spaOwn_jnl (m : Core) (k : Nat) : (spaOwn m k).jnl = m.jnl := rfl
@[simp] theorem spaOwn_pmc (m : Core) (k : Nat) : (spaOwn m k).pmc = m.pmc := rfl
@[simp] theorem spaOwn_whs (m : Core) (k : Nat) : (spaOwn m k).whs = m.whs := rfl
@[simp] theorem spaOwn_spi (m : Core) (k : Nat) : (spaOwn m k).spi = { m.spi with own := k } := rfl
@[simp] theorem spaOwn_boot (m : Core) (k : Nat) : (spaOwn m k).boot = m.boot := rfl
@[simp] theorem spaOwn_tap (m : Core) (k : Nat) : (spaOwn m k).tap = m.tap := rfl
@[simp] theorem spaOwn_pins (m : Core) (k : Nat) : (spaOwn m k).pins = m.pins := rfl
@[simp] theorem spaOwn_free (m : Core) (k : Nat) : (spaOwn m k).free = m.free := rfl

end Sys2Proof.Laws
end

