-- ==== Sys2Proof/Laws/Tables.lean ====
section
/-! SUPPORT. Sparse tables, registers and their fields, and the calculus of what an operation leaves alone. -/

namespace Sys2Proof.Laws

open Sys2Proof.Machine

/-! ### Sparse tables -/

theorem tfind_tset {α : Type} (t : Tab α) (k j : Nat) (v : α) :
    tfind (tset t k v) j = if k = j then some v else tfind t j := by
  induction t with
  | nil => simp only [tset, tfind]
  | cons e r ih =>
    obtain ⟨k', v'⟩ := e
    simp only [tset]
    split
    · simp only [tfind]
    · split
      · next h => subst h; simp only [tfind]
                  split
                  · rfl
                  · rfl
      · next h1 h2 =>
        simp only [tfind, ih]
        by_cases hk : k' = j
        · have : ¬ k = j := fun h => h2 (h.trans hk.symm)
          simp [hk, this]
        · simp [hk]

theorem tfind_tdel {α : Type} (t : Tab α) (k j : Nat) :
    tfind (tdel t k) j = if k = j then none else tfind t j := by
  induction t with
  | nil => simp [tdel, tfind]
  | cons e r ih =>
    obtain ⟨k', v'⟩ := e
    simp only [tdel] at ih ⊢
    by_cases h : k' = k
    · subst h
      simp only [List.filter, bne_self_eq_false, ih, tfind]
      split <;> rfl
    · have hb : (k' != k) = true := by simpa using h
      simp only [List.filter, hb, tfind, ih]
      by_cases hj : k' = j
      · have : ¬ k = j := fun e => h (hj.trans e.symm)
        simp [hj, this]
      · simp [hj]

@[simp] theorem tget_tput {α : Type} [DecidableEq α] (d : α) (t : Tab α) (k j : Nat) (v : α) :
    tget d (tput d t k v) j = if k = j then v else tget d t j := by
  unfold tput tget
  split
  · next h => subst h; rw [tfind_tdel]; split <;> rfl
  · rw [tfind_tset]; split <;> rfl

/-! ### Registers -/

theorem rget_rset (m : Core) (a b : Nat) (v : Word) : rget (rset m a v) b = if a = b then v else rget m b := by
  by_cases h : a = b
  · subst h; simp [rget, rset]
  · simp only [h, if_false, rget, rset, tget, tput]
    split
    · rw [tfind_tdel]; simp [h]
    · rw [tfind_tset]; simp [h]

@[simp] theorem rget_rset_same (m : Core) (a : Nat) (v : Word) : rget (rset m a v) a = v := by simp [rget_rset]

theorem rget_rset_other (m : Core) {a b : Nat} (v : Word) (h : a ≠ b) : rget (rset m a v) b = rget m b := by
  simp [rget_rset, h]

theorem rget_congr {m n : Core} (h : n.regs = m.regs) (a : Nat) : rget n a = rget m a := by simp [rget, h]

theorem bit_putFld (x : Word) (hi lo v i : Nat) (h : i < 32) :
    bit (putFld x hi lo v) i = if lo ≤ i ∧ i ≤ hi then v.testBit (i - lo) else bit x i := by
  simp only [bit, putFld, BitVec.getLsbD_or, BitVec.getLsbD_and, BitVec.getLsbD_not, BitVec.getLsbD_ofNat, h,
    decide_true, Bool.true_and, Nat.testBit_shiftLeft, Nat.testBit_two_pow_sub_one]
  by_cases h1 : lo ≤ i
  · by_cases h2 : i ≤ hi
    · have h3 : i - lo < hi + 1 - lo := by omega
      simp [h1, h2, h3]
    · have h3 : ¬ (i - lo < hi + 1 - lo) := by omega
      simp [h1, h2, h3]
  · have : ¬ (lo ≤ i ∧ i ≤ hi) := fun c => h1 c.1
    simp [h1]

theorem rbit_rsetf (m : Core) (a b hi lo v i : Nat) (h : i < 32) :
    rbit (rsetf m a hi lo v) b i
      = if a = b then (if lo ≤ i ∧ i ≤ hi then v.testBit (i - lo) else rbit m b i) else rbit m b i := by
  unfold rbit rsetf
  rw [rget_rset]
  split
  · next e => subst e; rw [bit_putFld _ _ _ _ _ h]
  · rfl

theorem rbit_rset (m : Core) (a b i : Nat) (v : Word) :
    rbit (rset m a v) b i = if a = b then bit v i else rbit m b i := by
  unfold rbit; rw [rget_rset]; split <;> rfl

theorem rbit_congr {m n : Core} (h : n.regs = m.regs) (a i : Nat) : rbit n a i = rbit m a i := by
  simp [rbit, rget_congr h]

/-- A field is a function of its bits. -/
theorem fld_ext {x y : Word} (hi lo : Nat) (h : ∀ i, lo ≤ i → i ≤ hi → bit x i = bit y i) :
    fld x hi lo = fld y hi lo := by
  apply Nat.eq_of_testBit_eq
  intro i
  simp only [fld, Nat.testBit_mod_two_pow, Nat.testBit_shiftRight]
  by_cases hi' : i < hi + 1 - lo
  · have := h (lo + i) (by omega) (by omega)
    simp only [bit, BitVec.getLsbD] at this
    simp [hi', this]
  · simp [hi']

theorem fld_putFld_same (x : Word) (hi lo v : Nat) (hh : hi < 32) :
    fld (putFld x hi lo v) hi lo = v % 2 ^ (hi + 1 - lo) := by
  apply Nat.eq_of_testBit_eq
  intro i
  simp only [fld, Nat.testBit_mod_two_pow, Nat.testBit_shiftRight]
  by_cases hi' : i < hi + 1 - lo
  · have h1 := bit_putFld x hi lo v (lo + i) (by omega)
    have h2 : lo ≤ lo + i ∧ lo + i ≤ hi := by omega
    rw [if_pos h2, Nat.add_sub_cancel_left] at h1
    simp only [bit, BitVec.getLsbD] at h1
    simp [hi', h1]
  · simp [hi']

theorem fld_putFld_other (x : Word) (hi lo v h l : Nat) (hh : h < 32) (hd : h < lo ∨ hi < l) :
    fld (putFld x hi lo v) h l = fld x h l := by
  apply fld_ext
  intro i h1 h2
  rw [bit_putFld _ _ _ _ _ (by omega), if_neg (by omega)]

/-! ### What an operation leaves alone -/

theorem onlyParts_refl (ps : List Part) (m : Core) : m.onlyParts ps m := by
  intro p _; cases p <;> rfl

theorem onlyParts_trans {ps : List Part} {m n k : Core} (h : m.onlyParts ps n) (g : n.onlyParts ps k) :
    m.onlyParts ps k := by
  intro p hp
  have a := h p hp
  have b := g p hp
  cases p <;> exact Eq.trans b a

theorem onlyParts_mono {ps qs : List Part} {m n : Core} (h : m.onlyParts ps n) (hs : ∀ p ∈ ps, p ∈ qs) :
    m.onlyParts qs n := fun p hp => h p fun hq => hp (hs p hq)

theorem onlyParts_foldl {α : Type} {ps : List Part} (f : Core → α → Core)
    (h : ∀ (m : Core) x, m.onlyParts ps (f m x)) (l : List α) (m : Core) : m.onlyParts ps (l.foldl f m) := by
  induction l generalizing m with
  | nil => exact onlyParts_refl ps m
  | cons x r ih => exact onlyParts_trans (h m x) (ih _)

theorem onlyRegs_refl (as : List Nat) (m : Core) : m.onlyRegs as m := fun _ _ => rfl

theorem onlyRegs_trans {as : List Nat} {m n k : Core} (h : m.onlyRegs as n) (g : n.onlyRegs as k) : m.onlyRegs as k :=
  fun a ha => (g a ha).trans (h a ha)

theorem onlyRegs_mono {as bs : List Nat} {m n : Core} (h : m.onlyRegs as n) (hs : ∀ a ∈ as, a ∈ bs) : m.onlyRegs bs n :=
  fun a ha => h a fun hb => ha (hs a hb)

theorem onlyRegs_foldl {α : Type} {as : List Nat} (f : Core → α → Core)
    (h : ∀ (m : Core) x, m.onlyRegs as (f m x)) (l : List α) (m : Core) : m.onlyRegs as (l.foldl f m) := by
  induction l generalizing m with
  | nil => exact onlyRegs_refl as m
  | cons x r ih => exact onlyRegs_trans (h m x) (ih _)

theorem onlyRegs_of_eq {as : List Nat} {m n : Core} (h : n.regs = m.regs) : m.onlyRegs as n := fun a _ => rget_congr h a

theorem onlyRegs_rset {as : List Nat} (m : Core) (a : Nat) (v : Word) (h : a ∈ as) : m.onlyRegs as (rset m a v) := by
  intro b hb
  exact rget_rset_other m v fun e => hb (e ▸ h)

theorem onlyParts_rset {ps : List Part} (m : Core) (a : Nat) (v : Word) (h : Part.regs ∈ ps) :
    m.onlyParts ps (rset m a v) := by
  intro p hp; cases p <;> first | rfl | exact absurd h hp

/-! ### Numbers evaluated step by step -/

@[simp] theorem strictly_eq {α : Type} (n : Nat) (k : Nat → α) : strictly n k = k n := by cases n <;> rfl

theorem foldNat_eq {α : Type} (f : Nat → α → Nat) (l : List α) (n : Nat) : foldNat f l n = l.foldl f n := by
  induction l generalizing n with
  | nil => rfl
  | cons a r ih => rw [foldNat, strictly_eq, ih]; rfl

end Sys2Proof.Laws
end

