-- ==== Sys2Proof/Laws/Parts.lean ====
section
/-! SUPPORT. An update of one part of the machine leaves every other part alone. -/

namespace Sys2Proof.Laws

open Sys2Proof.Machine

theorem onlyParts_stmp {ps : List Part} (m : Core) (x : Nat) (h : Part.stmp ∈ ps) : m.onlyParts ps { m with stmp := x } := by
  intro p hp; cases p <;> first | rfl | exact absurd h hp

theorem onlyParts_time {ps : List Part} (m : Core) (x : BitVec 64) (h : Part.time ∈ ps) : m.onlyParts ps { m with time := x } := by
  intro p hp; cases p <;> first | rfl | exact absurd h hp

theorem onlyParts_regs {ps : List Part} (m : Core) (x : Tab Word) (h : Part.regs ∈ ps) : m.onlyParts ps { m with regs := x } := by
  intro p hp; cases p <;> first | rfl | exact absurd h hp

theorem onlyParts_hold {ps : List Part} (m : Core) (x : Tab Word) (h : Part.hold ∈ ps) : m.onlyParts ps { m with hold := x } := by
  intro p hp; cases p <;> first | rfl | exact absurd h hp

theorem onlyParts_timeHold {ps : List Part} (m : Core) (x : Tab Word) (h : Part.timeHold ∈ ps) : m.onlyParts ps { m with timeHold := x } := by
  intro p hp; cases p <;> first | rfl | exact absurd h hp

theorem onlyParts_lmb {ps : List Part} (m : Core) (x : AccRes) (h : Part.lmb ∈ ps) : m.onlyParts ps { m with lmb := x } := by
  intro p hp; cases p <;> first | rfl | exact absurd h hp

theorem onlyParts_cfgq {ps : List Part} (m : Core) (x : List CfgAcc) (h : Part.cfgq ∈ ps) : m.onlyParts ps { m with cfgq := x } := by
  intro p hp; cases p <;> first | rfl | exact absurd h hp

theorem onlyParts_wins {ps : List Part} (m : Core) (x : Tab Window) (h : Part.wins ∈ ps) : m.onlyParts ps { m with wins := x } := by
  intro p hp; cases p <;> first | rfl | exact absurd h hp

theorem onlyParts_cfg {ps : List Part} (m : Core) (x : Cfg) (h : Part.cfg ∈ ps) : m.onlyParts ps { m with cfg := x } := by
  intro p hp; cases p <;> first | rfl | exact absurd h hp

theorem onlyParts_ports {ps : List Part} (m : Core) (x : Tab Port) (h : Part.ports ∈ ps) : m.onlyParts ps { m with ports := x } := by
  intro p hp; cases p <;> first | rfl | exact absurd h hp

theorem onlyParts_bcasts {ps : List Part} (m : Core) (x : List BcastId) (h : Part.bcasts ∈ ps) : m.onlyParts ps { m with bcasts := x } := by
  intro p hp; cases p <;> first | rfl | exact absurd h hp

theorem onlyParts_inbox {ps : List Part} (m : Core) (x : List InMsg) (h : Part.inbox ∈ ps) : m.onlyParts ps { m with inbox := x } := by
  intro p hp; cases p <;> first | rfl | exact absurd h hp

theorem onlyParts_trk {ps : List Part} (m : Core) (x : Tracker) (h : Part.trk ∈ ps) : m.onlyParts ps { m with trk := x } := by
  intro p hp; cases p <;> first | rfl | exact absurd h hp

theorem onlyParts_deck {ps : List Part} (m : Core) (x : Deck) (h : Part.deck ∈ ps) : m.onlyParts ps { m with deck := x } := by
  intro p hp; cases p <;> first | rfl | exact absurd h hp

theorem onlyParts_ca {ps : List Part} (m : Core) (x : Caches) (h : Part.ca ∈ ps) : m.onlyParts ps { m with ca := x } := by
  intro p hp; cases p <;> first | rfl | exact absurd h hp

theorem onlyParts_atm {ps : List Part} (m : Core) (x : Atomics) (h : Part.atm ∈ ps) : m.onlyParts ps { m with atm := x } := by
  intro p hp; cases p <;> first | rfl | exact absurd h hp

theorem onlyParts_mem {ps : List Part} (m : Core) (x : Mem) (h : Part.mem ∈ ps) : m.onlyParts ps { m with mem := x } := by
  intro p hp; cases p <;> first | rfl | exact absurd h hp

theorem onlyParts_fab {ps : List Part} (m : Core) (x : Fab) (h : Part.fab ∈ ps) : m.onlyParts ps { m with fab := x } := by
  intro p hp; cases p <;> first | rfl | exact absurd h hp

theorem onlyParts_fab2 {ps : List Part} (m : Core) (x : Fab2) (h : Part.fab2 ∈ ps) : m.onlyParts ps { m with fab2 := x } := by
  intro p hp; cases p <;> first | rfl | exact absurd h hp

theorem onlyParts_eic {ps : List Part} (m : Core) (x : Eic) (h : Part.eic ∈ ps) : m.onlyParts ps { m with eic := x } := by
  intro p hp; cases p <;> first | rfl | exact absurd h hp

theorem onlyParts_dmt {ps : List Part} (m : Core) (x : Dmt) (h : Part.dmt ∈ ps) : m.onlyParts ps { m with dmt := x } := by
  intro p hp; cases p <;> first | rfl | exact absurd h hp

theorem onlyParts_jnl {ps : List Part} (m : Core) (x : Jnl) (h : Part.jnl ∈ ps) : m.onlyParts ps { m with jnl := x } := by
  intro p hp; cases p <;> first | rfl | exact absurd h hp

theorem onlyParts_pmc {ps : List Part} (m : Core) (x : Pmc) (h : Part.pmc ∈ ps) : m.onlyParts ps { m with pmc := x } := by
  intro p hp; cases p <;> first | rfl | exact absurd h hp

theorem onlyParts_whs {ps : List Part} (m : Core) (x : Whs) (h : Part.whs ∈ ps) : m.onlyParts ps { m with whs := x } := by
  intro p hp; cases p <;> first | rfl | exact absurd h hp

theorem onlyParts_spi {ps : List Part} (m : Core) (x : Spi) (h : Part.spi ∈ ps) : m.onlyParts ps { m with spi := x } := by
  intro p hp; cases p <;> first | rfl | exact absurd h hp

theorem onlyParts_boot {ps : List Part} (m : Core) (x : Boot) (h : Part.boot ∈ ps) : m.onlyParts ps { m with boot := x } := by
  intro p hp; cases p <;> first | rfl | exact absurd h hp

theorem onlyParts_tap {ps : List Part} (m : Core) (x : Tap) (h : Part.tap ∈ ps) : m.onlyParts ps { m with tap := x } := by
  intro p hp; cases p <;> first | rfl | exact absurd h hp

theorem onlyParts_pins {ps : List Part} (m : Core) (x : Pins) (h : Part.pins ∈ ps) : m.onlyParts ps { m with pins := x } := by
  intro p hp; cases p <;> first | rfl | exact absurd h hp

theorem onlyParts_free {ps : List Part} (m : Core) (x : Nat) (h : Part.free ∈ ps) : m.onlyParts ps { m with free := x } := by
  intro p hp; cases p <;> first | rfl | exact absurd h hp

end Sys2Proof.Laws
end

