-- ==== Sys2Proof/Laws/Reports.lean ====
section
/-! SUPPORT. What a report can do: event sources, counters and journal records (Machine/Ops.lean). -/

namespace Sys2Proof.Laws

open Sys2Proof.Machine

/-! ### The event controller -/

theorem evtDue_only (m : Core) (t : Nat) : m.onlyParts [.eic] (evtDue m t) := by
  unfold evtDue
  split
  · exact onlyParts_refl _ _
  · exact onlyParts_eic _ _ (by decide)

theorem evtJudge_only (m : Core) (t l : Nat) : m.onlyParts [.eic] (evtJudge m t l) := by
  unfold evtJudge
  split
  · exact evtDue_only _ _
  · exact onlyParts_refl _ _

theorem eicTarget_only (m : Core) (t : Nat) : m.onlyParts [.eic] (eicTarget m t) :=
  onlyParts_trans (onlyParts_trans (onlyParts_eic m _ (by decide)) (evtJudge_only _ _ _)) (onlyParts_eic _ _ (by decide))

/-- Delivery changes no part but the event controller. -/
theorem eicUpdate_only (m : Core) : m.onlyParts [.eic] (eicUpdate m) :=
  onlyParts_foldl _ (fun m t => eicTarget_only m t) _ _

theorem evtDue_st (m : Core) (t : Nat) : (evtDue m t).eic.st = m.eic.st := by unfold evtDue; split <;> rfl

theorem evtDue_cfg (m : Core) (t : Nat) : (evtDue m t).eic.cfg = m.eic.cfg := by unfold evtDue; split <;> rfl

theorem eicTarget_st (m : Core) (t : Nat) : (eicTarget m t).eic.st = m.eic.st := by
  unfold eicTarget
  show (evtJudge (irqDrive m t) t (selLevel m t)).eic.st = _
  unfold evtJudge
  split
  · exact evtDue_st _ _
  · rfl

theorem eicTarget_cfg (m : Core) (t : Nat) : (eicTarget m t).eic.cfg = m.eic.cfg := by
  unfold eicTarget
  show (evtJudge (irqDrive m t) t (selLevel m t)).eic.cfg = _
  unfold evtJudge
  split
  · exact evtDue_cfg _ _
  · rfl

/-- Delivery changes no source. -/
@[simp] theorem eicUpdate_st (m : Core) : (eicUpdate m).eic.st = m.eic.st := by
  simp only [eicUpdate, List.foldl, eicTarget_st]

@[simp] theorem eicUpdate_cfg (m : Core) : (eicUpdate m).eic.cfg = m.eic.cfg := by
  simp only [eicUpdate, List.foldl, eicTarget_cfg]

theorem whistleTrigger_only (m : Core) : m.onlyParts [.whs] (whistleTrigger m) := by
  unfold whistleTrigger
  split
  · exact onlyParts_whs _ _ (by decide)
  · split
    · exact onlyParts_whs _ _ (by decide)
    · exact onlyParts_whs _ _ (by decide)

theorem whistleCheck_only (m : Core) (n : Nat) : m.onlyParts [.whs] (whistleCheck m n) := by
  unfold whistleCheck
  split
  · exact whistleTrigger_only _
  · exact onlyParts_refl _ _

theorem srcRaise_only (m : Core) (n : Nat) : m.onlyParts Part.report (srcRaise m n) := by
  unfold srcRaise
  split
  · exact onlyParts_eic _ _ (by decide)
  · exact onlyParts_eic _ _ (by decide)
  · exact onlyParts_trans (onlyParts_rset _ _ _ (by decide)) (onlyParts_rset _ _ _ (by decide))

theorem srcRaise_regs (m : Core) (n : Nat) : m.onlyRegs reportRegs (srcRaise m n) := by
  unfold srcRaise
  split
  · exact onlyRegs_of_eq rfl
  · exact onlyRegs_of_eq rfl
  · exact onlyRegs_trans (onlyRegs_rset _ _ _ (by decide)) (onlyRegs_rset _ _ _ (by decide))

theorem onlyRegs_of_only {ps : List Part} {as : List Nat} {m n : Core} (h : m.onlyParts ps n) (hr : Part.regs ∉ ps) :
    m.onlyRegs as n := onlyRegs_of_eq (h .regs hr)

theorem raiseRaw_only (m : Core) (n : Nat) : m.onlyParts Part.report (raiseRaw m n) :=
  onlyParts_trans (onlyParts_trans (srcRaise_only m n) (onlyParts_mono (whistleCheck_only _ n) (by decide)))
    (onlyParts_mono (eicUpdate_only _) (by decide))

theorem raiseRaw_regs (m : Core) (n : Nat) : m.onlyRegs reportRegs (raiseRaw m n) :=
  onlyRegs_trans (onlyRegs_trans (srcRaise_regs m n) (onlyRegs_of_only (whistleCheck_only _ n) (by decide)))
    (onlyRegs_of_only (eicUpdate_only _) (by decide))

/-! ### Counters -/

theorem ovf_mem (k : Nat) : 0x3010 + 4 * (k / 32 % 4) ∈ reportRegs := by
  have : k / 32 % 4 < 4 := Nat.mod_lt _ (by decide)
  match k / 32 % 4, this with
  | 0, _ => decide
  | 1, _ => decide
  | 2, _ => decide
  | 3, _ => decide

theorem ctrStore_only (m : Core) (k v : Nat) : m.onlyParts Part.report (ctrStore m k v) := onlyParts_pmc _ _ (by decide)

theorem ctrWrap_only (m : Core) (k : Nat) : m.onlyParts Part.report (ctrWrap m k) :=
  onlyParts_trans (onlyParts_pmc m _ (by decide)) (onlyParts_rset _ _ _ (by decide))

theorem ctrWrap_regs (m : Core) (k : Nat) : m.onlyRegs reportRegs (ctrWrap m k) :=
  onlyRegs_rset { m with pmc := { m.pmc with wrapped := tput false m.pmc.wrapped k true } } _ _ (ovf_mem k)

theorem ctrAdd_only (k : Nat) (c : CtrCfg) (n : Nat) (m : Core) : m.onlyParts Part.report (ctrAdd k c n m) := by
  unfold ctrAdd ctrReach
  split
  · exact ctrStore_only _ _ _
  · split
    · exact onlyParts_trans (onlyParts_trans (ctrStore_only _ _ _) (ctrWrap_only _ _)) (raiseRaw_only _ _)
    · exact onlyParts_trans (ctrStore_only _ _ _) (ctrWrap_only _ _)

theorem ctrAdd_regs (k : Nat) (c : CtrCfg) (n : Nat) (m : Core) : m.onlyRegs reportRegs (ctrAdd k c n m) := by
  unfold ctrAdd ctrReach
  have h (v : Nat) : m.onlyRegs reportRegs (ctrWrap (ctrStore m k v) k) := fun a ha => ctrWrap_regs (ctrStore m k v) k a ha
  split
  · exact onlyRegs_of_eq rfl
  · split
    · exact onlyRegs_trans (h _) (raiseRaw_regs _ _)
    · exact h _

theorem tally_only (b : Blk) (e n : Nat) (m : Core) : m.onlyParts Part.report (tally b e n m) := by
  refine onlyParts_foldl _ (fun m x => ?_) _ _
  split
  · exact ctrAdd_only _ _ _ _
  · exact onlyParts_refl _ _

theorem tally_regs (b : Blk) (e n : Nat) (m : Core) : m.onlyRegs reportRegs (tally b e n m) := by
  refine onlyRegs_foldl _ (fun m x => ?_) _ _
  split
  · exact ctrAdd_regs _ _ _ _
  · exact onlyRegs_refl _ _

/-! ### Raising a source -/

theorem countRepeat_only (m : Core) (n : Nat) : m.onlyParts Part.report (countRepeat m n) := by
  unfold countRepeat
  split
  · exact tally_only _ _ _ _
  · exact onlyParts_refl _ _

theorem countRepeat_regs (m : Core) (n : Nat) : m.onlyRegs reportRegs (countRepeat m n) := by
  unfold countRepeat
  split
  · exact tally_regs _ _ _ _
  · exact onlyRegs_refl _ _

/-- A report changes nothing but the event controller, the counters and the whistle. -/
theorem raise_only (m : Core) (n : Nat) : m.onlyParts Part.report (raise m n) :=
  onlyParts_trans (onlyParts_trans (countRepeat_only m n) (tally_only .eic 1 1 _)) (raiseRaw_only _ n)

theorem raise_regs (m : Core) (n : Nat) : m.onlyRegs reportRegs (raise m n) :=
  onlyRegs_trans (onlyRegs_trans (countRepeat_regs m n) (tally_regs .eic 1 1 _)) (raiseRaw_regs _ n)

theorem isPending_congr {m n : Core} (h : n.eic.st = m.eic.st) (k : Nat) : isPending n k = isPending m k := by
  unfold isPending srcSt; rw [h]

theorem isPending_setSrc (m : Core) (n k : Nat) (x : SrcSt) :
    isPending (setSrc m n x) k = if n = k then (decide (x = .pending) || decide (x = .both)) else isPending m k := by
  simp only [isPending, srcSt, setSrc, tget_tput]
  split <;> rfl

theorem srcRaise_isPending (m : Core) (n k : Nat) :
    isPending (srcRaise m n) k = if n = k then true else isPending m k := by
  unfold srcRaise
  split
  · rw [isPending_setSrc]; rfl
  · rw [isPending_setSrc]; rfl
  · next h1 h2 =>
    have e : isPending (rset (rinc m 0x2440 1) 0x2444 (BitVec.ofNat 32 n)) k = isPending m k := rfl
    rw [e]
    split
    · next hk =>
      subst hk
      unfold isPending
      cases hs : srcSt m n <;> simp_all
    · rfl

/-- The sources after a report that counts nothing. -/
theorem raiseRaw_isPending (m : Core) (n k : Nat) :
    isPending (raiseRaw m n) k = if n = k then true else isPending m k := by
  unfold raiseRaw
  rw [isPending_congr (eicUpdate_st _), isPending_congr (congrArg Eic.st (whistleCheck_only _ n .eic (by decide))),
    srcRaise_isPending]

theorem ctrAdd_isPending (k : Nat) (c : CtrCfg) (n : Nat) (m : Core) (j : Nat) (h : isPending m j = true) :
    isPending (ctrAdd k c n m) j = true := by
  unfold ctrAdd ctrReach
  split
  · exact h
  · split
    · rw [raiseRaw_isPending]; split
      · rfl
      · exact h
    · exact h

/-- A pending source stays pending while events are counted. -/
theorem tally_isPending (b : Blk) (e n : Nat) (m : Core) (j : Nat) (h : isPending m j = true) :
    isPending (tally b e n m) j = true := by
  unfold tally
  induction m.pmc.cfg generalizing m with
  | nil => exact h
  | cons x r ih =>
    simp only [List.foldl]
    apply ih
    split
    · exact ctrAdd_isPending _ _ _ _ _ h
    · exact h

/-- A raised source is pending (R649). -/
@[simp] theorem raise_isPending (m : Core) (n : Nat) : isPending (raise m n) n = true := by
  unfold raise; rw [raiseRaw_isPending]; simp

/-- A pending source stays pending when another one is raised. -/
theorem raise_isPending_mono (m : Core) (n k : Nat) (h : isPending m k = true) : isPending (raise m n) k = true := by
  unfold raise
  rw [raiseRaw_isPending]
  split
  · rfl
  · apply tally_isPending
    unfold countRepeat
    split
    · exact tally_isPending _ _ _ _ _ h
    · exact h

/-! ### The journal -/

theorem queueRecs_only (m : Core) (q : List QRec) : m.onlyParts (.jnl :: Part.report) (queueRecs m q) :=
  onlyParts_trans (onlyParts_jnl m _ (by decide)) (onlyParts_mono (tally_only .jnl 1 1 _) (by decide))

theorem queueRecs_regs (m : Core) (q : List QRec) : m.onlyRegs journalRegs (queueRecs m q) :=
  onlyRegs_trans (onlyRegs_of_eq (n := { m with jnl := { m.jnl with queue := q } }) rfl)
    (onlyRegs_mono (tally_regs .jnl 1 1 _) (by decide))

theorem dropRec_only (m : Core) (s : BitVec 4) : m.onlyParts (.jnl :: Part.report) (dropRec m s) :=
  onlyParts_trans (onlyParts_trans (onlyParts_rset m 0x2C20 _ (by decide))
    (onlyParts_mono (tally_only .jnl 3 1 _) (by decide))) (onlyParts_jnl _ _ (by decide))

theorem dropRec_regs (m : Core) (s : BitVec 4) : m.onlyRegs journalRegs (dropRec m s) :=
  onlyRegs_trans (onlyRegs_trans (onlyRegs_rset m 0x2C20 _ (by decide))
    (onlyRegs_mono (tally_regs .jnl 3 1 _) (by decide))) (onlyRegs_of_eq rfl)

theorem enqueueRec_only (m : Core) (r : QRec) (f : List QRec → List QRec) :
    m.onlyParts (.jnl :: Part.report) (enqueueRec m r f) := by
  unfold enqueueRec
  split
  · exact queueRecs_only _ _
  · split
    · exact onlyParts_trans (queueRecs_only _ _) (dropRec_only _ _)
    · exact dropRec_only _ _

theorem enqueueRec_regs (m : Core) (r : QRec) (f : List QRec → List QRec) :
    m.onlyRegs journalRegs (enqueueRec m r f) := by
  unfold enqueueRec
  split
  · exact queueRecs_regs _ _
  · split
    · exact onlyRegs_trans (queueRecs_regs _ _) (dropRec_regs _ _)
    · exact dropRec_regs _ _

theorem enqueueRec_isPending (m : Core) (r : QRec) (f : List QRec → List QRec) (k : Nat) (h : isPending m k = true) :
    isPending (enqueueRec m r f) k = true := by
  have q (x : List QRec) : isPending (queueRecs m x) k = true := tally_isPending .jnl 1 1 _ _ h
  have d (n : Core) (s : BitVec 4) (hn : isPending n k = true) : isPending (dropRec n s) k = true :=
    tally_isPending .jnl 3 1 _ _ hn
  unfold enqueueRec
  split
  · exact q _
  · split
    · exact d _ _ (q _)
    · exact d _ _ h

/-- A journal record changes the journal, and what a report changes. -/
theorem journal_only (m : Core) (t s : Nat) (p : BitVec 128) : m.onlyParts (.jnl :: Part.report) (journal m t s p) := by
  unfold journal
  split
  · exact onlyParts_refl _ _
  · exact enqueueRec_only _ _ _

theorem journal_regs (m : Core) (t s : Nat) (p : BitVec 128) : m.onlyRegs journalRegs (journal m t s p) := by
  unfold journal
  split
  · exact onlyRegs_refl _ _
  · exact enqueueRec_regs _ _ _

theorem journal_isPending (m : Core) (t s : Nat) (p : BitVec 128) (k : Nat) (h : isPending m k = true) :
    isPending (journal m t s p) k = true := by
  unfold journal
  split
  · exact h
  · exact enqueueRec_isPending _ _ _ _ h

theorem tally_jnl (b : Blk) (e n : Nat) (m : Core) : (tally b e n m).jnl = m.jnl := tally_only b e n m .jnl (by decide)

/-- A record that is not discarded stands at the end of a queue that has room (R725). -/
theorem journal_queue (m : Core) (t s : Nat) (p : BitVec 128) (ha : recAction m t s ≠ 3) (hq : m.jnl.queue.length < 64) :
    (journal m t s p).jnl.queue = m.jnl.queue ++ [eventRec m t s p] := by
  unfold journal enqueueRec
  rw [if_neg ha, if_pos hq, queueRecs, tally_jnl]

end Sys2Proof.Laws
end

