-- ==== Sys2Proof/Laws/Access.lean ====
section
/-! SUPPORT. What a register access over the LMB can do (Machine/Regs.lean). -/

namespace Sys2Proof.Laws

open Sys2Proof.Machine

/-- An accepted LMB write stores its fields, acts and reports success; a start of CFG.THROW reports later. -/
theorem lmbWrite_accepted {m : Core} {a : Lmb} {addr : Nat} {v : Word} (h : writeCode m (lmbWho a) addr v = 0)
    (ht : (decide (addr = 0x404) && bit v 0) = false) :
    lmbWrite a addr v m = setLmb (writeAction m (storeWrite m addr v) (lmbWho a) none addr v) (accOk 0) := by
  unfold lmbWrite regWrite
  simp [h, ht]

/-- A rejected LMB write is recorded and reports its code. -/
theorem lmbWrite_rejected {m : Core} {a : Lmb} {addr : Nat} {v : Word} (h : writeCode m (lmbWho a) addr v ≠ 0) :
    lmbWrite a addr v m
      = setLmb (recordReject m (lmbWho a) false addr (writeCode m (lmbWho a) addr v))
          (accRej (writeCode m (lmbWho a) addr v)) := by
  unfold lmbWrite regWrite
  simp [h]

theorem clocked_running {f : Core → Core} {s : State} (h : running s.m = true) :
    clocked f s = .next { s with m := f s.m } := by simp [clocked, h]

/-- The next state of an accepted LMB write. -/
theorem clocked_accepted {s : State} {a : Lmb} {addr : Nat} {v : Word} (h : Accepted s a addr v)
    (ht : (decide (addr = 0x404) && bit v 0) = false) :
    clocked (lmbWrite a addr v) s
      = .next { s with m := setLmb (writeAction s.m (storeWrite s.m addr v) (lmbWho a) none addr v) (accOk 0) } := by
  rw [clocked_running h.1, lmbWrite_accepted h.2 ht]

theorem storeWrite_only (m : Core) (a : Nat) (v : Word) : m.onlyParts [.regs] (storeWrite m a v) := by
  unfold storeWrite
  split
  · exact onlyParts_rset _ _ _ (by decide)
  · exact onlyParts_refl _ _

theorem storeWrite_regs (m : Core) (a : Nat) (v : Word) : m.onlyRegs [a] (storeWrite m a v) := by
  unfold storeWrite
  split
  · exact onlyRegs_rset _ _ _ (by simp)
  · exact onlyRegs_refl _ _

theorem storeWrite_get {m : Core} {a : Nat} {v : Word} {r : RegDesc} (h : regAt a = some r) :
    rget (storeWrite m a v) a = storeFields r (rget m a) v := by
  unfold storeWrite; rw [h]; simp

/-- The next state of an accepted LMB write whose action is known. -/
theorem accepted_next {s : State} {a : Lmb} {addr : Nat} {v : Word} {n : Core} (h : Accepted s a addr v)
    (ht : (decide (addr = 0x404) && bit v 0) = false)
    (hn : writeAction s.m (storeWrite s.m addr v) (lmbWho a) none addr v = n) :
    clocked (lmbWrite a addr v) s = .next { s with m := setLmb n (accOk 0) } := by
  rw [clocked_accepted h ht, hn]

/-- A command that changes some parts, and the LMB's result. -/
theorem only_lmb {ps : List Part} {s : State} {n : Core} {r : AccRes} (h : s.m.onlyParts ps n) (hl : Part.lmb ∈ ps) :
    s.only ps { s with m := setLmb n r } := ⟨onlyParts_trans h (onlyParts_lmb _ _ hl), rfl, rfl⟩

theorem only_next {ps : List Part} {s : State} {m : Core} (h : s.m.onlyParts ps m) : s.only ps { s with m := m } :=
  ⟨h, rfl, rfl⟩

theorem storeWrite_parts {ps : List Part} (m : Core) (a : Nat) (v : Word) (h : Part.regs ∈ ps) :
    m.onlyParts ps (storeWrite m a v) := onlyParts_mono (storeWrite_only m a v) (by simpa using h)

theorem onlyRegs_lmb {as : List Nat} {m n : Core} {r : AccRes} (h : m.onlyRegs as n) : m.onlyRegs as (setLmb n r) := h

@[simp] theorem rget_setLmb (m : Core) (r : AccRes) (a : Nat) : rget (setLmb m r) a = rget m a := rfl

@[simp] theorem rbit_setLmb (m : Core) (r : AccRes) (a i : Nat) : rbit (setLmb m r) a i = rbit m a i := rfl

@[simp] theorem rfld_setLmb (m : Core) (r : AccRes) (a hi lo : Nat) : rfld (setLmb m r) a hi lo = rfld m a hi lo := rfl

theorem lmbOk_set (m : Core) : lmbOk (setLmb m (accOk 0)) := ⟨rfl, rfl⟩

/-! ### The bits of a written register -/

/-- Whether the bits that the fields with a property occupy are theirs alone. -/
def maskOk (r : RegDesc) (p : FieldDesc → Bool) : Bool :=
  r.fields.all fun f => decide (f.hi < 32) && (List.range 32).all fun i =>
    !(decide (f.lo ≤ i) && decide (i ≤ f.hi)) || (r.maskOf p).testBit i == p f

/-- Whether no two fields of a register share a bit, as far as a write can tell. -/
def regOk (r : RegDesc) : Bool :=
  maskOk r (fun f => decide (f.acc = .rw) || decide (f.acc = .rwl)) && maskOk r (fun f => decide (f.acc = .w1c))
    && maskOk r (fun f => decide (f.acc = .w1s))

/-- The sixteen banks. -/
def banks : List (List RegDesc) :=
  [genBank, cfgBank, olfBank, trkBank, dirBank, hlcBank, memBank, atmBank, fabBank, eicBank, dmtBank, jnlBank, pmcBank,
    whsBank, spiBank, ckpBank]

theorem banks_ok : banks.all (fun b => b.all regOk) = true := by decide +kernel

theorem bankOf_mem (a : Nat) : bankOf a = [] ∨ bankOf a ∈ banks := by
  unfold bankOf
  split <;> simp [banks]

theorem regAt_ok {a : Nat} {r : RegDesc} (h : regAt a = some r) : regOk r = true := by
  have hm : r ∈ bankOf a := List.mem_of_find?_eq_some h
  rcases bankOf_mem a with hb | hb
  · rw [hb] at hm; cases hm
  · exact List.all_eq_true.1 (List.all_eq_true.1 banks_ok _ hb) _ hm

theorem maskOk_bit {r : RegDesc} {p : FieldDesc → Bool} (h : maskOk r p = true) {f : FieldDesc} (hf : f ∈ r.fields)
    {i : Nat} (h1 : f.lo ≤ i) (h2 : i ≤ f.hi) : i < 32 ∧ (r.maskOf p).testBit i = p f := by
  have := List.all_eq_true.1 h _ hf
  simp only [Bool.and_eq_true, decide_eq_true_eq] at this
  have hi : i < 32 := by omega
  have h3 := List.all_eq_true.1 this.2 i (List.mem_range.2 hi)
  simp only [h1, h2, decide_true, Bool.and_self, Bool.not_true, Bool.false_or, beq_iff_eq] at h3
  exact ⟨hi, h3⟩

/-- A bit of a written RW or RWL field is the written one. -/
theorem store_rw {m : Core} {a : Nat} {v : Word} {r : RegDesc} (h : regAt a = some r) {f : FieldDesc}
    (hf : f ∈ r.fields) (hacc : f.acc = .rw ∨ f.acc = .rwl) {i : Nat} (h1 : f.lo ≤ i) (h2 : i ≤ f.hi) :
    rbit (storeWrite m a v) a i = bit v i := by
  have hr := regAt_ok h
  simp only [regOk, Bool.and_eq_true] at hr
  obtain ⟨⟨ha, hb⟩, hc⟩ := hr
  obtain ⟨hi, ha⟩ := maskOk_bit ha hf h1 h2
  obtain ⟨_, hb⟩ := maskOk_bit hb hf h1 h2
  obtain ⟨_, hc⟩ := maskOk_bit hc hf h1 h2
  unfold rbit
  rw [storeWrite_get h]
  simp only [bit, storeFields, BitVec.getLsbD_or, BitVec.getLsbD_and, BitVec.getLsbD_not, BitVec.getLsbD_ofNat, hi,
    decide_true, Bool.true_and, ha, hb, hc]
  rcases hacc with e | e <;> simp [e]

/-- A bit of a written W1S field is set where a one is written. -/
theorem store_w1s {m : Core} {a : Nat} {v : Word} {r : RegDesc} (h : regAt a = some r) {f : FieldDesc}
    (hf : f ∈ r.fields) (hacc : f.acc = .w1s) {i : Nat} (h1 : f.lo ≤ i) (h2 : i ≤ f.hi) :
    rbit (storeWrite m a v) a i = (rbit m a i || bit v i) := by
  have hr := regAt_ok h
  simp only [regOk, Bool.and_eq_true] at hr
  obtain ⟨⟨ha, hb⟩, hc⟩ := hr
  obtain ⟨hi, ha⟩ := maskOk_bit ha hf h1 h2
  obtain ⟨_, hb⟩ := maskOk_bit hb hf h1 h2
  obtain ⟨_, hc⟩ := maskOk_bit hc hf h1 h2
  unfold rbit
  rw [storeWrite_get h]
  simp only [bit, storeFields, BitVec.getLsbD_or, BitVec.getLsbD_and, BitVec.getLsbD_not, BitVec.getLsbD_ofNat, hi,
    decide_true, Bool.true_and, ha, hb, hc]
  simp [hacc]

/-- A field of a written register whose bits are RW holds the written value. -/
theorem store_fld {m : Core} {a : Nat} {v : Word} {r : RegDesc} (h : regAt a = some r) {f : FieldDesc}
    (hf : f ∈ r.fields) (hacc : f.acc = .rw ∨ f.acc = .rwl) (hi lo : Nat) (h1 : f.lo ≤ lo) (h2 : hi ≤ f.hi) :
    rfld (storeWrite m a v) a hi lo = fld v hi lo :=
  fld_ext _ _ fun _ h3 h4 => store_rw h hf hacc (Nat.le_trans h1 h3) (Nat.le_trans h4 h2)

/-- A register without RW, W1C and W1S fields keeps its value under a write: so does every other one. -/
theorem store_wo {m : Core} {a : Nat} {v : Word} {r : RegDesc} (h : regAt a = some r)
    (hw : r.maskOf (fun f => decide (f.acc = .rw) || decide (f.acc = .rwl)) = 0)
    (hc : r.maskOf (fun f => decide (f.acc = .w1c)) = 0) (hs : r.maskOf (fun f => decide (f.acc = .w1s)) = 0) (b : Nat) :
    rget (storeWrite m a v) b = rget m b := by
  by_cases hb : b = a
  · subst hb
    rw [storeWrite_get h]
    apply BitVec.eq_of_getLsbD_eq
    intro i hi
    simp only [storeFields, hw, hc, hs, BitVec.getLsbD_or, BitVec.getLsbD_and, BitVec.getLsbD_not, BitVec.getLsbD_ofNat,
      hi, decide_true, Nat.zero_testBit, Bool.and_false, Bool.not_false, Bool.and_true, Bool.or_false]
  · exact storeWrite_regs m a v b (by simpa using hb)

end Sys2Proof.Laws
end

