-- ==== Sys2Proof/Laws/Send.lean ====
section
/-! SUPPORT. What sending a message can do (Machine/Ops.lean, Machine/Link.lean). -/

namespace Sys2Proof.Laws

open Sys2Proof.Machine

/-- The parts that sending changes: a report's, the journal (a dropped message), the port queues and the inbox. -/
def sendParts : List Part := [.ports, .inbox, .jnl, .regs, .eic, .pmc, .whs]

theorem report_send {m n : Core} (h : m.onlyParts Part.report n) : m.onlyParts sendParts n :=
  onlyParts_mono h (by decide)

theorem journal_send {m n : Core} (h : m.onlyParts (.jnl :: Part.report) n) : m.onlyParts sendParts n :=
  onlyParts_mono h (by decide)

theorem enqueue_only (m : Core) (p src : Nat) (o : Option Nat) (x : Msg) : m.onlyParts [.ports] (enqueue m p src o x) := by
  unfold enqueue
  exact onlyParts_ports _ _ (by decide)

theorem deliver_only (m : Core) (p v : Nat) (x : Msg) : m.onlyParts [.inbox] (deliver m p v x) := by
  unfold deliver
  exact onlyParts_inbox _ _ (by decide)

theorem journalDrop_only (m : Core) (x : Msg) (c : Nat) : m.onlyParts (.jnl :: Part.report) (journalDrop m x c) :=
  journal_only _ _ _ _

theorem journalDrop_regs (m : Core) (x : Msg) (c : Nat) : m.onlyRegs journalRegs (journalDrop m x c) :=
  journal_regs _ _ _ _

/-- The message as Jalair originates it. -/
def stamped (m : Core) (x : Msg) : Msg :=
  { x with src := nodeId m, hop := BitVec.ofNat 8 (rfld m 0x840 7 0), dateline := false }

theorem send_only (m : Core) (src : Nat) (o : Option Nat) (e : Bool) (x : Msg) :
    m.onlyParts sendParts (send m src o e x) := by
  have ht := report_send (tally_only .xbr 3 1 m)
  unfold send
  dsimp only
  split
  · exact onlyParts_trans ht (onlyParts_mono (deliver_only _ _ _ _) (by decide))
  · split
    · exact onlyParts_trans ht (onlyParts_mono (enqueue_only _ _ _ _ _) (by decide))
    · split
      · exact onlyParts_trans (onlyParts_trans (onlyParts_trans ht (report_send (tally_only _ _ _ _)))
          (journal_send (journalDrop_only _ _ _))) (onlyParts_mono (deliver_only _ _ _ _) (by decide))
      · exact onlyParts_trans (onlyParts_trans ht (report_send (tally_only _ _ _ _))) (journal_send (journalDrop_only _ _ _))

theorem send_regs (m : Core) (src : Nat) (o : Option Nat) (e : Bool) (x : Msg) :
    m.onlyRegs journalRegs (send m src o e x) := by
  have ht : m.onlyRegs journalRegs (tally .xbr 3 1 m) := onlyRegs_mono (tally_regs _ _ _ _) (by decide)
  have hd (n : Core) (k : Nat) : n.onlyRegs journalRegs (tally .olf k 1 n) := onlyRegs_mono (tally_regs _ _ _ _) (by decide)
  unfold send
  dsimp only
  split
  · exact onlyRegs_trans ht (onlyRegs_of_only (deliver_only _ _ _ _) (by decide))
  · split
    · exact onlyRegs_trans ht (onlyRegs_of_only (enqueue_only _ _ _ _ _) (by decide))
    · split
      · exact onlyRegs_trans (onlyRegs_trans (onlyRegs_trans ht (hd _ _)) (journalDrop_regs _ _ _))
          (onlyRegs_of_only (deliver_only _ _ _ _) (by decide))
      · exact onlyRegs_trans (onlyRegs_trans ht (hd _ _)) (journalDrop_regs _ _ _)

theorem sendMgt_only (m : Core) (x : Msg) : m.onlyParts sendParts (sendMgt m x) := send_only _ _ _ _ _

theorem sendMgt_regs (m : Core) (x : Msg) : m.onlyRegs journalRegs (sendMgt m x) := send_regs _ _ _ _ _

theorem sendReply_only (m : Core) (x : Msg) : m.onlyParts sendParts (sendReply m x) := send_only _ _ _ _ _

theorem sendReply_regs (m : Core) (x : Msg) : m.onlyRegs journalRegs (sendReply m x) := send_regs _ _ _ _ _

theorem sendErr_only (m : Core) (x : Msg) (c : Nat) : m.onlyParts sendParts (sendErr m x c) := sendReply_only _ _

theorem sendErr_regs (m : Core) (x : Msg) (c : Nat) : m.onlyRegs journalRegs (sendErr m x c) := sendReply_regs _ _

theorem sendCmp_only (m : Core) (x : Msg) : m.onlyParts sendParts (sendCmp m x) := sendReply_only _ _

theorem sendCmp_regs (m : Core) (x : Msg) : m.onlyRegs journalRegs (sendCmp m x) := sendReply_regs _ _

theorem flood_only (m : Core) (k src : Nat) (x : Msg) : m.onlyParts sendParts (flood m k src x) := by
  refine onlyParts_foldl _ (fun m p => ?_) _ _
  split
  · exact onlyParts_mono (enqueue_only _ _ _ _ _) (by decide)
  · exact onlyParts_refl _ _

theorem originateBcast_only (m : Core) (x : Msg) : m.onlyParts sendParts (originateBcast m x) :=
  onlyParts_trans (report_send (tally_only .xbr 3 1 m)) (flood_only _ _ _ _)

theorem flood_regs (as : List Nat) (m : Core) (k src : Nat) (x : Msg) : m.onlyRegs as (flood m k src x) := by
  refine onlyRegs_foldl _ (fun m p => ?_) _ _
  split
  · exact onlyRegs_of_only (enqueue_only _ _ _ _ _) (by decide)
  · exact onlyRegs_refl _ _

theorem originateBcast_regs (m : Core) (x : Msg) : m.onlyRegs journalRegs (originateBcast m x) :=
  onlyRegs_trans (onlyRegs_mono (tally_regs .xbr 3 1 m) (by decide)) (flood_regs _ _ _ _ _)

/-! ### The ports -/

/-- Messages have only joined the queues of output ports: everything else of every port is as it was. -/
def joined (m n : Core) : Prop := ∀ q, ∃ l, port n q = { port m q with txq := (port m q).txq ++ l }

theorem joined_refl (m : Core) : joined m m := fun q => ⟨[], by simp⟩

theorem joined_trans {m n k : Core} (h : joined m n) (g : joined n k) : joined m k := by
  intro q
  obtain ⟨l, hl⟩ := h q
  obtain ⟨r, hr⟩ := g q
  exact ⟨l ++ r, by rw [hr, hl]; simp⟩

theorem joined_of_ports {m n : Core} (h : n.ports = m.ports) : joined m n := by
  intro q
  have e : port n q = port m q := by simp [port, h]
  exact ⟨[], by rw [e]; simp⟩

theorem joined_of_only {ps : List Part} {m n : Core} (h : m.onlyParts ps n) (hp : Part.ports ∉ ps) : joined m n :=
  joined_of_ports (h .ports hp)

theorem joined_foldl {α : Type} (f : Core → α → Core) (h : ∀ (m : Core) x, joined m (f m x)) (l : List α) (m : Core) :
    joined m (l.foldl f m) := by
  induction l generalizing m with
  | nil => exact joined_refl m
  | cons x r ih => exact joined_trans (h m x) (ih _)

theorem port_setPort (m : Core) (p q : Nat) (x : Port) : port (setPort m p x) q = if p = q then x else port m q := by
  simp [port, setPort]

theorem enqueue_joined (m : Core) (p src : Nat) (o : Option Nat) (x : Msg) : joined m (enqueue m p src o x) := by
  intro q
  unfold enqueue
  rw [port_setPort]
  split
  · next h => subst h; exact ⟨_, rfl⟩
  · exact ⟨[], by simp⟩

theorem send_joined (m : Core) (src : Nat) (o : Option Nat) (e : Bool) (x : Msg) : joined m (send m src o e x) := by
  have ht : joined m (tally .xbr 3 1 m) := joined_of_only (tally_only _ _ _ _) (by decide)
  unfold send
  dsimp only
  split
  · exact joined_trans ht (joined_of_only (deliver_only _ _ _ _) (by decide))
  · split
    · exact joined_trans ht (enqueue_joined _ _ _ _ _)
    · split
      · exact joined_trans (joined_trans (joined_trans ht (joined_of_only (tally_only _ _ _ _) (by decide)))
          (joined_of_only (journalDrop_only _ _ _) (by decide))) (joined_of_only (deliver_only _ _ _ _) (by decide))
      · exact joined_trans (joined_trans ht (joined_of_only (tally_only _ _ _ _) (by decide)))
          (joined_of_only (journalDrop_only _ _ _) (by decide))

theorem flood_joined (m : Core) (k src : Nat) (x : Msg) : joined m (flood m k src x) := by
  refine joined_foldl _ (fun m p => ?_) _ _
  split
  · exact enqueue_joined _ _ _ _ _
  · exact joined_refl _

theorem originateBcast_joined (m : Core) (x : Msg) : joined m (originateBcast m x) :=
  joined_trans (joined_of_only (tally_only .xbr 3 1 m) (by decide)) (flood_joined _ _ _ _)

theorem dropMsg_only (m : Core) (p : Nat) (x : Msg) (c : Nat) : m.onlyParts sendParts (dropMsg m p x c) := by
  have h : m.onlyParts sendParts (journalDrop (tally .olf (160 + p) 1 m) x c) :=
    onlyParts_trans (report_send (tally_only _ _ _ _)) (journal_send (journalDrop_only _ _ _))
  unfold dropMsg
  dsimp only
  split
  · exact onlyParts_trans h (sendErr_only _ _ _)
  · exact h

theorem dropMsg_regs (m : Core) (p : Nat) (x : Msg) (c : Nat) : m.onlyRegs journalRegs (dropMsg m p x c) := by
  have h : m.onlyRegs journalRegs (journalDrop (tally .olf (160 + p) 1 m) x c) :=
    onlyRegs_trans (onlyRegs_mono (tally_regs _ _ _ _) (by decide)) (journalDrop_regs _ _ _)
  unfold dropMsg
  dsimp only
  split
  · exact onlyRegs_trans h (sendErr_regs _ _ _)
  · exact h

theorem dropMsg_joined (m : Core) (p : Nat) (x : Msg) (c : Nat) : joined m (dropMsg m p x c) := by
  have h : joined m (journalDrop (tally .olf (160 + p) 1 m) x c) :=
    joined_trans (joined_of_only (tally_only _ _ _ _) (by decide)) (joined_of_only (journalDrop_only _ _ _) (by decide))
  unfold dropMsg
  dsimp only
  split
  · exact joined_trans h (send_joined _ _ _ _ _)
  · exact h

theorem steer_only (m : Core) (p : Nat) (x : Msg) : m.onlyParts sendParts (steer m p x) := by
  have h : m.onlyParts sendParts (tally .xbr (16 + clsCode (clsOf x.op)) 1 (tally .xbr 1 1 m)) :=
    onlyParts_trans (report_send (tally_only _ _ _ _)) (report_send (tally_only _ _ _ _))
  unfold steer
  dsimp only
  split
  · exact onlyParts_trans h (dropMsg_only _ _ _ _)
  · split
    · exact onlyParts_trans h (onlyParts_mono (enqueue_only _ _ _ _ _) (by decide))
    · exact onlyParts_trans h (dropMsg_only _ _ _ _)

theorem steer_regs (m : Core) (p : Nat) (x : Msg) : m.onlyRegs journalRegs (steer m p x) := by
  have h : m.onlyRegs journalRegs (tally .xbr (16 + clsCode (clsOf x.op)) 1 (tally .xbr 1 1 m)) :=
    onlyRegs_trans (onlyRegs_mono (tally_regs _ _ _ _) (by decide)) (onlyRegs_mono (tally_regs _ _ _ _) (by decide))
  unfold steer
  dsimp only
  split
  · exact onlyRegs_trans h (dropMsg_regs _ _ _ _)
  · split
    · exact onlyRegs_trans h (onlyRegs_of_only (enqueue_only _ _ _ _ _) (by decide))
    · exact onlyRegs_trans h (dropMsg_regs _ _ _ _)

theorem steer_joined (m : Core) (p : Nat) (x : Msg) : joined m (steer m p x) := by
  have h : joined m (tally .xbr (16 + clsCode (clsOf x.op)) 1 (tally .xbr 1 1 m)) :=
    joined_trans (joined_of_only (tally_only _ _ _ _) (by decide)) (joined_of_only (tally_only _ _ _ _) (by decide))
  unfold steer
  dsimp only
  split
  · exact joined_trans h (dropMsg_joined _ _ _ _)
  · split
    · exact joined_trans h (enqueue_joined _ _ _ _ _)
    · exact joined_trans h (dropMsg_joined _ _ _ _)

end Sys2Proof.Laws
end

