-- ==== Sys2Proof/Laws/Actions.lean ====
section
/-! SUPPORT. What an accepted write does beyond storing its fields, address block by address block (Machine/Regs.lean),
and the registers of the blocks. -/

namespace Sys2Proof.Laws

open Sys2Proof.Machine

/-! ### Addresses of the blocks -/

theorem portCfg_addr (p : Fin 16) : inBlock 0x800 8 (0x800 + 4 * p.val) = decide (p.val < 8) := by revert p; decide

theorem linkCtl_addr (p : Fin 16) : inBlock 0x900 16 (0x900 + 4 * p.val) = true := by revert p; decide

theorem linkCtl_reg (p : Fin 16) : regAt (0x900 + 4 * p.val) = some ⟨0x0900, 16, 0x4, [⟨0, 0, .rw, 0, .sw, none⟩]⟩ := by
  revert p; decide +kernel

theorem evinCfg_addr (n : Fin 16) : inBlock 0x2500 16 (0x2500 + 4 * n.val) = true := by revert n; decide

theorem pending_addr (k : Fin 8) : inBlock 0x2400 8 (0x2400 + 4 * k.val) = true := by revert k; decide

theorem low_addr (i : Fin 8) : isView (0x3040 + 4 * i.val) = true := by revert i; decide

theorem high_addr (i : Fin 8) : isView (0x3060 + 4 * i.val) = true := by revert i; decide

/-! ### Actions -/

theorem action_portCfg {old m : Core} {w : Who} {g : Option Msg} {a : Nat} {v : Word} (h : inBlock 0x800 8 a = true) :
    writeAction old m w g a v = if changes old a v 8 8 then bifurcate m ((a - 0x800) / 4) (bit v 8) else m := by
  unfold writeAction
  split <;> first | exact absurd h (by decide) | skip
  rw [if_pos h]

theorem action_linkCtl {old m : Core} {w : Who} {g : Option Msg} {a : Nat} {v : Word} (h : inBlock 0x900 16 a = true) :
    writeAction old m w g a v = if bit v 0 && !rbit old a 0 then clearLink m ((a - 0x900) / 4) .down else m := by
  have h8 : inBlock 0x800 8 a = false := by
    simp only [inBlock, Bool.and_eq_true, decide_eq_true_eq] at h
    simp only [inBlock, Bool.and_eq_false_iff, decide_eq_false_iff_not]; omega
  unfold writeAction
  split <;> first | exact absurd h (by decide) | skip
  rw [h8, if_neg (by decide), if_pos h]

theorem action_pending {old m : Core} {w : Who} {g : Option Msg} {a : Nat} {v : Word} (h : inBlock 0x2400 8 a = true) :
    writeAction old m w g a v = clearPending m ((a - 0x2400) / 4) v := by
  have h' := h
  simp only [inBlock, Bool.and_eq_true, decide_eq_true_eq] at h'
  have h8 : inBlock 0x800 8 a = false := by
    simp only [inBlock, Bool.and_eq_false_iff, decide_eq_false_iff_not]; omega
  have h9 : inBlock 0x900 16 a = false := by
    simp only [inBlock, Bool.and_eq_false_iff, decide_eq_false_iff_not]; omega
  unfold writeAction
  split <;> first | exact absurd h (by decide) | skip
  rw [h8, if_neg (by decide), h9, if_neg (by decide), if_pos h]

theorem action_target {old m : Core} {w : Who} {g : Option Msg} {a : Nat} {v : Word} (h : 0x2480 ≤ a) (h' : a < 0x2500) :
    writeAction old m w g a v = targetWrite m w ((a - 0x2480) / 32) (a % 32) v := by
  have h8 : inBlock 0x800 8 a = false := by
    simp only [inBlock, Bool.and_eq_false_iff, decide_eq_false_iff_not]; omega
  have h9 : inBlock 0x900 16 a = false := by
    simp only [inBlock, Bool.and_eq_false_iff, decide_eq_false_iff_not]; omega
  have h24 : inBlock 0x2400 8 a = false := by
    simp only [inBlock, Bool.and_eq_false_iff, decide_eq_false_iff_not]; omega
  unfold writeAction
  split <;> first | exact absurd h (by decide) | exact absurd h' (by decide) | skip
  rw [h8, if_neg (by decide), h9, if_neg (by decide), h24, if_neg (by decide), if_pos ⟨h, h'⟩]

theorem action_evin {old m : Core} {w : Who} {g : Option Msg} {a : Nat} {v : Word} (h : inBlock 0x2500 16 a = true) :
    writeAction old m w g a v
      = evinDrop (modEic m fun x => { x with evinKnown := tput false x.evinKnown ((a - 0x2500) / 4) false })
          ((a - 0x2500) / 4) := by
  have h' := h
  simp only [inBlock, Bool.and_eq_true, decide_eq_true_eq] at h'
  have h8 : inBlock 0x800 8 a = false := by
    simp only [inBlock, Bool.and_eq_false_iff, decide_eq_false_iff_not]; omega
  have h9 : inBlock 0x900 16 a = false := by
    simp only [inBlock, Bool.and_eq_false_iff, decide_eq_false_iff_not]; omega
  have h24 : inBlock 0x2400 8 a = false := by
    simp only [inBlock, Bool.and_eq_false_iff, decide_eq_false_iff_not]; omega
  unfold writeAction
  split <;> first | exact absurd h (by decide) | skip
  rw [h8, if_neg (by decide), h9, if_neg (by decide), h24, if_neg (by decide), if_neg (by omega), if_pos h]

theorem action_mark {old m : Core} {w : Who} {g : Option Msg} {a : Nat} {v : Word} (h : 0x3480 ≤ a) (h' : a < 0x3680) :
    writeAction old m w g a v = markWrite m ((a - 0x3480) / 32) (a % 32) v := by
  have h8 : inBlock 0x800 8 a = false := by
    simp only [inBlock, Bool.and_eq_false_iff, decide_eq_false_iff_not]; omega
  have h9 : inBlock 0x900 16 a = false := by
    simp only [inBlock, Bool.and_eq_false_iff, decide_eq_false_iff_not]; omega
  have h24 : inBlock 0x2400 8 a = false := by
    simp only [inBlock, Bool.and_eq_false_iff, decide_eq_false_iff_not]; omega
  have h25 : inBlock 0x2500 16 a = false := by
    simp only [inBlock, Bool.and_eq_false_iff, decide_eq_false_iff_not]; omega
  have hv : isView a = false := by
    simp only [isView, inBlock, Bool.or_eq_false_iff, Bool.and_eq_false_iff, decide_eq_false_iff_not]; omega
  unfold writeAction
  split <;> first | exact absurd h (by decide) | exact absurd h' (by decide) | skip
  rw [h8, if_neg (by decide), h9, if_neg (by decide), h24, if_neg (by decide), if_neg (by omega), h25, if_neg (by decide),
    hv, if_neg (by decide), if_pos ⟨h, h'⟩]

theorem action_window {old m : Core} {w : Who} {g : Option Msg} {v : Word} (i : WinId) :
    writeAction old m w g (winCmd i) v = winAccept m i (winPend m i v) := by cases i <;> rfl

/-- A write to any other address only stores its fields. -/
theorem action_plain {old m : Core} {w : Who} {g : Option Msg} {a : Nat} {v : Word} (h : plainAddr a = true) :
    writeAction old m w g a v = m := by
  unfold plainAddr at h
  simp only [Bool.and_eq_true, Bool.not_eq_true', Bool.and_eq_false_iff, decide_eq_false_iff_not, List.contains_eq_mem,
    List.mem_cons, List.not_mem_nil, or_false, not_or, Option.isNone_iff_eq_none] at h
  unfold writeAction
  split <;> simp_all
  rw [if_neg (by omega), if_neg (by omega)]

/-! ### The link layer cleared (R58, R94) -/

/-- The configuration that a port runs with after its link layer was cleared (R869). -/
def actAfter (m : Core) (p : Nat) (st : LinkState) : Word :=
  if st = .training then rget m (0x800 + 4 * p) else (port m p).act

theorem clearLink_port (m : Core) (p : Nat) (st : LinkState) :
    ∃ l, port (clearLink m p st) p = { link := st, everLost := (port m p).everLost, act := actAfter m p st, txq := l } := by
  unfold clearLink
  dsimp only
  obtain ⟨l, hl⟩ := joined_trans (joined_foldl _ (fun m t => dropMsg_joined m p t.msg errRoute) (port m p).txq
      (setPort (orphan m p) p { link := st, everLost := (port m p).everLost, act := actAfter m p st }))
    (joined_foldl _ (fun m r => steer_joined m p r.msg) (port m p).rxq _) p
  rw [port_setPort, if_pos rfl] at hl
  exact ⟨_, hl⟩

theorem clearLink_regs (m : Core) (p : Nat) (st : LinkState) : m.onlyRegs journalRegs (clearLink m p st) := by
  unfold clearLink
  dsimp only
  refine onlyRegs_trans ?_ (onlyRegs_foldl _ (fun _ _ => steer_regs _ _ _) _ _)
  exact onlyRegs_trans (onlyRegs_of_eq (n := setPort (orphan m p) p
      { link := st, everLost := (port m p).everLost, act := actAfter m p st }) rfl)
    (onlyRegs_foldl _ (fun _ _ => dropMsg_regs _ _ _ _) _ _)

theorem clearLink_only (m : Core) (p : Nat) (st : LinkState) : m.onlyParts (.trk :: sendParts) (clearLink m p st) := by
  unfold clearLink
  dsimp only
  refine onlyParts_trans ?_ (onlyParts_mono (onlyParts_foldl _ (fun _ _ => steer_only _ _ _) _ _) (by decide))
  refine onlyParts_trans ?_ (onlyParts_mono (onlyParts_foldl _ (fun _ _ => dropMsg_only _ _ _ _) _ _) (by decide))
  refine onlyParts_trans ?_ (onlyParts_ports _ _ (by decide))
  have h1 : m.onlyParts (.trk :: sendParts) { m with
      inbox := m.inbox.map fun i => if i.port = p then { i with slots := false } else i } :=
    onlyParts_inbox _ _ (by decide)
  exact onlyParts_trans h1 (onlyParts_trk _ _ (by decide))

end Sys2Proof.Laws
end

