-- ==== Sys2Proof/Laws/Channel.lean ====
section
/-! SUPPORT. What the write queue of a memory channel and the counts without a register can do (Machine/Channel.lean,
Machine/Ops.lean). -/

namespace Sys2Proof.Laws

open Sys2Proof.Machine

theorem setWq_only (m : Core) (ch : Nat) (q : List Nat) : m.onlyParts [.mem] (setWq m ch q) := onlyParts_mem _ _ (by decide)

theorem wqPush_only (m : Core) (ch lla : Nat) : m.onlyParts [.mem] (wqPush m ch lla) := setWq_only _ _ _

theorem wqDrain_only (m : Core) (ch n : Nat) : m.onlyParts (.mem :: Part.report) (wqDrain m ch n) := by
  unfold wqDrain
  split
  · exact onlyParts_refl _ _
  · refine onlyParts_trans ?_ (onlyParts_mono (setWq_only _ _ _) (by decide))
    split
    · exact onlyParts_mono (tally_only _ _ _ _) (by decide)
    · exact onlyParts_refl _ _

theorem wqAhead_only (m : Core) (ch : Nat) : m.onlyParts (.mem :: Part.report) (wqAhead m ch) := by
  unfold wqAhead
  split
  · exact wqDrain_only _ _ _
  · exact onlyParts_refl _ _

theorem countRule_only (m : Core) (r : Nat) : m.onlyParts [.trk] (countRule m r) := onlyParts_trk _ _ (by decide)

theorem countProto_only (m : Core) (x : Msg) (r : Nat) : m.onlyParts (.trk :: .jnl :: Part.report) (countProto m x r) :=
  onlyParts_trans (onlyParts_mono (countRule_only m r) (by decide)) (onlyParts_mono (journal_only _ _ _ _) (by decide))

end Sys2Proof.Laws
end

