-- ==== Sys2Proof/Laws/Memory.lean ====
section
/-! SUPPORT. The laws of the DRAM content: every operation keeps the canonical form, and a byte reads as it was last
written. -/

namespace Sys2Proof.Machine

/-! ### Rising lists -/

theorem rising_weaken {a b : Nat} {l : List Nat} (h : rising b l = true) (hab : a ≤ b) : rising a l = true := by
  cases l with
  | nil => rfl
  | cons k r =>
    simp only [rising, Bool.and_eq_true, decide_eq_true_eq] at h ⊢
    exact ⟨by omega, h.2⟩

theorem rising_cons {a k : Nat} {r : List Nat} :
    rising a (k :: r) = true ↔ a ≤ k ∧ rising (k + 1) r = true := by simp [rising]

theorem not_mem_of_rising {a k : Nat} {l : List Nat} (h : rising a l = true) (hk : k < a) : k ∉ l := by
  induction l generalizing a with
  | nil => simp
  | cons j r ih =>
    rw [rising_cons] at h
    simp only [List.mem_cons, not_or]
    exact ⟨by omega, ih h.2 (by omega)⟩

theorem rising_putKey {a k : Nat} {l : List Nat} {on : Bool} (h : rising a l = true) (hk : a ≤ k) :
    rising a (putKey l k on) = true := by
  induction l generalizing a with
  | nil => cases on <;> simp [putKey, rising, hk]
  | cons j r ih =>
    have h' := rising_cons.1 h
    unfold putKey
    split
    · rename_i hlt
      cases on
      · exact h
      · exact rising_cons.2 ⟨hk, rising_cons.2 ⟨by omega, h'.2⟩⟩
    · split
      · rename_i heq
        cases on
        · exact rising_weaken h'.2 (by omega)
        · exact h
      · exact rising_cons.2 ⟨h'.1, ih h'.2 (by omega)⟩

/-- A key stands in the list after it was put in, and not after it was taken out. -/
theorem mem_putKey {a k j : Nat} {l : List Nat} {on : Bool} (h : rising a l = true) :
    j ∈ putKey l k on ↔ (j = k ∧ on = true) ∨ (j ≠ k ∧ j ∈ l) := by
  induction l generalizing a with
  | nil => cases on <;> simp [putKey]
  | cons i r ih =>
    have h' := rising_cons.1 h
    have hi := not_mem_of_rising h'.2 (Nat.lt_succ_self i)
    unfold putKey
    split
    · rename_i hlt
      have hk : k ∉ i :: r := not_mem_of_rising (rising_cons.2 ⟨Nat.le_refl i, h'.2⟩) hlt
      cases on
      · by_cases hj : j = k <;> simp_all
      · by_cases hj : j = k <;> simp_all
    · split
      · rename_i heq
        subst heq
        cases on
        · by_cases hj : j = k <;> simp_all
        · by_cases hj : j = k <;> simp_all
      · rename_i hne
        have := ih h'.2
        by_cases hj : j = k <;> by_cases hij : j = i <;> simp_all

/-! ### Cells -/

/-- Cells in canonical form, at or above an address. -/
def cellsWf (a : Nat) (cs : List Host.Cell) : Bool := rising a (cs.map (·.1)) && cs.all (fun c => c.2 != 0#8)

theorem cellsWf_cons {a : Nat} {c : Host.Cell} {r : List Host.Cell} :
    cellsWf a (c :: r) = true ↔ a ≤ c.1 ∧ c.2 ≠ 0#8 ∧ cellsWf (c.1 + 1) r = true := by
  simp only [cellsWf, List.map_cons, List.all_cons, Bool.and_eq_true, rising_cons, bne_iff_ne]
  constructor
  · rintro ⟨⟨h1, h2⟩, h3, h4⟩; exact ⟨h1, h3, h2, h4⟩
  · rintro ⟨h1, h3, h2, h4⟩; exact ⟨⟨h1, h2⟩, h3, h4⟩

theorem cellsWf_weaken {a b : Nat} {cs : List Host.Cell} (h : cellsWf b cs = true) (hab : a ≤ b) :
    cellsWf a cs = true := by
  simp only [cellsWf, Bool.and_eq_true] at h ⊢
  exact ⟨rising_weaken h.1 hab, h.2⟩

theorem cellsWf_putByte {a k : Nat} {b : Byte} {cs : List Host.Cell} (h : cellsWf a cs = true) (hk : a ≤ k) :
    cellsWf a (putByte cs k b) = true := by
  induction cs generalizing a with
  | nil =>
    unfold putByte
    split
    · exact h
    · rename_i hb
      exact cellsWf_cons.2 ⟨hk, hb, rfl⟩
  | cons c r ih =>
    obtain ⟨j, v⟩ := c
    have h' := cellsWf_cons.1 h
    unfold putByte
    split
    · split
      · exact h
      · rename_i hlt hb
        exact cellsWf_cons.2 ⟨hk, hb, cellsWf_cons.2 ⟨hlt, h'.2⟩⟩
    · split
      · rename_i heq
        split
        · exact cellsWf_weaken h'.2.2 (Nat.le_succ_of_le h'.1)
        · rename_i hb
          exact cellsWf_cons.2 ⟨hk, hb, by rw [show (k, b).1 = j from heq]; exact h'.2.2⟩
      · exact cellsWf_cons.2 ⟨h'.1, h'.2.1, ih h'.2.2 (by show j + 1 ≤ k; omega)⟩

theorem cellsWf_putBytes {cs : List Host.Cell} (a : Nat) (x : LineData) (n : Nat) (h : cellsWf 0 cs = true) :
    cellsWf 0 (putBytes cs a x n) = true := by
  induction n with
  | zero => exact h
  | succ n ih => exact cellsWf_putByte ih (Nat.zero_le _)

theorem wf_iff (d : Dram) : Memory.wf d = true ↔ cellsWf 0 d.cells = true ∧ rising 0 d.poison = true := by
  simp [Memory.wf, cellsWf]

/-- Writing a line keeps the canonical form. -/
theorem wf_writeLine {d : Dram} (h : Memory.wf d = true) (lla : Nat) (x : LineData) (p : Bool) :
    Memory.wf (writeLine d lla x p) = true := by
  rw [wf_iff] at h ⊢
  simp only [writeLine]
  have hc := cellsWf_putBytes (64 * lla) x 64 h.1
  exact ⟨hc, rising_putKey h.2 (Nat.zero_le lla)⟩

/-! ### Reading what was written -/

/-- The byte that cells give an address. -/
def cellByte (cs : List Host.Cell) (a : Nat) : Byte :=
  match cs.find? (fun c => c.1 = a) with
  | some c => c.2
  | none => 0

theorem readByte_eq (d : Dram) (a : Nat) : readByte d a = cellByte d.cells a := rfl

theorem cellByte_cons (c : Host.Cell) (r : List Host.Cell) (a : Nat) :
    cellByte (c :: r) a = if a = c.1 then c.2 else cellByte r a := by
  by_cases h : c.1 = a
  · simp [cellByte, h]
  · simp [cellByte, h, Ne.symm h]

theorem cellByte_below {a k : Nat} {cs : List Host.Cell} (h : cellsWf a cs = true) (hk : k < a) : cellByte cs k = 0 := by
  induction cs generalizing a with
  | nil => rfl
  | cons c r ih =>
    have h' := cellsWf_cons.1 h
    rw [cellByte_cons, if_neg (by omega)]
    exact ih h'.2.2 (by omega)

/-- A byte reads as it was put, and every other address reads as before. -/
theorem cellByte_putByte {a k j : Nat} {b : Byte} {cs : List Host.Cell} (h : cellsWf a cs = true) :
    cellByte (putByte cs k b) j = if j = k then b else cellByte cs j := by
  induction cs generalizing a with
  | nil =>
    unfold putByte
    split
    · rename_i hb; by_cases hj : j = k <;> simp [cellByte, hj, hb]
    · rw [cellByte_cons]
  | cons c r ih =>
    obtain ⟨i, v⟩ := c
    have h' := cellsWf_cons.1 h
    unfold putByte
    split
    · rename_i hlt
      split
      · rename_i hb
        by_cases hj : j = k
        · subst hj
          rw [if_pos rfl, hb]
          exact cellByte_below (cellsWf_cons.2 ⟨Nat.le_refl _, h'.2⟩) hlt
        · rw [if_neg hj]
      · rw [cellByte_cons]
    · split
      · rename_i heq
        subst heq
        split
        · rename_i hb
          by_cases hj : j = k
          · subst hj
            rw [if_pos rfl, hb]
            exact cellByte_below h'.2.2 (Nat.lt_succ_self _)
          · rw [if_neg hj, cellByte_cons, if_neg hj]
        · rw [cellByte_cons, cellByte_cons]; by_cases hj : j = k <;> simp [hj]
      · rename_i hne
        rw [cellByte_cons, cellByte_cons, ih h'.2.2]
        by_cases hi : j = i
        · subst hi; rw [if_pos rfl, if_pos rfl, if_neg (fun e => hne e.symm)]
        · rw [if_neg hi, if_neg hi]

theorem cellByte_putBytes {cs : List Host.Cell} (h : cellsWf 0 cs = true) (a : Nat) (x : LineData) (n j : Nat) :
    cellByte (putBytes cs a x n) j = if a ≤ j ∧ j < a + n then lineByte x (j - a) else cellByte cs j := by
  induction n with
  | zero => simp [putBytes, show ¬ (a ≤ j ∧ j < a) by omega]
  | succ n ih =>
    rw [putBytes, cellByte_putByte (cellsWf_putBytes a x n h), ih]
    by_cases hj : j = a + n
    · subst hj; simp
    · rw [if_neg hj]
      by_cases hr : a ≤ j ∧ j < a + n
      · rw [if_pos hr, if_pos ⟨hr.1, by omega⟩]
      · rw [if_neg hr, if_neg (by omega)]

/-- After a line is written, a byte of it reads as written and every other byte as before. -/
theorem readByte_writeLine {d : Dram} (h : Memory.wf d = true) (lla : Nat) (x : LineData) (p : Bool) (j : Nat) :
    readByte (writeLine d lla x p) j
      = if 64 * lla ≤ j ∧ j < 64 * lla + 64 then lineByte x (j - 64 * lla) else readByte d j := by
  have hc := cellByte_putBytes ((wf_iff d).1 h).1 (64 * lla) x 64 j
  simp only [readByte_eq, writeLine]
  exact hc

/-- After a line is written, it is poisoned as written and every other line as before. -/
theorem isPoisoned_writeLine {d : Dram} (h : Memory.wf d = true) (lla : Nat) (x : LineData) (p : Bool) (j : Nat) :
    isPoisoned (writeLine d lla x p) j = if j = lla then p else isPoisoned d j := by
  have := @mem_putKey 0 lla j d.poison p ((wf_iff d).1 h).2
  unfold isPoisoned writeLine
  by_cases hj : j = lla
  · subst hj
    rw [if_pos rfl, Bool.eq_iff_iff, List.contains_iff_mem, this]; simp
  · rw [if_neg hj, Bool.eq_iff_iff, List.contains_iff_mem, List.contains_iff_mem, this]; simp [hj]

end Sys2Proof.Machine
end

