-- ==== Sys2Proof/Laws/Commands.lean ====
section
/-! SUPPORT. What each shape of a command can do: the next state of a command by whether its clocks run, and that the
operations on DRAM content keep its canonical form. -/

namespace Sys2Proof.Laws

open Sys2Proof.Machine

/-! ### Shapes -/

/-- A command of the clocked domains always answers: with its effect while the clocks run, with nothing otherwise. -/
theorem clocked_cases (f : Core → Core) (s : State) :
    (running s.m = true ∧ clocked f s = .next { s with m := f s.m }) ∨ (running s.m = false ∧ clocked f s = .next s) := by
  cases h : running s.m <;> simp [clocked, h]

/-- The same of a command of the domains that run without the main PLL. -/
theorem awakened_cases (f : Core → Core) (s : State) :
    (awake s.m = true ∧ awakened f s = .next { s with m := f s.m }) ∨ (awake s.m = false ∧ awakened f s = .next s) := by
  cases h : awake s.m <;> simp [awakened, h]

/-- The same of a command that reads DRAM. -/
theorem clockedRead_cases (f : Dram → Core → Core) (s : State) :
    (running s.m = true ∧ clockedRead f s = .next { s with m := f s.dram s.m })
      ∨ (running s.m = false ∧ clockedRead f s = .next s) := by
  cases h : running s.m <;> simp [clockedRead, h]

/-- The same of a command that writes DRAM. -/
theorem clockedDram_cases (f : Dram → Core → Dram × Core) (s : State) :
    (running s.m = true ∧ clockedDram f s = .next { s with dram := (f s.dram s.m).1, m := (f s.dram s.m).2 })
      ∨ (running s.m = false ∧ clockedDram f s = .next s) := by
  cases h : running s.m <;> simp [clockedDram, h]

/-! ### DRAM content -/

/-- A write of a line leaves the DRAM as it was or writes exactly that line. -/
theorem dramWrite_cases (d : Dram) (m : Core) (lla : Nat) (x : LineData) (p : Bool) :
    (dramWrite d m lla x p).1 = d ∨ (dramWrite d m lla x p).1 = writeLine d lla x p := by
  unfold dramWrite
  dsimp only
  split
  · exact .inl rfl
  · split
    · split
      · exact .inl rfl
      · exact .inr rfl
    · exact .inr rfl

theorem wf_dramWrite {d : Dram} (h : Memory.wf d = true) (m : Core) (lla : Nat) (x : LineData) (p : Bool) :
    Memory.wf (dramWrite d m lla x p).1 = true := by
  rcases dramWrite_cases d m lla x p with e | e <;> rw [e]
  · exact h
  · exact wf_writeLine h lla x p

/-- Lines written one after another keep the canonical form. -/
theorem wf_writeLines {d : Dram} (h : Memory.wf d = true) (b : Tab (LineData × Bool)) :
    Memory.wf (b.foldl (fun d x => writeLine d x.1 x.2.1 x.2.2) d) = true := by
  induction b generalizing d with
  | nil => exact h
  | cons x r ih =>
    rw [List.foldl_cons]
    exact ih (wf_writeLine h x.1 x.2.1 x.2.2)

theorem wf_bufferBack {d : Dram} (h : Memory.wf d = true) (m : Core) (r : Repair) :
    Memory.wf (bufferBack m d r) = true := by
  unfold bufferBack
  split
  · exact h
  · exact wf_writeLines h r.buf

theorem wf_hardContent {d : Dram} (h : Memory.wf d = true) (m : Core) (ls : List Nat) :
    Memory.wf (hardContent m ls d).1 = true := by
  unfold hardContent
  induction ls generalizing d m with
  | nil => exact h
  | cons l r ih =>
    rw [List.foldl_cons]
    exact ih (wf_writeLine h l _ false) _

end Sys2Proof.Laws
end

