-- ==== Sys2Proof/Tests/Slice0.lean ====
section
/-! SUPPORT. The model's own tests: the well-formedness checks refuse an ill-formed term each, operations give the values
that the spec states, and for every statement with hypotheses the states and operands of `witness_<statement>` meet them
together, for each of its clauses. -/

namespace Sys2Proof.Tests

set_option Elab.async false

open Sys2Proof Sys2Proof.Machine

/-! ### Small states -/

/-- A machine with registers set. -/
def rs (m : Core) (l : List (Nat × Word)) : Core := l.foldl (fun m x => rset m x.1 x.2) m

/-- A state with no DRAM byte listed and no command waiting. -/
def st (m : Core) : State := { m := m }

/-- A state with DRAM content. -/
def std (d : Dram) (m : Core) : State := { m := m, dram := d }

/-- A configuration set: members 2, 4, 8 in slots 3, 5, 200, junction member 6 in slot 7, this node and node 9 as homes. -/
def cset : CfgSet :=
  { slots := [(3, { status := .live, node := 2 }), (5, { status := .live, node := 4 }),
      (7, { status := .live, node := 6, member := true }), (200, { status := .live, node := 8 })]
    home := [(0, { valid := true, k := 8, l8 := 0xFFFFF, nodes := 1 :: List.replicate 15 0 }),
      (1, { valid := true, k := 30, b8 := 0x100000, l8 := 0xFFFFFF, nodes := 9 :: List.replicate 15 0 })]
    route := [(2, 0), (4, 0), (6, 1), (8, 1), (9, 1), (10, 0)] }

/-- A configuration set that passes the check of Table CTL-3. -/
def goodSet : CfgSet :=
  { slots := [(3, { status := .live, node := 2 })]
    home := [(0, { valid := true, k := 8, l8 := 0xFFFFF, nodes := 1 :: List.replicate 15 0 })], route := [(2, 0)] }

/-- Node 1 with its clocks running, two channels of memory, and ports 0 and 1 up. -/
def base : Core :=
  { State.reset.m with
    regs := [(0x20, 0x80000001), (0x1800, 0x10000002)]
    pins := { locked := true }
    cfg := { set0 := cset, set1 := cset }
    ports := [(0, { link := .complete, gotStart := true }), (1, { link := .complete, gotStart := true })]
    deck := { initDone := true }
    mem := { ready := true } }

/-- A number in `n` bytes, most significant first. -/
def nb (v n : Nat) : List Nat := (List.range n).map fun i => v / 256 ^ (n - 1 - i) % 256

/-- An image of the sections given by type and content (Table CTL-4). -/
def mkImage (secs : List (Nat × List Nat)) : List Byte :=
  let body := secs.flatMap fun x => [x.1, 0] ++ nb x.2.length 2 ++ nb (crc32c 0xFFFFFFFF x.2) 4 ++ x.2
  let h := nb 0x4B4C5052 4 ++ nb 1 2 ++ nb secs.length 2 ++ nb (32 + body.length) 4 ++ nb 77 4 ++ List.replicate 12 0
  (h ++ nb (crc32c 0xFFFFFFFF h) 4 ++ body).map (BitVec.ofNat 8)

/-- A flit of a kind, with its sequence and acknowledgement numbers and its messages. -/
def flit (k : Nat) (seq : BitVec 12) (ack : BitVec 12) (xs : List Msg) : Flit :=
  { bits := packFlit (packArea xs) { seq := seq, ack := ack, kind := BitVec.ofNat 2 k } }

/-- A message that names another serial number than Jalair's is no duplicate. -/
theorem not_own (m : Core) (g : Msg) (h : serialOf g ≠ Config.serial) : dupSerial m g = false := by simp [dupSerial, h]

/-- An image check that gives records. -/
theorem ok_of (x : Except Nat (List ImgRec)) (r : List ImgRec) (h : x.toOption = some r) : x = .ok r := by
  cases x <;> simp_all [Except.toOption]

/-- The code of a failed image check. -/
def failOf (x : Except Nat (List ImgRec)) : Option Nat :=
  match x with
  | .ok _ => none
  | .error k => some k

theorem error_of (x : Except Nat (List ImgRec)) (k : Nat) (h : failOf x = some k) : x = .error k := by
  cases x <;> simp_all [failOf]

/-- A request or writeback of member 2 for a line of this home, tag 9. -/
def reqOf (op : Op) : Msg := { op := op, dest := 1, src := 2, tag := 9, line := 0x100, epoch := base.cfg.epoch, data := 0x1122334455 }

/-- An HTE about to decide a message of slot 3. -/
def act (g : Msg) : Hte :=
  { kind := .active, msg := g, port := 0, slot := some 3, epoch := base.cfg.epoch, wait := .decision }

/-- A machine whose HTE 4095 alone is in use. -/
def one (x : Hte) : Core := { base with trk := { htes := [(4095, x)], hteUse := [(3, 1)] } }

/-- A machine whose Deck lists one way. -/
def listed (m : Core) (k : Nat) (d : DirEnt) : Core := { m with deck := { m.deck with ents := [(k, d)] } }

/-- A machine with one message arrived. -/
def got (m : Core) (p : Nat) (g : Msg) : Core := { m with inbox := [⟨p, vcOf g, g, true⟩] }

/-- A junction of node 9's fabric, coupled. -/
def jct (m : Core) : Core := rs { m with fab := { m.fab with cplState := 2 } } [(0x1C, 1), (0x1000, 0)]

/-! ### The statements' hypotheses can be met -/

theorem witness_WrittenBitsFollowTheirAccessType :
    (∃ (addr : Nat) (r : RegDesc) (f : FieldDesc) (i : Nat), (regAt addr = some r) ∧ (f ∈ r.fields) ∧ (f.lo ≤ i) ∧ (i ≤ f.hi)) :=
  ⟨0x30, (regAt 0x30).getD ⟨0, 0, 0, []⟩, ((regAt 0x30).getD ⟨0, 0, 0, []⟩).fields.headD ⟨0,0,.ro,0,.hw,none⟩, 31, by decide +kernel⟩

theorem witness_RegisterWriteSetsItsFields :
    (∃ (s : State) (a : Lmb) (n : BitVec 14) (v : Word) (r : RegDesc), (Accepted s a (4 * n.toNat) v) ∧ (regAt (4 * n.toNat) = some r) ∧ (plainAddr (4 * n.toNat) = true)) :=
  ⟨st base, ⟨5, true⟩, 0x700, 0xFFFF, (regAt 0x1C00).getD ⟨0,0,0,[]⟩, by decide +kernel⟩

theorem witness_RejectedWriteChangesOnlyTheRecord :
    (∃ (s : State) (a : Lmb) (n : BitVec 14) (v : Word), (running s.m = true) ∧ (writeCode s.m (lmbWho a) (4 * n.toNat) v ≠ 0) ∧ (4 * n.toNat ≠ 0x2810)) :=
  ⟨st (rs base [(0x2C,1)]), ⟨5, true⟩, 0x108, 1, by decide +kernel⟩

theorem witness_UnprivilegedAndLockedWritesAreRejected :
    (∃ (s : State) (a : Lmb) (n : BitVec 14), (running s.m = true) ∧ ((6 ≤ a.mid.toNat ∨ (a.priv = false ∧ (regAt (4 * n.toNat)).isSome = true ∧ 4 * n.toNat ≠ 0x2810)))) ∧
    (∃ (s : State) (a : Lmb) (n : BitVec 14) (r : RegDesc), (running s.m = true) ∧ (rbit s.m 0x2C 0 = true) ∧ (a.mid.toNat < 6) ∧ (a.priv = true) ∧ (s.m.boot.applying = false) ∧ (regAt (4 * n.toNat) = some r) ∧ (r.hasRwl = true)) :=
  ⟨⟨st base, ⟨7, false⟩, 0xA04, by decide +kernel⟩,
   ⟨st (rs base [(0x2C,1)]), ⟨5, true⟩, 0x108, (regAt 0x420).getD ⟨0,0,0,[]⟩, by decide +kernel⟩⟩

theorem witness_GenWritesTakeEffect :
    (∃ (s : State) (a : Lmb), (Accepted s a 0x2C 1)) ∧
    (∃ (s : State) (a : Lmb), (Accepted s a 0x3C 1)) ∧
    (∃ (s : State) (a : Lmb) (v : Word), (Accepted s a 0x20 v)) ∧
    (∃ (s : State) (a : Lmb) (v : Word), (Accepted s a 0x1C v)) ∧
    (∃ (m : Core) (w : Who) (v : Word), (writeCode m w 0x1C v = 0)) ∧
    (∃ (m : Core) (w : Who) (v : Word), (writeCode m w 0x3C v = 0) ∧ (bit v 0 = true)) :=
  ⟨⟨st base, ⟨0, true⟩, by decide +kernel⟩,
   ⟨st (rs base [(0x34,0x05000000),(0x38,7)]), ⟨0, true⟩, by decide +kernel⟩,
   ⟨st base, ⟨0, true⟩, 0x80000000, by decide +kernel⟩,
   ⟨st base, ⟨0, true⟩, 2, by decide +kernel⟩,
   ⟨base, { mid := 0, priv := true, lmb := true }, 2, by decide +kernel⟩,
   ⟨rs base [(0x30,5),(0x34,0x05000000),(0x38,7)], { mid := 0, priv := true, lmb := true }, 1, by decide +kernel⟩⟩

theorem witness_PortAndBootWritesTakeEffect :
    (∃ (s : State) (a : Lmb) (p : PortIx) (v : Word), (Accepted s a (0x800 + 4 * p.val) v)) ∧
    (∃ (s : State) (a : Lmb), (Accepted s a 0x44 1)) ∧
    (∃ (s : State) (a : Lmb) (p : PortIx), (Accepted s a (0x900 + 4 * p.val) 1) ∧ (rbit s.m (0x900 + 4 * p.val) 0 = false)) :=
  ⟨⟨st (rs base [(0x81C,0x100)]), ⟨0, true⟩, 15, 0x10, by decide +kernel⟩,
   ⟨st base, ⟨0, true⟩, by decide +kernel⟩,
   ⟨st base, ⟨0, true⟩, 15, by decide +kernel⟩⟩

theorem witness_SplitReadsLatchTheHighHalf :
    (∃ (s : State) (a : Lmb), (running s.m = true) ∧ (a.mid.toNat < 6) ∧ (a.priv = true) ∧ (softHeld s.m 2 = false) ∧ (viewSource s.m a.mid.toNat = 0)) ∧
    (∃ (s : State) (a : Lmb), (running s.m = true) ∧ (a.mid.toNat < 6) ∧ (a.priv = true) ∧ (softHeld s.m 2 = false)) ∧
    (∃ (s : State) (a : Lmb), (running s.m = true) ∧ (a.mid.toNat < 6) ∧ (a.priv = true)) :=
  ⟨⟨st base, ⟨5, true⟩, by decide +kernel⟩,
   ⟨st base, ⟨5, true⟩, by decide +kernel⟩,
   ⟨st base, ⟨5, true⟩, by decide +kernel⟩⟩

def w1_s : State :=
  st base

def w1_a : Lmb :=
  ⟨5, true⟩

def w1_w (z : WinId × Bool) : WinCmd :=
  { seq := 15, index := 2, table := match z.1 with | .cfg => 1 | .fab => 2 | _ => 0, set := (match z.1 with | .cfg => true | _ => false) && !base.cfg.epoch }

theorem witness_WindowCommandsBecomePending :
    (∀ z ∈ ([(WinId.cfg, false), (WinId.cfg, true), (WinId.trk, false), (WinId.dir, false), (WinId.atm, false), (WinId.atm, true), (WinId.fab, false), (WinId.fab, true), (WinId.ppr, false), (WinId.eic, false), (WinId.eic, true), (WinId.pmc, false), (WinId.pmc, true), (WinId.whs, false)] : List (WinId × Bool)), (Accepted w1_s w1_a (winCmd z.1) (cmdWord z.2 ((w1_w z))))) :=
  by decide +kernel

theorem witness_WindowCommandsComplete :
    (∃ (s : State) (i : WinId) (p : WinPend), (running s.m = true) ∧ ((winOf s.m i).pend = some p) ∧ (p.write = false)) ∧
    (∃ (s : State) (p : WinPend), (running s.m = true) ∧ (p.write = true) ∧ ((winOf s.m .cfg).pend = some p) ∧ (p.table = 2)) ∧
    (∃ (s : State) (p : WinPend), (running s.m = true) ∧ (p.write = true) ∧ ((winOf s.m .atm).pend = some p)) ∧
    (∃ (s : State) (p : WinPend), (running s.m = true) ∧ (p.write = true) ∧ ((winOf s.m .eic).pend = some p)) ∧
    (∃ (s : State) (p : WinPend), (running s.m = true) ∧ (p.write = true) ∧ ((winOf s.m .pmc).pend = some p)) :=
  ⟨⟨st { base with wins := [(winNum (.whs), { pend := some ({ seq := 15, write := false, set := true, table := 0, index := 5, words := [] }), seq := 15 })] }, .whs, { seq := 15, write := false, set := true, table := 0, index := 5, words := [] }, by decide +kernel⟩,
   ⟨st { base with wins := [(winNum (.cfg), { pend := some ({ seq := 15, write := true, set := false, table := 2, index := 7, words := [0x0000157F, 0x2, 0x3, 4, 5, 6, 7] }), seq := 15 })] }, { seq := 15, write := true, set := false, table := 2, index := 7, words := [0x0000157F, 0x2, 0x3, 4, 5, 6, 7] }, by decide +kernel⟩,
   ⟨st { base with wins := [(winNum (.atm), { pend := some ({ seq := 15, write := true, set := false, table := 0, index := 1023, words := [0x0000157F, 0x2, 0x3, 4, 5, 6, 7] }), seq := 15 })] }, { seq := 15, write := true, set := false, table := 0, index := 1023, words := [0x0000157F, 0x2, 0x3, 4, 5, 6, 7] }, by decide +kernel⟩,
   ⟨st { base with wins := [(winNum (.eic), { pend := some ({ seq := 15, write := true, set := false, table := 0, index := 255, words := [0x0000157F, 0x2, 0x3, 4, 5, 6, 7] }), seq := 15 })] }, { seq := 15, write := true, set := false, table := 0, index := 255, words := [0x0000157F, 0x2, 0x3, 4, 5, 6, 7] }, by decide +kernel⟩,
   ⟨st { base with wins := [(winNum (.pmc), { pend := some ({ seq := 15, write := true, set := false, table := 0, index := 127, words := [0x0000157F, 0x2, 0x3, 4, 5, 6, 7] }), seq := 15 })] }, { seq := 15, write := true, set := false, table := 0, index := 127, words := [0x0000157F, 0x2, 0x3, 4, 5, 6, 7] }, by decide +kernel⟩⟩

theorem witness_CopyMakesTheSetsEqual :
    (∃ (s : State) (a : Lmb), (Accepted s a 0x408 1)) ∧
    (∃ (s : State), (running s.m = true) ∧ (s.m.cfg.copying = true)) :=
  ⟨⟨st { base with cfg := { base.cfg with drain := false } }, ⟨0, true⟩, by decide +kernel⟩,
   ⟨st { base with cfg := { base.cfg with copying := true, set0 := {} } }, by decide +kernel⟩⟩

theorem witness_ThrowFlipsTheEpoch :
    (∃ (s : State) (a : Lmb), (Accepted s a 0x404 1)) ∧
    (∃ (s : State) (mid : Nat), (running s.m = true) ∧ (s.m.cfg.check = .throwCmd) ∧ (s.m.cfg.thrAcc = some (mid, false, none)) ∧ (mid < 6) ∧ (throwCheck s.m = none)) ∧
    (∃ (s : State) (mid : Nat) (f : CheckFail), (running s.m = true) ∧ (s.m.cfg.check = .throwCmd) ∧ (s.m.cfg.thrAcc = some (mid, false, none)) ∧ (mid < 6) ∧ (throwCheck s.m = some f)) ∧
    (∃ (s : State), (running s.m = true) ∧ (s.m.cfg.drain = true) ∧ (drainHeld s.m = false)) :=
  ⟨⟨st { base with cfg := { set0 := goodSet, set1 := goodSet, epoch := base.cfg.epoch } }, ⟨0, true⟩, by decide +kernel⟩,
   ⟨st { base with cfg := { set0 := goodSet, set1 := goodSet, epoch := base.cfg.epoch, check := .throwCmd, thrAcc := some (5, false, none) } }, 5, by decide +kernel⟩,
   ⟨st { base with cfg := { set0 := { goodSet with wayMasks := [(3, 0)] }, set1 := { goodSet with wayMasks := [(3, 0)] }, epoch := base.cfg.epoch, check := .throwCmd, thrAcc := some (5, false, none) } }, 5, ⟨2, 2, 3⟩, by decide +kernel⟩,
   ⟨st { base with cfg := { base.cfg with drain := true }, trk := {} }, by decide +kernel⟩⟩

theorem witness_PassedCheckMeansSoundRegions :
    (∃ (m : Core), (throwCheck m = none)) ∧
    (∃ (m : Core), (throwCheck m = none)) :=
  ⟨⟨{ base with cfg := { set0 := { goodSet with regions := [(0, { valid := true, basePn := 5, limitPn := 5 })] }, set1 := { goodSet with regions := [(0, { valid := true, basePn := 5, limitPn := 5 })] }, epoch := base.cfg.epoch } }, by decide +kernel⟩,
   ⟨{ base with cfg := { set0 := { goodSet with regions := [(0, { valid := true, basePn := 5, limitPn := 5 })] }, set1 := { goodSet with regions := [(0, { valid := true, basePn := 5, limitPn := 5 })] }, epoch := base.cfg.epoch } }, by decide +kernel⟩⟩

theorem witness_BlockControlsTakeEffect :
    (∃ (s : State) (a : Lmb) (v : Word), (Accepted s a 0x1400 v)) ∧
    (∃ (s : State) (a : Lmb), (Accepted s a 0x1408 1)) ∧
    (∃ (s : State) (a : Lmb), (Accepted s a 0x1804 1)) ∧
    (∃ (s : State) (a : Lmb) (v : Word), (Accepted s a 0x1840 v) ∧ (s.m.mem.repair = none)) ∧
    (∃ (s : State) (a : Lmb) (slot : BitVec 8), (Accepted s a 0x1008 (slot.setWidth 32)) ∧ ((∀ o ∈ s.m.deck.orders, ¬ (o.kind = .clear ∧ o.slot = slot.toNat)))) ∧
    (∃ (s : State) (a : Lmb) (mirror : Bool) (set : BitVec 18), (Accepted s a 0x1030 (BitVec.ofNat 32 (b1 mirror * 2 ^ 31 + set.toNat))) ∧ (retired s.m set.toNat = false)) :=
  ⟨⟨st (rs base [(0x1400,1)]), ⟨0, true⟩, 0, by decide +kernel⟩,
   ⟨st base, ⟨0, true⟩, by decide +kernel⟩,
   ⟨st { base with mem := {} }, ⟨0, true⟩, by decide +kernel⟩,
   ⟨st { base with mem := {} }, ⟨0, true⟩, 0, by decide +kernel⟩,
   ⟨st (modSet (modSet base false fun c => { c with slots := [(255, { status := .leaving, node := 2 })] }) true fun c => { c with slots := [(255, { status := .leaving, node := 2 })] }), ⟨0, true⟩, 255, by decide +kernel⟩,
   ⟨st base, ⟨0, true⟩, false, 0, by decide +kernel⟩⟩

theorem witness_SourcesAreRaisedAndCleared :
    (∃ (s : State) (a : Lmb) (source : BitVec 8), (Accepted s a 0x2448 (source.setWidth 32))) ∧
    (∃ (s : State) (a : Lmb) (k : Fin 8) (v : Word), (Accepted s a (0x2400 + 4 * k.val) v)) ∧
    (∃ (s : State) (a : Lmb) (n : Fin 16) (v : Word), (Accepted s a (0x2500 + 4 * n.val) v)) ∧
    (∃ (s : State) (n : Fin 16) (level : Bool), (running s.m = true) ∧ (tget false s.m.eic.evinKnown n.val = true) ∧ (tget false s.m.eic.evin n.val ≠ level)) :=
  ⟨⟨st base, ⟨0, true⟩, 192, by decide +kernel⟩,
   ⟨st { base with eic := { base.eic with st := [(3, .pending), (31, .both), (32, .pending), (255, .pending)] } }, ⟨0, true⟩, 7, 0x80000008, by decide +kernel⟩,
   ⟨st { base with eic := { base.eic with st := [(0, .pending), (15, .both)] } }, ⟨0, true⟩, 0, 0xFFFF0002, by decide +kernel⟩,
   ⟨st (rs { base with eic := { base.eic with evinKnown := [(15, true)], evin := [(15, false)], st := [(15, .pending)] } } [(0x2500 + 4 * 15, 3)]), 15, true, by decide +kernel⟩⟩

theorem witness_ClaimsAndCompletionsMoveTheSource :
    (∃ (s : State) (a : Lmb) (n : Fin 4) (k : Nat), (Accepted s a (0x248C + 0x20 * n.val) 1) ∧ (selected s.m n.val = some k) ∧ (k < 256)) ∧
    (∃ (s : State) (a : Lmb) (n : Fin 4), (Accepted s a (0x248C + 0x20 * n.val) 1) ∧ (selected s.m n.val = none)) ∧
    (∃ (s : State) (a : Lmb) (n : Fin 4) (source : BitVec 8), (Accepted s a (0x2494 + 0x20 * n.val) (source.setWidth 32))) ∧
    (∃ (s : State) (a : Lmb) (n : Fin 4) (source : BitVec 8), (Accepted s a (0x2498 + 0x20 * n.val) (source.setWidth 32))) ∧
    (∃ (s : State) (a : Lmb) (n : Fin 4) (source : BitVec 8), (running s.m = true) ∧ (a.mid.toNat < 6) ∧ (a.priv = true) ∧ (s.m.boot.applying = false) ∧ (softHeld s.m 1 = false) ∧ ((stackOf s.m n.val).head?.map (·.1) ≠ some source.toNat)) ∧
    (∃ (s : State) (a : Lmb) (source : BitVec 8), (running s.m = true) ∧ (a.mid.toNat < 6) ∧ (a.priv = true) ∧ (s.m.boot.applying = false) ∧ (softHeld s.m 1 = false) ∧ (isActive s.m source.toNat = false)) :=
  ⟨⟨st (rs { base with eic := { base.eic with cfg := [(255, (3, 0))], st := [(255, .pending)], stack := [(0, [(9, 2)])] } } [(0x2480, 1)]), ⟨0, true⟩, 0, 255, by decide +kernel⟩,
   ⟨st { base with eic := { base.eic with cfg := [(200, (2, 3)), (254, (2, 3))], st := [(200, .pending), (254, .pending)], stack := [(3, [(9, 2)])] } }, ⟨0, true⟩, 3, by decide +kernel⟩,
   ⟨st { base with eic := { base.eic with cfg := [(255, (3, 1))], st := [(255, .both)], stack := [(3, [(255, 2), (4, 1)])] } }, ⟨0, true⟩, 3, 255, by decide +kernel⟩,
   ⟨st (rs { base with eic := { base.eic with cfg := [(255, (3, 3))], st := [(255, .both)], stack := [(3, [(255, 2), (4, 1)])] } } [(0x2480 + 0x20 * 3, 1)]), ⟨0, true⟩, 3, 255, by decide +kernel⟩,
   ⟨st { base with eic := { base.eic with stack := [] } }, ⟨0, true⟩, 0, 255, by decide +kernel⟩,
   ⟨st { base with eic := { base.eic with st := [(255, .pending)] } }, ⟨0, true⟩, 255, by decide +kernel⟩⟩

theorem witness_EventsAreSentAndResent :
    (∃ (s : State) (n : Fin 4) (k : Nat) (p : Nat), (running s.m = true) ∧ ((tget {} s.m.eic.evt n.val).waiting = true) ∧ ((tget {} s.m.eic.evt n.val).stalled = false) ∧ (s.m.pmc.cfg = []) ∧ (selected s.m n.val = some k) ∧ (BitVec.ofNat 16 (rfld s.m (0x2488 + 0x20 * n.val) 15 0) ≠ nodeId s.m) ∧ (routeOf s.m s.m.cfg.epoch (BitVec.ofNat 16 (rfld s.m (0x2488 + 0x20 * n.val) 15 0)) = some p)) ∧
    (∃ (s : State) (n : Fin 4) (k : Nat), (running s.m = true) ∧ (rbit s.m (0x2480 + 0x20 * n.val) 2 = true) ∧ (selected s.m n.val = some k)) ∧
    (∃ (s : State) (n : Fin 4), (running s.m = true) ∧ ((tget {} s.m.eic.evt n.val).waiting = true) ∧ ((tget {} s.m.eic.evt n.val).stalled = false)) :=
  ⟨⟨st (rs { base with eic := { base.eic with cfg := [(200, (15, 3))], st := [(200, .pending)], evt := [(3, { waiting := true, source := 200, level := 15 })] }, pmc := {} } [(0x2480 + 0x20 * 3, 4), (0x2488 + 0x20 * 3, 2)]), 3, 200, 0, by decide +kernel⟩,
   ⟨st (rs { base with eic := { base.eic with cfg := [(200, (15, 3))], st := [(200, .pending)], evt := [(3, { waiting := false, source := 200, level := 15 })] }, pmc := {} } [(0x2480 + 0x20 * 3, 4), (0x2488 + 0x20 * 3, 2)]), 3, 200, by decide +kernel⟩,
   ⟨st (rs { base with eic := { base.eic with cfg := [(200, (15, 3))], st := [(200, .pending)], evt := [(3, { waiting := true, source := 200, level := 15 })] }, pmc := {} } [(0x2480 + 0x20 * 3, 4), (0x2488 + 0x20 * 3, 2)]), 3, by decide +kernel⟩⟩

theorem witness_DeadManTimerIsServedOrExpires :
    (∃ (s : State) (a : Lmb) (v : Word), (Accepted s a 0x2800 v) ∧ (dmtOn s.m = false) ∧ (bit v 0 = true)) ∧
    (∃ (s : State) (a : Lmb), (Accepted s a 0x2810 0xA5C3)) ∧
    (∃ (s : State) (a : Lmb) (cycles : Nat), (running s.m = true) ∧ (cycles ≤ 400) ∧ (Accepted s a 0x2810 0x3C5A) ∧ (windowOpen s.m = true)) ∧
    (∃ (s : State) (a : Lmb) (cycles : Nat), (running s.m = true) ∧ (cycles ≤ 400) ∧ (Accepted s a 0x2810 0x3C5A) ∧ (windowOpen s.m = false)) ∧
    (∃ (m : Core), (windowOpen m = true)) ∧
    (∃ (m : Core), (windowOpen m = false)) ∧
    (∃ (s : State), (awake s.m = true) ∧ (dmtOn s.m = true) ∧ (s.m.dmt.stage = 0)) ∧
    (∃ (s : State), (awake s.m = true) ∧ (dmtOn s.m = true) ∧ (s.m.dmt.stage = 1)) :=
  ⟨⟨st (rs base [(0x2804, 1000)]), ⟨0, true⟩, 0xFD, by decide +kernel⟩,
   ⟨st (rs { base with dmt := { count := 600, armed := some (0, 0), armedAt := base.stmp, stage := 1 } } [(0x2814, 0x3F), (0x2804, 1000), (0x2800, 1)]), ⟨5, true⟩, by decide +kernel⟩,
   ⟨st (rs { base with dmt := { count := 600, armed := some (0, 0), armedAt := base.stmp, stage := 0 } } [(0x2814, 0x3F), (0x2804, 1000), (0x2808, 10), (0x2800, 5)]), ⟨0, true⟩, 400, by decide +kernel⟩,
   ⟨st (rs { base with dmt := { count := 600, armed := some (0, 0), armedAt := base.stmp, stage := 0 } } [(0x2814, 0x3F), (0x2804, 1000), (0x2808, 10), (0x2800, 0xD)]), ⟨0, true⟩, 400, by decide +kernel⟩,
   ⟨rs { base with dmt := { count := 600, armed := some (0, 0), armedAt := base.stmp, stage := 0 } } [(0x2814, 0x3F), (0x2804, 1000), (0x2808, 10), (0x2800, 5)], by decide +kernel⟩,
   ⟨rs { base with dmt := { count := 600, armed := some (0, 0), armedAt := base.stmp, stage := 0 } } [(0x2814, 0x3F), (0x2804, 1000), (0x2808, 10), (0x2800, 0xD)], by decide +kernel⟩,
   ⟨st (rs { base with dmt := { count := 600, armed := some (0, 0), armedAt := base.stmp, stage := 0 } } [(0x2814, 0x3F), (0x2804, 1000), (0x2808, 10), (0x2800, 0x31)]), by decide +kernel⟩,
   ⟨st (rs { base with dmt := { count := 600, armed := some (0, 0), armedAt := base.stmp, stage := 1 } } [(0x2814, 0x3F), (0x2804, 1000), (0x2808, 10), (0x2800, 0x31)]), by decide +kernel⟩⟩

theorem witness_JournalWritesTakeEffect :
    (∃ (s : State) (a : Lmb) (severity : BitVec 4), (Accepted s a 0x2C80 (severity.setWidth 32)) ∧ (recAction s.m 8 severity.toNat ≠ 3) ∧ (s.m.jnl.queue.length < 64)) ∧
    (∃ (s : State) (a : Lmb) (index : BitVec 4) (r : BitVec 256), (Accepted s a 0x2CA0 (index.setWidth 32)) ∧ (s.m.jnl.tail[index.toNat]? = some r)) ∧
    (∃ (s : State) (a : Lmb), (Accepted s a 0x2C04 1)) ∧
    (∃ (s : State) (a : Lmb), (Accepted s a 0x2C04 2)) :=
  ⟨⟨st (rs { base with jnl := { base.jnl with queue := [] } } [(0x2C84, 1), (0x2C88, 2), (0x2C8C, 0xFFFFFFFF), (0x2C90, 4)]), ⟨0, true⟩, 4, by decide +kernel⟩,
   ⟨st { base with jnl := { base.jnl with tail := (List.range 16).map fun i => BitVec.ofNat 256 (i + 2 ^ 255 + 2 ^ 100) } }, ⟨0, true⟩, 15, BitVec.ofNat 256 (15 + 2 ^ 255 + 2 ^ 100), by decide +kernel⟩,
   ⟨st (rs base [(0x2C08, 0x337)]), ⟨0, true⟩, by decide +kernel⟩,
   ⟨st (rs base [(0x2C08, 0x337)]), ⟨0, true⟩, by decide +kernel⟩⟩

theorem witness_JournalEngineWritesBothDevices :
    (∃ (s : State) (r : QRec) (q : List QRec), (running s.m = true) ∧ (engineFree s.m = true) ∧ (s.m.jnl.queue = r :: q) ∧ (r.action ≠ 2) ∧ (s.m.jnl.lost = 0) ∧ (rbit s.m 0x2C00 8 = false) ∧ (devLive s.m false = true)) ∧
    (∃ (s : State) (c : JWrite), (running s.m = true) ∧ (s.m.jnl.cur = some c) ∧ (s.m.jnl.pfail = false)) ∧
    (∃ (s : State) (c : JWrite), (running s.m = true) ∧ (s.m.jnl.cur = some c) ∧ (s.m.jnl.pfail = false) ∧ (c.repeated = false)) ∧
    (∃ (s : State) (c : JWrite), (running s.m = true) ∧ (s.m.jnl.cur = some c) ∧ (s.m.jnl.pfail = false) ∧ (c.repeated = true)) :=
  ⟨⟨st { base with jnl := { queue := [⟨2, 1, 77, 0x1234567890, 0⟩, ⟨1, 1, 1, 1, 0⟩], needSearch := false, searched := true, nextSeq := 0xFFFFFFFF, slot := 5, lastCrc := 5 } }, ⟨2, 1, 77, 0x1234567890, 0⟩, [⟨1, 1, 1, 1, 0⟩], by decide +kernel⟩,
   ⟨st (rs { base with jnl := { base.jnl with cur := some ({ bytes := 0x7788, prev := 5, slot := 9, mirror := false, repeated := false }), pfail := false, needSearch := false } } [(0x2C08, 1)]), { bytes := 0x7788, prev := 5, slot := 9, mirror := false, repeated := false }, by decide +kernel⟩,
   ⟨st (rs { base with jnl := { base.jnl with cur := some ({ bytes := 0x7788, prev := 5, slot := 9, mirror := false, repeated := false }), pfail := false, needSearch := false } } [(0x2C08, 2)]), { bytes := 0x7788, prev := 5, slot := 9, mirror := false, repeated := false }, by decide +kernel⟩,
   ⟨st (rs { base with jnl := { base.jnl with cur := some ({ bytes := 0x7788, prev := 5, slot := 9, mirror := false, repeated := true }), pfail := false, needSearch := false } } [(0x2C08, 3)]), { bytes := 0x7788, prev := 5, slot := 9, mirror := false, repeated := true }, by decide +kernel⟩⟩

theorem witness_PowerFailFlushesTheQueue :
    (∃ (s : State), (s.m.jnl.pfail = false) ∧ (running s.m = true)) ∧
    (∃ (s : State), (s.m.jnl.pfail = false) ∧ (running s.m = true) ∧ ((s.m.jnl.needSearch = true ∨ s.m.jnl.searching = true ∨ (devLive s.m false = false ∧ devLive s.m true = false)))) ∧
    (∃ (s : State), (s.m.jnl.pfail = false) ∧ (running s.m = true) ∧ (s.m.jnl.needSearch = false) ∧ (s.m.jnl.searching = false) ∧ ((devLive s.m false = true ∨ devLive s.m true = true))) ∧
    (∃ (s : State), (running s.m = true) ∧ (s.m.jnl.flushing ≠ []) ∧ ((s.m.jnl.flushing.map (fun f => f.slot)).Nodup) ∧ (s.m.pins.warmAfterFlush = none)) ∧
    (∃ (s : State), (running s.m = true) ∧ (s.m.jnl.flushing ≠ []) ∧ ((s.m.jnl.flushing.map (fun f => f.slot)).Nodup) ∧ (s.m.pins.warmAfterFlush = some false)) :=
  ⟨⟨st { base with jnl := { base.jnl with queue := List.replicate 9 ⟨2, 1, 77, 0x1234567890, 0⟩ } }, by decide +kernel⟩,
   ⟨st (rs { base with jnl := { base.jnl with queue := List.replicate 9 ⟨2, 1, 77, 0x1234567890, 0⟩, needSearch := false, searching := false } } [(0x2C08, 3)]), by decide +kernel⟩,
   ⟨st (rs { base with time := 0xABCDEF00, jnl := { base.jnl with queue := List.replicate 9 ⟨2, 1, 77, 0x1234567890, 0⟩, needSearch := false, searching := false, nextSeq := 41 } } [(0x2C08, 1)]), by decide +kernel⟩,
   ⟨st (rs { base with jnl := { base.jnl with flushing := [{ slot := 4, bytes := 0x99, prev := 3, qrec := ⟨2, 1, 77, 0x1234567890, 0⟩ }, { slot := 5, bytes := 0x77, prev := 4, qrec := ⟨2, 1, 77, 0x1234567890, 0⟩ }], pfail := true } } [(0x2C08, 1)]), by decide +kernel⟩,
   ⟨st (rs { base with jnl := { base.jnl with flushing := [{ slot := 4, bytes := 0x99, prev := 3, qrec := ⟨2, 1, 77, 0x1234567890, 0⟩ }], pfail := false }, pins := { base.pins with warmAfterFlush := some false } } [(0x2C08, 2)]), by decide +kernel⟩⟩

theorem witness_HeadSearchFindsEmptyDevices :
    (∃ (s : State), (running s.m = true) ∧ (s.m.jnl.needSearch = true) ∧ (s.m.boot.ended = true)) ∧
    (∃ (s : State), (running s.m = true) ∧ (s.m.jnl.searching = true) ∧ (headOf s.m false = none) ∧ (headOf s.m true = none)) ∧
    (∃ (s : State) (i : InMsg), (running s.m = true) ∧ (s.m.inbox = [i]) ∧ (i.msg.op = .jrc)) :=
  ⟨⟨st { base with boot := { ended := true }, jnl := { base.jnl with needSearch := true } }, by decide +kernel⟩,
   ⟨st { base with jnl := { base.jnl with searching := true } }, by decide +kernel⟩,
   ⟨st { base with inbox := [⟨0, 10, { op := .jrc, src := 2, dest := 1 }, false⟩] }, ⟨0, 10, { op := .jrc, src := 2, dest := 1 }, false⟩, by decide +kernel⟩⟩

theorem witness_CapturesLatchTheCounters :
    (∃ (s : State) (a : Lmb), (Accepted s a 0x3088 1)) ∧
    (∃ (s : State) (a : Lmb) (v : Word), (Accepted s a 0x30A0 v) ∧ (rbit s.m 0x30A0 0 = false) ∧ (bit v 0 = true)) ∧
    (∃ (s : State), (running s.m = true) ∧ (rbit s.m 0x30A0 0 = false)) ∧
    (∃ (s : State), (running s.m = true) ∧ (rbit s.m 0x30A0 0 = true) ∧ (s.m.pmc.dump = none)) ∧
    (∃ (s : State) (d : DumpRec), (running s.m = true) ∧ (rbit s.m 0x30A0 0 = true) ∧ (s.m.pmc.dump = some d)) :=
  ⟨⟨st base, ⟨0, true⟩, by decide +kernel⟩,
   ⟨st (rs base [(0x30BC, 4), (0x30C0, 5), (0x30C4, 6)]), ⟨0, true⟩, 3, by decide +kernel⟩,
   ⟨st { base with pmc := { base.pmc with ctr := [(7, 0xFFFF12345678), (0, 2 ^ 48 - 1)], cfg := [(0, { enable := true, ovfInt := true, event := 5 })], wrapped := [(3, true)]  } }, by decide +kernel⟩,
   ⟨st (rs { base with pmc := { base.pmc with ctr := [(7, 0xFFFF12345678), (0, 2 ^ 48 - 1)], cfg := [(0, { enable := true, ovfInt := true, event := 5 })], wrapped := [(3, true)]  } } [(0x30A0, 1), (0x30BC, 9)]), by decide +kernel⟩,
   ⟨st (rs { base with pmc := { base.pmc with ctr := [(7, 0xFFFF12345678), (0, 2 ^ 48 - 1)], cfg := [(0, { enable := true, ovfInt := true, event := 5 })], wrapped := [(3, true)] , dump := some { num := 9, pieces := (List.range 17).map fun i => BitVec.ofNat 512 i, sent := [(1, 5)], acked := [1] } } } [(0x30A0, 1), (0x30BC, 9), (0x30C0, 0xFFFFFFFF)]), { num := 9, pieces := (List.range 17).map fun i => BitVec.ofNat 512 i, sent := [(1, 5)], acked := [1] }, by decide +kernel⟩⟩

theorem witness_DumpPiecesAreSentAndServed :
    (∃ (s : State) (d : DumpRec) (i : Nat) (p : Nat), (running s.m = true) ∧ (s.m.pmc.dump = some d) ∧ (nextPiece d = some i) ∧ (dumpNode s.m ≠ nodeId s.m) ∧ (routeOf s.m s.m.cfg.epoch (dumpNode s.m) = some p)) ∧
    (∃ (s : State) (d : DumpRec), (running s.m = true) ∧ (s.m.pmc.dump = some d)) ∧
    (∃ (s : State) (i : InMsg), (running s.m = true) ∧ (s.m.inbox = [i]) ∧ (i.msg.op = .ttd) ∧ (isHome s.m = true)) :=
  ⟨⟨st (rs { base with pmc := { base.pmc with ctr := [(7, 0xFFFF12345678), (0, 2 ^ 48 - 1)], cfg := [(0, { enable := true, ovfInt := true, event := 5 })], wrapped := [(3, true)] , dump := some { num := 9, pieces := (List.range 17).map fun i => BitVec.ofNat 512 i, sent := (List.range 16).map fun i => (i + 1, 5), acked := (List.range 16).map (· + 1) } }, fab := { base.fab with mtag := 0xFFF } } [(0x30A0, 1), (0x30BC, 9), (0x30B0, 2)]), { num := 9, pieces := (List.range 17).map fun i => BitVec.ofNat 512 i, sent := (List.range 16).map fun i => (i + 1, 5), acked := (List.range 16).map (· + 1) }, 0, 0, by decide +kernel⟩,
   ⟨st (rs { base with pmc := { base.pmc with ctr := [(7, 0xFFFF12345678), (0, 2 ^ 48 - 1)], cfg := [(0, { enable := true, ovfInt := true, event := 5 })], wrapped := [(3, true)] , dump := some { num := 9, pieces := (List.range 17).map fun i => BitVec.ofNat 512 i, sent := (List.range 16).map fun i => (i + 1, 5), acked := (List.range 16).map (· + 1) } }, fab := { base.fab with mtag := 0xFFF } } [(0x30A0, 1), (0x30BC, 9), (0x30B0, 2)]), { num := 9, pieces := (List.range 17).map fun i => BitVec.ofNat 512 i, sent := (List.range 16).map fun i => (i + 1, 5), acked := (List.range 16).map (· + 1) }, by decide +kernel⟩,
   ⟨st { base with inbox := [⟨0, 10, { op := .ttd, src := 2, dest := 1, tag := 7, line := 0x44, data := 5 }, false⟩] }, ⟨0, 10, { op := .ttd, src := 2, dest := 1, tag := 7, line := 0x44, data := 5 }, false⟩, by decide +kernel⟩⟩

theorem witness_WhistleTriggersAreRecognisedOrMissed :
    (∃ (s : State) (a : Lmb), (Accepted s a 0x3400 1)) ∧
    (∃ (s : State) (a : Lmb), (Accepted s a 0x3404 (rget s.m 0x3404 ||| 1))) ∧
    (∃ (s : State) (a : Lmb), (Accepted s a 0x3404 (rget s.m 0x3404 ||| 4))) ∧
    (∃ (s : State), (running s.m = true)) ∧
    (∃ (s : State), (running s.m = true)) :=
  ⟨⟨st (rs { base with whs := { armed := false, missed := 0xFFFF } } [(0x3404, 2)]), ⟨0, true⟩, by decide +kernel⟩,
   ⟨st (rs { base with whs := { armed := false, missed := 0xFFFF } } [(0x3404, 2)]), ⟨0, true⟩, by decide +kernel⟩,
   ⟨st (rs { base with whs := { armed := false, missed := 0xFFFF } } [(0x3404, 2)]), ⟨0, true⟩, by decide +kernel⟩,
   ⟨st { base with whs := { armed := false, missed := 0xFFFF, driving := true, drivePend := true } }, by decide +kernel⟩,
   ⟨st { base with whs := { armed := false, missed := 0xFFFF, driving := true, drivePend := true } }, by decide +kernel⟩⟩

theorem witness_WhistleCaptureLatchesEverything :
    (∃ (s : State), (running s.m = true) ∧ (s.m.whs.recog = true)) ∧
    (∃ (s : State), (running s.m = true) ∧ (s.m.whs.captured = true) ∧ (s.m.whs.captureDone = false)) ∧
    (∃ (s : State), (running s.m = true) ∧ (s.m.whs.auditDue = true)) :=
  ⟨⟨st (rs { base with pmc := { base.pmc with ctr := [(7, 0xFFFF12345678), (0, 2 ^ 48 - 1)], cfg := [(0, { enable := true, ovfInt := true, event := 5 })], wrapped := [(3, true)] }, whs := { recog := true } } [(0xC04, 0x80000001)]), by decide +kernel⟩,
   ⟨st { base with whs := { captured := true } }, by decide +kernel⟩,
   ⟨st { base with whs := { auditDue := true }, trk := { base.trk with hteUse := [(3, 4)], wbUse := [(5, 7)], staffCreated := 4 }, ports := [(0, { (port base 0) with vcs := [(0, { c := 4, ssent := 3 })] })] }, by decide +kernel⟩⟩

theorem witness_LevelMarksCross :
    (∃ (s : State) (n : Fin 16), (running s.m = true) ∧ ((lmOf s.m n.val).above = false) ∧ (rfld s.m (0x3484 + 0x20 * n.val) 31 16 < levelOf s.m n.val)) ∧
    (∃ (s : State) (n : Fin 16), (running s.m = true) ∧ ((lmOf s.m n.val).above = true) ∧ (levelOf s.m n.val < rfld s.m (0x3484 + 0x20 * n.val) 15 0)) ∧
    (∃ (s : State) (a : Lmb) (n : Fin 16), (Accepted s a (0x3490 + 0x20 * n.val) 1)) ∧
    (∃ (s : State) (a : Lmb) (n : Fin 16) (marks : Bool) (v : Word), (Accepted s a (0x3480 + 4 * b1 marks + 0x20 * n.val) v)) :=
  ⟨⟨st (rs { base with trk := { base.trk with hteUse := [(3, 9)] }, whs := { lm := [(15, { count := 255 })] } } [(0x3480 + 0x20 * 15, 1), (0x3484 + 0x20 * 15, 0x80004)]), 15, by decide +kernel⟩,
   ⟨st (rs { base with trk := { base.trk with hteUse := [(3, 3)] }, whs := { lm := [(15, { above := true, count := 255 })] } } [(0x3480 + 0x20 * 15, 1), (0x3484 + 0x20 * 15, 0x80004)]), 15, by decide +kernel⟩,
   ⟨st (rs { base with trk := { base.trk with hteUse := [(3, 3)] }, whs := { lm := [(15, { above := true, up := true, count := 255, peak := 17, level := 3 })] } } [(0x3480 + 0x20 * 15, 1), (0x3484 + 0x20 * 15, 0x80004)]), ⟨0, true⟩, 15, by decide +kernel⟩,
   ⟨st (rs { base with trk := { base.trk with hteUse := [(3, 3)] }, whs := { lm := [(15, { above := true, up := true, count := 255, peak := 17, level := 3 })] } } [(0x3480 + 0x20 * 15, 1), (0x3484 + 0x20 * 15, 0x80004)]), ⟨0, true⟩, 15, false, 0, by decide +kernel⟩⟩

theorem witness_SerialPortsTransferAsMasters :
    (∃ (s : State) (a : Lmb) (v : Word), (Accepted s a 0x3810 v) ∧ (bit v 0 = true)) ∧
    (∃ (s : State) (f : SpiFrame), (running s.m = true) ∧ (s.m.spi.spaFrame = some f) ∧ (f.units ≤ 8) ∧ (s.m.spi.own = 3) ∧ ((spaJournal s.m = true ∨ spaLoader s.m = true)) ∧ (f.hold = true)) ∧
    (∃ (s : State) (f : SpiFrame), (running s.m = true) ∧ (s.m.spi.spaFrame = some f) ∧ (f.units ≤ 8) ∧ (s.m.spi.own = 3) ∧ (spaJournal s.m = false) ∧ (spaLoader s.m = false)) ∧
    (∃ (s : State) (a : Lmb), (Accepted s a 0x3810 (rget s.m 0x3810 ||| 8))) ∧
    (∃ (s : State) (a : Lmb) (v : Word), (Accepted s a 0x3840 v)) ∧
    (∃ (s : State) (a : Lmb) (v : Word), (Accepted s a 0x3844 v) ∧ (bit v 0 = true)) ∧
    (∃ (s : State) (f : SpiFrame), (running s.m = true) ∧ (s.m.spi.spbFrame = some f) ∧ (f.units ≤ 8)) ∧
    (∃ (s : State) (f : SpiFrame), (running s.m = true) ∧ (rbit s.m 0x3840 0 = true) ∧ (s.m.spi.spbFrame = some f)) :=
  ⟨⟨st base, ⟨0, true⟩, 0x80831, by decide +kernel⟩,
   ⟨st { base with spi := { spaFrame := some { sel := 3, unitLen := 8, units := 8, hold := true }, own := 3 }, jnl := { base.jnl with searching := true } }, { sel := 3, unitLen := 8, units := 8, hold := true }, by decide +kernel⟩,
   ⟨st { base with spi := { spaFrame := some { sel := 3, unitLen := 8, units := 8, hold := false }, own := 3, held := some 3 } }, { sel := 3, unitLen := 8, units := 8, hold := false }, by decide +kernel⟩,
   ⟨st (rs { base with spi := { held := some 3 } } [(0x3810, 0x40822)]), ⟨0, true⟩, by decide +kernel⟩,
   ⟨st (rs base [(0x3840, 0x30500)]), ⟨0, true⟩, 0x30500, by decide +kernel⟩,
   ⟨st (rs base [(0x3840, 1)]), ⟨0, true⟩, 0x80801, by decide +kernel⟩,
   ⟨st { base with spi := { spbFrame := some { sel := 3, unitLen := 8, units := 8, hold := false } } }, { sel := 3, unitLen := 8, units := 8, hold := false }, by decide +kernel⟩,
   ⟨st (rs { base with spi := { spbFrame := some { sel := 3, unitLen := 8, units := 8, hold := false } } } [(0x3840, 1)]), { sel := 3, unitLen := 8, units := 8, hold := false }, by decide +kernel⟩⟩

theorem witness_SpbSlaveFramesAccessRegisters :
    (∃ (s : State) (addr : BitVec 16) (v : Word) (r : RegDesc), (running s.m = true) ∧ (rbit s.m 0x3840 0 = false) ∧ (s.m.spi.spbBlocked = false) ∧ (s.m.spi.spbWait = false) ∧ (writeCode s.m (spbWho s.m) addr.toNat v = 0) ∧ (regAt addr.toNat = some r) ∧ (plainAddr addr.toNat = true)) ∧
    (∃ (s : State) (addr : BitVec 16), (running s.m = true) ∧ (rbit s.m 0x3840 0 = false) ∧ (s.m.spi.spbBlocked = false) ∧ (s.m.spi.spbWait = false) ∧ (readCode s.m (spbWho s.m) addr.toNat = 0)) ∧
    (∃ (s : State) (r : AccRes), (running s.m = true) ∧ (rbit s.m 0x3840 0 = false) ∧ (s.m.spi.spbBlocked = false) ∧ (s.m.spi.spbWait = false) ∧ (s.m.spi.spbLast = some r) ∧ (r.ok = true)) ∧
    (∃ (s : State) (addr : BitVec 16) (v1 : Word) (v2 : Word) (cycles : Nat) (r : RegDesc), (running s.m = true) ∧ (rbit s.m 0x3840 0 = false) ∧ (s.m.spi.spbBlocked = false) ∧ (s.m.spi.spbWait = false) ∧ (cycles ≤ 400) ∧ (writeCode s.m (spbWho s.m) addr.toNat v1 = 0) ∧ (writeCode (spbPut s.m addr.toNat v1 false) (spbWho (spbPut s.m addr.toNat v1 false)) addr.toNat v2 = 0) ∧ (regAt addr.toNat = some r) ∧ (plainAddr addr.toNat = true) ∧ (addr.toNat ≠ 0x3848)) ∧
    (∃ (s : State), (running s.m = true) ∧ (rbit s.m 0x3840 0 = false)) ∧
    (∃ (s : State), (running s.m = true) ∧ (rbit s.m 0x3840 0 = false) ∧ (s.m.spi.spbBlocked = false)) :=
  ⟨⟨st (rs { base with spi := { spbWait := false, spbBlocked := false, spbSel := false, spbLast := some ⟨true, 0, 77⟩ } } [(0x3848, 0x80000000)]), 0x1C00, 0x12, (regAt 0x1C00).getD ⟨0,0,0,[]⟩, by decide +kernel⟩,
   ⟨st (rs { base with spi := { spbWait := false, spbBlocked := false, spbSel := false, spbLast := some ⟨true, 0, 77⟩ } } [(0x3848, 0x80000000)]), 0x28, by decide +kernel⟩,
   ⟨st (rs { base with spi := { spbWait := false, spbBlocked := false, spbSel := false, spbLast := some ⟨true, 0, 77⟩ } } [(0x3848, 0x80000000)]), ⟨true, 0, 77⟩, by decide +kernel⟩,
   ⟨st (rs { base with spi := { spbWait := false, spbBlocked := false, spbSel := false, spbLast := some ⟨true, 0, 77⟩ } } [(0x3848, 0x80000000)]), 0x1C00, 0x12, 0xFFF, 400, (regAt 0x1C00).getD ⟨0,0,0,[]⟩, by decide +kernel⟩,
   ⟨st (rs { base with spi := { spbBlocked := true, spbSel := true, spbStatus := 9, spbData := 77, miso := some [true] } } [(0x3848, 0x80000003)]), by decide +kernel⟩,
   ⟨st (rs { base with spi := { spbWait := false, spbBlocked := false, spbSel := false, spbLast := some ⟨true, 0, 77⟩ } } [(0x3848, 0x80000003)]), by decide +kernel⟩⟩

theorem witness_SoftResetsClearTheirBlocks :
    (∃ (s : State) (a : Lmb), (Accepted s a 0x3C34 1)) ∧
    (∃ (s : State) (a : Lmb), (Accepted s a 0x3C34 2)) ∧
    (∃ (s : State) (a : Lmb), (Accepted s a 0x3C34 4)) ∧
    (∃ (s : State) (a : Lmb), (Accepted s a 0x3C34 8)) ∧
    (∃ (s : State), (running s.m = true)) :=
  ⟨⟨st (rs { base with ca := { base.ca with invDone := true, siding := [(0, { line := 4, data := 5 })] } } [(0x1400, 1)]), ⟨0, true⟩, by decide +kernel⟩,
   ⟨st { base with eic := { base.eic with evinKnown := [(3, true)], st := [(4, .active)] } }, ⟨0, true⟩, by decide +kernel⟩,
   ⟨st base, ⟨0, true⟩, by decide +kernel⟩,
   ⟨st (rs { base with spi := { held := some 3, spaFrame := some { sel := 3, unitLen := 8, units := 8, hold := false } } } [(0x3840, 1), (0x3820, 5), (0x387C, 7)]), ⟨0, true⟩, by decide +kernel⟩,
   ⟨st (rs base [(0x3C34, 15)]), by decide +kernel⟩⟩

theorem witness_ResetsKeepWhatTheyKeep :
    (∃ (s : State), (s.m.pins.resetHeld = false) ∧ (s.m.jnl.cur = none)) ∧
    (∃ (s : State), (s.m.pins.resetHeld = true)) ∧
    (∃ (s : State), (s.m.pins.resetHeld = false) ∧ (s.m.pins.warmHeld = false) ∧ (s.m.jnl.flushing = []) ∧ (s.m.jnl.cur = none) ∧ (s.m.mem.repair = none)) ∧
    (∃ (s : State), (s.m.pins.resetHeld = false) ∧ (s.m.pins.warmHeld = true) ∧ (s.m.pins.warmAfterFlush = none) ∧ (s.m.pins.locked = true) ∧ (s.m.boot.loading = 0) ∧ (s.m.boot.ended = false)) :=
  ⟨⟨std { cells := [(3, 4)] } (rs { base with jnl := { base.jnl with needSearch := false, searching := false, flushing := [], dev0 := [(3, 5)], tail := [1, 2, 3] } } [(0x2C00, 3), (0x420, 0x80000002), (0x3C0C, 0x120034), (0x3848, 0x80000005), (0x1C00, 7), (0x2C, 1)]), by decide +kernel⟩,
   ⟨st (rs { base with pins := { base.pins with resetHeld := true, cause := 5 } } [(0x2C00, 3), (0x420, 0x80000002), (0x3C0C, 0x120034), (0x3848, 0x80000005), (0x1C00, 7), (0x2C, 1)]), by decide +kernel⟩,
   ⟨std { cells := [(3, 4)] } (rs { base with jnl := { base.jnl with needSearch := false, searching := false, flushing := [], dev0 := [(3, 5)], tail := [1, 2, 3] } } [(0x2C00, 3), (0x420, 0x80000002), (0x3C0C, 0x120034), (0x3848, 0x80000005), (0x1C00, 7), (0x2C, 1)]), by decide +kernel⟩,
   ⟨st (rs { base with mem := { cfgFrozen := true }, pins := { base.pins with warmHeld := true, cause := 3, straps := ⟨5, 6, true, true⟩ } } ([(0x2C00, 3), (0x420, 0x80000002), (0x3C0C, 0x120034), (0x3848, 0x80000005), (0x1C00, 7), (0x2C, 1)] ++ [(0x1C, 2)])), by decide +kernel⟩⟩

theorem witness_SuppliesAndClocksComeAndGo :
    (∃ (s : State), (s.m.pins.resetHeld = false) ∧ (s.m.pins.warmHeld = false) ∧ (s.m.pins.lockLostReport = false) ∧ (s.m.boot.loading = 0) ∧ (s.m.boot.ended = false)) ∧
    (∃ (s : State), (s.m.pins.locked = true)) ∧
    (∃ (s : State), (awake s.m = true)) ∧
    (∃ (s : State), (awake s.m = true)) :=
  ⟨⟨st { base with pins := { base.pins with locked := false, refclkStopped := false, straps := ⟨5, 6, true, true⟩ } }, by decide +kernel⟩,
   ⟨std { cells := [(3, 4)] } (rs { base with ports := [(0, { link := .complete }), (15, { link := .starting })] } [(0x900, 1)]), by decide +kernel⟩,
   ⟨st (rs base [(0x2800, 0x12)]), by decide +kernel⟩,
   ⟨st (rs base [(0x2800, 0x12)]), by decide +kernel⟩⟩

theorem witness_DeckStartsUp :
    (∃ (s : State), (running s.m = true) ∧ (s.m.deck.mbistRunning = true)) ∧
    (∃ (s : State) (r : DeckRow), (running s.m = true) ∧ (s.m.deck.mbistRunning = true) ∧ (1 < sparesLeft s.m r)) ∧
    (∃ (s : State) (r : DeckRow), (running s.m = true) ∧ (s.m.deck.mbistRunning = true) ∧ (s.m.deck.mbistFail = false) ∧ (sparesLeft s.m r = 0)) ∧
    (∃ (s : State), (running s.m = true) ∧ (s.m.deck.mbistRunning = false)) :=
  ⟨⟨st { base with deck := { base.deck with mbistRunning := true, spares := []  } }, by decide +kernel⟩,
   ⟨st { base with deck := { base.deck with mbistRunning := true, spares := []  } }, ⟨false, 0⟩, by decide +kernel⟩,
   ⟨st { base with deck := { base.deck with mbistRunning := true, spares := [(7, 0)]  } }, ⟨true, 1⟩, by decide +kernel⟩,
   ⟨st { base with deck := { base.deck with initDone := false } }, by decide +kernel⟩⟩

theorem witness_SensorsAreSampled :
    (∃ (s : State) (mv : List (BitVec 16)), (awake s.m = true) ∧ (s.m.pins.refclkStopped = false) ∧ (mv.length = 7)) :=
  ⟨st (rs base [(0x3C0C, 0x11)]), [800, 800, 1100, 1200, 1800, 3300, 3300], by decide +kernel⟩

theorem witness_TapFollowsItsController :
    (∃ (s : State), (s.m.tap.trst = true)) ∧
    (∃ (s : State), (s.m.tap.trst = false)) :=
  ⟨⟨st { base with tap := { trst := true } }, by decide +kernel⟩,
   ⟨st { base with tap := { trst := false, st := .irUpdate, instr := .extest, drBits := [true, false, true], irBits := [true, false, true] } }, by decide +kernel⟩⟩

theorem witness_ImageIsCheckedAndApplied :
    (∃ (s : State) (bs : List Byte) (rs : List ImgRec), (running s.m = true) ∧ (loaderReads s.m) ∧ (readsWhole s.m bs) ∧ ((s.m.boot.loading = 1 ∨ s.m.boot.loading = 2)) ∧ (imgCheck (s.m.boot.read ++ bs) = .ok rs)) ∧
    (∃ (s : State) (bs : List Byte), (running s.m = true) ∧ (loaderReads s.m) ∧ (s.m.boot.loading ≠ 0) ∧ (readEnds s.m = true) ∧ (32 < bs.length)) ∧
    (∃ (s : State) (bs : List Byte) (k : Nat), (running s.m = true) ∧ (loaderReads s.m) ∧ (readsWhole s.m bs) ∧ (s.m.boot.loading = 1) ∧ (imgCheck (s.m.boot.read ++ bs) = .error k)) ∧
    (∃ (s : State) (bs : List Byte) (k : Nat), (running s.m = true) ∧ (loaderReads s.m) ∧ (readsWhole s.m bs) ∧ (s.m.boot.loading = 2) ∧ (imgCheck (s.m.boot.read ++ bs) = .error k)) ∧
    (∃ (s : State) (a : BitVec 16) (v : Word) (r : RegDesc), (running s.m = true) ∧ (nextRec s.m = some (.write a v)) ∧ (writeCode s.m bootWho a.toNat v = 0) ∧ (regAt a.toNat = some r) ∧ (plainAddr a.toNat = true)) ∧
    (∃ (s : State) (ms : Nat) (a : BitVec 16) (k : Word) (v : Word), (running s.m = true) ∧ (nextRec s.m = some (.poll ms a k v)) ∧ (readCode s.m bootWho a.toNat = 0)) ∧
    (∃ (s : State) (ms : Nat) (a : BitVec 16) (k : Word) (v : Word), (running s.m = true) ∧ (nextRec s.m = some (.poll ms a k v))) ∧
    (∃ (s : State) (k : Nat) (first : Nat) (set : Bool) (raw : List Word), (running s.m = true) ∧ (nextRec s.m = some (.table k (b1 set) first [raw])) ∧ (tableCode s.m { seq := 0, write := true, set := set, table := k, index := first, words := raw } raw = 0)) ∧
    (∃ (s : State) (es : List (BitVec 8 × BitVec 6 × NodeId)) (n : NodeId), (running s.m = true) ∧ (nextRec s.m = some (.plan es)) ∧ (s.m.boot.warm = false) ∧ (es.find? (fun e => decide (e.1 = s.m.pins.straps.chassis) && decide (e.2.1 = s.m.pins.straps.slot)) = some (s.m.pins.straps.chassis, s.m.pins.straps.slot, n))) ∧
    (∃ (s : State) (es : List (BitVec 8 × BitVec 6 × NodeId)), (running s.m = true) ∧ (nextRec s.m = some (.plan es)) ∧ (s.m.boot.warm = false) ∧ (es.find? (fun e => decide (e.1 = s.m.pins.straps.chassis) && decide (e.2.1 = s.m.pins.straps.slot)) = none)) ∧
    (∃ (s : State), (running s.m = true) ∧ (nextRec s.m = some .fin)) :=
  ⟨⟨st { base with boot := { loading := 2, applying := false, recs := [], read := (mkImage [(1, [1, 0, 0x1C, 0, 0, 0, 0, 5]), (3, [5, 6, 0, 9]), (255, [])]).take 32 } }, (mkImage [(1, [1, 0, 0x1C, 0, 0, 0, 0, 5]), (3, [5, 6, 0, 9]), (255, [])]).drop 32, [.write 0x1C00 5, .plan [(5, 6, 9)], .fin], by decide +kernel, by decide +kernel, by decide +kernel, by decide +kernel, ok_of _ _ (by decide +kernel)⟩,
   ⟨st { base with boot := { loading := 1, read := List.replicate 32 7 }, spi := { own := 2 }, jnl := { base.jnl with searching := true } }, List.replicate 33 5, by decide +kernel⟩,
   ⟨st { base with boot := { loading := 1, applying := false, recs := [] } }, (mkImage [(255, [])]).set 20 1, 4, by decide +kernel, by decide +kernel, by decide +kernel, by decide +kernel, error_of _ _ (by decide +kernel)⟩,
   ⟨st { base with boot := { loading := 2, applying := false, recs := [] } }, (mkImage [(255, [])]).set 20 1, 4, by decide +kernel, by decide +kernel, by decide +kernel, by decide +kernel, error_of _ _ (by decide +kernel)⟩,
   ⟨st { base with boot := { loading := 1, applying := true, recs := [.write 0x1C00 5, .plan [(5, 6, 9)], .fin] } }, 0x1C00, 5, (regAt 0x1C00).getD ⟨0,0,0,[]⟩, by decide +kernel⟩,
   ⟨st { base with boot := { loading := 1, applying := true, recs := [.poll 10 0x1C00 0xF 3, .fin] } }, 10, 0x1C00, 0xF, 3, by decide +kernel⟩,
   ⟨st { base with boot := { loading := 1, applying := true, recs := [.poll 10 0x1C00 0xF 3, .fin] } }, 10, 0x1C00, 0xF, 3, by decide +kernel⟩,
   ⟨st { base with boot := { loading := 1, applying := true, recs := [.table 1 1 63 [Region.words { valid := true, basePn := 5, limitPn := 5 }], .fin] } }, 1, 63, true, Region.words { valid := true, basePn := 5, limitPn := 5 }, by decide +kernel⟩,
   ⟨st { base with boot := { loading := 1, applying := true, recs := [.plan [(9, 9, 4), (5, 6, 17), (5, 6, 18)], .fin] }, pins := { base.pins with straps := ⟨5, 6, false, false⟩ } }, [(9, 9, 4), (5, 6, 17), (5, 6, 18)], 17, by decide +kernel⟩,
   ⟨st { base with boot := { loading := 1, applying := true, recs := [.plan [(9, 9, 4), (5, 6, 17), (5, 6, 18)], .fin] }, pins := { base.pins with straps := ⟨4, 6, false, false⟩ } }, [(9, 9, 4), (5, 6, 17), (5, 6, 18)], by decide +kernel⟩,
   ⟨st { base with boot := { loading := 1, applying := true, recs := [.fin], warm := true } }, by decide +kernel⟩⟩

theorem witness_LinksStartRecoverAndAreLost :
    (∃ (s : State), (running s.m = true) ∧ (s.m.boot.ended = true) ∧ (s.m.deck.initDone = true)) ∧
    (∃ (s : State) (p : PortIx) (tr : PhyTrain), (running s.m = true) ∧ ((port s.m p.val).link = .training) ∧ (linkHeld s.m p.val = false) ∧ (portExists s.m p.val = true) ∧ (tr.loopback = false) ∧ (tr.olfer = true) ∧ (phySupports s.m p.val tr = true)) ∧
    (∃ (s : State) (p : PortIx) (tr : PhyTrain), (running s.m = true) ∧ ((port s.m p.val).link = .training) ∧ (linkHeld s.m p.val = false) ∧ (portExists s.m p.val = true) ∧ (tr.loopback = false) ∧ (tr.olfer = false)) ∧
    (∃ (s : State) (p : PortIx) (tr : PhyTrain), (running s.m = true) ∧ ((port s.m p.val).link = .training) ∧ (linkHeld s.m p.val = false) ∧ (portExists s.m p.val = true) ∧ (tr.loopback = true)) ∧
    (∃ (s : State) (p : PortIx), (running s.m = true) ∧ (((port s.m p.val).link = .starting ∨ (port s.m p.val).link = .complete)) ∧ (linkHeld s.m p.val = false) ∧ ((port s.m p.val).recovery = false)) ∧
    (∃ (s : State), (running s.m = true)) ∧
    (∃ (s : State) (p : PortIx), (running s.m = true) ∧ ((port s.m p.val).replayBuf ≠ []) ∧ ((port s.m p.val).recovery = false) ∧ (linkHeld s.m p.val = false)) ∧
    (∃ (s : State), (running s.m = true)) ∧
    (∃ (s : State) (p : PortIx), (running s.m = true) ∧ ((port s.m p.val).link = .complete)) ∧
    (∃ (s : State), (running s.m = true)) :=
  ⟨⟨st (rs { base with boot := { ended := true }, deck := { base.deck with initDone := true } } [(0x90C, 1), (0x80C, 0x110)]), by decide +kernel⟩,
   ⟨st (rs { base with ports := [(0, port base 0), (7, { link := .training, act := 2 })] } []), 7, { olfer := true, lanes := 4, speed := 2, reversed := true, upper := true, loopback := false }, by decide +kernel⟩,
   ⟨st (rs { base with ports := [(0, port base 0), (7, { act := 0x102 }), (15, { link := .training, act := 2 })] } [(0x81C, 0x100)]), 15, { olfer := false, lanes := 4, speed := 2, reversed := true, upper := false, loopback := false }, by decide +kernel⟩,
   ⟨st (rs { base with ports := [(0, port base 0), (7, { act := 0x102 }), (15, { link := .training, act := 2 })] } [(0x81C, 0x100)]), 15, { olfer := true, lanes := 8, speed := 2, reversed := true, upper := false, loopback := true }, by decide +kernel⟩,
   ⟨st (rs { base with ports := [(0, port base 0), (7, { link := .complete })] } []), 7, by decide +kernel⟩,
   ⟨st base, by decide +kernel⟩,
   ⟨st (rs { base with ports := [(0, port base 0), (7, { link := .complete, replays := 4, replayBuf := [⟨4095, 3⟩, ⟨0, packFlit 0 { seq := 0, ack := 0, kind := 1 }⟩], nextTx := 1, nextRx := 0 })] } []), 7, by decide +kernel⟩,
   ⟨st (rs { base with ports := [(0, port base 0), (7, { link := .complete, recovery := true })] } []), by decide +kernel⟩,
   ⟨st (rs { base with ports := [(0, port base 0), (7, { link := .complete, replayBuf := [⟨4095, 3⟩, ⟨0, packFlit 0 { seq := 0, ack := 0, kind := 1 }⟩], nextTx := 1, nextRx := 0 })] } [(0x900, 1), (0x91C, 1)]), 7, by decide +kernel⟩,
   ⟨st base, by decide +kernel⟩⟩

theorem witness_FlitsAreSentAndReceived :
    (∃ (s : State) (p : PortIx), (running s.m = true) ∧ (((port s.m p.val).link = .starting ∨ (port s.m p.val).link = .complete)) ∧ (linkHeld s.m p.val = false) ∧ ((port s.m p.val).recovery = false) ∧ ((port s.m p.val).gotStart = false)) ∧
    (∃ (s : State) (p : PortIx), (running s.m = true) ∧ (((port s.m p.val).link = .starting ∨ (port s.m p.val).link = .complete)) ∧ (linkHeld s.m p.val = false) ∧ ((port s.m p.val).recovery = false) ∧ ((port s.m p.val).gotStart = true) ∧ ((port s.m p.val).replayBuf.length < 256)) ∧
    (∃ (s : State) (p : PortIx), (running s.m = true) ∧ ((port s.m p.val).loop = true) ∧ ((port s.m p.val).link = .training) ∧ (linkHeld s.m p.val = false)) ∧
    (∃ (s : State) (p : PortIx) (f : Flit), (running s.m = true) ∧ ((port s.m p.val).loop = false) ∧ ((f.fecOk = false ∨ flitCrcOk f.bits = false ∨ ((flitTrailer f.bits).kind ≠ 2 ∧ (flitTrailer f.bits).seq ≠ (port s.m p.val).nextRx)))) ∧
    (∃ (s : State) (p : PortIx) (f : Flit), (running s.m = true) ∧ (((port s.m p.val).link = .starting ∨ (port s.m p.val).link = .complete)) ∧ (linkHeld s.m p.val = false) ∧ ((port s.m p.val).recovery = false) ∧ ((port s.m p.val).gotStart = true) ∧ (f.fecOk = true) ∧ (flitCrcOk f.bits = true) ∧ ((flitTrailer f.bits).kind = 1) ∧ ((flitTrailer f.bits).seq = (port s.m p.val).nextRx)) ∧
    (∃ (s : State) (p : PortIx) (f : Flit) (x : Msg), (running s.m = true) ∧ (((port s.m p.val).link = .starting ∨ (port s.m p.val).link = .complete)) ∧ (linkHeld s.m p.val = false) ∧ ((port s.m p.val).recovery = false) ∧ ((port s.m p.val).gotStart = true) ∧ (f.fecOk = true) ∧ (flitCrcOk f.bits = true) ∧ ((flitTrailer f.bits).kind = 0) ∧ ((flitTrailer f.bits).seq = (port s.m p.val).nextRx) ∧ (parseArea (flitArea f.bits) = ([x], false)) ∧ (x.hop ≠ 0) ∧ (x.broadcast = false) ∧ (x.dest ≠ nodeId s.m) ∧ (s.m.cfg.prepared = false) ∧ ((vcb (port s.m p.val) (vcOf x)).sacc + slotsOf x ≤ (vcb (port s.m p.val) (vcOf x)).cret)) ∧
    (∃ (s : State) (p : PortIx) (vc : Fin 12) (r : RxMsg) (rest : List RxMsg) (o : Nat), (running s.m = true) ∧ (takeFirst (fun y => decide (y.vc = vc.val)) (port s.m p.val).rxq = some (r, rest)) ∧ (1 < r.msg.hop.toNat) ∧ (wbkAhead s.m p.val vc.val r.at_ = false) ∧ (routeOf s.m (epochFor s.m r.msg.epoch) r.msg.dest = some o)) ∧
    (∃ (s : State) (n : NodeId) (tag : BitVec 12) (p : Nat), (running s.m = true) ∧ (s.m.fab2.reports = [(n, tag)]) ∧ (s.m.fab.termValid = true) ∧ (s.m.fab.master ≠ nodeId s.m) ∧ (routeOf s.m s.m.cfg.epoch s.m.fab.master = some p)) :=
  ⟨⟨st (rs { base with ports := [(0, port base 0), (7, { link := .complete, replayBuf := [⟨4095, 3⟩, ⟨0, packFlit 0 { seq := 0, ack := 0, kind := 1 }⟩], nextTx := 1, nextRx := 0 })] } []), 7, by decide +kernel⟩,
   ⟨st (rs { base with ports := [(0, port base 0), (7, { link := .complete, gotStart := true, replayBuf := [⟨4095, 3⟩, ⟨0, packFlit 0 { seq := 0, ack := 0, kind := 1 }⟩], nextTx := 1, nextRx := 0, txq := [⟨16, 2, { op := .cmp, dest := 2, line := 5 }, some 3⟩, ⟨17, 10, { op := .cfg, dest := 2 }, none⟩], vcs := [(2, { c := 40, g := 5 }), (10, { c := 10 })], sampleDue := true, echoDue := some 5 })] } []), 7, by decide +kernel⟩,
   ⟨st (rs { base with ports := [(0, port base 0), (7, { link := .training, loop := true })] } []), 7, by decide +kernel⟩,
   ⟨st (rs { base with ports := [(0, port base 0), (7, { link := .down, gotStart := true, replayBuf := [⟨4095, 3⟩, ⟨0, packFlit 0 { seq := 0, ack := 0, kind := 1 }⟩], nextTx := 1, nextRx := 0 })] } []), 7, flit 1 4095 4095 [], by decide +kernel⟩,
   ⟨st (rs { base with ports := [(0, port base 0), (7, { link := .complete, gotStart := true, replayBuf := [⟨4095, 3⟩, ⟨0, packFlit 0 { seq := 0, ack := 0, kind := 1 }⟩], nextTx := 1, nextRx := 0, vcs := [(2, { c := 40, g := 5 })] })] } []), 7, { bits := packFlit 0 { seq := 0, ack := 0, kind := 1, vcA := 2, cntA := 4, tsKind := 1, tsValue := 77 } }, by decide +kernel⟩,
   ⟨st (rs { base with ports := [(0, port base 0), (7, { link := .complete, gotStart := true, replayBuf := [⟨4095, 3⟩, ⟨0, packFlit 0 { seq := 0, ack := 0, kind := 1 }⟩], nextTx := 1, nextRx := 0, vcs := [(2, { cret := 40, g := 5 }), (0, { cret := 20 })] })] } []), 7, flit 0 0 0 [{ op := .dsh, dest := 300, src := 9, tag := 3, hop := 1, line := 5, data := 77, status := 1 }], { op := .dsh, dest := 300, src := 9, tag := 3, hop := 1, line := 5, data := 77, status := 1 }, by decide +kernel⟩,
   ⟨st { base with ports := [(0, { (port base 0) with rxq := [⟨3, { op := .cmp, dest := 2, src := 9, tag := 3, hop := 7, line := 5 }, 2⟩, ⟨2, { op := .cmp, dest := 2, src := 9, tag := 3, hop := 7, line := 5 }, 4⟩] }), (1, { (port base 1) with rxq := [⟨3, { op := .cmp, dest := 2, src := 9, tag := 3, hop := 7, line := 5 }, 2⟩, ⟨2, { op := .cmp, dest := 2, src := 9, tag := 3, hop := 7, line := 5 }, 4⟩] })] }, 1, 2, ⟨2, { op := .cmp, dest := 2, src := 9, tag := 3, hop := 7, line := 5 }, 4⟩, [⟨3, { op := .cmp, dest := 2, src := 9, tag := 3, hop := 7, line := 5 }, 2⟩], 0, by decide +kernel⟩,
   ⟨st { base with fab := { base.fab with termValid := true, master := 2 }, fab2 := { base.fab2 with reports := [(4, 9)] } }, 4, 9, 0, by decide +kernel⟩⟩

theorem witness_TrackerAdmitsAndCompletes :
    (∃ (s : State) (i : Nat) (a : Arrival), (running s.m = true) ∧ (s.m.deck.initDone = true) ∧ (arbitrate { s.m with trk := { s.m.trk with core := s.m.trk.core + 1 } } = some (i, a)) ∧ ((clsOf a.msg.op ≠ .wbk ∨ wbAtOnce s.m a.msg = false)) ∧ (a.msg.epoch = s.m.cfg.epoch) ∧ (sweptBy s.m a = false)) ∧
    (∃ (s : State) (h : HteIx) (x : Hte), (running s.m = true) ∧ (hte s.m h.val = some x) ∧ (x.kind = .active) ∧ (x.done = true) ∧ (x.awaits = []) ∧ (x.held = []) ∧ (x.cmps = []) ∧ (x.expired = false) ∧ (unsent s.m h.val = false) ∧ ((s.m.trk.atOnce.any fun a => decide (a.msg.line = x.msg.line)) = false)) ∧
    (∃ (s : State) (h : HteIx) (g : HteIx) (x : Hte) (w : Hte), (running s.m = true) ∧ (hte s.m h.val = some x) ∧ (x.kind = .queued) ∧ (x.done = false) ∧ (x.expired = false) ∧ (x.vline = none) ∧ (x.recov = none) ∧ (aged s.m x = true) ∧ (h ≠ g) ∧ (hte s.m g.val = some w) ∧ (keepsBusy w x.msg.line = true)) ∧
    (∃ (s : State) (h : HteIx) (x : Hte), (running s.m = true) ∧ (hte s.m h.val = some x) ∧ (x.kind = .active) ∧ (surrenders x = false) ∧ (x.recov = none) ∧ (isJct s.m x = false) ∧ (x.done = false) ∧ (x.expired = false) ∧ (aged s.m x = true) ∧ ((s.m.trk.htes.all fun y => decide (y.2.kind ≠ .queued)) = true)) ∧
    (∃ (s : State) (h : HteIx) (x : Hte), (running s.m = true) ∧ (hte s.m h.val = some x) ∧ (x.kind = .quarantined) ∧ (ageLimit s.m ≤ s.m.stmp - x.adm)) :=
  ⟨⟨st { base with trk := { core := 10, ptr := 3, htes := [(0, { kind := .active, msg := { op := .rdo, dest := 1, src := 2, tag := 9, line := 0x101, epoch := base.cfg.epoch }, port := 0, slot := some 3 }), (2, { kind := .active, msg := { op := .rdo, dest := 1, src := 2, tag := 9, line := 0x100, epoch := base.cfg.epoch }, port := 0, slot := some 3 })], arrivals := [{ port := 3, cyc := 4, msg := { op := .wbd, dest := 1, src := 2, tag := 9, line := 0x100, epoch := base.cfg.epoch }, wb := some 3 }] } }, 0, { port := 3, cyc := 4, msg := { op := .wbd, dest := 1, src := 2, tag := 9, line := 0x100, epoch := base.cfg.epoch }, wb := some 3 }, by decide +kernel⟩,
   ⟨st { base with trk := { htes := [(4095, { kind := .active, msg := { op := .rdo, dest := 1, src := 2, tag := 9, line := 0x100, epoch := base.cfg.epoch }, port := 0, slot := some 3 , done := true, key := some 5, fin := some { st := .x, owner := 3 } }), (5, { kind := .queued, msg := { op := .rds, dest := 1, src := 2, tag := 9, line := 0x100, epoch := base.cfg.epoch }, port := 0, slot := some 3 , seq := 9, wait := .queue }), (7, { kind := .queued, msg := { op := .rds, dest := 1, src := 2, tag := 9, line := 0x100, epoch := base.cfg.epoch }, port := 0, slot := some 3 , seq := 3, wait := .queue })], hteUse := [(3, 2)] } }, 4095, { kind := .active, msg := { op := .rdo, dest := 1, src := 2, tag := 9, line := 0x100, epoch := base.cfg.epoch }, port := 0, slot := some 3 , done := true, key := some 5, fin := some { st := .x, owner := 3 } }, by decide +kernel⟩,
   ⟨st (rs { base with stmp := 2000001, trk := { htes := [(0, { act (reqOf .rdo) with wait := .none, awaits := [.ria 3] }), (4095, { act (reqOf .rds) with kind := .queued, wait := .queue })], hteUse := [(3, 2)] } } [(0xC00, 20000), (0xC14, 0xFFFFFFFF)]), 4095, 0, { act (reqOf .rds) with kind := .queued, wait := .queue }, { act (reqOf .rdo) with wait := .none, awaits := [.ria 3] }, by decide +kernel⟩,
   ⟨st (rs { one ({ act (reqOf .rdo) with wait := .none, awaits := [.owner 3 .sfo, .reqCmp 2], cont := .finish }) with stmp := 2000001 } [(0xC00, 20000), (0xC14, 0xFFFFFFFF)]), 4095, { act (reqOf .rdo) with wait := .none, awaits := [.owner 3 .sfo, .reqCmp 2], cont := .finish }, by decide +kernel⟩,
   ⟨st (rs { one ({ act (reqOf .rds) with kind := .quarantined, done := true, expired := true, adm := 1 }) with stmp := 2000001 } [(0xC00, 20000)]), 4095, { act (reqOf .rds) with kind := .quarantined, done := true, expired := true, adm := 1 }, by decide +kernel⟩⟩

def w2_s (op : Op) : State :=
  st (listed (one (act { reqOf op with aux := if op = .wst then 0x500 else if op = .atm then 0x400 else 0 })) (16 * dirSet 0x100 + 15) { tag := dirTag 0x100, st := .x, owner := 200 })

def w2_x (op : Op) : Hte :=
  act { reqOf op with aux := if op = .wst then 0x500 else if op = .atm then 0x400 else 0 }

def w2_d : DirEnt :=
  { tag := dirTag 0x100, st := .x, owner := 200 }

theorem witness_OwnedLinesAreForwardedOrRecalled :
    ∀ z ∈ ([(.rds (4095 : HteIx) Env.clean, .rds, .sfs), (.rdo (4095 : HteIx) Env.clean, .rdo, .sfo), (.upg (4095 : HteIx) Env.clean, .upg, .sfo), (.rdc (4095 : HteIx) Env.clean, .rdc, .sfc), (.wrl (4095 : HteIx) Env.clean, .wrl, .src), (.wrp (4095 : HteIx) Env.clean, .wrp, .src), (.wst (4095 : HteIx) Env.clean, .wst, .src), (.fls (4095 : HteIx) Env.clean, .fls, .src), (.atm (4095 : HteIx) Env.clean, .atm, .src)] : List (Instr × Op × Op)), (running (w2_s z.2.1).m = true) ∧ (atDecision (w2_s z.2.1).m (4095 : HteIx).val (w2_x z.2.1) z.2.1 .decision) ∧ (hasEntry (w2_s z.2.1).m (w2_x z.2.1).msg.line (16 * dirSet 0x100 + 15 : Nat) w2_d) ∧ (w2_d.st = .x) ∧ ((w2_x z.2.1).slot = some (3 : Nat)) ∧ (w2_d.owner.toNat ≠ (3 : Nat)) ∧ (mayChain (w2_s z.2.1).m (w2_x z.2.1) = false) ∧ (snoopable (w2_s z.2.1).m (w2_x z.2.1).epoch w2_d.owner.toNat = true) ∧ ((z.2.1 = .atm → (w2_x z.2.1).alcIx = none ∧ entryFree (w2_s z.2.1).m 0)) :=
  by decide +kernel

def w3_s (op : Op) : State :=
  st (listed (one (act { reqOf op with aux := if op = .wst then 0x500 else if op = .atm then 0x400 else 0 })) (16 * dirSet 0x100 + 15) ({ tag := dirTag 0x100, st := .s, vec := vecOf 3 ||| vecOf 5 ||| vecOf 200 } : DirEnt))

def w3_x (op : Op) : Hte :=
  act { reqOf op with aux := if op = .wst then 0x500 else if op = .atm then 0x400 else 0 }

def w3_d : DirEnt :=
  ({ tag := dirTag 0x100, st := .s, vec := vecOf 3 ||| vecOf 5 ||| vecOf 200 } : DirEnt)

theorem witness_SharedLinesAreInvalidated :
    (∀ z ∈ ([(.rdo (4095 : HteIx) Env.clean, .rdo, w3_d.vec &&& ~~~(vecOf (3 : Nat))), (.upg (4095 : HteIx) Env.clean, .upg, w3_d.vec &&& ~~~(vecOf (3 : Nat))), (.wrl (4095 : HteIx) Env.clean, .wrl, w3_d.vec), (.wrp (4095 : HteIx) Env.clean, .wrp, w3_d.vec), (.wst (4095 : HteIx) Env.clean, .wst, w3_d.vec), (.fls (4095 : HteIx) Env.clean, .fls, w3_d.vec), (.atm (4095 : HteIx) Env.clean, .atm, w3_d.vec)] : List (Instr × Op × BitVec 256)), (running (w3_s z.2.1).m = true) ∧ (atDecision (w3_s z.2.1).m (4095 : HteIx).val (w3_x z.2.1) z.2.1 .decision) ∧ (hasEntry (w3_s z.2.1).m (w3_x z.2.1).msg.line (16 * dirSet 0x100 + 15 : Nat) w3_d) ∧ (w3_d.st = .s) ∧ ((w3_x z.2.1).slot = some (3 : Nat)) ∧ ((z.2.1 = .atm → (w3_x z.2.1).alcIx = none ∧ entryFree (w3_s z.2.1).m 0)) ∧ ((∃ i < 256, z.2.2.getLsbD i = true ∧ snoopable (w3_s z.2.1).m (w3_x z.2.1).epoch i = true))) ∧
    (∃ (s : State) (h : HteIx) (x : Hte) (k : Nat) (own : Nat) (d : DirEnt), (running s.m = true) ∧ (atDecision s.m h.val x .rds .decision) ∧ (hasEntry s.m x.msg.line k d) ∧ (d.st = .s) ∧ (x.slot = some own)) ∧
    (∃ (s : State) (h : HteIx) (x : Hte) (k : Nat) (own : Nat) (d : DirEnt), (running s.m = true) ∧ (atDecision s.m h.val x .rdc .decision) ∧ (hasEntry s.m x.msg.line k d) ∧ (d.st = .s) ∧ (x.slot = some own)) :=
  ⟨by decide +kernel,
   ⟨st (listed (one (act (reqOf .rds))) (16 * dirSet 0x100 + 15) { tag := dirTag 0x100, st := .s, vec := vecOf 5 }), 4095, act (reqOf .rds), 16 * dirSet 0x100 + 15, 3, { tag := dirTag 0x100, st := .s, vec := vecOf 5 }, by decide +kernel⟩,
   ⟨st (listed (one (act (reqOf .rdc))) (16 * dirSet 0x100 + 15) { tag := dirTag 0x100, st := .s, vec := vecOf 5 }), 4095, act (reqOf .rdc), 16 * dirSet 0x100 + 15, 3, { tag := dirTag 0x100, st := .s, vec := vecOf 5 }, by decide +kernel⟩⟩

def w4_s (op : Op) (w : Wait) : State :=
  st { one ({ act (reqOf op) with wait := w }) with cfg := { base.cfg with set0 := { cset with regions := [(0, { valid := true, basePn := 0, limitPn := 5, exclGrant := true })] }, set1 := { cset with regions := [(0, { valid := true, basePn := 0, limitPn := 5, exclGrant := true })] } } }

def w4_x (op : Op) (w : Wait) : Hte :=
  { act (reqOf op) with wait := w }

def w5_s (op : Op) : State :=
  st (one (act { reqOf op with mask := 0xF0, aux := 0x0600 }))

def w5_x (op : Op) : Hte :=
  act { reqOf op with mask := 0xF0, aux := 0x0600 }

theorem witness_UnlistedLinesAreServed :
    (∀ z ∈ ([(.rds (4095 : HteIx) Env.clean, .rds, .decision), (.rdo (4095 : HteIx) Env.clean, .rdo, .decision), (.upg (4095 : HteIx) Env.clean, .upg, .decision), (.wayRetry (4095 : HteIx) Env.clean, .rds, .way), (.wayRetry (4095 : HteIx) Env.clean, .rdo, .way), (.wayRetry (4095 : HteIx) Env.clean, .upg, .way)] : List (Instr × Op × Wait)), (running (w4_s z.2.1 z.2.2).m = true) ∧ (atDecision (w4_s z.2.1 z.2.2).m (4095 : HteIx).val (w4_x z.2.1 z.2.2) z.2.1 z.2.2) ∧ (dirFind (w4_s z.2.1 z.2.2).m true (w4_x z.2.1 z.2.2).msg.line = none) ∧ ((w4_x z.2.1 z.2.2).slot = some (3 : Nat)) ∧ ((pickWay (w4_s z.2.1 z.2.2).m (4095 : HteIx).val true (dirSet (w4_x z.2.1 z.2.2).msg.line) false).1 = .free (16 * dirSet 0x100 : Nat))) ∧
    (∀ z ∈ ([(.wrl (4095 : HteIx) Env.clean, .wrl), (.wrp (4095 : HteIx) Env.clean, .wrp), (.wst (4095 : HteIx) Env.clean, .wst), (.fls (4095 : HteIx) Env.clean, .fls)] : List (Instr × Op)), (running (w5_s z.2).m = true) ∧ (atDecision (w5_s z.2).m (4095 : HteIx).val (w5_x z.2) z.2 .decision) ∧ (dirFind (w5_s z.2).m true (w5_x z.2).msg.line = none) ∧ ((w5_s z.2).m.ca.mbWait = []) ∧ (tfree (w5_s z.2).m.ca.mb 0 < 128) ∧ ((z.2 = .fls → mbUnissued (w5_s z.2).m (w5_x z.2).msg.line = false)) ∧ ((z.2 = .wst → (slotEnt (w5_s z.2).m (w5_x z.2).epoch (fld (w5_x z.2).msg.aux 15 8)).status ≠ .live)) ∧ ((w5_x z.2).msg.src ≠ nodeId (w5_s z.2).m) ∧ (routeOf (w5_s z.2).m (w5_x z.2).epoch (w5_x z.2).msg.src = some (0 : Nat))) ∧
    (∃ (s : State) (h : HteIx) (x : Hte) (k : Nat), (running s.m = true) ∧ (atDecision s.m h.val x .wst .decision) ∧ (dirFind s.m true x.msg.line = none) ∧ ((slotEnt s.m x.epoch (fld x.msg.aux 15 8)).status = .live) ∧ ((pickWay s.m h.val true (dirSet x.msg.line) false).1 = .free k)) ∧
    (∃ (s : State) (h : HteIx) (x : Hte) (k : Nat) (i : Nat), (running s.m = true) ∧ (atDecision s.m h.val x .atm .decision) ∧ (dirFind s.m true x.msg.line = none) ∧ ((regionOf s.m x.epoch x.msg.line).placement = 0) ∧ (x.alcIx = none) ∧ (x.atUnit = false) ∧ (entryFree s.m i) ∧ ((pickWay s.m h.val true (dirSet x.msg.line) false).1 = .free k)) ∧
    (∃ (s : State) (h : HteIx) (x : Hte) (k : Nat) (i : Nat), (running s.m = true) ∧ (hte s.m h.val = some x) ∧ (x.kind = .active) ∧ (x.wait = .alcEntry) ∧ (x.msg.op = .atm) ∧ (x.key = some k) ∧ (x.awaits = []) ∧ (x.done = false) ∧ (x.alcIx = none) ∧ (x.atUnit = false) ∧ (entryFree s.m i)) :=
  ⟨by decide +kernel,
   by decide +kernel,
   ⟨st (one (act { reqOf .wst with aux := 0x0500, poison := true })), 4095, act { reqOf .wst with aux := 0x0500, poison := true }, 16 * dirSet 0x100, by decide +kernel⟩,
   ⟨st (one (act { reqOf .atm with aux := 0x0400 })), 4095, act { reqOf .atm with aux := 0x0400 }, 16 * dirSet 0x100, 0, by decide +kernel⟩,
   ⟨st (one ({ act { reqOf .atm with aux := 0x0400 } with wait := .alcEntry, key := some (16 * dirSet 0x100 + 7) })), 4095, { act { reqOf .atm with aux := 0x0400 } with wait := .alcEntry, key := some (16 * dirSet 0x100 + 7) }, 16 * dirSet 0x100 + 7, 0, by decide +kernel⟩⟩

def w6_s (op : Op) : State :=
  st (listed (one ({ act (reqOf op) with wbFrom := some 3 })) (16 * dirSet 0x100 + 15) { tag := dirTag 0x100, st := if op = .wbs then .s else .x, owner := if op = .wbs then 0 else 3, vec := if op = .wbs then vecOf 3 else 0 })

def w6_x (op : Op) : Hte :=
  { act (reqOf op) with wbFrom := some 3 }

def w6_d (op : Op) : DirEnt :=
  { tag := dirTag 0x100, st := if op = .wbs then .s else .x, owner := if op = .wbs then 0 else 3, vec := if op = .wbs then vecOf 3 else 0 }

def w7_s (op : Op) : State :=
  st { base with trk := { htes := [(4095, { act { reqOf .rdo with src := 4 } with slot := some 5, wait := .none, awaits := [.owner 3 .sfo, .reqCmp 4], cont := .finish })], atOnce := [{ port := 0, cyc := 3, msg := reqOf op, wb := some 3 }] } }

def w7_a (op : Op) : Arrival :=
  { port := 0, cyc := 3, msg := reqOf op, wb := some 3 }

def w7_x : Hte :=
  { act { reqOf .rdo with src := 4 } with slot := some 5, wait := .none, awaits := [.owner 3 .sfo, .reqCmp 4], cont := .finish }

theorem witness_WritebacksAreServed :
    (∀ z ∈ ([(.wbd (.hte (4095 : HteIx)) Env.clean, .wbd), (.wbe (.hte (4095 : HteIx)) Env.clean, .wbe), (.wbs (.hte (4095 : HteIx)) Env.clean, .wbs)] : List (Instr × Op)), (running (w6_s z.2).m = true) ∧ (hte (w6_s z.2).m (4095 : HteIx).val = some (w6_x z.2)) ∧ ((w6_x z.2).kind = .active) ∧ ((w6_x z.2).wait = .decision) ∧ ((w6_x z.2).job = .external) ∧ ((w6_x z.2).msg.op = z.2) ∧ ((w6_x z.2).slot = some (3 : Nat)) ∧ ((w6_x z.2).awaits = []) ∧ ((w6_x z.2).ended = false) ∧ ((w6_x z.2).done = false) ∧ (homeServes (w6_s z.2).m (w6_x z.2).epoch (w6_x z.2).msg.line (w6_x z.2).slot = true) ∧ (homeOf (w6_s z.2).m (w6_x z.2).epoch (w6_x z.2).msg.line = some (nodeId (w6_s z.2).m)) ∧ (64 * llaOf (w6_s z.2).m (w6_x z.2).epoch (w6_x z.2).msg.line < capacity (w6_s z.2).m) ∧ (uncoupled (w6_s z.2).m = false) ∧ (retired (w6_s z.2).m (dirSet (w6_x z.2).msg.line) = false) ∧ (hasEntry (w6_s z.2).m (w6_x z.2).msg.line (16 * dirSet 0x100 + 15 : Nat) (w6_d z.2)) ∧ ((3 : Nat) < 256) ∧ ((if z.2 = .wbs then (w6_d z.2).st = .s ∧ (w6_d z.2).vec.getLsbD (3 : Nat) = true else (w6_d z.2).st = .x ∧ (w6_d z.2).owner.toNat = (3 : Nat))) ∧ ((w6_s z.2).m.ca.mbWait = []) ∧ (tfree (w6_s z.2).m.ca.mb 0 < 128) ∧ ((w6_x z.2).msg.src ≠ nodeId (w6_s z.2).m) ∧ (routeOf (w6_s z.2).m (w6_x z.2).epoch (w6_x z.2).msg.src = some (0 : Nat))) ∧
    (∀ z ∈ ([(.wbd .atOnce Env.clean, .wbd), (.wbe .atOnce Env.clean, .wbe)] : List (Instr × Op)), (running (w7_s z.2).m = true) ∧ (role (w7_s z.2).m = 0) ∧ ((w7_a z.2).msg.op = z.2) ∧ ((w7_s z.2).m.trk.atOnce = (w7_a z.2) :: ([] : List Arrival)) ∧ (wbTaker (w7_s z.2).m (w7_a z.2).msg.line (w7_a z.2).msg.src = some ((4095 : Nat), w7_x)) ∧ (hte (w7_s z.2).m (4095 : Nat) = some w7_x) ∧ (w7_x.awaits.contains (.wb ((anySlotOf (w7_s z.2).m w7_x.epoch (w7_a z.2).msg.src).getD 256) false) = false) ∧ (w7_x.awaits.contains (.wb ((anySlotOf (w7_s z.2).m w7_x.epoch (w7_a z.2).msg.src).getD 256) true) = false)) :=
  ⟨by decide +kernel,
   by decide +kernel⟩

def w8_s (op : Op) : State :=
  st (got (one ({ act { reqOf (if op = .ria then .wrl else .rds) with src := 4 } with slot := some 5, wait := .none, awaits := [if op = .ria then .ria 3 else .owner 3 .sfs, .reqCmp 4], cont := .finish })) 0 { op := op, dest := 1, src := 2, tag := 4095, htag := 4095, line := 0x100, epoch := base.cfg.epoch, data := 0x99 })

def w8_x (op : Op) : Hte :=
  { act { reqOf (if op = .ria then .wrl else .rds) with src := 4 } with slot := some 5, wait := .none, awaits := [if op = .ria then .ria 3 else .owner 3 .sfs, .reqCmp 4], cont := .finish }

def w8_a (op : Op) : Await :=
  if op = .ria then .ria 3 else .owner 3 .sfs

def w8_g (op : Op) : Msg :=
  { op := op, dest := 1, src := 2, tag := 4095, htag := 4095, line := 0x100, epoch := base.cfg.epoch, data := 0x99 }

theorem witness_AwaitedRepliesAreCounted :
    (∀ z ∈ ([(.ria Env.clean, .ria), (.rsa Env.clean, .rsa)] : List (Instr × Op)), (running (w8_s z.2).m = true) ∧ (answers (w8_s z.2).m (4095 : HteIx).val (w8_x z.2) (w8_a z.2) (w8_g z.2)) ∧ ((w8_x z.2).awaits.erase (w8_a z.2) ≠ [])) ∧
    (∃ (s : State) (h : HteIx) (x : Hte) (a : Await) (g : Msg) (sl : Nat), (running s.m = true) ∧ (answers s.m h.val x a g) ∧ (g.op = .rwp) ∧ (anySlotOf s.m x.epoch g.src = some sl) ∧ (x.job ≠ .snoop) ∧ (x.recov = none) ∧ (takeWbOf s.m h.val sl (awaitLine x) = none)) ∧
    (∃ (s : State) (h : HteIx) (x : Hte) (g : Msg) (sl : Nat) (p : Nat), (running s.m = true) ∧ (answers s.m h.val x (.acc sl) g) ∧ (g.op = .acc) ∧ (anySlotOf s.m x.epoch g.src = some sl) ∧ (x.msg.op = .wst) ∧ (x.awaits = [.acc sl]) ∧ (x.cont = .answer) ∧ (x.wait = .none) ∧ (x.done = false) ∧ (x.msg.src ≠ nodeId s.m) ∧ (routeOf s.m x.epoch x.msg.src = some p)) ∧
    (∃ (s : State) (h : HteIx) (x : Hte) (g : Msg) (sl : Nat) (p : Nat), (running s.m = true) ∧ (answers s.m h.val x (.acc sl) g) ∧ (g.op = .dec) ∧ (x.msg.op = .wst) ∧ (x.awaits = [.acc sl]) ∧ (x.wait = .none) ∧ (x.done = false) ∧ (x.cont = .answer) ∧ (s.m.ca.mbWait = []) ∧ (tfree s.m.ca.mb 0 < 128) ∧ (x.msg.src ≠ nodeId s.m) ∧ (routeOf s.m x.epoch x.msg.src = some p)) ∧
    (∃ (s : State) (h : HteIx) (x : Hte) (g : Msg) (o : Nat), (running s.m = true) ∧ (answers s.m h.val x (.owner o .sfs) g) ∧ (g.op = .dhm) ∧ (x.job = .external) ∧ (x.msg.op = .rds) ∧ (x.recov = none) ∧ (x.vline = none) ∧ (x.awaits.erase (.owner o .sfs) ≠ []) ∧ (s.m.ca.mbWait = []) ∧ (tfree s.m.ca.mb 0 < 128)) ∧
    (∃ (s : State) (h : HteIx) (x : Hte) (g : Msg), (running s.m = true) ∧ (s.m.inbox.map (·.msg) = [g]) ∧ (isJunction s.m = false) ∧ (g.op = .cmp) ∧ (g.htag.toNat = h.val) ∧ (mgtAnswer { s.m with inbox := [] } g = none) ∧ (dumpAnswer { s.m with inbox := [] } g = none) ∧ (hte s.m h.val = some x) ∧ (x.kind = .active) ∧ (upHome x = none) ∧ (g.staff = false) ∧ (g.epoch = x.epoch) ∧ (x.awaits = [.reqCmp g.src]) ∧ (x.wait = .none) ∧ (x.cont = .finish) ∧ (x.done = false) ∧ (x.cmps = [])) :=
  ⟨by decide +kernel,
   ⟨st (got (one ({ act { reqOf .rdo with src := 4 } with slot := some 5, wait := .none, awaits := [.ssu 3], cont := .finish })) 0 { op := .rwp, dest := 1, src := 2, tag := 4095, htag := 4095, line := 0x100, epoch := base.cfg.epoch, data := 0x99, staff := true }), 4095, { act { reqOf .rdo with src := 4 } with slot := some 5, wait := .none, awaits := [.ssu 3], cont := .finish }, .ssu 3, { op := .rwp, dest := 1, src := 2, tag := 4095, htag := 4095, line := 0x100, epoch := base.cfg.epoch, data := 0x99, staff := true }, 3, by decide +kernel⟩,
   ⟨st (got (one ({ act { reqOf .wst with src := 4 } with slot := some 5, wait := .none, awaits := [.acc 3], cont := .answer, key := some (16 * dirSet 0x100 + 15), fin := some { tag := dirTag 0x100, st := .x, owner := 3, epoch := base.cfg.epoch } })) 0 { op := .acc, dest := 1, src := 2, tag := 4095, htag := 4095, line := 0x100, epoch := base.cfg.epoch, data := 0x99 }), 4095, { act { reqOf .wst with src := 4 } with slot := some 5, wait := .none, awaits := [.acc 3], cont := .answer, key := some (16 * dirSet 0x100 + 15), fin := some { tag := dirTag 0x100, st := .x, owner := 3, epoch := base.cfg.epoch } }, { op := .acc, dest := 1, src := 2, tag := 4095, htag := 4095, line := 0x100, epoch := base.cfg.epoch, data := 0x99 }, 3, 0, by decide +kernel⟩,
   ⟨st { got (one ({ act { reqOf .wst with src := 4 } with slot := some 5, wait := .none, awaits := [.acc 3], cont := .answer, key := some (16 * dirSet 0x100 + 15), fin := some {} })) 0 { op := .dec, dest := 1, src := 2, tag := 4095, htag := 4095, line := 0x100, epoch := base.cfg.epoch, data := 0x99 } with ca := { base.ca with mb := [(0, { line := 0x100, mask := 1, data := 0xFF, order := 1 })] } }, 4095, { act { reqOf .wst with src := 4 } with slot := some 5, wait := .none, awaits := [.acc 3], cont := .answer, key := some (16 * dirSet 0x100 + 15), fin := some {} }, { op := .dec, dest := 1, src := 2, tag := 4095, htag := 4095, line := 0x100, epoch := base.cfg.epoch, data := 0x99 }, 3, 0, by decide +kernel⟩,
   ⟨st (got (one ({ act { reqOf .rds with src := 4 } with slot := some 5, wait := .none, awaits := [.owner 3 .sfs, .reqCmp 4], cont := .finish })) 0 { op := .dhm, dest := 1, src := 2, tag := 4095, htag := 4095, line := 0x100, epoch := base.cfg.epoch, data := 0x99, status := 1 }), 4095, { act { reqOf .rds with src := 4 } with slot := some 5, wait := .none, awaits := [.owner 3 .sfs, .reqCmp 4], cont := .finish }, { op := .dhm, dest := 1, src := 2, tag := 4095, htag := 4095, line := 0x100, epoch := base.cfg.epoch, data := 0x99, status := 1 }, 3, by decide +kernel⟩,
   ⟨st (got (one ({ act { reqOf .rds with src := 4 } with slot := some 5, wait := .none, awaits := [.reqCmp 4], cont := .finish })) 0 { ({ op := .cmp, dest := 1, src := 2, tag := 4095, htag := 4095, line := 0x100, epoch := base.cfg.epoch, data := 0x99 } : Msg) with src := 4 }), 4095, { act { reqOf .rds with src := 4 } with slot := some 5, wait := .none, awaits := [.reqCmp 4], cont := .finish }, { ({ op := .cmp, dest := 1, src := 2, tag := 4095, htag := 4095, line := 0x100, epoch := base.cfg.epoch, data := 0x99 } : Msg) with src := 4 }, by decide +kernel⟩⟩

def w9_s (op : Op) : State :=
  st (jct (got (one ({ act { reqOf (if op = .gnt then .upg else if op = .dex then .rdo else if op = .dmo then .rdo else .rds) with src := 6, line := 0x400001, mask := 0xF0 } with port := 1, slot := some 7, wait := .none, awaits := [.up 9], cont := .jctRelay, up := some { op := (if op = .gnt then .upg else if op = .dex then .rdo else if op = .dmo then .rdo else .rds), line := 0x400001 }, upEpoch := base.cfg.epoch, key := some 44, fin := some { tag := 1, st := .s, vec := 128 } })) 1 { op := op, dest := 1, src := 9, tag := 4095, htag := 77, line := 0x400001, epoch := base.cfg.epoch, data := 0x8877, status := if op = .dmo then 0 else 1 }))

def w9_x (op : Op) : Hte :=
  { act { reqOf (if op = .gnt then .upg else if op = .dex then .rdo else if op = .dmo then .rdo else .rds) with src := 6, line := 0x400001, mask := 0xF0 } with port := 1, slot := some 7, wait := .none, awaits := [.up 9], cont := .jctRelay, up := some { op := (if op = .gnt then .upg else if op = .dex then .rdo else if op = .dmo then .rdo else .rds), line := 0x400001 }, upEpoch := base.cfg.epoch, key := some 44, fin := some { tag := 1, st := .s, vec := 128 } }

def w9_g (op : Op) : Msg :=
  { op := op, dest := 1, src := 9, tag := 4095, htag := 77, line := 0x400001, epoch := base.cfg.epoch, data := 0x8877, status := if op = .dmo then 0 else 1 }

theorem witness_JunctionRelaysItsMembers :
    (∃ (s : State) (h : HteIx) (x : Hte) (n : NodeId) (p : Nat), (running s.m = true) ∧ (hte s.m h.val = some x) ∧ (x.kind = .active) ∧ (x.wait = .decision) ∧ (x.job = .external) ∧ (x.awaits = []) ∧ (x.done = false) ∧ ((x.msg.op = .rdc ∨ x.msg.op = .wrl ∨ x.msg.op = .wrp ∨ x.msg.op = .wst ∨ x.msg.op = .atm ∨ x.msg.op = .fls)) ∧ (homeServes s.m x.epoch x.msg.line x.slot = false) ∧ (reqLost s.m x = false) ∧ (uncoupled s.m = false) ∧ (s.m.fab.cplState = 2) ∧ (memberSlot s.m x.epoch x.slot = true) ∧ ((homeOf s.m x.epoch x.msg.line).isSome = true) ∧ (homeOf s.m (upEpochOf s.m) x.msg.line = some n) ∧ (retired s.m (dirSet x.msg.line) = false) ∧ (dirFind s.m false x.msg.line = none) ∧ (n ≠ nodeId s.m) ∧ (routeOf s.m (upEpochOf s.m) n = some p)) ∧
    (∀ z ∈ ([(.gnt, .gnt), (.dsh, .dsh), (.dex, .dex), (.dmo, .dmo), (.err, .err)] : List (Instr × Op)), (running (w9_s z.2).m = true) ∧ ((w9_s z.2).m.inbox.map (·.msg) = [(w9_g z.2)]) ∧ (isJunction (w9_s z.2).m = true) ∧ ((w9_g z.2).op = z.2) ∧ ((w9_g z.2).tag.toNat = (4095 : HteIx).val) ∧ ((w9_g z.2).line ≠ 0) ∧ ((w9_s z.2).m.pmc.dump = none) ∧ ((w9_s z.2).m.pmc.abandonedTags = []) ∧ (hte (w9_s z.2).m (4095 : HteIx).val = some (w9_x z.2)) ∧ ((w9_x z.2).kind = .active) ∧ ((w9_x z.2).awaits = [.up (9 : NodeId)]) ∧ (legalUp (w9_x z.2) (w9_g z.2) = true) ∧ ((w9_g z.2).src = (9 : NodeId)) ∧ ((w9_g z.2).epoch = (w9_x z.2).upEpoch) ∧ ((w9_x z.2).cont = .jctRelay) ∧ ((w9_x z.2).wait = .none) ∧ ((w9_x z.2).done = false) ∧ ((w9_x z.2).cmps = []) ∧ ((w9_x z.2).msg.src ≠ nodeId (w9_s z.2).m) ∧ (routeOf (w9_s z.2).m (w9_x z.2).epoch (w9_x z.2).msg.src = some (1 : Nat))) ∧
    (∃ (s : State) (h : HteIx) (x : Hte) (k : Nat) (own : Nat) (p : Nat) (d : DirEnt) (n : NodeId), (running s.m = true) ∧ (hte s.m h.val = some x) ∧ (x.kind = .active) ∧ (x.wait = .decision) ∧ (x.job = .external) ∧ (x.awaits = []) ∧ (x.ended = false) ∧ ((x.msg.op = .wbd ∨ x.msg.op = .wbe)) ∧ (homeServes s.m x.epoch x.msg.line x.slot = false) ∧ (uncoupled s.m = false) ∧ ((homeOf s.m x.epoch x.msg.line).isSome = true) ∧ (homeOf s.m (upEpochOf s.m) x.msg.line = some n) ∧ (retired s.m (dirSet x.msg.line) = false) ∧ (dirFind s.m false x.msg.line = some k) ∧ (dirEnt s.m k = d) ∧ (d.st = .x) ∧ (x.slot = some own) ∧ (d.owner.toNat = own) ∧ (n ≠ nodeId s.m) ∧ (routeOf s.m (upEpochOf s.m) n = some p)) :=
  ⟨⟨st (jct (one ({ act { reqOf .fls with src := 6, line := 0x400001, mask := 0xF0 } with port := 1, slot := some 7 }))), 4095, { act { reqOf .fls with src := 6, line := 0x400001, mask := 0xF0 } with port := 1, slot := some 7 }, 9, 1, by decide +kernel⟩,
   by decide +kernel,
   ⟨st (jct (listed (one ({ act { reqOf .wbd with src := 6, line := 0x400001, mask := 0xF0 } with port := 1, slot := some 7 })) (16 * dirSet 0x400001 + 15) { tag := dirTag 0x400001, st := .x, owner := 7 })), 4095, { act { reqOf .wbd with src := 6, line := 0x400001, mask := 0xF0 } with port := 1, slot := some 7 }, 16 * dirSet 0x400001 + 15, 7, 1, { tag := dirTag 0x400001, st := .x, owner := 7 }, 9, by decide +kernel⟩⟩

def w10_s (op : Op) : State :=
  st (jct (got base 1 { op := op, dest := 1, src := 9, tag := 33, htag := 44, fnode := 2, ftag := 55, line := 0x400001, epoch := base.cfg.epoch }))

def w10_g (op : Op) : Msg :=
  { op := op, dest := 1, src := 9, tag := 33, htag := 44, fnode := 2, ftag := 55, line := 0x400001, epoch := base.cfg.epoch }

def w11_s (op : Op) : State :=
  st (jct (got base 1 { op := op, dest := 1, src := 9, tag := 33, htag := 44, fnode := 2, ftag := 55, line := 0x400001, epoch := base.cfg.epoch }))

def w11_g (op : Op) : Msg :=
  { op := op, dest := 1, src := 9, tag := 33, htag := 44, fnode := 2, ftag := 55, line := 0x400001, epoch := base.cfg.epoch }

def w12_s (op : Op) : State :=
  st (jct (listed (got base 1 { op := op, dest := 1, src := 9, tag := 33, htag := 44, fnode := 2, ftag := 55, line := 0x400001, epoch := base.cfg.epoch }) (16 * dirSet 0x400001 + 15) { tag := dirTag 0x400001, st := .x, owner := 7 }))

def w12_g (op : Op) : Msg :=
  { op := op, dest := 1, src := 9, tag := 33, htag := 44, fnode := 2, ftag := 55, line := 0x400001, epoch := base.cfg.epoch }

def w12_k : Nat :=
  16 * dirSet 0x400001 + 15

def w12_d : DirEnt :=
  { tag := dirTag 0x400001, st := .x, owner := 7 }

theorem witness_JunctionAnswersSnoops :
    (∀ z ∈ ([(.sin Env.clean, .sin), (.src Env.clean, .src), (.swp Env.clean, .swp), (.jctSnoopHteGrant, .sin), (.jctSnoopHteGrant, .src), (.jctSnoopHteGrant, .swp)] : List (Instr × Op)), (running (w10_s z.2).m = true) ∧ ((w10_s z.2).m.inbox.map (·.msg) = [(w10_g z.2)]) ∧ (isJunction (w10_s z.2).m = true) ∧ ((w10_g z.2).op = z.2) ∧ (snoopRoom (w10_s z.2).m = true) ∧ ((∀ y ∈ (w10_s z.2).m.trk.htes, keepsBusy y.2 (w10_g z.2).line = false)) ∧ (retired (w10_s z.2).m (dirSet (w10_g z.2).line) = false) ∧ (dirFind (w10_s z.2).m false (w10_g z.2).line = none) ∧ (readers (w10_s z.2).m (w10_g z.2).line = 0) ∧ ((w10_g z.2).src ≠ nodeId (w10_s z.2).m) ∧ (routeOf (w10_s z.2).m (epochFor (w10_s z.2).m (w10_g z.2).epoch) (w10_g z.2).src = some (1 : Nat))) ∧
    (∀ z ∈ ([(.sfs Env.clean, .sfs, .rsa, .dsh), (.sfo Env.clean, .sfo, .ria, .dex), (.sfc Env.clean, .sfc, .rsa, .dsh)] : List (Instr × Op × Op × Op)), (running (w11_s z.2.1).m = true) ∧ ((w11_s z.2.1).m.inbox.map (·.msg) = [(w11_g z.2.1)]) ∧ (isJunction (w11_s z.2.1).m = true) ∧ ((w11_g z.2.1).op = z.2.1) ∧ (snoopRoom (w11_s z.2.1).m = true) ∧ ((∀ y ∈ (w11_s z.2.1).m.trk.htes, keepsBusy y.2 (w11_g z.2.1).line = false)) ∧ (retired (w11_s z.2.1).m (dirSet (w11_g z.2.1).line) = false) ∧ (dirFind (w11_s z.2.1).m false (w11_g z.2.1).line = none) ∧ (readers (w11_s z.2.1).m (w11_g z.2.1).line = 0) ∧ ((w11_g z.2.1).src ≠ nodeId (w11_s z.2.1).m) ∧ ((w11_g z.2.1).fnode ≠ nodeId (w11_s z.2.1).m) ∧ (routeOf (w11_s z.2.1).m (epochFor (w11_s z.2.1).m (w11_g z.2.1).epoch) (w11_g z.2.1).src = some (1 : Nat)) ∧ (routeOf (w11_s z.2.1).m (epochFor (w11_s z.2.1).m (w11_g z.2.1).epoch) (w11_g z.2.1).fnode = some (0 : Nat))) ∧
    (∀ z ∈ ([(.sin Env.clean, .sin), (.sfs Env.clean, .sfs), (.sfo Env.clean, .sfo), (.sfc Env.clean, .sfc), (.src Env.clean, .src), (.swp Env.clean, .swp)] : List (Instr × Op)), (running (w12_s z.2).m = true) ∧ ((w12_s z.2).m.inbox.map (·.msg) = [(w12_g z.2)]) ∧ (isJunction (w12_s z.2).m = true) ∧ ((w12_g z.2).op = z.2) ∧ (snoopRoom (w12_s z.2).m = true) ∧ ((∀ y ∈ (w12_s z.2).m.trk.htes, keepsBusy y.2 (w12_g z.2).line = false)) ∧ (retired (w12_s z.2).m (dirSet (w12_g z.2).line) = false) ∧ (dirFind (w12_s z.2).m false (w12_g z.2).line = some w12_k) ∧ (dirEnt (w12_s z.2).m w12_k = w12_d) ∧ (w12_d.st = .x) ∧ (snoopable (w12_s z.2).m (epochFor (w12_s z.2).m (w12_g z.2).epoch) w12_d.owner.toNat = true) ∧ (nodeOf (w12_s z.2).m (epochFor (w12_s z.2).m (w12_g z.2).epoch) w12_d.owner.toNat ≠ nodeId (w12_s z.2).m) ∧ (routeOf (w12_s z.2).m (epochFor (w12_s z.2).m (w12_g z.2).epoch) (nodeOf (w12_s z.2).m (epochFor (w12_s z.2).m (w12_g z.2).epoch) w12_d.owner.toNat) = some (1 : Nat))) ∧
    (∃ (s : State) (h : HteIx) (x : Hte) (p : Nat), (running s.m = true) ∧ (hte s.m h.val = some x) ∧ (x.kind = .active) ∧ (x.job = .snoop) ∧ (x.wait = .deferred) ∧ (x.awaits = []) ∧ (x.done = false) ∧ (x.cmps = []) ∧ (forwards x.msg.op = false) ∧ (snoopCase s.m h.val x.msg.op x.msg.line = .act) ∧ (retired s.m (dirSet x.msg.line) = false) ∧ (dirFind s.m false x.msg.line = none) ∧ (readers s.m x.msg.line = 0) ∧ (x.msg.src ≠ nodeId s.m) ∧ (routeOf s.m x.epoch x.msg.src = some p)) ∧
    (∃ (s : State) (g : Msg) (p : Nat), (running s.m = true) ∧ (s.m.inbox.map (·.msg) = [g]) ∧ (g.op = .spu) ∧ (isJunction s.m = true) ∧ (g.src ≠ nodeId s.m) ∧ (routeOf s.m (epochFor s.m g.epoch) g.src = some p)) :=
  ⟨by decide +kernel,
   by decide +kernel,
   by decide +kernel,
   ⟨st (jct (one ({ act { ({ op := .src, dest := 1, src := 9, tag := 33, htag := 44, fnode := 2, ftag := 55, line := 0x400001, epoch := base.cfg.epoch } : Msg) with tag := 9 } with port := 1, slot := some 7, wait := .deferred, job := .snoop }))), 4095, { act { ({ op := .src, dest := 1, src := 9, tag := 33, htag := 44, fnode := 2, ftag := 55, line := 0x400001, epoch := base.cfg.epoch } : Msg) with tag := 9 } with port := 1, slot := some 7, wait := .deferred, job := .snoop }, 1, by decide +kernel⟩,
   ⟨st (jct (got base 1 { op := .spu, dest := 1, src := 9, tag := 33, htag := 44, fnode := 2, ftag := 55, line := 0x400001, epoch := base.cfg.epoch })), { op := .spu, dest := 1, src := 9, tag := 33, htag := 44, fnode := 2, ftag := 55, line := 0x400001, epoch := base.cfg.epoch }, 1, by decide +kernel⟩⟩

theorem witness_MemorySideAtomicsRun :
    (∃ (s : State) (ch : Fin 8) (h : Nat) (x : Hte), (running s.m = true) ∧ (s.m.trk.htes = [(h, x)]) ∧ (x.wait = .unitQueue ch.val) ∧ ((tget [] s.m.atm.units ch.val).length < 16)) ∧
    (∃ (s : State) (ch : Fin 8) (o : UnitOp) (q : List UnitOp), (running s.m = true) ∧ (tget [] s.m.atm.units ch.val = o :: q) ∧ (o.started = false) ∧ (unitReady s.m (o :: q) o = true) ∧ (isHome s.m = true) ∧ (chFailed s.m (coords s.m o.lla).1.ch = false) ∧ (s.m.mem.repair = none) ∧ (isPoisoned s.dram o.lla = false)) ∧
    (∃ (s : State) (ch : Fin 8) (o : UnitOp) (q : List UnitOp), (running s.m = true) ∧ (tget [] s.m.atm.units ch.val = o :: q) ∧ (o.started = true) ∧ (o.ue = false) ∧ (o.poison = false) ∧ (o.dropped = true) ∧ (isHome s.m = true) ∧ (wqTakes s.m o.lla = true) ∧ (chFailed s.m (chanOf s.m o.lla) = false) ∧ (s.m.mem.repair = none)) ∧
    (∃ (s : State) (ch : Fin 8) (o : UnitOp) (q : List UnitOp) (x : Hte) (p : Nat), (running s.m = true) ∧ (tget [] s.m.atm.units ch.val = o :: q) ∧ (o.started = true) ∧ (o.ue = false) ∧ (o.poison = false) ∧ (o.dropped = false) ∧ (isHome s.m = true) ∧ (wqTakes s.m o.lla = true) ∧ (chFailed s.m (chanOf s.m o.lla) = false) ∧ (s.m.mem.repair = none) ∧ (hte s.m o.hte = some x) ∧ (x.kind = .active) ∧ (x.cmps = []) ∧ (x.msg.op = .atm) ∧ (x.awaits = [.unit]) ∧ (x.wait = .none) ∧ (x.cont = .answer) ∧ (x.atUnit = true) ∧ (x.done = false) ∧ (x.msg.src ≠ nodeId s.m) ∧ (routeOf s.m x.epoch x.msg.src = some p)) ∧
    (∃ (s : State), (running s.m = true) ∧ (rfld s.m 0x1C00 15 0 ≠ 0)) :=
  ⟨⟨st { base with trk := { htes := [(4095, { kind := .active, msg := { op := .atm, dest := 1, src := 2, tag := 9, line := 0x100, epoch := base.cfg.epoch, data := 0x1122, aux := 0x0400 }, port := 0, slot := some 3, epoch := base.cfg.epoch, wait := .unitQueue 7 })] }, atm := { base.atm with units := [(7, [{ hte := 3, line := 0x100, lla := 0x100, msg := { op := .atm, line := 0x100, data := 5, aux := 0x0400 }, order := 3 }])] } }, 7, 4095, { kind := .active, msg := { op := .atm, dest := 1, src := 2, tag := 9, line := 0x100, epoch := base.cfg.epoch, data := 0x1122, aux := 0x0400 }, port := 0, slot := some 3, epoch := base.cfg.epoch, wait := .unitQueue 7 }, by decide +kernel⟩,
   ⟨std { cells := [(0x100 * 64, 7), (0x100 * 64 + 3, 9)] } { base with ca := {}, atm := { base.atm with units := [(7, [{ hte := 4095, line := 0x100, lla := 0x100, msg := { op := .atm, line := 0x100, data := 5, aux := 0x0400 }, order := 3 }, { hte := 3, line := 0x100, lla := 0x100, msg := { op := .atm, line := 0x100, data := 5, aux := 0x0400 }, order := 3 }])] } }, 7, { hte := 4095, line := 0x100, lla := 0x100, msg := { op := .atm, line := 0x100, data := 5, aux := 0x0400 }, order := 3 }, [{ hte := 3, line := 0x100, lla := 0x100, msg := { op := .atm, line := 0x100, data := 5, aux := 0x0400 }, order := 3 }], by decide +kernel⟩,
   ⟨std { cells := [(0x100 * 64, 7), (0x100 * 64 + 3, 9)] } { base with ca := {}, atm := { base.atm with units := [(7, [{ hte := 4095, line := 0x100, lla := 0x100, msg := { op := .atm, line := 0x100, data := 5, aux := 0x0400 }, order := 3 , started := true, dropped := true, old := 77 }, { hte := 3, line := 0x100, lla := 0x100, msg := { op := .atm, line := 0x100, data := 5, aux := 0x0400 }, order := 3 }])] } }, 7, { hte := 4095, line := 0x100, lla := 0x100, msg := { op := .atm, line := 0x100, data := 5, aux := 0x0400 }, order := 3 , started := true, dropped := true, old := 77 }, [{ hte := 3, line := 0x100, lla := 0x100, msg := { op := .atm, line := 0x100, data := 5, aux := 0x0400 }, order := 3 }], by decide +kernel⟩,
   ⟨std { cells := [(0x100 * 64, 7), (0x100 * 64 + 3, 9)] } { base with ca := {}, trk := { htes := [(4095, { kind := .active, msg := { op := .atm, dest := 1, src := 2, tag := 9, line := 0x100, epoch := base.cfg.epoch, data := 0x1122, aux := 0x0400 }, port := 0, slot := some 3, epoch := base.cfg.epoch, wait := .none , awaits := [.unit], cont := .answer, atUnit := true, key := some 4 })] }, atm := { base.atm with units := [(7, [{ hte := 4095, line := 0x100, lla := 0x100, msg := { op := .atm, line := 0x100, data := 5, aux := 0x0400 }, order := 3 , started := true, old := 77 }, { hte := 3, line := 0x100, lla := 0x100, msg := { op := .atm, line := 0x100, data := 5, aux := 0x0400 }, order := 3 }])] } }, 7, { hte := 4095, line := 0x100, lla := 0x100, msg := { op := .atm, line := 0x100, data := 5, aux := 0x0400 }, order := 3 , started := true, old := 77 }, [{ hte := 3, line := 0x100, lla := 0x100, msg := { op := .atm, line := 0x100, data := 5, aux := 0x0400 }, order := 3 }], { kind := .active, msg := { op := .atm, dest := 1, src := 2, tag := 9, line := 0x100, epoch := base.cfg.epoch, data := 0x1122, aux := 0x0400 }, port := 0, slot := some 3, epoch := base.cfg.epoch, wait := .none , awaits := [.unit], cont := .answer, atUnit := true, key := some 4 }, 0, by decide +kernel⟩,
   ⟨st (rs { base with atm := { base.atm with pred := [] } } [(0x1C00, 5)]), by decide +kernel⟩⟩

theorem witness_DirectoryEnginesRun :
    (∃ (s : State) (y : Fin 4) (k : Nat) (tag : BitVec 24) (r : List (Nat × BitVec 24)), (running s.m = true) ∧ (tget [] s.m.deck.posted y.val = (k, tag) :: r)) ∧
    (∃ (s : State) (set : BitVec 18), (running s.m = true) ∧ (s.m.deck.initDone = true) ∧ (s.m.deck.groomSeen.length < 262144) ∧ (set.toNat ∉ s.m.deck.groomSeen)) ∧
    (∃ (s : State) (set : BitVec 18), (running s.m = true) ∧ (s.m.deck.initDone = true) ∧ (s.m.deck.groomSeen.length < 262144) ∧ (set.toNat ∈ s.m.deck.groomSeen)) ∧
    (∃ (s : State), (running s.m = true) ∧ (s.m.deck.initDone = true) ∧ (262144 ≤ s.m.deck.groomSeen.length) ∧ (s.m.deck.groomSkip ≠ [])) ∧
    (∃ (s : State), (running s.m = true) ∧ (s.m.deck.orders ≠ []) ∧ (retired s.m s.m.deck.pos = true) ∧ (s.m.deck.walkOut.length < 64)) ∧
    (∃ (s : State) (w : Fin 16), (running s.m = true) ∧ (s.m.deck.orders ≠ []) ∧ (retired s.m s.m.deck.pos = false) ∧ (s.m.deck.walkOut.length < 64) ∧ (s.m.trk.htes = []) ∧ ((∀ v : Fin 16, concerns s.m (dirEnt s.m (16 * s.m.deck.pos + v.val)) = decide (v = w)))) ∧
    (∃ (s : State) (h : HteIx) (x : Hte) (n : Nat) (k : Nat) (d : DirEnt), (running s.m = true) ∧ (hte s.m h.val = some x) ∧ (x.kind = .active) ∧ (x.wait = .decision) ∧ (x.job = .walk n) ∧ (hasEntry s.m x.msg.line k d) ∧ (d.st = .s) ∧ (orderedIn s.m .lost d.vec ≠ 0) ∧ (orderedIn s.m .clear d.vec = 0) ∧ (x.awaits = []) ∧ (x.cmps = []) ∧ (retired s.m (dirSet x.msg.line) = false)) ∧
    (∃ (s : State) (slot : Nat), (running s.m = true) ∧ (s.m.deck.orders = [{ kind := .clear, slot := slot, left := 0, need := s.m.deck.walkSerial }]) ∧ (s.m.deck.walkOut = [])) ∧
    (∃ (s : State) (b : Nat) (v : Nat), (running s.m = true) ∧ (s.m.deck.buckets = [(b, v)])) ∧
    (∃ (s : State) (r : DeckRow), (running s.m = true) ∧ (s.m.deck.copying = some r) ∧ (s.m.deck.spareQ = []) ∧ (1 < sparesLeft s.m r)) ∧
    (∃ (s : State) (r : DeckRow), (running s.m = true) ∧ (s.m.deck.copying = some r) ∧ (s.m.deck.spareQ = [])) ∧
    (∃ (s : State) (r : DeckRow) (n : DeckRow) (q : List DeckRow), (running s.m = true) ∧ (s.m.deck.copying = some r) ∧ (s.m.deck.spareQ = n :: q) ∧ (retired s.m n.set.toNat = false) ∧ (0 < sparesLeft s.m n)) :=
  ⟨⟨st { base with deck := { base.deck with posted := [(3, [(19, 5), (35, 7)])] } }, 3, 19, 5, [(35, 7)], by decide +kernel⟩,
   ⟨st { base with deck := { base.deck with groomSeen := [3] } }, 262143, by decide +kernel⟩,
   ⟨st { base with deck := { base.deck with groomSeen := [3, 262143] } }, 262143, by decide +kernel⟩,
   ⟨st { base with deck := { base.deck with groomSeen := List.replicate 262144 0, groomSkip := [5, 9] } }, by decide +kernel⟩,
   ⟨st { base with deck := { base.deck with pos := 262143, retired := [(262143, 3)], walkOut := List.range 63, orders := [{ kind := .lost, slot := 3, left := 262144 }] } }, by decide +kernel⟩,
   ⟨st { base with trk := {}, deck := { base.deck with pos := 0, walkOut := [5], walkSerial := 9, ents := [(16 * 0 + 0, { tag := 5, st := .s, vec := vecOf 3 ||| vecOf 5 })], orders := [{ kind := .clear, slot := 3, left := 262144 }] } }, 0, by decide +kernel⟩,
   ⟨st { one ({ act { op := .rds, dest := 1, line := 0x100, src := 1, epoch := base.cfg.epoch } with port := 16, job := .walk 9, slot := none }) with deck := { base.deck with walkOut := [9], ents := [(16 * dirSet 0x100 + 15, { tag := dirTag 0x100, st := .s, vec := vecOf 3 })], orders := [{ kind := .lost, slot := 3, left := 5 }] } }, 4095, { act { op := .rds, dest := 1, line := 0x100, src := 1, epoch := base.cfg.epoch } with port := 16, job := .walk 9, slot := none }, 9, 16 * dirSet 0x100 + 15, { tag := dirTag 0x100, st := .s, vec := vecOf 3 }, by decide +kernel⟩,
   ⟨st { base with deck := { base.deck with walkSerial := 9, orders := [{ kind := .clear, slot := 255, left := 0, need := 9 }] } }, 255, by decide +kernel⟩,
   ⟨st { base with deck := { base.deck with buckets := [(7, 9)] } }, 7, 9, by decide +kernel⟩,
   ⟨st { base with deck := { base.deck with copying := some ⟨false, 0⟩ } }, ⟨false, 0⟩, by decide +kernel⟩,
   ⟨st { base with deck := { base.deck with copying := some ⟨true, 262143⟩ } }, ⟨true, 262143⟩, by decide +kernel⟩,
   ⟨st { base with deck := { base.deck with copying := some ⟨false, 0⟩, spareQ := [⟨false, 9⟩, ⟨true, 3⟩] } }, ⟨false, 0⟩, ⟨false, 9⟩, [⟨true, 3⟩], by decide +kernel⟩⟩

theorem witness_CachesAndMergingBufferRun :
    (∃ (s : State) (r : Fin 256) (h : Nat) (p : Nat) (lla : Nat) (x : Hte) (reg : MissReg) (op : Op), (running s.m = true) ∧ (tfind s.m.ca.miss r.val = some reg) ∧ (reg.reader = .hte h) ∧ (reg.line = x.msg.line) ∧ (reg.secs = []) ∧ (hte s.m h = some x) ∧ (x.kind = .active) ∧ (dataAnswer x op) ∧ (x.awaits = [.mem]) ∧ (x.wait = .none) ∧ (x.cont = .answer) ∧ (x.done = false) ∧ (x.cmps = []) ∧ (lla = llaOf s.m (decide (8 ≤ reg.cls)) x.msg.line) ∧ (chFailed s.m (coords s.m lla).1.ch = false) ∧ (s.m.mem.repair = none) ∧ (x.msg.src ≠ nodeId s.m) ∧ (routeOf s.m x.epoch x.msg.src = some p)) ∧
    (∃ (s : State) (r : Fin 256) (i : Nat) (lla : Nat) (x : MbEnt) (reg : MissReg), (running s.m = true) ∧ (tfind s.m.ca.miss r.val = some reg) ∧ (reg.reader = .drain i) ∧ (reg.line = x.line) ∧ (reg.secs = []) ∧ (tfind s.m.ca.mb i = some x) ∧ (x.basePending = true) ∧ (lla = llaOf s.m (decide (8 ≤ reg.cls)) x.line) ∧ (chFailed s.m (coords s.m lla).1.ch = false) ∧ (s.m.mem.repair = none)) ∧
    (∃ (s : State) (r : Fin 256) (lla : Nat) (reg : MissReg), (running s.m = true) ∧ (tfind s.m.ca.miss r.val = some reg) ∧ (reg.reader = .prefetch) ∧ (reg.secs = []) ∧ (reg.stale = false) ∧ (reg.fill = true) ∧ (reg.install = false) ∧ (hlcOn s.m = true) ∧ (hlcKey s.m reg.line = none) ∧ (sidingKey s.m reg.line = none) ∧ ((mbOverlay s.m reg.line).2.2 = false) ∧ (lla = llaOf s.m (decide (8 ≤ reg.cls)) reg.line) ∧ (chFailed s.m (coords s.m lla).1.ch = false) ∧ (s.m.mem.repair = none) ∧ (isPoisoned s.dram lla = false)) ∧
    (∃ (s : State) (w : MissWait) (q : List MissWait), (running s.m = true) ∧ (takeFirst (fun v => missRoom s.m v) s.m.ca.missWait = some (w, q)) ∧ (prefetchDead s.m w = false) ∧ (hlcKey s.m w.line = none) ∧ (sidingKey s.m w.line = none)) ∧
    (∃ (s : State) (w : MissWait) (q : List MissWait), (running s.m = true) ∧ (takeFirst (fun v => missRoom s.m v) s.m.ca.missWait = some (w, q)) ∧ (prefetchDead s.m w = true)) ∧
    (∃ (s : State) (i : Fin 128) (x : MbEnt), (running s.m = true) ∧ (tfind s.m.ca.mb i.val = some x) ∧ (x.isOpen = true)) ∧
    (∃ (s : State) (i : Nat) (x : MbEnt), (running s.m = true) ∧ (rfld s.m 0x140C 6 0 ≤ s.m.ca.mb.length) ∧ ((i, x) ∈ s.m.ca.mb) ∧ (x.isOpen = true) ∧ ((∀ y ∈ s.m.ca.mb, y.2.isOpen = true → y ≠ (i, x) → x.born < y.2.born))) ∧
    (∃ (s : State) (i : Fin 128) (x : MbEnt), (running s.m = true) ∧ (tfind s.m.ca.mb i.val = some x) ∧ (issuable s.m x) ∧ (x.mask = fullMask)) ∧
    (∃ (s : State) (i : Fin 128) (k : Nat) (x : MbEnt) (b : CLine), (running s.m = true) ∧ (tfind s.m.ca.mb i.val = some x) ∧ (issuable s.m x) ∧ (x.mask ≠ fullMask) ∧ (hlcOn s.m = true) ∧ (hlcKey s.m x.line = some k) ∧ (tfind s.m.ca.hlc k = some b)) ∧
    (∃ (s : State) (i : Fin 128) (x : MbEnt), (running s.m = true) ∧ (tfind s.m.ca.mb i.val = some x) ∧ (issuable s.m x) ∧ (x.mask ≠ fullMask) ∧ ((hlcOn s.m = false ∨ hlcKey s.m x.line = none)) ∧ (s.m.ca.missWait = []) ∧ ((s.m.ca.miss.any fun y => decide (y.2.line = x.line)) = false) ∧ (s.m.ca.miss.length < 256)) ∧
    (∃ (s : State) (i : Fin 128) (x : MbEnt) (lla : Nat), (running s.m = true) ∧ (tfind s.m.ca.mb i.val = some x) ∧ (x.issued = true) ∧ (lla = llaOf s.m x.epoch x.line) ∧ (chFailed s.m (chanOf s.m lla) = false) ∧ (s.m.mem.repair = none) ∧ (wqFull s.m (chanOf s.m lla) = false)) ∧
    (∃ (s : State) (i : Fin 128) (x : MbEnt) (lla : Nat), (running s.m = true) ∧ (tfind s.m.ca.mb i.val = some x) ∧ (lla = llaOf s.m x.epoch x.line) ∧ (chFailed s.m (chanOf s.m lla) = false) ∧ (s.m.mem.repair = none) ∧ (wqFull s.m (chanOf s.m lla) = true)) ∧
    (∃ (s : State) (w : MbWrite) (q : List MbWrite), (running s.m = true) ∧ (s.m.ca.mbWait = w :: q) ∧ ((s.m.ca.mb.any fun x => x.2.isOpen && decide (x.2.line = w.line)) = false) ∧ (tfree s.m.ca.mb 0 < 128) ∧ ((hte s.m w.hte = none ∨ (q.any fun v => decide (v.hte = w.hte)) = true))) ∧
    (∃ (s : State) (w : MbWrite) (q : List MbWrite) (x : Hte) (p : Nat), (running s.m = true) ∧ (s.m.ca.mbWait = w :: q) ∧ ((s.m.ca.mb.any fun x => x.2.isOpen && decide (x.2.line = w.line)) = false) ∧ (tfree s.m.ca.mb 0 < 128) ∧ ((q.any fun v => decide (v.hte = w.hte)) = false) ∧ (hte s.m w.hte = some x) ∧ (x.kind = .active) ∧ ((x.msg.op = .wrl ∨ x.msg.op = .wrp ∨ x.msg.op = .wst)) ∧ (x.awaits = [.mbIn]) ∧ (x.wait = .none) ∧ (x.cont = .answer) ∧ (x.done = false) ∧ (x.cmps = []) ∧ (x.msg.src ≠ nodeId s.m) ∧ (routeOf s.m x.epoch x.msg.src = some p)) ∧
    (∃ (s : State), (running s.m = true) ∧ (s.m.ca.invRunning = true)) ∧
    (∃ (s : State), (running s.m = true)) :=
  ⟨⟨std { cells := [(0x100 * 64, 7), (0x100 * 64 + 3, 9)] } { one ({ act (reqOf .rdo) with wait := .none, awaits := [.mem], cont := .answer }) with ca := { base.ca with miss := [(255, { line := 0x100, reader := .hte 4095, cls := 15, fill := false })] } }, 255, 4095, 0, llaOf base true 0x100, { act (reqOf .rdo) with wait := .none, awaits := [.mem], cont := .answer }, { line := 0x100, reader := .hte 4095, cls := 15, fill := false }, .dex, by decide +kernel⟩,
   ⟨std { cells := [(0x100 * 64, 7), (0x100 * 64 + 3, 9)] } { base with ca := { base.ca with miss := [(255, { line := 0x100, reader := .drain 127 })], mb := [(127, { line := 0x100, mask := 1, data := 0xFF, order := 1, isOpen := false, basePending := true })] } }, 255, 127, 0x100, { line := 0x100, mask := 1, data := 0xFF, order := 1, isOpen := false, basePending := true }, { line := 0x100, reader := .drain 127 }, by decide +kernel⟩,
   ⟨std { cells := [(0x100 * 64, 7), (0x100 * 64 + 3, 9)] } (rs { base with ca := { base.ca with miss := [(255, { line := 0x100, reader := .prefetch })] } } [(0x1400, 3)]), 255, 0x100, { line := 0x100, reader := .prefetch }, by decide +kernel⟩,
   ⟨st { base with ca := { base.ca with missWait := [{ reader := .hte 5, line := 0x100, install := true, cls := 3 }], miss := [(0, { line := 5, reader := .prefetch })] } }, { reader := .hte 5, line := 0x100, install := true, cls := 3 }, [], by decide +kernel⟩,
   ⟨st { base with ca := { base.ca with missWait := [{ reader := .prefetch, line := 0x100, install := false, cls := 3 }] } }, { reader := .prefetch, line := 0x100, install := false, cls := 3 }, [], by decide +kernel⟩,
   ⟨st { base with ca := { base.ca with mb := [(127, { line := 0x100, mask := 1, data := 0xFF, order := 1, isOpen := true })] } }, 127, { line := 0x100, mask := 1, data := 0xFF, order := 1, isOpen := true }, by decide +kernel⟩,
   ⟨st (rs { base with ca := { base.ca with mb := [(127, { line := 0x100, mask := 1, data := 0xFF, order := 1, isOpen := true })] } } [(0x140C, 1)]), 127, { line := 0x100, mask := 1, data := 0xFF, order := 1, isOpen := true }, by decide +kernel⟩,
   ⟨st { base with ca := { base.ca with mb := [(127, { line := 0x100, mask := fullMask, data := 0xFF, order := 1, isOpen := false })] } }, 127, { line := 0x100, mask := fullMask, data := 0xFF, order := 1, isOpen := false }, by decide +kernel⟩,
   ⟨st (rs { base with ca := { base.ca with mb := [(127, { line := 0x100, mask := 1, data := 0xFF, order := 1, isOpen := false })], hlc := [(16 * hlcSetIx 0x100 + 3, { line := 0x100, data := 0x5555 })] } } [(0x1400, 1)]), 127, 16 * hlcSetIx 0x100 + 3, { line := 0x100, mask := 1, data := 0xFF, order := 1, isOpen := false }, { line := 0x100, data := 0x5555 }, by decide +kernel⟩,
   ⟨st { base with ca := { base.ca with mb := [(127, { line := 0x100, mask := 1, data := 0xFF, order := 1, isOpen := false })] } }, 127, { line := 0x100, mask := 1, data := 0xFF, order := 1, isOpen := false }, by decide +kernel⟩,
   ⟨std { cells := [(0x100 * 64, 7), (0x100 * 64 + 3, 9)] } { base with ca := { base.ca with mb := [(127, { line := 0x100, mask := fullMask, data := 0xFF, order := 1, isOpen := false, poison := true, issued := true })] } }, 127, { line := 0x100, mask := fullMask, data := 0xFF, order := 1, isOpen := false, poison := true, issued := true }, 0x100, by decide +kernel⟩,
   ⟨st { { base with ca := { base.ca with mb := [(127, { line := 0x100, mask := fullMask, data := 0xFF, order := 1, isOpen := false, poison := true, issued := true })] } } with mem := { base.mem with wq := [(0, List.range 64), (1, List.range 64)] } }, 127, { line := 0x100, mask := fullMask, data := 0xFF, order := 1, isOpen := false, poison := true, issued := true }, 0x100, by decide +kernel⟩,
   ⟨st { base with ca := { base.ca with mbWait := [{ hte := 5, line := 0x100, data := 0x99, mask := 3, poison := false, order := 5, epoch := true }] } }, { hte := 5, line := 0x100, data := 0x99, mask := 3, poison := false, order := 5, epoch := true }, [], by decide +kernel⟩,
   ⟨st { one ({ act (reqOf .wrl) with wait := .none, awaits := [.mbIn], cont := .answer }) with ca := { base.ca with mbWait := [{ hte := 4095, line := 0x100, data := 0x99, mask := fullMask, poison := false, order := 5, epoch := true, req := true }] } }, { hte := 4095, line := 0x100, data := 0x99, mask := fullMask, poison := false, order := 5, epoch := true, req := true }, [], { act (reqOf .wrl) with wait := .none, awaits := [.mbIn], cont := .answer }, 0, by decide +kernel⟩,
   ⟨st { base with ca := { base.ca with invRunning := true, hlc := [(3, { line := 3, data := 4 })], siding := [(3, { line := 3, data := 4 })], alc := [(3, { line := 3, data := 4 })] } }, by decide +kernel⟩,
   ⟨st { base with ca := { base.ca with ceWb := [5, 0xFFFFF] } }, by decide +kernel⟩⟩

theorem witness_ChannelsTrainAndFail :
    (∃ (s : State), (running s.m = true) ∧ (s.m.mem.training = true)) ∧
    (∃ (s : State) (ch : Fin 8), (running s.m = true) ∧ (s.m.mem.training = true) ∧ (ch.val < channels s.m)) ∧
    (∃ (s : State), (running s.m = true)) ∧
    (∃ (s : State) (ch : Fin 8), (running s.m = true) ∧ (chFailed s.m ch.val = false)) ∧
    (∃ (s : State) (ch : Fin 8), (running s.m = true) ∧ (chFailed s.m ch.val = false)) :=
  ⟨⟨st { base with mem := { training := true } }, by decide +kernel⟩,
   ⟨st { base with mem := { training := true } }, 1, by decide +kernel⟩,
   ⟨st { base with mem := { base.mem with caFails := [(7, 3)] } }, by decide +kernel⟩,
   ⟨st { base with mem := { base.mem with caFails := [(7, 4)] } }, 7, by decide +kernel⟩,
   ⟨st { base with mem := { base.mem with caFails := [(7, 3)] } }, 7, by decide +kernel⟩⟩

theorem witness_RepairAndGroomRun :
    (∃ (s : State) (r : Repair), (running s.m = true) ∧ (isHome s.m = true) ∧ (s.m.mem.repair = some r) ∧ (r.hard = false) ∧ (r.phase = 0)) ∧
    (∃ (s : State) (r : Repair), (running s.m = true) ∧ (isHome s.m = true) ∧ (s.m.mem.repair = some r) ∧ (r.hard = false) ∧ (r.phase = 0) ∧ (r.buf = []) ∧ (s.m.mem.failed = 0)) ∧
    (∃ (s : State) (r : Repair), (running s.m = true) ∧ (isHome s.m = true) ∧ (s.m.mem.repair = some r) ∧ (r.hard = false) ∧ (r.phase = 1) ∧ (chFailed s.m r.row.ch = false)) ∧
    (∃ (s : State) (r : Repair), (running s.m = true) ∧ (isHome s.m = true) ∧ (s.m.mem.repair = some r) ∧ (r.hard = false) ∧ (r.phase = 2) ∧ (chFailed s.m r.row.ch = false) ∧ (s.m.mem.repairQ = [])) ∧
    (∃ (s : State) (r : Repair), (running s.m = true) ∧ (isHome s.m = true) ∧ (s.m.mem.repair = some r) ∧ (r.hard = true) ∧ (r.buf = []) ∧ (s.m.mem.repairQ = [])) ∧
    (∃ (s : State) (r : Repair) (n : RowId) (q : List (RowId × Bool)), (running s.m = true) ∧ (isHome s.m = true) ∧ (s.m.mem.repair = some r) ∧ (r.hard = false) ∧ (r.phase = 2) ∧ (s.m.mem.repairQ = (n, true) :: q)) ∧
    (∃ (s : State) (ch : Fin 8), (running s.m = true) ∧ (s.m.mem.ready = true) ∧ (isHome s.m = true) ∧ (ch.val < channels s.m) ∧ (chFailed s.m ch.val = false) ∧ (tget 0 s.m.mem.groomPos ch.val + 1 < chanLines s.m) ∧ (chFailed s.m (coords s.m (chanLine s.m ch.val (tget 0 s.m.mem.groomPos ch.val))).1.ch = false) ∧ (s.m.mem.repair = none)) ∧
    (∃ (s : State) (ch : Fin 8) (lla : Nat) (rf : ReadFault), (running s.m = true) ∧ (s.m.mem.ready = true) ∧ (isHome s.m = true) ∧ (ch.val < channels s.m) ∧ (chFailed s.m ch.val = false) ∧ (tget 0 s.m.mem.groomPos ch.val < chanLines s.m) ∧ (lla = chanLine s.m ch.val (tget 0 s.m.mem.groomPos ch.val)) ∧ (groomSkips s.m (lineAt s.m lla) lla = false) ∧ (readSees s.dram s.m lla rf ≠ .clean)) ∧
    (∃ (s : State) (ch : Fin 8), (running s.m = true) ∧ (s.m.mem.ready = true) ∧ (isHome s.m = true) ∧ (ch.val < channels s.m) ∧ (chFailed s.m ch.val = false) ∧ (chanLines s.m ≤ tget 0 s.m.mem.groomPos ch.val) ∧ (tget [] s.m.mem.groomSkip ch.val = []) ∧ (groomOut s.m ch.val = false)) ∧
    (∃ (s : State) (h : HteIx) (x : Hte) (ch : Nat) (lla : Nat) (again : Bool) (dev : Fin 10), (running s.m = true) ∧ (hte s.m h.val = some x) ∧ (x.kind = .active) ∧ (x.wait = .decision) ∧ (x.job = .groom ch lla again) ∧ (wqTakes s.m lla = true) ∧ (alcKey s.m x.msg.line = none) ∧ ((s.m.atm.units.any fun u => u.2.any fun o => decide (o.line = x.msg.line)) = false) ∧ (s.m.mem.repair = none) ∧ (readSees s.dram s.m lla (.correctable dev) = .correctable dev) ∧ (mbOf s.m x.msg.line = []) ∧ (homeState s.m x.msg.line = .i) ∧ (rfld s.m 0x183C 3 0 = 0)) ∧
    (∃ (s : State) (ch : Fin 8), (running s.m = true) ∧ (s.m.mem.ready = true) ∧ (isHome s.m = true) ∧ (ch.val < channels s.m) ∧ (chFailed s.m ch.val = false)) :=
  ⟨⟨std { cells := [(0x100 * 64, 7), (0x100 * 64 + 3, 9)] } { base with mem := { base.mem with repair := some { row := ⟨1, 1, 0, 7, 3, 65535⟩, hard := false, phase := 0, buf := [] } } }, { row := ⟨1, 1, 0, 7, 3, 65535⟩, hard := false, phase := 0, buf := [] }, by decide +kernel⟩,
   ⟨std { cells := [(0x100 * 64, 7), (0x100 * 64 + 3, 9)] } { base with mem := { base.mem with repair := some { row := ⟨1, 1, 0, 7, 3, 65535⟩, hard := false, phase := 0, buf := [] } } }, { row := ⟨1, 1, 0, 7, 3, 65535⟩, hard := false, phase := 0, buf := [] }, by decide +kernel⟩,
   ⟨std { cells := [(0x100 * 64, 7), (0x100 * 64 + 3, 9)] } { base with mem := { base.mem with repair := some { row := ⟨1, 1, 0, 7, 3, 65535⟩, hard := false, phase := 1, buf := [(0x100, 7, false), (0x101, 9, true)] } } }, { row := ⟨1, 1, 0, 7, 3, 65535⟩, hard := false, phase := 1, buf := [(0x100, 7, false), (0x101, 9, true)] }, by decide +kernel⟩,
   ⟨std { cells := [(0x100 * 64, 7), (0x100 * 64 + 3, 9)] } { base with mem := { base.mem with pprNext := 63, repair := some { row := ⟨1, 1, 0, 7, 3, 65535⟩, hard := false, phase := 2, buf := [(0x100, 7, false), (0x101, 9, true)] } } }, { row := ⟨1, 1, 0, 7, 3, 65535⟩, hard := false, phase := 2, buf := [(0x100, 7, false), (0x101, 9, true)] }, by decide +kernel⟩,
   ⟨std { cells := [(0x100 * 64, 7), (0x100 * 64 + 3, 9)] } { base with mem := { base.mem with pprNext := 63, repair := some { row := ⟨1, 1, 0, 7, 3, 65535⟩, hard := true, phase := 0, buf := [] } } }, { row := ⟨1, 1, 0, 7, 3, 65535⟩, hard := true, phase := 0, buf := [] }, by decide +kernel⟩,
   ⟨std { cells := [(0x100 * 64, 7), (0x100 * 64 + 3, 9)] } { base with mem := { base.mem with repairQ := [(⟨0, 0, 0, 7, 3, 5⟩, true), (⟨0, 0, 0, 7, 3, 6⟩, false)], repair := some { row := ⟨1, 1, 0, 7, 3, 65535⟩, hard := false, phase := 2, buf := [(0x100, 7, false), (0x101, 9, true)] } } }, { row := ⟨1, 1, 0, 7, 3, 65535⟩, hard := false, phase := 2, buf := [(0x100, 7, false), (0x101, 9, true)] }, ⟨0, 0, 0, 7, 3, 5⟩, [(⟨0, 0, 0, 7, 3, 6⟩, false)], by decide +kernel⟩,
   ⟨std { cells := [(0x100 * 64, 7), (0x100 * 64 + 3, 9)] } { base with mem := { base.mem with groomPos := [(1, 0x80)] } }, 1, by decide +kernel⟩,
   ⟨std { cells := [(0x100 * 64, 7), (0x100 * 64 + 3, 9)] } { base with mem := { base.mem with groomPos := [(1, 0x80)] } }, 1, chanLine base 1 0x80, .correctable 4, by decide +kernel⟩,
   ⟨std { cells := [(0x100 * 64, 7), (0x100 * 64 + 3, 9)] } { base with mem := { base.mem with groomPos := [(1, chanLines base)] } }, 1, by decide +kernel⟩,
   ⟨std { cells := [(0x100 * 64, 7), (0x100 * 64 + 3, 9)] } (rs (one ({ act { op := .rds, dest := 1, src := 1, line := 0x102, epoch := base.cfg.epoch } with port := 16, slot := none, job := .groom 1 0x102 true })) [(0x183C, 0)]), 4095, { act { op := .rds, dest := 1, src := 1, line := 0x102, epoch := base.cfg.epoch } with port := 16, slot := none, job := .groom 1 0x102 true }, 1, 0x102, true, 9, by decide +kernel⟩,
   ⟨std { cells := [(0x100 * 64, 7), (0x100 * 64 + 3, 9)] } { base with mem := { base.mem with groomFin := [(1, false)] } }, 1, by decide +kernel⟩⟩

theorem witness_StationMasterIsElected :
    (∃ (s : State) (c : Instr), (running s.m = true) ∧ (smPrio s.m ≠ 0) ∧ (((c = .listenEnd ∧ s.m.fab.listening = true ∧ s.m.fab.sm = .listener ∧ s.m.fab.termValid = false) ∨ (c = .claimWaitTimeout ∧ s.m.fab.sm = .candidate ∧ s.m.fab.stopped = true) ∨ (c = .claimResend ∧ s.m.fab.sm = .candidate ∧ s.m.fab.stopped = false) ∨ (c = .beaconLoss ∧ s.m.fab.sm = .listener ∧ s.m.fab.termValid = true)))) ∧
    (∃ (s : State) (c : Instr), (running s.m = true) ∧ (smPrio s.m ≠ 0) ∧ (((c = .listenEnd ∧ s.m.fab.listening = true ∧ s.m.fab.sm = .listener ∧ s.m.fab.termValid = false) ∨ (c = .claimWaitTimeout ∧ s.m.fab.sm = .candidate ∧ s.m.fab.stopped = true) ∨ (c = .claimResend ∧ s.m.fab.sm = .candidate ∧ s.m.fab.stopped = false) ∨ (c = .beaconLoss ∧ s.m.fab.sm = .listener ∧ s.m.fab.termValid = true)))) ∧
    (∃ (s : State) (c : Instr), (running s.m = true) ∧ (smPrio s.m ≠ 0) ∧ (((c = .listenEnd ∧ s.m.fab.listening = true ∧ s.m.fab.sm = .listener ∧ s.m.fab.termValid = false) ∨ (c = .claimWaitTimeout ∧ s.m.fab.sm = .candidate ∧ s.m.fab.stopped = true) ∨ (c = .claimResend ∧ s.m.fab.sm = .candidate ∧ s.m.fab.stopped = false) ∨ (c = .beaconLoss ∧ s.m.fab.sm = .listener ∧ s.m.fab.termValid = true)))) ∧
    (∃ (s : State) (c : Instr), (running s.m = true) ∧ (smPrio s.m ≠ 0) ∧ (((c = .listenEnd ∧ s.m.fab.listening = true ∧ s.m.fab.sm = .listener ∧ s.m.fab.termValid = false) ∨ (c = .claimWaitTimeout ∧ s.m.fab.sm = .candidate ∧ s.m.fab.stopped = true) ∨ (c = .claimResend ∧ s.m.fab.sm = .candidate ∧ s.m.fab.stopped = false) ∨ (c = .beaconLoss ∧ s.m.fab.sm = .listener ∧ s.m.fab.termValid = true)))) ∧
    (∃ (s : State) (g : Msg), (running s.m = true) ∧ (s.m.inbox.map (·.msg) = [g]) ∧ (g.op = .clm) ∧ (dupSerial s.m g = false) ∧ (s.m.fab.sm = .candidate) ∧ (claimAbove (g.status, serialOf g) (smPrio s.m, Config.serial) = true)) ∧
    (∃ (s : State), (running s.m = true) ∧ (s.m.fab.sm = .candidate) ∧ (s.m.fab.stopped = false) ∧ (s.m.cfg.prepared = false)) ∧
    (∃ (s : State), (running s.m = true) ∧ (s.m.fab.sm = .master)) ∧
    (∃ (s : State) (i : InMsg), (running s.m = true) ∧ (s.m.inbox = [i]) ∧ (i.msg.op = .sma) ∧ (i.port < 16) ∧ (dupSerial s.m i.msg = false) ∧ (i.msg.src ≠ nodeId s.m) ∧ (s.m.fab.termValid = false) ∧ (s.m.fab.sm = .listener) ∧ (s.m.cfg.prepared = false) ∧ (s.m.cfg.check = .idle)) :=
  ⟨⟨st (rs { base with fab := { base.fab with sm := .listener, listening := true, termValid := false } } [(0x2000, 0x5)]), .listenEnd, by decide +kernel⟩,
   ⟨st (rs { base with fab := { base.fab with sm := .candidate, stopped := true } } [(0x2000, 0x5)]), .claimWaitTimeout, by decide +kernel⟩,
   ⟨st (rs { base with fab := { base.fab with sm := .candidate, stopped := false } } [(0x2000, 0x5)]), .claimResend, by decide +kernel⟩,
   ⟨st (rs { base with fab := { base.fab with sm := .listener, termValid := true, heardTerm := some 9, term := 9, master := 2 } } [(0x2000, 0x5)]), .beaconLoss, by decide +kernel⟩,
   (by
    by_cases h : Config.serial = 1
    · exact ⟨st (rs { base with fab := { base.fab with sm := .candidate, stopped := false }, inbox := [⟨0, 10, { op := .clm, src := 4, tag := 9, status := 9, broadcast := true, data := bePut 2 0 8 ||| bePut 0x1234 8 8 }, true⟩] } [(0x2000, 0x5)]), { op := .clm, src := 4, tag := 9, status := 9, broadcast := true, data := bePut 2 0 8 ||| bePut 0x1234 8 8 }, by decide +kernel, by decide +kernel, by decide +kernel, not_own _ _ (by rw [h]; decide +kernel), by decide +kernel, by decide +kernel⟩
    · exact ⟨st (rs { base with fab := { base.fab with sm := .candidate, stopped := false }, inbox := [⟨0, 10, { op := .clm, src := 4, tag := 9, status := 9, broadcast := true, data := bePut 1 0 8 ||| bePut 0x1234 8 8 }, true⟩] } [(0x2000, 0x5)]), { op := .clm, src := 4, tag := 9, status := 9, broadcast := true, data := bePut 1 0 8 ||| bePut 0x1234 8 8 }, by decide +kernel, by decide +kernel, by decide +kernel, not_own _ _ (fun e => h (e.symm.trans (by decide +kernel))), by decide +kernel, by decide +kernel⟩),
   ⟨st (rs { base with cfg := { base.cfg with prepared := false }, fab := { base.fab with sm := .candidate , heardTerm := some 0xFFFF, termValid := true, term := 4 } } [(0x2000, 5)]), by decide +kernel⟩,
   ⟨st (rs { base with fab := { base.fab with sm := .master, term := 7, termValid := true, master := 1, seq := 0xFFF } } [(0x2000, 5)]), by decide +kernel⟩,
   (by
    by_cases h : Config.serial = 1
    · exact ⟨st { base with fab := { base.fab with sm := .listener, termValid := false }, inbox := [⟨15, 10, { op := .sma, src := 4, tag := 9, status := 3, aux := 0xFFFF, broadcast := true, data := bePut 2 0 8 ||| bePut 0x1234 8 8 }, true⟩] }, ⟨15, 10, { op := .sma, src := 4, tag := 9, status := 3, aux := 0xFFFF, broadcast := true, data := bePut 2 0 8 ||| bePut 0x1234 8 8 }, true⟩, by decide +kernel, by decide +kernel, by decide +kernel, by decide +kernel, not_own _ _ (by rw [h]; decide +kernel), by decide +kernel, by decide +kernel, by decide +kernel, by decide +kernel, by decide +kernel⟩
    · exact ⟨st { base with fab := { base.fab with sm := .listener, termValid := false }, inbox := [⟨15, 10, { op := .sma, src := 4, tag := 9, status := 3, aux := 0xFFFF, broadcast := true, data := bePut 1 0 8 ||| bePut 0x1234 8 8 }, true⟩] }, ⟨15, 10, { op := .sma, src := 4, tag := 9, status := 3, aux := 0xFFFF, broadcast := true, data := bePut 1 0 8 ||| bePut 0x1234 8 8 }, true⟩, by decide +kernel, by decide +kernel, by decide +kernel, by decide +kernel, not_own _ _ (fun e => h (e.symm.trans (by decide +kernel))), by decide +kernel, by decide +kernel, by decide +kernel, by decide +kernel, by decide +kernel⟩)⟩

theorem witness_FabricWideThrowsRun :
    (∃ (s : State) (a : Lmb) (n : Nat) (k : RosterRec) (p : Nat), (Accepted s a 0x2020 1) ∧ (s.m.fab.roster = [(n, k)]) ∧ (BitVec.ofNat 16 n ≠ nodeId s.m) ∧ (routeOf s.m s.m.cfg.epoch (BitVec.ofNat 16 n) = some p)) ∧
    (∃ (s : State) (g : Msg) (p : Nat), (running s.m = true) ∧ (s.m.inbox.map (·.msg) = [g]) ∧ (g.op = .tha) ∧ (s.m.fab2.thrPhase = 1) ∧ (s.m.fab2.thrBad = false) ∧ (g.aux = s.m.fab2.thrNum) ∧ (s.m.fab2.thrWait = [g.src]) ∧ (g.status = 0) ∧ (s.m.fab.roster.map (fun x => BitVec.ofNat 16 x.1) = [g.src]) ∧ (g.src ≠ nodeId s.m) ∧ (routeOf s.m s.m.cfg.epoch g.src = some p)) ∧
    (∃ (s : State) (n : NodeId) (r : List NodeId), (running s.m = true) ∧ (s.m.fab.queue = []) ∧ (s.m.fab2.thrPhase = 1) ∧ (s.m.fab2.thrWait = n :: r)) ∧
    (∃ (s : State) (g : Msg), (running s.m = true) ∧ (s.m.inbox.map (·.msg) = [g]) ∧ (g.op = .thr) ∧ (g.status = 1) ∧ (s.m.fab.termValid = true) ∧ (g.src = s.m.fab.master) ∧ (s.m.cfg.drain = false) ∧ (s.m.cfg.check = .idle)) ∧
    (∃ (s : State) (src : NodeId) (tag : BitVec 12) (num : BitVec 16) (e : Bool) (p : Nat), (running s.m = true) ∧ (s.m.cfg.check = .prepare src tag num e false) ∧ (src ≠ nodeId s.m) ∧ (routeOf s.m (epochFor s.m e) src = some p)) ∧
    (∃ (s : State) (g : Msg), (running s.m = true) ∧ (s.m.inbox.map (·.msg) = [g]) ∧ (g.op = .thr) ∧ (g.status = 2) ∧ (s.m.fab.termValid = true) ∧ (g.src = s.m.fab.master) ∧ (s.m.cfg.prepared = true) ∧ (g.epoch ≠ s.m.cfg.epoch)) ∧
    (∃ (s : State) (g : Msg), (running s.m = true) ∧ (s.m.inbox.map (·.msg) = [g]) ∧ (g.op = .thr) ∧ (g.status = 3) ∧ (s.m.fab.termValid = true) ∧ (g.src = s.m.fab.master)) :=
  ⟨⟨st { base with cfg := { base.cfg with drain := false }, fab := { base.fab with sm := .master, term := 7, termValid := true, master := 1, roster := [(2, ⟨0, 0⟩)] }, fab2 := { base.fab2 with thrNum := 0xFFFF } }, ⟨0, true⟩, 2, ⟨0, 0⟩, 0, by decide +kernel⟩,
   ⟨st { base with fab := { base.fab with sm := .master, term := 7, termValid := true, master := 1, roster := [(2, ⟨0, 0⟩)] }, fab2 := { base.fab2 with thrPhase := 1, thrNum := 7, thrWait := [2] }, inbox := [⟨0, 10, { op := .tha, src := 2, tag := 9, status := 0, aux := 7 }, true⟩] }, { op := .tha, src := 2, tag := 9, status := 0, aux := 7 }, 0, by decide +kernel⟩,
   ⟨st { base with fab := { base.fab with sm := .master, term := 7, termValid := true, master := 1, roster := [(2, ⟨0, 0⟩), (4, ⟨0, 0⟩)] }, fab2 := { base.fab2 with thrPhase := 1, thrNum := 7, thrWait := [2, 4], thrCode := 5 } }, 2, [4], by decide +kernel⟩,
   ⟨st { base with fab := { base.fab with termValid := true, master := 2 }, cfg := { base.cfg with drain := false, prepared := false }, inbox := [⟨0, 10, { op := .thr, src := 2, tag := 9, status := 1, aux := 7, epoch := false }, true⟩] }, { op := .thr, src := 2, tag := 9, status := 1, aux := 7, epoch := false }, by decide +kernel⟩,
   ⟨st { base with fab := { base.fab with termValid := true, master := 2 }, cfg := { set0 := { goodSet with wayMasks := [(3, 0)] }, set1 := { goodSet with wayMasks := [(3, 0)] }, epoch := base.cfg.epoch, check := .prepare 2 9 7 base.cfg.epoch false } }, 2, 9, 7, base.cfg.epoch, 0, by decide +kernel⟩,
   ⟨st { base with fab := { base.fab with termValid := true, master := 2 }, cfg := { base.cfg with prepared := true }, inbox := [⟨0, 10, { op := .thr, src := 2, tag := 9, status := 2, aux := 7, epoch := !base.cfg.epoch }, true⟩] }, { op := .thr, src := 2, tag := 9, status := 2, aux := 7, epoch := !base.cfg.epoch }, by decide +kernel⟩,
   ⟨st { base with fab := { base.fab with termValid := true, master := 2 }, cfg := { base.cfg with prepared := false, check := .prepare 2 9 7 false false }, inbox := [⟨0, 10, { op := .thr, src := 2, tag := 9, status := 3, aux := 7, epoch := false }, true⟩] }, { op := .thr, src := 2, tag := 9, status := 3, aux := 7, epoch := false }, by decide +kernel⟩⟩

def w13_s (op : Nat) : State :=
  st { base with fab := { base.fab with sm := .listener }, inbox := [⟨0, 10, { op := .ucp, src := 2, tag := 9, status := BitVec.ofNat 8 op, aux := 4 }, true⟩] }

def w13_g (op : Nat) : Msg :=
  { op := .ucp, src := 2, tag := 9, status := BitVec.ofNat 8 op, aux := 4 }

def w14_s (op : Nat) : State :=
  st { base with fab := { base.fab with sm := .master, term := 7, termValid := true, master := 1 }, fab2 := { base.fab2 with down := [(4, 2)] }, inbox := [⟨0, 10, { op := .ucp, src := 2, tag := 9, status := BitVec.ofNat 8 op, aux := 4 }, true⟩] }

def w14_g (op : Nat) : Msg :=
  { op := .ucp, src := 2, tag := 9, status := BitVec.ofNat 8 op, aux := 4 }

theorem witness_NodesCoupleAndSlotsChange :
    (∃ (s : State) (a : Lmb) (p : Nat), (Accepted s a 0x2048 1) ∧ (s.m.fab.termValid = true) ∧ (s.m.fab.master ≠ nodeId s.m) ∧ (routeOf s.m s.m.cfg.epoch s.m.fab.master = some p)) ∧
    (∃ (s : State) (p : Nat), (running s.m = true) ∧ (s.m.fab.termValid = true) ∧ (s.m.fab.sm = .listener) ∧ (s.m.fab.cplState = 1) ∧ (s.m.fab.master ≠ nodeId s.m) ∧ (routeOf s.m s.m.cfg.epoch s.m.fab.master = some p)) ∧
    (∃ (s : State) (g : Msg) (p : Nat), (running s.m = true) ∧ (s.m.inbox.map (·.msg) = [g]) ∧ (g.op = .cpl) ∧ (s.m.fab.sm = .master) ∧ (s.m.fab.queue = []) ∧ (s.m.fab.admitting = none) ∧ (throwRuns s.m = false) ∧ (admissionOf s.m g.src = none) ∧ (g.src ≠ nodeId s.m) ∧ (routeOf s.m (epochFor s.m g.epoch) g.src = some p)) ∧
    (∃ (s : State) (i : InMsg) (a : Admission) (p : Nat), (running s.m = true) ∧ (s.m.inbox = [i]) ∧ (i.msg.op = .cpl) ∧ (s.m.fab.sm = .master) ∧ (s.m.fab.queue = []) ∧ (s.m.fab.admitting = none) ∧ (throwRuns s.m = false) ∧ (admissionOf s.m i.msg.src = some a) ∧ (tfind s.m.fab.roster i.msg.src.toNat = none) ∧ (plateCheck (tget {} s.m.fab.profiles a.profile.toNat) (BitVec.ofNat 256 (beAt i.msg.data 0 32)) = none) ∧ ((bit i.msg.status 0 = true ∨ (targetsOf s.m a = [] ∧ reverseEdits s.m i.msg.src = []))) ∧ (i.msg.src ≠ nodeId s.m) ∧ (routeOf s.m (epochFor s.m i.msg.epoch) i.msg.src = some p)) ∧
    (∃ (s : State) (i : InMsg) (a : Admission) (n : NodeId) (ns : List NodeId) (p : Nat), (running s.m = true) ∧ (s.m.inbox = [i]) ∧ (i.msg.op = .cpl) ∧ (s.m.fab.sm = .master) ∧ (s.m.fab.queue = []) ∧ (s.m.fab.admitting = none) ∧ (throwRuns s.m = false) ∧ (admissionOf s.m i.msg.src = some a) ∧ (tfind s.m.fab.roster i.msg.src.toNat = none) ∧ (plateCheck (tget {} s.m.fab.profiles a.profile.toNat) (BitVec.ofNat 256 (beAt i.msg.data 0 32)) = none) ∧ (bit i.msg.status 0 = false) ∧ (targetsOf s.m a = n :: ns) ∧ (i.msg.src ≠ nodeId s.m) ∧ (n ≠ nodeId s.m) ∧ (routeOf s.m s.m.cfg.epoch n = some p)) ∧
    (∃ (s : State) (a : Admit) (p : Nat), (running s.m = true) ∧ (s.m.fab.admitting = some a) ∧ (s.m.fab.sm = .master) ∧ (s.m.fab.queue = []) ∧ (a.done = []) ∧ (a.req.node ≠ nodeId s.m) ∧ (routeOf s.m (epochFor s.m a.req.epoch) a.req.node = some p)) ∧
    (∃ (s : State) (a : Admit), (running s.m = true) ∧ (s.m.fab.admitting = some a) ∧ (s.m.fab.sm = .master) ∧ (s.m.fab.queue = []) ∧ (a.done = []) ∧ (a.req.node = nodeId s.m) ∧ (a.req.port = 16)) ∧
    (∀ z ∈ ([(.ucpPlanned, 0), (.ucpSurprise, 1), (.ucpRestored, 2)] : List (Instr × Nat)), (running (w13_s z.2).m = true) ∧ ((w13_s z.2).m.inbox.map (·.msg) = [(w13_g z.2)]) ∧ ((w13_g z.2).op = .ucp) ∧ ((w13_g z.2).status = BitVec.ofNat 8 z.2) ∧ ((w13_s z.2).m.fab.sm ≠ .master) ∧ ((w13_g z.2).src ≠ nodeId (w13_s z.2).m) ∧ (routeOf (w13_s z.2).m (epochFor (w13_s z.2).m (w13_g z.2).epoch) (w13_g z.2).src = some (0 : Nat))) ∧
    (∃ (s : State) (g : Msg) (p : Nat) (k : RosterRec), (running s.m = true) ∧ (s.m.inbox.map (·.msg) = [g]) ∧ (g.op = .ucp) ∧ (g.status = 0) ∧ (s.m.fab.sm = .master) ∧ (tfind s.m.fab.roster g.src.toNat = some k) ∧ (admissionOf s.m g.src = none) ∧ (s.m.fab2.leaving = []) ∧ (g.src ≠ nodeId s.m) ∧ (routeOf s.m (epochFor s.m g.epoch) g.src = some p)) ∧
    (∃ (s : State) (g : Msg) (p : Nat) (k : RosterRec) (a : Admission) (n : NodeId), (running s.m = true) ∧ (s.m.inbox.map (·.msg) = [g]) ∧ (g.op = .ucp) ∧ (g.status = 0) ∧ (s.m.fab.sm = .master) ∧ (tfind s.m.fab.roster g.src.toNat = some k) ∧ (admissionOf s.m g.src = some a) ∧ (targetsOf s.m a = [n]) ∧ (s.m.fab2.leaving = []) ∧ (n ≠ nodeId s.m) ∧ (routeOf s.m s.m.cfg.epoch n = some p)) ∧
    (∃ (s : State) (g : Msg) (p : Nat) (q : Nat) (a : Admission) (n : NodeId), (running s.m = true) ∧ (s.m.inbox.map (·.msg) = [g]) ∧ (g.op = .ucp) ∧ (g.status = 1) ∧ (s.m.fab.sm = .master) ∧ (admissionOf s.m g.aux = some a) ∧ (tget 0 s.m.fab2.down g.aux.toNat = a.links1.toNat) ∧ (targetsOf s.m a = [n]) ∧ (junctionNode s.m g.aux = false) ∧ (s.m.fab2.thrPhase = 0) ∧ (s.m.fab2.leaving = []) ∧ (s.m.fab.queue = []) ∧ (g.src ≠ nodeId s.m) ∧ (routeOf s.m (epochFor s.m g.epoch) g.src = some p) ∧ (n ≠ nodeId s.m) ∧ (routeOf s.m s.m.cfg.epoch n = some q)) ∧
    (∀ z ∈ ([(.ucpSurprise, 1), (.ucpRestored, 2)] : List (Instr × Nat)), (running (w14_s z.2).m = true) ∧ ((w14_s z.2).m.inbox.map (·.msg) = [(w14_g z.2)]) ∧ ((w14_g z.2).op = .ucp) ∧ ((w14_g z.2).status = BitVec.ofNat 8 z.2) ∧ ((w14_s z.2).m.fab.sm = .master) ∧ (admissionOf (w14_s z.2).m (w14_g z.2).aux = none) ∧ ((w14_s z.2).m.fab2.leaving = []) ∧ ((w14_s z.2).m.fab.queue = []) ∧ ((w14_g z.2).src ≠ nodeId (w14_s z.2).m) ∧ (routeOf (w14_s z.2).m (epochFor (w14_s z.2).m (w14_g z.2).epoch) (w14_g z.2).src = some (0 : Nat))) ∧
    (∃ (s : State) (n : NodeId) (j : EditJob) (p : Nat), (running s.m = true) ∧ (s.m.fab2.lostJobs = [j]) ∧ (j.target = n) ∧ (n ≠ nodeId s.m) ∧ (routeOf s.m s.m.cfg.epoch n = some p)) ∧
    (∃ (s : State) (a : Lmb) (f : SlotEdit), (Accepted s a 0x2030 (slotEditWord f 1)) ∧ ((slotEnt s.m s.m.cfg.epoch f.slot.toNat).status = .empty)) ∧
    (∃ (s : State) (a : Lmb) (f : SlotEdit), (Accepted s a 0x2030 (slotEditWord f 2)) ∧ ((slotEnt s.m s.m.cfg.epoch f.slot.toNat).status = .live) ∧ ((slotEnt s.m s.m.cfg.epoch f.slot.toNat).node = f.node)) ∧
    (∃ (s : State) (a : Lmb) (f : SlotEdit), (Accepted s a 0x2030 (slotEditWord f 3)) ∧ ((slotEnt s.m s.m.cfg.epoch f.slot.toNat).status = .leaving)) ∧
    (∃ (s : State) (slot : BitVec 8), (running s.m = true) ∧ (slotHeld s.m slot.toNat = false) ∧ (((slotEnt s.m s.m.cfg.epoch slot.toNat).status = .leaving ∨ (slotEnt s.m s.m.cfg.epoch slot.toNat).status = .lost))) :=
  ⟨⟨st { base with fab := { base.fab with termValid := true, master := 2, mtag := 0xFFF, cplRejoin := true } }, ⟨0, true⟩, 0, by decide +kernel⟩,
   ⟨st { base with fab := { base.fab with termValid := true, master := 2, cplTag := 0xFFF, cplState := 1, cplRejoin := false } }, 0, by decide +kernel⟩,
   ⟨st { base with fab := { base.fab with sm := .master, term := 7, termValid := true, master := 1 }, inbox := [⟨0, 10, { op := .cpl, src := 2, tag := 9, status := 0 }, true⟩] }, { op := .cpl, src := 2, tag := 9, status := 0 }, 0, by decide +kernel⟩,
   ⟨st { base with fab := { base.fab with sm := .master, term := 7, termValid := true, master := 1, admission := [(31, { valid := true, target := 2, cls := 3, slotBase := 250, nodeBase := 2, jnode := 4 })], profiles := [(0, { valid := true })] }, inbox := [⟨0, 10, { op := .cpl, src := 2, tag := 9, status := 1 }, true⟩] }, ⟨0, 10, { op := .cpl, src := 2, tag := 9, status := 1 }, true⟩, { valid := true, target := 2, cls := 3, slotBase := 250, nodeBase := 2, jnode := 4 }, 0, by decide +kernel⟩,
   ⟨st { base with fab := { base.fab with sm := .master, term := 7, termValid := true, master := 1, admission := [(31, { valid := true, target := 2, cls := 3, slotBase := 250, nodeBase := 2, jnode := 8 })], profiles := [(0, { valid := true })] }, inbox := [⟨15, 10, { op := .cpl, src := 2, tag := 9, status := 0 }, true⟩] }, ⟨15, 10, { op := .cpl, src := 2, tag := 9, status := 0 }, true⟩, { valid := true, target := 2, cls := 3, slotBase := 250, nodeBase := 2, jnode := 8 }, 8, [], 1, by decide +kernel⟩,
   ⟨st { base with fab := { base.fab with sm := .master, term := 7, termValid := true, master := 1, admitting := some { req := { node := 2, port := 0, tag := 9, rejoin := false, plate := 0 }, todo := [{ target := 4, slot := 5, node := 2, op := 1, sent := true }] } } }, { req := { node := 2, port := 0, tag := 9, rejoin := false, plate := 0 }, todo := [{ target := 4, slot := 5, node := 2, op := 1, sent := true }] }, 0, by decide +kernel⟩,
   ⟨st { base with fab := { base.fab with sm := .master, term := 7, termValid := true, master := 1, admitting := some { req := { node := 1, port := 16, tag := 9, rejoin := false, plate := 0 }, todo := [{ target := 4, slot := 5, node := 2, op := 1, sent := true }] } } }, { req := { node := 1, port := 16, tag := 9, rejoin := false, plate := 0 }, todo := [{ target := 4, slot := 5, node := 2, op := 1, sent := true }] }, by decide +kernel⟩,
   by decide +kernel,
   ⟨st { base with fab := { base.fab with sm := .master, term := 7, termValid := true, master := 1, roster := [(2, ⟨0, 0⟩), (4, ⟨0, 0⟩)] }, inbox := [⟨0, 10, { op := .ucp, src := 2, tag := 9, status := 0, aux := 4 }, true⟩] }, { op := .ucp, src := 2, tag := 9, status := 0, aux := 4 }, 0, ⟨0, 0⟩, by decide +kernel⟩,
   ⟨st { base with fab := { base.fab with sm := .master, term := 7, termValid := true, master := 1, roster := [(2, ⟨0, 0⟩), (4, ⟨0, 0⟩)], admission := [(31, { valid := true, target := 2, cls := 3, slotBase := 250, nodeBase := 2, jnode := 8 })] }, fab2 := { base.fab2 with down := [] }, inbox := [⟨0, 10, { op := .ucp, src := 2, tag := 9, status := 0, aux := 4 }, true⟩] }, { op := .ucp, src := 2, tag := 9, status := 0, aux := 4 }, 1, ⟨0, 0⟩, { valid := true, target := 2, cls := 3, slotBase := 250, nodeBase := 2, jnode := 8 }, 8, by decide +kernel⟩,
   ⟨st { base with fab := { base.fab with sm := .master, term := 7, termValid := true, master := 1, roster := [(2, ⟨0, 0⟩), (4, ⟨0, 0⟩)], admission := [(31, { valid := true, target := 2, cls := 3, slotBase := 250, nodeBase := 4, jnode := 8 })] }, fab2 := { base.fab2 with down := [] }, inbox := [⟨0, 10, { op := .ucp, src := 2, tag := 9, status := 1, aux := 4 }, true⟩] }, { op := .ucp, src := 2, tag := 9, status := 1, aux := 4 }, 0, 1, { valid := true, target := 2, cls := 3, slotBase := 250, nodeBase := 4, jnode := 8 }, 8, by decide +kernel⟩,
   by decide +kernel,
   ⟨st { base with fab := { base.fab with sm := .master, term := 7, termValid := true, master := 1 }, fab2 := { base.fab2 with lostJobs := [{ target := 2, slot := 5, node := 4, op := 3, sent := true, tag := 77 }] } }, 2, { target := 2, slot := 5, node := 4, op := 3, sent := true, tag := 77 }, 0, by decide +kernel⟩,
   ⟨st { base with cfg := { base.cfg with drain := false, set0 := { base.cfg.set0 with slots := [(3, { status := .live, node := 2 }), (255, { status := .empty })] }, set1 := { base.cfg.set1 with slots := [(3, { status := .live, node := 2 }), (255, { status := .empty })] } } }, ⟨0, true⟩, { slot := 0, node := 99, cls := 7, junction := true, member := true }, by decide +kernel⟩,
   ⟨st { base with cfg := { base.cfg with drain := false, set0 := { base.cfg.set0 with slots := [(3, { status := .live, node := 2 }), (255, { status := .live, node := 2, cls := 3 })] }, set1 := { base.cfg.set1 with slots := [(3, { status := .live, node := 2 }), (255, { status := .live, node := 2, cls := 3 })] } } }, ⟨0, true⟩, { slot := 255, node := 2, cls := 7, junction := true, member := true }, by decide +kernel⟩,
   ⟨st { base with cfg := { base.cfg with drain := false, set0 := { base.cfg.set0 with slots := [(3, { status := .live, node := 2 }), (255, { status := .leaving, node := 2, cls := 3 })] }, set1 := { base.cfg.set1 with slots := [(3, { status := .live, node := 2 }), (255, { status := .leaving, node := 2, cls := 3 })] } } }, ⟨0, true⟩, { slot := 255, node := 2, cls := 7, junction := true, member := true }, by decide +kernel⟩,
   ⟨st { base with cfg := { base.cfg with drain := false, set0 := { base.cfg.set0 with slots := [(3, { status := .live, node := 2 }), (255, { status := .lost, node := 2, cls := 3 })] }, set1 := { base.cfg.set1 with slots := [(3, { status := .live, node := 2 }), (255, { status := .lost, node := 2, cls := 3 })] } }, trk := {}, deck := { base.deck with ents := [] }, fab2 := { base.fab2 with pendCmp := [(255, 0, 2, 7, false), (3, 0, 2, 7, false)] } }, 255, by decide +kernel⟩⟩

theorem witness_CfgMessagesAccessRegisters :
    (∃ (s : State) (g : Msg) (p : Nat), (running s.m = true) ∧ (s.m.inbox.map (·.msg) = [g]) ∧ (g.op = .cfg) ∧ (cfgAllowed s.m g.src = false) ∧ (g.src ≠ nodeId s.m) ∧ (routeOf s.m (epochFor s.m g.epoch) g.src = some p)) ∧
    (∃ (s : State) (i : InMsg), (running s.m = true) ∧ (s.m.inbox = [i]) ∧ (i.msg.op = .cfg) ∧ (cfgAllowed s.m i.msg.src = true)) ∧
    (∃ (s : State) (a : CfgAcc) (q : List CfgAcc) (p : Nat), (running s.m = true) ∧ (s.m.inbox = []) ∧ (s.m.cfgq = a :: q) ∧ (a.msg.status = 0) ∧ (cfgWaits s.m = false) ∧ (readCode s.m (cfgWho a.msg) a.msg.aux.toNat = 0) ∧ (a.msg.src ≠ nodeId s.m) ∧ (routeOf s.m (epochFor s.m a.msg.epoch) a.msg.src = some p)) ∧
    (∃ (s : State) (a : CfgAcc) (q : List CfgAcc) (p : Nat) (r : RegDesc), (running s.m = true) ∧ (s.m.inbox = []) ∧ (s.m.cfgq = a :: q) ∧ (a.msg.status = 2) ∧ (cfgWaits s.m = false) ∧ (writeCode s.m (cfgWho a.msg) a.msg.aux.toNat (BitVec.ofNat 32 (beAt a.msg.data 0 4)) = 0) ∧ (regAt a.msg.aux.toNat = some r) ∧ (plainAddr a.msg.aux.toNat = true) ∧ (a.msg.aux.toNat ∉ reportRegs) ∧ (a.msg.src ≠ nodeId s.m) ∧ (routeOf s.m (epochFor s.m a.msg.epoch) a.msg.src = some p)) :=
  ⟨⟨st { base with inbox := [⟨0, 10, { op := .cfg, src := 2, tag := 9, status := 2, aux := 0x1C00, data := bePut 0x77 0 4 }, true⟩] }, { op := .cfg, src := 2, tag := 9, status := 2, aux := 0x1C00, data := bePut 0x77 0 4 }, 0, by decide +kernel⟩,
   ⟨st (rs { base with cfgq := List.replicate 16 ⟨0, { op := .cfg, src := 2, tag := 9, status := 0, aux := 0x1C00, data := bePut 0x77 0 4 }⟩, inbox := [⟨0, 10, { op := .cfg, src := 2, tag := 9, status := 0, aux := 0x1C00, data := bePut 0x77 0 4 }, true⟩] } [(0x45C, 0x80000002)]), ⟨0, 10, { op := .cfg, src := 2, tag := 9, status := 0, aux := 0x1C00, data := bePut 0x77 0 4 }, true⟩, by decide +kernel⟩,
   ⟨st (rs { base with cfgq := [⟨0, { op := .cfg, src := 2, tag := 9, status := 0, aux := 0x1C00, data := bePut 0x77 0 4 }⟩, ⟨0, { op := .cfg, src := 2, tag := 9, status := 2, aux := 0x1C00, data := bePut 0x77 0 4 }⟩] } [(0x420, 0x80000002)]), ⟨0, { op := .cfg, src := 2, tag := 9, status := 0, aux := 0x1C00, data := bePut 0x77 0 4 }⟩, [⟨0, { op := .cfg, src := 2, tag := 9, status := 2, aux := 0x1C00, data := bePut 0x77 0 4 }⟩], 0, by decide +kernel⟩,
   ⟨st (rs { base with cfgq := [⟨0, { op := .cfg, src := 2, tag := 9, status := 2, aux := 0x1C00, data := bePut 0x77 0 4 }⟩, ⟨0, { op := .cfg, src := 2, tag := 9, status := 2, aux := 0x1C00, data := bePut 0x77 0 4 }⟩] } [(0x420, 0x80000002)]), ⟨0, { op := .cfg, src := 2, tag := 9, status := 2, aux := 0x1C00, data := bePut 0x77 0 4 }⟩, [⟨0, { op := .cfg, src := 2, tag := 9, status := 2, aux := 0x1C00, data := bePut 0x77 0 4 }⟩], 0, (regAt 0x1C00).getD ⟨0,0,0,[]⟩, by decide +kernel⟩⟩

/-! ### The well-formedness checks refuse an ill-formed term each -/

theorem test_wf_refuses_a_row_reported_twice : (Instr.mbistDone [⟨false, 3⟩, ⟨false, 3⟩]).wf = false := by decide

theorem test_wf_refuses_a_sample_without_seven_rails : (Instr.sensorSample 0 [0, 0, 0, 0, 0, 0]).wf = false := by decide

theorem test_wf_refuses_an_image_above_64_KiB : (Instr.imageCopyRead (List.replicate 65537 0)).wf = false := by
  decide +kernel

theorem test_wf_refuses_a_channel_failing_twice : (Instr.memTrainDone [(2, 1), (2, 4)]).wf = false := by decide

theorem test_wf_refuses_a_column_read_twice :
    (Instr.pprCopyDone [(7, .correctable 0), (7, .uncorrectable 1)]).wf = false := by decide

theorem test_wf_refuses_nine_units :
    (Instr.spaFrameDone (List.replicate 9 0)).wf = false ∧ (Instr.spbTransferDone (List.replicate 9 0)).wf = false
      ∧ (Instr.modeFault 0 (List.replicate 9 0)).wf = false := by decide

theorem test_wf_refuses_a_way_read_twice :
    (Instr.queueHeadDecision 0 { deck := [(4, .corrected), (4, .corrected)] }).wf = false := by decide

theorem test_wf_accepts_what_devices_report :
    (Instr.mbistDone [⟨false, 3⟩, ⟨true, 3⟩]).wf = true ∧ (Instr.sensorSample 0 [0, 0, 0, 0, 0, 0, 0]).wf = true
      ∧ (Instr.memTrainDone [(2, 1), (3, 1)]).wf = true ∧ (Instr.queueHeadDecision 0 {}).wf = true
      ∧ (Instr.spaFrameDone [1, 2]).wf = true := by decide

/-! ### Steps and words -/

/-- The table gives no row any bits. -/
theorem test_no_word_spells_a_command : decodeTableWord 32 0xFFFFFFFF = none := by decide

/-- R691: STMP advances at each tick of its 100 MHz clock, once the block is out of reset. -/
theorem test_an_idle_step_is_a_tick :
    (match step (st base) with
      | .next t => decide (t.m.stmp = 1 ∧ t.m.time = base.time + 10)
      | _ => false) = true := by decide +kernel

/-! ### Addresses: the worked examples of the sample chassis -/

/-- The home map of the sample chassis (Example SCP-2): n = 4, g = 4 KiB, homes 0x0100 to 0x0103. -/
def sample : Core :=
  { State.reset.m with
    regs := [(0x1800, 0x100000D8)]
    cfg := { set0 := { home := [(0, { valid := true, k := 12, n1 := 3, l8 := 0xFFFFFFFF
                                      nodes := [0x100, 0x101, 0x102, 0x103] ++ List.replicate 12 0 })] } } }

/-- Example SCP-2: address 0x0004_2A80_0000 belongs to H0; the next 4 KiB belong to H1. -/
theorem test_scp2 : homeOf sample false 0x10AA0000 = some 0x100 ∧ homeOf sample false 0x10AA0040 = some 0x101 := by
  decide +kernel

/-- Example DIR-1: the set, the tag and the mirror layer of the line at H0. -/
theorem test_dir1 : dirSet 0x10AA0000 = 0x2042A ∧ dirTag 0x10AA0000 = 0x42A ∧ mirrorLayer 0x2042A = 0
    ∧ lineOf 0x2042A 0x42A = 0x10AA0000 := by decide +kernel

/-- Example MEM-1: the local line address and its DRAM coordinates; and the way back from them. -/
theorem test_mem1 : llaOf sample false 0x10AA0000 = 0x042A8000 ∧ coords sample 0x042A8000 = (⟨5, 0, 0, 2, 2, 0x215⟩, 0)
    ∧ llaAt sample ⟨5, 0, 0, 2, 2, 0x215⟩ 0 = 0x042A8000 := by decide +kernel

/-- Example LCA-1: the HLC set of the line. -/
theorem test_lca1 : hlcSetIx 0x10AA0001 = 0x10AB := by decide +kernel

/-- The region of Example ORD-2 governs 0x0004_2A80_0000 over the sample chassis's region at priority 0 (R619). -/
theorem test_ord2_region :
    let m := { State.reset.m with cfg := { set0 := { regions :=
      [(0, { valid := true, limitPn := 0xFFFFFFFF }),
       (1, { valid := true, basePn := 0x42A800, limitPn := 0x42A8FF, prio := 1, owner := true })] } } }
    (regionOf m false 0x10AA0000).owner = true ∧ (regionOf m false 0x10AA4000).owner = false := by decide +kernel

/-! ### Registers: the worked examples of the register chapters -/

/-- Example RGF-1: the command word, and the entry's words as the region they spell. -/
theorem test_rgf1_words :
    cmdWord true { set := true, seq := 3, table := 1, index := 1 } = 0xCC400001
      ∧ (cfgEntry (cfgPut {} 1 1 [0x42A800, 0, 0x42A8FF, 0x05C00000]) 1 1) = [0x42A800, 0, 0x42A8FF, 0x05C00000]
      ∧ (tget {} (cfgPut {} 1 1 [0x42A800, 0, 0x42A8FF, 0x05C00000]).regions 1).prio = 1 := by decide +kernel

/-- The machine after a command, where it answers one. -/
def after (c : Instr) (s : State) : Core :=
  match exec c s with
  | .next t => t.m
  | _ => s.m

/-- The privileged service processor. -/
def sp : Lmb := ⟨1, true⟩

/-- The data of a read by the service processor. -/
def readBy (m : Core) (addr : Nat) : Word := (readValue m (lmbWho sp) addr).1

/-- Example RGF-1: before completion each result register reads valid clear, tag 3 and data zero (R606). -/
theorem test_rgf1_before :
    let m := after (.cfgTableWrite sp { set := true, seq := 3, table := 1, index := 1 }) (st base)
    readBy m 0x4C0 = 0x18000000 ∧ m.lmb.ok = true := by decide +kernel

/-- A machine whose CFG window has the command of Example RGF-1 pending. -/
def rgf1 : Core :=
  after (.cfgTableWrite sp { set := true, seq := 3, table := 1, index := 1 })
    (st (rs base [(0x464, 0x42A800), (0x46C, 0x42A8FF), (0x470, 0x05C00000)]))

/-- Example RGF-1: the results after completion. -/
theorem test_rgf1_after :
    let m := after (.windowComplete .cfg {}) (st rgf1)
    readBy m 0x4C0 = 0x9842A800 ∧ readBy m 0x4CC = 0x9DC00000 ∧ (tget {} m.cfg.set1.regions 1).prio = 1 := by
  decide +kernel

/-- Example RGS-1: counter 72 counts event 0x00D and its entry's word 0 reads back. -/
theorem test_rgs1 :
    let m := after (.pmcCounterWrite sp { seq := 2, index := 72 }) (st (rs base [(0x3004, 0x180D)]))
    readBy (after (.windowComplete .pmc {}) (st m)) 0x3008 = 0x9000180D := by decide +kernel

/-! ### The dead-man timer: Examples RGS-2 and DMJ-1 -/

/-- A machine with the timer's period, grace and masters as Example RGS-2 sets them. -/
def dm : Core := rs base [(0x2804, 100000000), (0x2808, 10000000), (0x2814, 2)]

/-- Example RGS-2: the write of DMT.CTL arms the timer and the count loads from the period. -/
theorem test_rgs2 : (after (.dmtEnable sp 0x39) (st dm)).dmt.count = 100000000 := by decide +kernel

/-- The armed timer of Example DMJ-1, at a count and in a stage. -/
def armed (c : Word) (n : Nat) : Core := { rs dm [(0x2800, 0x39)] with dmt := { count := c, stage := n } }

/-- Example DMJ-1: the window opens at half the period, not before. -/
theorem test_dmj1_window : windowOpen (armed 50000000 0) = true ∧ windowOpen (armed 50000001 0) = false
    ∧ windowOpen (armed 10000000 1) = true := by decide +kernel

/-- Example DMJ-1: the first key from MID 2 is rejected NOT_PRIVILEGED and counted, and raises source 18. -/
theorem test_dmj1_refused :
    let m := after (.firstKey ⟨2, true⟩) (st (armed 70000000 0))
    m.lmb.code = 4 ∧ readBy m 0x281C = 1 ∧ isPending m 18 = true ∧ m.dmt.stage = 0 := by decide +kernel

/-- Example DMJ-1: at expiry stage 1 loads the grace and raises source 16; at its end DMT_RST_N and the fence. -/
theorem test_dmj1_hang :
    (let m := after .dmtExpiry (st (armed 1 0)); m.dmt.stage = 1 ∧ m.dmt.count = 10000000 ∧ isPending m 16 = true)
    ∧ (let m := after .graceExpiry (st (armed 1 1)); m.dmt.stage = 2 ∧ m.pins.dmtRstN = true ∧ m.dmt.fence = true) := by
  decide +kernel

/-! ### The event interrupt controller: Example EIC-1 -/

/-- Sources 33 and 50 pending at level 6, target 0 in STACK mode by pin. -/
def eic1 : Core := { base with eic := { st := [(33, .pending), (50, .pending)], cfg := [(33, (6, 0)), (50, (6, 0))] } }

/-- Example EIC-1, cycle 20: the claim takes 33 over 50, which is eligible no longer. -/
theorem test_eic1_claim :
    let m := after (.claim sp 0) (st eic1)
    rfld m 0x2490 8 0 = 33 ∧ rfld m 0x2490 15 12 = 6 ∧ srcSt m 33 = .active ∧ eligible m 0 50 = false := by
  decide +kernel

/-- Example EIC-1, cycle 100: the EOI of 50 over 33 is rejected with WRONG_STATE. -/
theorem test_eic1_eoi_out_of_order :
    let m := after (.eoi sp 0 50) (st { eic1 with eic := { eic1.eic with
      st := [(33, .both), (50, .pending)], stack := [(0, [(33, 6)])] } })
    m.lmb.ok = false ∧ m.lmb.code = 5 ∧ srcSt m 33 = .both := by decide +kernel

/-- Example EIC-1, cycle 110: the EOI of 33 leaves it pending and the stack empty. -/
theorem test_eic1_eoi :
    let m := after (.eoi sp 0 33) (st { eic1 with eic := { eic1.eic with
      st := [(33, .both), (50, .pending)], stack := [(0, [(33, 6)])] } })
    srcSt m 33 = .pending ∧ stackOf m 0 = [] ∧ selected m 0 = some 33 := by decide +kernel

/-! ### The journal: Example DMJ-2 -/

/-- Example DMJ-2: record 8,000 stands in slot 1,856; R719: 1,024 follows 0xFFFF_FFFF, at ring distance 1. -/
theorem test_dmj2 : slotAfter 4096 8000 1855 = 1856 ∧ slotAfter 4096 8000 4095 = 1024 ∧ seqNext 0xFFFFFFFF = 1024
    ∧ ringDist 0xFFFFFFFF 1024 = 1 := by decide +kernel

/-- The check value of CRC-32C (R718): the bytes "123456789" give 0xE306_9283. -/
theorem test_crc32c : crc32c 0xFFFFFFFF [0x31, 0x32, 0x33, 0x34, 0x35, 0x36, 0x37, 0x38, 0x39] = 0xE3069283 := by
  decide +kernel

/-- The check value of the CRC-64 of Table OLF-3, polynomial 0x42F0_E1EB_A9EA_3693, all ones, most significant bit first,
not inverted at the end: the complement of CRC-64/WE's 0x62EC_59E3_F1A4_F00A. -/
theorem test_crc64 : crc64 0x313233343536373839 72 (2 ^ 64 - 1) = 0x9D13A61C0E5B0FF5 := by decide +kernel

/-! ### Roles, messages and operands -/

/-- Example ARC-2 (R23): role home-and-junction sets DIR.SPLIT to 4. -/
theorem test_arc2 :
    let m := after (.roleWrite sp 2) (st (rs { base with ports := [] } [(0x20, 0)]))
    (readBy m 0x1C, readBy m 0x1000) = (2, 4) := by decide +kernel

/-- Table ATM-1: the signed and the unsigned minimum of 0xFFFF_FFFF and 1 differ; a compare that fails swaps nothing. -/
theorem test_atm1 : atmNew 6 32 0xFFFFFFFF 1 0 = 0xFFFFFFFF ∧ atmNew 8 32 0xFFFFFFFF 1 0 = 1
    ∧ atmNew 2 64 5 6 7 = 5 ∧ atmNew 0 32 0xFFFFFFFF 1 0 = 0 := by decide +kernel

/-- Table OLF-4: the header of an `RDS` from 0x0205 to 0x0100, written out from the table: class 4 and opcode 0x01 in
bits [191:180], the destination in [179:164], the source in [163:148], the tag in [147:136], the line in [95:50], the
hop count in [20:13]. -/
def rds : Msg := { op := .rds, dest := 0x0100, src := 0x0205, tag := 0x07A, line := 0x10AA0000, hop := 16 }

theorem test_header : headerBits rds = 0x4010100020507A00 * 2 ^ 128 + 0x10AA0000 * 2 ^ 50 + 16 * 2 ^ 13 := by
  decide +kernel

/-- R49: the messages of a flit are read back as they were packed. -/
theorem test_messages_round_trip :
    let w : Msg := { rds with op := .wrp, data := 0x1234, mask := 0x3, aux := 0x0010 }
    parseArea (packArea [rds, w, rds]) = ([rds, w, rds], false) := by decide +kernel

end Sys2Proof.Tests
end

section
/-! PROOFS. Accepted writes of the GEN bank (spec/01_architecture.md, spec/12_control_plane.md): the registers GEN.ROLE,
GEN.NODE_ID, GEN.LOCK and GEN.REJECT_CTL, what an accepted write to each of them does, and the statement about them. -/

namespace Sys2Proof.GenBank

open Sys2Proof.Machine Sys2Proof.Laws

/-! ### Accepted writes of any master -/

/-- The machine after an accepted register write, whoever writes. -/
theorem regWrite_accepted {m : Core} {w : Who} {g : Option Msg} {a : Nat} {v : Word} (h : writeCode m w a v = 0) :
    (regWrite m w g a v).2 = writeAction m (storeWrite m a v) w g a v := by
  simp [regWrite, h]

/-- A field that a write to another field of the register does not reach. -/
theorem rfld_rsetf_other (m : Core) (a hi lo x h l : Nat) (hh : h < 32) (hd : h < lo ∨ hi < l) :
    rfld (rsetf m a hi lo x) a h l = rfld m a h l := by
  unfold rfld rsetf
  rw [rget_rset_same, fld_putFld_other _ _ _ _ _ _ hh hd]

/-! ### The registers (Table RGF-2) -/

/-- GEN.ROLE.role. -/
def roleField : FieldDesc := ⟨1, 0, .rw, 0, .sw, some (0, 2)⟩

/-- GEN.NODE_ID.node. -/
def nodeField : FieldDesc := ⟨15, 0, .rw, 0, .sw, none⟩

/-- GEN.LOCK.set. -/
def lockField : FieldDesc := ⟨0, 0, .w1s, 0, .sw, none⟩

/-- GEN.REJECT_CTL.clear. -/
def rejectClearField : FieldDesc := ⟨0, 0, .wo, 0, .sw, none⟩

theorem regAt_role : regAt 0x1C = some ⟨0x1C, 1, 4, [roleField]⟩ := by decide +kernel

theorem regAt_nodeId : regAt 0x20 = some ⟨0x20, 1, 4, [⟨31, 31, .ro, 0, .hw, none⟩, nodeField]⟩ := by decide +kernel

theorem regAt_lock : regAt 0x2C = some ⟨0x2C, 1, 4, [lockField]⟩ := by decide +kernel

theorem regAt_rejectCtl : regAt 0x3C = some ⟨0x3C, 1, 4, [rejectClearField]⟩ := by decide +kernel

/-! ### GEN.LOCK (R601) -/

theorem rbit_storeWrite_lock {m : Core} {v : Word} (h : bit v 0 = true) : rbit (storeWrite m 0x2C v) 0x2C 0 = true := by
  rw [store_w1s regAt_lock (f := lockField) (by simp) rfl (Nat.le_refl 0) (Nat.le_refl 0), h, Bool.or_true]

/-! ### GEN.REJECT_CTL (R599) -/

/-- The reject records cleared: GEN.REJECT_FIRST and GEN.REJECT_COUNT are 0. -/
def rejectCleared (m : Core) : Core := rset (rset m 0x34 0) 0x38 0

theorem action_rejectCtl {old m : Core} {w : Who} {g : Option Msg} {v : Word} (h : bit v 0 = true) :
    writeAction old m w g 0x3C v = rejectCleared m := if_pos h

/-- GEN.REJECT_CTL has a WO field only, so a write stores nothing. -/
theorem rget_storeWrite_rejectCtl (m : Core) (v : Word) (b : Nat) : rget (storeWrite m 0x3C v) b = rget m b :=
  store_wo regAt_rejectCtl (by decide) (by decide) (by decide) b

@[simp] theorem rget_rejectCleared_first (m : Core) : rget (rejectCleared m) 0x34 = 0 := by
  rw [rejectCleared, rget_rset_other _ _ (by decide), rget_rset_same]

@[simp] theorem rget_rejectCleared_count (m : Core) : rget (rejectCleared m) 0x38 = 0 := rget_rset_same _ _ _

theorem rejectCleared_regs (m : Core) : m.onlyRegs [0x34, 0x38] (rejectCleared m) :=
  onlyRegs_trans (onlyRegs_rset m 0x34 0 (by simp)) (onlyRegs_rset _ 0x38 0 (by simp))

theorem rejectCleared_only (m : Core) : m.onlyParts [.regs, .lmb] (rejectCleared m) :=
  onlyParts_trans (onlyParts_rset m 0x34 0 (by simp)) (onlyParts_rset _ 0x38 0 (by simp))

/-! ### GEN.NODE_ID (R514) -/

/-- A write to GEN.NODE_ID makes the node ID valid. -/
theorem action_nodeId {old m : Core} {w : Who} {g : Option Msg} {v : Word} :
    writeAction old m w g 0x20 v = rsetf m 0x20 31 31 1 := rfl

theorem nodeValid_rsetf (m : Core) : nodeValid (rsetf m 0x20 31 31 1) = true := by
  unfold nodeValid
  rw [rbit_rsetf _ _ _ _ _ _ _ (by decide)]
  rfl

theorem nodeId_rsetf_valid (m : Core) (x : Nat) : nodeId (rsetf m 0x20 31 31 x) = nodeId m := by
  unfold nodeId
  rw [rfld_rsetf_other _ _ _ _ _ _ _ (by decide) (by decide)]

theorem nodeId_storeWrite (m : Core) (v : Word) : nodeId (storeWrite m 0x20 v) = v.extractLsb' 0 16 := by
  unfold nodeId
  rw [store_fld regAt_nodeId (f := nodeField) (by simp) (.inl rfl) 15 0 (Nat.le_refl 0) (Nat.le_refl 15)]
  apply BitVec.eq_of_toNat_eq
  simp [fld]

/-! ### GEN.ROLE (R23, R431, Table ARC-1) -/

theorem action_role {old m : Core} {w : Who} {g : Option Msg} {v : Word} :
    writeAction old m w g 0x1C v = setRole m (fld v 1 0) := rfl

theorem rget_setRole (m : Core) (r a : Nat) :
    rget (setRole m r) a = if 0x1000 = a then (if r = 0 then 8 else if r = 1 then 0 else 4) else rget m a :=
  rget_rset m 0x1000 a _

theorem split_setRole (m : Core) (r : Nat) :
    split (setRole m r) = if r = 0 then 8 else if r = 1 then 0 else 4 := by
  unfold split rfld
  rw [rget_setRole, if_pos rfl]
  split
  · rfl
  · split <;> rfl

@[simp] theorem role_setRole (m : Core) (r : Nat) : role (setRole m r) = role m := by
  unfold role rfld
  rw [rget_setRole, if_neg (by decide)]

@[simp] theorem ready_setRole (m : Core) (r : Nat) : (setRole m r).mem.ready = decide (r = 1) := rfl

theorem setRole_regs (m : Core) (r : Nat) : m.onlyRegs [0x1000] (setRole m r) := fun a ha => by
  rw [rget_setRole, if_neg fun e => ha (by simp [e])]

theorem setRole_only (m : Core) (r : Nat) : m.onlyParts [.regs, .mem] (setRole m r) :=
  onlyParts_trans (onlyParts_rset m 0x1000 _ (by simp)) (onlyParts_mem _ _ (by simp))

theorem role_storeWrite (m : Core) (v : Word) : role (storeWrite m 0x1C v) = fld v 1 0 :=
  store_fld regAt_role (f := roleField) (by simp) (.inl rfl) 1 0 (Nat.le_refl 0) (Nat.le_refl 1)

/-! ### The commands -/

theorem exec_lock {s : State} {a : Lmb} (h : Accepted s a 0x2C 1) :
    exec (.lock a) s = .next { s with m := setLmb (storeWrite s.m 0x2C 1) (accOk 0) } :=
  accepted_next h rfl (action_plain (by decide))

theorem exec_rejectClear {s : State} {a : Lmb} (h : Accepted s a 0x3C 1) :
    exec (.rejectClear a) s = .next { s with m := setLmb (rejectCleared (storeWrite s.m 0x3C 1)) (accOk 0) } :=
  accepted_next h rfl (action_rejectCtl (by decide))

theorem exec_nodeIdWrite {s : State} {a : Lmb} {v : Word} (h : Accepted s a 0x20 v) :
    exec (.nodeIdWrite a v) s
      = .next { s with m := setLmb (rsetf (storeWrite s.m 0x20 v) 0x20 31 31 1) (accOk 0) } :=
  accepted_next h rfl action_nodeId

theorem exec_roleWrite {s : State} {a : Lmb} {v : Word} (h : Accepted s a 0x1C v) :
    exec (.roleWrite a v) s = .next { s with m := setLmb (setRole (storeWrite s.m 0x1C v) (fld v 1 0)) (accOk 0) } :=
  accepted_next h rfl action_role

theorem lock_takesEffect {s : State} {a : Lmb} (h : Accepted s a 0x2C 1) :
    ∃ t, exec (.lock a) s = .next t ∧ rbit t.m 0x2C 0 = true ∧ lmbOk t.m ∧ s.only [.regs, .lmb] t
      ∧ s.m.onlyRegs [0x2C] t.m :=
  ⟨_, exec_lock h, rbit_storeWrite_lock (by decide), lmbOk_set _, only_lmb (storeWrite_parts _ _ _ (by simp)) (by simp),
    onlyRegs_lmb (storeWrite_regs _ _ _)⟩

theorem rejectClear_takesEffect {s : State} {a : Lmb} (h : Accepted s a 0x3C 1) :
    ∃ t, exec (.rejectClear a) s = .next t ∧ rget t.m 0x34 = 0 ∧ rget t.m 0x38 = 0 ∧ lmbOk t.m
      ∧ s.only [.regs, .lmb] t ∧ s.m.onlyRegs [0x34, 0x38] t.m := by
  have hstore : s.m.onlyRegs [0x34, 0x38] (storeWrite s.m 0x3C 1) := fun b _ => rget_storeWrite_rejectCtl _ _ b
  exact ⟨_, exec_rejectClear h, rget_rejectCleared_first _, rget_rejectCleared_count _, lmbOk_set _,
    only_lmb (onlyParts_trans (storeWrite_parts _ _ _ (by simp)) (rejectCleared_only _)) (by simp),
    onlyRegs_lmb (onlyRegs_trans hstore (rejectCleared_regs _))⟩

theorem nodeIdWrite_takesEffect {s : State} {a : Lmb} {v : Word} (h : Accepted s a 0x20 v) :
    ∃ t, exec (.nodeIdWrite a v) s = .next t ∧ nodeId t.m = v.extractLsb' 0 16 ∧ nodeValid t.m = true ∧ lmbOk t.m
      ∧ s.only [.regs, .lmb] t ∧ s.m.onlyRegs [0x20] t.m :=
  ⟨_, exec_nodeIdWrite h, (nodeId_rsetf_valid _ 1).trans (nodeId_storeWrite _ _), nodeValid_rsetf _, lmbOk_set _,
    only_lmb (onlyParts_trans (storeWrite_parts _ _ _ (by simp)) (onlyParts_rset _ _ _ (by simp))) (by simp),
    onlyRegs_lmb (onlyRegs_trans (storeWrite_regs _ _ _) (onlyRegs_rset _ _ _ (by simp)))⟩

theorem roleWrite_takesEffect {s : State} {a : Lmb} {v : Word} (h : Accepted s a 0x1C v) :
    ∃ t, exec (.roleWrite a v) s = .next t ∧ role t.m = fld v 1 0
      ∧ split t.m = (if fld v 1 0 = 0 then 8 else if fld v 1 0 = 1 then 0 else 4)
      ∧ t.m.mem.ready = decide (fld v 1 0 = 1) ∧ lmbOk t.m
      ∧ s.only [.regs, .lmb, .mem] t ∧ s.m.onlyRegs [0x1C, 0x1000] t.m :=
  ⟨_, exec_roleWrite h, (role_setRole _ _).trans (role_storeWrite _ _), split_setRole _ _, ready_setRole _ _, lmbOk_set _,
    only_lmb (onlyParts_trans (storeWrite_parts _ _ _ (by simp)) (onlyParts_mono (setRole_only _ _) (by simp))) (by simp),
    onlyRegs_lmb (onlyRegs_trans (onlyRegs_mono (storeWrite_regs _ _ _) (by simp))
      (onlyRegs_mono (setRole_regs _ _) (by simp)))⟩

/-! ### Every master that can write a register -/

theorem split_regWrite_role {m : Core} {w : Who} (g : Option Msg) {v : Word} (h : writeCode m w 0x1C v = 0) :
    split (regWrite m w g 0x1C v).2 = if fld v 1 0 = 0 then 8 else if fld v 1 0 = 1 then 0 else 4 := by
  rw [regWrite_accepted h, action_role, split_setRole]

theorem regWrite_rejectCtl {m : Core} {w : Who} (g : Option Msg) {v : Word} (h : writeCode m w 0x3C v = 0)
    (hv : bit v 0 = true) : (regWrite m w g 0x3C v).2 = rejectCleared (storeWrite m 0x3C v) := by
  rw [regWrite_accepted h, action_rejectCtl hv]

theorem rget_regWrite_rejectCtl {m : Core} {w : Who} (g : Option Msg) {v : Word} (h : writeCode m w 0x3C v = 0)
    (hv : bit v 0 = true) :
    rget (regWrite m w g 0x3C v).2 0x34 = 0 ∧ rget (regWrite m w g 0x3C v).2 0x38 = 0
      ∧ rget (regWrite m w g 0x3C v).2 0x30 = rget m 0x30 := by
  rw [regWrite_rejectCtl g h hv]
  have hlatest : rget (rejectCleared (storeWrite m 0x3C v)) 0x30 = rget m 0x30 :=
    (rejectCleared_regs _ 0x30 (by simp)).trans (rget_storeWrite_rejectCtl _ _ _)
  exact ⟨rget_rejectCleared_first _, rget_rejectCleared_count _, hlatest⟩

/-- Settles O5: each accepted write is its store followed by its register's action, and the effect and the frame of the
two are those of the lemmas above. -/
theorem genWritesTakeEffect : Obligations.GenWritesTakeEffect :=
  ⟨fun _ _ => lock_takesEffect, fun _ _ => rejectClear_takesEffect, fun _ _ _ => nodeIdWrite_takesEffect,
    fun _ _ _ => roleWrite_takesEffect, fun _ _ g _ => split_regWrite_role g, fun _ _ g _ => rget_regWrite_rejectCtl g⟩

end Sys2Proof.GenBank
end

section
/-! PROOFS. Soft resets (CKP.SOFT_RST; spec/08_line_caches.md, spec/13_interrupts.md, spec/15_observability.md,
spec/16_serial_ports.md, spec/18_registers_service.md): what the reset of each of the four blocks clears and keeps, and the
statement about them. -/

namespace Sys2Proof.SoftReset

open Sys2Proof.Machine Sys2Proof.Laws

theorem rbit_of_onlyRegs {as : List Nat} {m n : Core} {a : Nat} (h : m.onlyRegs as n) (ha : a ∉ as) (i : Nat) :
    rbit n a i = rbit m a i := by rw [rbit, h a ha, rbit]

/-- A bit beyond a field that is written, whatever its number. -/
theorem rbit_rsetf_other (m : Core) (a hi lo v i : Nat) (h : i < lo ∨ hi < i) :
    rbit (rsetf m a hi lo v) a i = rbit m a i := by
  by_cases hi' : i < 32
  · rw [rbit_rsetf _ _ _ _ _ _ _ hi', if_pos rfl, if_neg (by omega)]
  · have hbeyond (x : Word) : bit x i = false := BitVec.getLsbD_of_ge x i (by omega)
    rw [rbit, rbit, hbeyond, hbeyond]

theorem rbit_rsetf_bit (m : Core) (a v : Nat) {i : Nat} (h : i < 32) : rbit (rsetf m a i i v) a i = v.testBit 0 := by
  rw [rbit_rsetf _ _ _ _ _ _ _ h, if_pos rfl, if_pos ⟨Nat.le_refl i, Nat.le_refl i⟩, Nat.sub_self]

/-! ### CKP.SOFT_RST and the soft bits of CKP.RESET_CAUSE (R916) -/

/-- The bit of CKP.SOFT_RST that starts the soft reset of block `j`. -/
def softField (j : Nat) : FieldDesc := ⟨j, j, .w1s, 0, .cmd, none⟩

theorem regAt_softRst : regAt 0x3C34 = some ⟨0x3C34, 1, 4, [softField 3, softField 2, softField 1, softField 0]⟩ := by
  decide +kernel

theorem softHeld_storeWrite {m : Core} {v : Word} {j : Nat} (hj : j < 4) (hv : bit v j = true) :
    softHeld (storeWrite m 0x3C34 v) j = true := by
  have hf : softField j ∈ [softField 3, softField 2, softField 1, softField 0] := by
    simp [softField]; omega
  rw [softHeld, store_w1s regAt_softRst hf rfl (Nat.le_refl j) (Nat.le_refl j), hv, Bool.or_true]

/-- The soft bit of block `j` in CKP.RESET_CAUSE set. -/
def softCause (m : Core) (j : Nat) : Core := rsetf m 0x3C30 (8 + j) (8 + j) 1

/-- A write to CKP.SOFT_RST that starts a block's reset, whose clearing `n` reaches neither the bit nor the cause: the bit
is held, the cause stands, and the frame is that of the clearing. -/
theorem softReset_marks {m n : Core} {v : Word} {j : Nat} {as : List Nat} (hj : j < 4) (hv : bit v j = true)
    (h : (softCause (storeWrite m 0x3C34 v) j).onlyRegs as n) (hheld : 0x3C34 ∉ as) (hcause : 0x3C30 ∉ as) :
    softHeld n j = true ∧ rbit n 0x3C30 (8 + j) = true ∧ m.onlyRegs (0x3C34 :: 0x3C30 :: as) n := by
  have hmark : (storeWrite m 0x3C34 v).onlyRegs [0x3C30] (softCause (storeWrite m 0x3C34 v) j) :=
    onlyRegs_rset _ _ _ (by simp)
  refine ⟨?_, ?_, ?_⟩
  · exact (rbit_of_onlyRegs h hheld j).trans ((rbit_of_onlyRegs hmark (by simp) j).trans (softHeld_storeWrite hj hv))
  · exact (rbit_of_onlyRegs h hcause (8 + j)).trans (rbit_rsetf_bit _ _ 1 (by omega))
  · exact onlyRegs_trans (onlyRegs_mono (storeWrite_regs m 0x3C34 v) (by simp))
      (onlyRegs_trans (onlyRegs_mono hmark (by simp)) (onlyRegs_mono h (by simp +contextual)))

/-- The write and the cause change registers only. -/
theorem softCause_parts {ps : List Part} (m : Core) (v : Word) (j : Nat) (h : Part.regs ∈ ps) :
    m.onlyParts ps (softCause (storeWrite m 0x3C34 v) j) :=
  onlyParts_trans (storeWrite_parts m 0x3C34 v h) (onlyParts_rset _ _ _ h)

/-! ### The HLC block (R402, R404, R917) -/

/-- The caches with the siding and the stream trackers empty and no invalidation running or done. -/
def cachesCleared (c : Caches) : Caches := { c with siding := [], streams := [], invRunning := false, invDone := false }

/-- The HLC disabled and cleared. -/
def hlcCleared (m : Core) : Core := modCa (rsetf m 0x1400 0 0 0) cachesCleared

theorem softReset_hlc (m : Core) : softReset m 0 = hlcCleared (softCause m 0) := rfl

theorem hlcOn_hlcCleared (m : Core) : hlcOn (hlcCleared m) = false := rbit_rsetf_bit m 0x1400 0 (by decide)

theorem hlcCleared_regs (m : Core) : m.onlyRegs [0x1400] (hlcCleared m) := onlyRegs_rset m 0x1400 _ (by simp)

theorem hlcCleared_only (m : Core) : m.onlyParts [.regs, .lmb, .ca] (hlcCleared m) :=
  onlyParts_trans (onlyParts_rset m 0x1400 _ (by simp)) (onlyParts_ca _ _ (by simp))

theorem softReset_hlc_state (m : Core) :
    hlcOn (softReset m 0) = false ∧ (softReset m 0).ca.siding = [] ∧ (softReset m 0).ca.streams = []
      ∧ (softReset m 0).ca.mb = m.ca.mb ∧ (softReset m 0).ca.miss = m.ca.miss ∧ (softReset m 0).ca.alc = m.ca.alc :=
  ⟨hlcOn_hlcCleared _, rfl, rfl, rfl, rfl, rfl⟩

/-! ### The EIC block (R660, R683) -/

/-- The event controller with every source inactive, every stack empty, and every EVIN filter to restart. -/
def eventsCleared (x : Eic) : Eic := { x with st := [], stack := [], evinKnown := [], evin := [] }

/-- The EIC cleared, and its interrupts driven anew. -/
def eicCleared (m : Core) : Core := eicUpdate (modEic m eventsCleared)

theorem softReset_eic (m : Core) : softReset m 1 = eicCleared (softCause m 1) := rfl

/-- The event controllers of two machines differ in the interrupt lines and the `EVT` records only. -/
def Delivered (m n : Core) : Prop := ∃ i e, n.eic = { m.eic with irq := i, evt := e }

theorem delivered_trans {m n k : Core} : Delivered m n → Delivered n k → Delivered m k := by
  rintro ⟨_, _, h⟩ ⟨i, e, g⟩
  exact ⟨i, e, by rw [g, h]⟩

theorem evtDue_delivered (m : Core) (t : Nat) : Delivered m (evtDue m t) := by
  unfold evtDue
  split
  · exact ⟨_, _, rfl⟩
  · exact ⟨_, _, rfl⟩

theorem evtJudge_delivered (m : Core) (t l : Nat) : Delivered m (evtJudge m t l) := by
  unfold evtJudge
  split
  · exact evtDue_delivered m t
  · exact ⟨_, _, rfl⟩

theorem eicTarget_delivered (m : Core) (t : Nat) : Delivered m (eicTarget m t) := by
  have hdrive : Delivered m (irqDrive m t) := ⟨_, _, rfl⟩
  have hlevel (n : Core) (l : Nat) : Delivered n (evtLevel n t l) := ⟨_, _, rfl⟩
  exact delivered_trans (delivered_trans hdrive (evtJudge_delivered _ t _)) (hlevel _ _)

/-- Delivery changes the interrupt lines and the `EVT` records only. -/
theorem eicUpdate_delivered (m : Core) : Delivered m (eicUpdate m) :=
  delivered_trans (delivered_trans (delivered_trans (eicTarget_delivered m 0) (eicTarget_delivered _ 1))
    (eicTarget_delivered _ 2)) (eicTarget_delivered _ 3)

theorem eicCleared_eic (m : Core) : ∃ i e, (eicCleared m).eic = { eventsCleared m.eic with irq := i, evt := e } :=
  eicUpdate_delivered (modEic m eventsCleared)

/-- What the cleared event controller holds: no source, no stack and no filter of an EVIN input; its window is kept. -/
theorem eicCleared_state (m : Core) :
    (∀ n, srcSt (eicCleared m) n = .inactive) ∧ (∀ n, stackOf (eicCleared m) n = [])
      ∧ (eicCleared m).eic.cfg = m.eic.cfg ∧ ∀ n, tget false (eicCleared m).eic.evinKnown n = false := by
  obtain ⟨i, e, h⟩ := eicCleared_eic m
  unfold srcSt stackOf
  rw [h]
  exact ⟨fun _ => rfl, fun _ => rfl, rfl, fun _ => rfl⟩

theorem eicCleared_only (m : Core) : m.onlyParts [.eic] (eicCleared m) :=
  onlyParts_trans (onlyParts_eic m _ (by simp)) (eicUpdate_only _)

theorem eicCleared_regs (m : Core) : m.onlyRegs [] (eicCleared m) := onlyRegs_of_only (eicCleared_only m) (by simp)

/-! ### Counters: what counting leaves alone (R758) -/

/-- The performance counters of two machines differ in the counts and their overflow marks only. -/
def Counted (m n : Core) : Prop := ∃ c w, n.pmc = { m.pmc with ctr := c, wrapped := w }

theorem counted_of_eq {m n : Core} (h : n.pmc = m.pmc) : Counted m n := ⟨_, _, h⟩

theorem counted_trans {m n k : Core} : Counted m n → Counted n k → Counted m k := by
  rintro ⟨_, _, h⟩ ⟨c, w, g⟩
  exact ⟨c, w, by rw [g, h]⟩

theorem counted_foldl {α : Type} (f : Core → α → Core) (h : ∀ (m : Core) x, Counted m (f m x)) (l : List α) (m : Core) :
    Counted m (l.foldl f m) := by
  induction l generalizing m with
  | nil => exact counted_of_eq rfl
  | cons x r ih => exact counted_trans (h m x) (ih _)

theorem srcRaise_pmc (m : Core) (n : Nat) : (srcRaise m n).pmc = m.pmc := by
  unfold srcRaise
  split
  · rfl
  · rfl
  · rfl

theorem raiseRaw_pmc (m : Core) (n : Nat) : (raiseRaw m n).pmc = m.pmc :=
  (eicUpdate_only _ .pmc (by decide)).trans ((whistleCheck_only _ n .pmc (by decide)).trans (srcRaise_pmc m n))

theorem ctrAdd_counted (k : Nat) (c : CtrCfg) (n : Nat) (m : Core) : Counted m (ctrAdd k c n m) := by
  have hwrap (v : Nat) : Counted m (ctrWrap (ctrStore m k v) k) := ⟨_, _, rfl⟩
  unfold ctrAdd ctrReach
  split
  · exact ⟨_, _, rfl⟩
  · split
    · exact counted_trans (hwrap _) (counted_of_eq (raiseRaw_pmc _ _))
    · exact hwrap _

theorem tally_counted (b : Blk) (e n : Nat) (m : Core) : Counted m (tally b e n m) := by
  refine counted_foldl _ (fun m x => ?_) _ m
  split
  · exact ctrAdd_counted _ _ _ _
  · exact counted_of_eq rfl

theorem queueRecs_counted (m : Core) (q : List QRec) : Counted m (queueRecs m q) := tally_counted .jnl 1 1 _

theorem dropRec_counted (m : Core) (s : BitVec 4) : Counted m (dropRec m s) := tally_counted .jnl 3 1 (rinc m 0x2C20 1)

theorem enqueueRec_counted (m : Core) (r : QRec) (f : List QRec → List QRec) : Counted m (enqueueRec m r f) := by
  unfold enqueueRec
  split
  · exact queueRecs_counted m _
  · split
    · exact counted_trans (queueRecs_counted m _) (dropRec_counted _ _)
    · exact dropRec_counted m _

/-- A journal record counts events, and leaves the counters' window and the dump record alone. -/
theorem journal_counted (m : Core) (t s : Nat) (p : BitVec 128) : Counted m (journal m t s p) := by
  unfold journal
  split
  · exact counted_of_eq rfl
  · exact enqueueRec_counted _ _ _

/-! ### The PMC block (R760, R801, R917) -/

/-- The registers that the end of a dump record changes: PMC.RECORD and PMC.ABANDON_COUNT, and those of its journal
record. -/
def dumpRegs : List Nat := 0x30BC :: 0x30C4 :: journalRegs

/-- An abandoned record is gone, and the counters' window stands. -/
theorem dumpAbandon_pmc (m : Core) : (dumpAbandon m).pmc.dump = none ∧ (dumpAbandon m).pmc.cfg = m.pmc.cfg := by
  unfold dumpAbandon
  split
  · next h => exact ⟨h, rfl⟩
  · obtain ⟨c, w, h⟩ := journal_counted _ 0x14 2 _
    rw [h]
    exact ⟨rfl, rfl⟩

theorem dumpAbandon_only (m : Core) : m.onlyParts (.lmb :: .jnl :: Part.report) (dumpAbandon m) := by
  unfold dumpAbandon
  split
  · exact onlyParts_refl _ m
  · exact onlyParts_trans
      (onlyParts_trans (onlyParts_trans (onlyParts_pmc m _ (by decide)) (onlyParts_rset _ _ _ (by decide)))
        (onlyParts_rset _ _ _ (by decide)))
      (onlyParts_mono (journal_only _ _ _ _) (by decide))

theorem dumpAbandon_regs (m : Core) : m.onlyRegs dumpRegs (dumpAbandon m) := by
  unfold dumpAbandon
  split
  · exact onlyRegs_refl _ m
  · exact onlyRegs_trans
      (onlyRegs_trans (onlyRegs_rset (modPmc m _) _ _ (by decide)) (onlyRegs_rset _ _ _ (by decide)))
      (onlyRegs_mono (journal_regs _ _ _ _) (by decide))

/-- Dumping disabled and the record in progress abandoned. -/
def dumpStopped (m : Core) : Core := dumpAbandon (rsetf m 0x30A0 0 0 0)

/-- The PMC with dumping stopped and every counter at 0. -/
def pmcCleared (m : Core) : Core := modPmc (dumpStopped m) fun p => { p with ctr := [] }

theorem softReset_pmc (m : Core) : softReset m 2 = pmcCleared (softCause m 2) := rfl

theorem rbit_pmcCleared_enable (m : Core) : rbit (pmcCleared m) 0x30A0 0 = false :=
  (rbit_of_onlyRegs (dumpAbandon_regs _) (by decide) 0).trans (rbit_rsetf_bit m 0x30A0 0 (by decide))

theorem pmcCleared_regs (m : Core) : m.onlyRegs (0x30A0 :: dumpRegs) (pmcCleared m) :=
  onlyRegs_trans (onlyRegs_rset m 0x30A0 _ (by decide)) (onlyRegs_mono (dumpAbandon_regs _) (by decide))

theorem pmcCleared_only (m : Core) : m.onlyParts (.lmb :: .jnl :: Part.report) (pmcCleared m) :=
  onlyParts_trans (onlyParts_trans (onlyParts_rset m 0x30A0 _ (by decide)) (dumpAbandon_only _))
    (onlyParts_pmc _ _ (by decide))

/-! ### SPA passes to the next engine (R807, R842) -/

/-- A change of SPA's owner: the serial ports differ in the owner only; of the registers only JNL.FAULT.lost_count may
have changed, which counts a record that no device takes (R733). -/
structure OwnerChange (m n : Core) : Prop where
  spi : ∃ k, n.spi = { m.spi with own := k }
  regs : m.onlyRegs [0x2C0C] n
  parts : m.onlyParts [.regs, .lmb, .spi, .jnl] n

theorem OwnerChange.held {m n : Core} (h : OwnerChange m n) : n.spi.held = m.spi.held := by
  obtain ⟨k, hk⟩ := h.spi
  rw [hk]

theorem OwnerChange.refl (m : Core) : OwnerChange m m := ⟨⟨_, rfl⟩, onlyRegs_refl _ m, onlyParts_refl _ m⟩

theorem OwnerChange.trans {m n k : Core} (h : OwnerChange m n) (g : OwnerChange n k) : OwnerChange m k := by
  obtain ⟨_, hi⟩ := h.spi
  obtain ⟨j, hj⟩ := g.spi
  exact ⟨⟨j, by rw [hj, hi]⟩, onlyRegs_trans h.regs g.regs, onlyParts_trans h.parts g.parts⟩

theorem spaOwn_ownerChange (m : Core) (k : Nat) : OwnerChange m (spaOwn m k) :=
  ⟨⟨k, rfl⟩, onlyRegs_of_eq rfl, onlyParts_spi m _ (by simp)⟩

theorem modJnl_ownerChange (m : Core) (f : Jnl → Jnl) : OwnerChange m (modJnl m f) :=
  ⟨⟨_, rfl⟩, onlyRegs_of_eq rfl, onlyParts_jnl m _ (by simp)⟩

theorem recordLost_ownerChange (m : Core) : OwnerChange m (recordLost m) :=
  ⟨⟨_, rfl⟩, onlyRegs_rset m _ _ (by simp), onlyParts_rset m _ _ (by simp)⟩

theorem spaBreak_released {m : Core} (h : m.spi.held = none) : spaBreak m = m := by simp [spaBreak, h]

/-- With no select held there is no hold to break, and a frame boundary changes the owner only. -/
theorem spaCall_ownerChange {m : Core} (h : m.spi.held = none) : OwnerChange m (spaCall m) := by
  unfold spaCall
  split
  · unfold spaBoundary
    rw [spaBreak_released h]
    split
    · exact spaOwn_ownerChange m 1
    · split
      · exact spaOwn_ownerChange m 2
      · exact spaOwn_ownerChange m _
  · exact OwnerChange.refl m

theorem cutWrite_ownerChange {m : Core} (h : m.spi.held = none) : OwnerChange m (cutWrite m) := by
  unfold cutWrite
  split
  · unfold beginWrite
    split
    · exact (modJnl_ownerChange m _).trans (spaCall_ownerChange h)
    · exact recordLost_ownerChange m
  · exact OwnerChange.refl m

/-! ### The SPI block (R841, R842, R920) -/

/-- SPA.STATUS.hold_broken is set where a select is held. -/
def holdBroken (m : Core) : Core := if m.spi.held.isSome then rsetf m 0x3814 2 2 1 else m

/-- One data register of each port emptied. -/
def dataPairCleared (m : Core) (k : Nat) : Core := rset (rset m (0x3820 + 4 * k) 0) (0x3860 + 4 * k) 0

/-- The registers of the SPI block after a soft reset. -/
def portRegsCleared (m : Core) : Core := (List.range 8).foldl dataPairCleared (rsetf (holdBroken m) 0x3840 0 0 0)

/-- The serial ports with no frame, no select asserted and no owner of SPA. -/
def framesEnded (x : Spi) : Spi :=
  { x with own := 0, held := none, spaFrame := none, spbFrame := none, spbBlocked := x.spbSel, miso := none }

/-- The SPI block cleared, before the engines that wait for SPA take it. -/
def portsCleared (m : Core) : Core := modSpi (portRegsCleared m) framesEnded

theorem softReset_spi (m : Core) : softReset m 3 = spaCall (cutWrite (portsCleared (softCause m 3))) := rfl

theorem softReset_spi_ownerChange (m : Core) : OwnerChange (portsCleared (softCause m 3)) (softReset m 3) := by
  have hreleased : (portsCleared (softCause m 3)).spi.held = none := rfl
  have hcut := cutWrite_ownerChange hreleased
  rw [softReset_spi]
  exact hcut.trans (spaCall_ownerChange (hcut.held.trans hreleased))

theorem softReset_spi_frames (m : Core) :
    (softReset m 3).spi.held = none ∧ (softReset m 3).spi.spaFrame = none ∧ (softReset m 3).spi.spbFrame = none := by
  obtain ⟨k, h⟩ := (softReset_spi_ownerChange m).spi
  rw [h]
  exact ⟨rfl, rfl, rfl⟩

theorem holdBroken_parts {ps : List Part} (m : Core) (h : Part.regs ∈ ps) : m.onlyParts ps (holdBroken m) := by
  unfold holdBroken
  split
  · exact onlyParts_rset m _ _ h
  · exact onlyParts_refl ps m

theorem holdBroken_regs (m : Core) : m.onlyRegs [0x3814] (holdBroken m) := by
  unfold holdBroken
  split
  · exact onlyRegs_rset m _ _ (by simp)
  · exact onlyRegs_refl _ m

theorem rbit_holdBroken {m : Core} (h : m.spi.held.isSome = true) : rbit (holdBroken m) 0x3814 2 = true := by
  rw [holdBroken, if_pos h, rbit_rsetf_bit _ _ _ (by decide)]
  rfl

theorem rget_dataPairCleared (m : Core) (k a : Nat) :
    rget (dataPairCleared m k) a = if a = 0x3820 + 4 * k ∨ a = 0x3860 + 4 * k then 0 else rget m a := by
  rw [dataPairCleared, rget_rset, rget_rset]
  grind

/-- The data registers of a list of places are 0, and every other register stands. -/
theorem rget_dataCleared (l : List Nat) (m : Core) (a : Nat) :
    rget (l.foldl dataPairCleared m) a
      = if ∃ k ∈ l, a = 0x3820 + 4 * k ∨ a = 0x3860 + 4 * k then 0 else rget m a := by
  induction l generalizing m with
  | nil => simp
  | cons k r ih =>
    rw [List.foldl_cons, ih, rget_dataPairCleared]
    by_cases hk : a = 0x3820 + 4 * k ∨ a = 0x3860 + 4 * k
    · simp [hk]
    · simp [hk]

/-- The data registers of SPA and SPB. -/
def dataRegs : List Nat := (List.range 8).map (0x3820 + 4 * ·) ++ (List.range 8).map (0x3860 + 4 * ·)

theorem dataCleared_regs (m : Core) : m.onlyRegs dataRegs ((List.range 8).foldl dataPairCleared m) := by
  intro a ha
  rw [rget_dataCleared, if_neg]
  rintro ⟨k, hk, rfl | rfl⟩
  · exact ha (List.mem_append_left _ (List.mem_map_of_mem hk))
  · exact ha (List.mem_append_right _ (List.mem_map_of_mem hk))

theorem portRegsCleared_regs (m : Core) : m.onlyRegs (0x3814 :: 0x3840 :: dataRegs) (portRegsCleared m) :=
  onlyRegs_trans
    (onlyRegs_trans (onlyRegs_mono (holdBroken_regs m) (by simp)) (onlyRegs_rset _ 0x3840 _ (by simp)))
    (onlyRegs_mono (dataCleared_regs _) (by simp +contextual))

/-- The end of the frames changes no register. -/
theorem rget_portsCleared (m : Core) (a : Nat) : rget (portsCleared m) a = rget (portRegsCleared m) a :=
  rget_congr (modSpi_regs _ _) a

theorem portRegsCleared_parts {ps : List Part} (m : Core) (h : Part.regs ∈ ps) :
    m.onlyParts ps (portRegsCleared m) := by
  have hpair (n : Core) (k : Nat) : n.onlyParts ps (dataPairCleared n k) :=
    onlyParts_trans (onlyParts_rset n _ 0 h) (onlyParts_rset _ _ 0 h)
  exact onlyParts_trans (onlyParts_trans (holdBroken_parts m h) (onlyParts_rset _ 0x3840 _ h))
    (onlyParts_foldl _ hpair _ _)

/-- A soft reset of the SPI block changes, beside its cause, SPA.STATUS, SPB.CFG, the data registers and
JNL.FAULT.lost_count. -/
theorem softReset_spi_regs (m : Core) :
    (softCause m 3).onlyRegs (0x2C0C :: 0x3814 :: 0x3840 :: dataRegs) (softReset m 3) := by
  intro a ha
  have hlost : a ∉ [0x2C0C] := fun h => ha (List.mem_cons.2 (.inl (List.mem_singleton.1 h)))
  have hports : a ∉ 0x3814 :: 0x3840 :: dataRegs := fun h => ha (List.mem_cons_of_mem _ h)
  calc rget (softReset m 3) a
      = rget (portsCleared (softCause m 3)) a := (softReset_spi_ownerChange m).regs a hlost
    _ = rget (portRegsCleared (softCause m 3)) a := rget_portsCleared _ a
    _ = rget (softCause m 3) a := portRegsCleared_regs _ a hports

theorem softReset_spi_parts (m : Core) : (softCause m 3).onlyParts [.regs, .lmb, .spi, .jnl] (softReset m 3) :=
  onlyParts_trans (onlyParts_trans (portRegsCleared_parts _ (by simp)) (onlyParts_spi (portRegsCleared _) _ (by simp)))
    (softReset_spi_ownerChange m).parts

/-- The registers of the SPI block are those of its clearing: the engines that take SPA change none of them. -/
theorem rget_softReset_spi (m : Core) {a : Nat} (h : a ≠ 0x2C0C) :
    rget (softReset m 3) a = rget (portRegsCleared (softCause m 3)) a :=
  ((softReset_spi_ownerChange m).regs a (by simpa using h)).trans (rget_portsCleared _ a)

theorem softReset_spi_data (m : Core) (k : Fin 8) :
    rget (softReset m 3) (0x3820 + 4 * k.val) = 0 ∧ rget (softReset m 3) (0x3860 + 4 * k.val) = 0 := by
  have hk : k.val ∈ List.range 8 := List.mem_range.2 k.isLt
  rw [rget_softReset_spi m (by omega), rget_softReset_spi m (by omega), portRegsCleared, rget_dataCleared,
    rget_dataCleared]
  exact ⟨if_pos ⟨_, hk, .inl rfl⟩, if_pos ⟨_, hk, .inr rfl⟩⟩

/-- SPB.CFG after a soft reset of the SPI block is that of the write to its role field. -/
theorem rbit_softReset_spi_cfg (m : Core) (i : Nat) :
    rbit (softReset m 3) 0x3840 i = rbit (rsetf (holdBroken (softCause m 3)) 0x3840 0 0 0) 0x3840 i := by
  rw [rbit, rget_softReset_spi m (by decide)]
  exact rbit_of_onlyRegs (dataCleared_regs _) (by decide) i

theorem softReset_spi_role (m : Core) : rbit (softReset m 3) 0x3840 0 = false := by
  rw [rbit_softReset_spi_cfg, rbit_rsetf_bit _ _ _ (by decide)]
  rfl

theorem rbit_softCause_other (m : Core) (j i : Nat) {a : Nat} (h : a ≠ 0x3C30) : rbit (softCause m j) a i = rbit m a i :=
  rbit_of_onlyRegs (as := [0x3C30]) (onlyRegs_rset m 0x3C30 _ (by simp)) (by simpa using h) i

theorem softReset_spi_cfg (m : Core) {i : Nat} (h : i ≠ 0) : rbit (softReset m 3) 0x3840 i = rbit m 0x3840 i := by
  rw [rbit_softReset_spi_cfg, rbit_rsetf_other _ _ _ _ _ _ (by omega),
    rbit_of_onlyRegs (holdBroken_regs _) (by decide), rbit_softCause_other m 3 i (by decide)]

/-- A register that the soft reset of the SPI block does not reach. -/
theorem softReset_spi_keeps (m : Core) {a : Nat} (hcause : a ≠ 0x3C30)
    (h : a ∉ 0x2C0C :: 0x3814 :: 0x3840 :: dataRegs) : rget (softReset m 3) a = rget m a :=
  (softReset_spi_regs m a h).trans (rget_rset_other m _ hcause.symm)

theorem softReset_spi_holdBroken {m : Core} (h : m.spi.held.isSome = true) : rbit (softReset m 3) 0x3814 2 = true := by
  rw [rbit, rget_softReset_spi m (by decide)]
  refine (rbit_of_onlyRegs (dataCleared_regs _) (by decide) 2).trans ?_
  refine (rbit_of_onlyRegs (as := [0x3840]) (onlyRegs_rset _ 0x3840 _ (by simp)) (by decide) 2).trans ?_
  exact rbit_holdBroken h

/-! ### The commands -/

/-- The machine after an accepted write to CKP.SOFT_RST that starts the soft reset of one block. -/
def softResetStarted (s : State) (v : Word) (j : Nat) : State :=
  { s with m := setLmb (softReset (storeWrite s.m 0x3C34 v) j) (accOk 0) }

theorem exec_softResetHlc {s : State} {a : Lmb} (h : Accepted s a 0x3C34 1) :
    exec (.softResetHlc a) s = .next (softResetStarted s 1 0) := accepted_next h rfl rfl

theorem exec_softResetEic {s : State} {a : Lmb} (h : Accepted s a 0x3C34 2) :
    exec (.softResetEic a) s = .next (softResetStarted s 2 1) := accepted_next h rfl rfl

theorem exec_softResetPmc {s : State} {a : Lmb} (h : Accepted s a 0x3C34 4) :
    exec (.softResetPmc a) s = .next (softResetStarted s 4 2) := accepted_next h rfl rfl

theorem exec_softResetSpi {s : State} {a : Lmb} (h : Accepted s a 0x3C34 8) :
    exec (.softResetSpi a) s = .next (softResetStarted s 8 3) := accepted_next h rfl rfl

theorem exec_softResetDone {s : State} (blk : Fin 4) (h : running s.m = true) :
    exec (.softResetDone blk) s = .next { s with m := rsetf s.m 0x3C34 blk.val blk.val 0 } :=
  clocked_running (f := fun m => rsetf m 0x3C34 blk.val blk.val 0) h

theorem softResetHlc_clears {s : State} {a : Lmb} (h : Accepted s a 0x3C34 1) :
    ∃ t, exec (.softResetHlc a) s = .next t ∧ softHeld t.m 0 = true ∧ hlcOn t.m = false ∧ t.m.ca.siding = []
      ∧ t.m.ca.streams = [] ∧ t.m.ca.invRunning = false ∧ t.m.ca.invDone = false ∧ t.m.ca.mb = s.m.ca.mb
      ∧ t.m.ca.miss = s.m.ca.miss ∧ t.m.ca.alc = s.m.ca.alc ∧ rbit t.m 0x3C30 8 = true ∧ lmbOk t.m
      ∧ s.only [.regs, .lmb, .ca] t ∧ s.m.onlyRegs [0x3C34, 0x3C30, 0x1400] t.m := by
  have hparts : s.m.onlyParts [.regs, .lmb, .ca] (softReset (storeWrite s.m 0x3C34 1) 0) :=
    onlyParts_trans (softCause_parts s.m 1 0 (by simp)) (hlcCleared_only _)
  obtain ⟨hheld, hcause, hregs⟩ := softReset_marks (m := s.m) (v := 1) (j := 0) (by decide) (by decide)
    (hlcCleared_regs _) (by decide) (by decide)
  obtain ⟨hoff, hsiding, hstreams, hmb, hmiss, halc⟩ := softReset_hlc_state (storeWrite s.m 0x3C34 1)
  have hca : (storeWrite s.m 0x3C34 1).ca = s.m.ca := storeWrite_only s.m 0x3C34 1 .ca (by simp)
  exact ⟨_, exec_softResetHlc h, hheld, hoff, hsiding, hstreams, rfl, rfl, hmb.trans (congrArg Caches.mb hca),
    hmiss.trans (congrArg Caches.miss hca), halc.trans (congrArg Caches.alc hca), hcause, lmbOk_set _,
    only_lmb hparts (by simp), onlyRegs_lmb hregs⟩

theorem softResetEic_clears {s : State} {a : Lmb} (h : Accepted s a 0x3C34 2) :
    ∃ t, exec (.softResetEic a) s = .next t ∧ softHeld t.m 1 = true ∧ (∀ n, srcSt t.m n = .inactive)
      ∧ (∀ n, stackOf t.m n = []) ∧ t.m.eic.cfg = s.m.eic.cfg ∧ (∀ n, tget false t.m.eic.evinKnown n = false)
      ∧ rbit t.m 0x3C30 9 = true ∧ lmbOk t.m ∧ s.only [.regs, .lmb, .eic] t ∧ s.m.onlyRegs [0x3C34, 0x3C30] t.m := by
  have hparts : s.m.onlyParts [.regs, .lmb, .eic] (softReset (storeWrite s.m 0x3C34 2) 1) :=
    onlyParts_trans (softCause_parts s.m 2 1 (by simp)) (onlyParts_mono (eicCleared_only _) (by simp))
  obtain ⟨hheld, hcause, hregs⟩ := softReset_marks (m := s.m) (v := 2) (j := 1) (by decide) (by decide)
    (eicCleared_regs _) (by decide) (by decide)
  obtain ⟨hsrc, hstack, hcfg, hevin⟩ := eicCleared_state (softCause (storeWrite s.m 0x3C34 2) 1)
  have heic : (softCause (storeWrite s.m 0x3C34 2) 1).eic = s.m.eic :=
    softCause_parts (ps := [.regs]) s.m 2 1 (by simp) .eic (by simp)
  exact ⟨_, exec_softResetEic h, hheld, hsrc, hstack, hcfg.trans (congrArg Eic.cfg heic), hevin, hcause, lmbOk_set _,
    only_lmb hparts (by simp), onlyRegs_lmb hregs⟩

theorem softResetPmc_clears {s : State} {a : Lmb} (h : Accepted s a 0x3C34 4) :
    ∃ t, exec (.softResetPmc a) s = .next t ∧ softHeld t.m 2 = true ∧ t.m.pmc.ctr = [] ∧ t.m.pmc.cfg = s.m.pmc.cfg
      ∧ t.m.pmc.dump = none ∧ rbit t.m 0x30A0 0 = false ∧ rbit t.m 0x3C30 10 = true ∧ lmbOk t.m
      ∧ s.only (.lmb :: .jnl :: Part.report) t
      ∧ s.m.onlyRegs (0x3C34 :: 0x3C30 :: 0x30A0 :: 0x30BC :: 0x30C4 :: journalRegs) t.m := by
  have hparts : s.m.onlyParts (.lmb :: .jnl :: Part.report) (softReset (storeWrite s.m 0x3C34 4) 2) :=
    onlyParts_trans (softCause_parts s.m 4 2 (by decide)) (pmcCleared_only _)
  obtain ⟨hheld, hcause, hregs⟩ := softReset_marks (m := s.m) (v := 4) (j := 2) (by decide) (by decide)
    (pmcCleared_regs _) (by decide) (by decide)
  obtain ⟨hdump, hcfg⟩ := dumpAbandon_pmc (rsetf (softCause (storeWrite s.m 0x3C34 4) 2) 0x30A0 0 0 0)
  have hpmc : (softCause (storeWrite s.m 0x3C34 4) 2).pmc = s.m.pmc :=
    softCause_parts (ps := [.regs]) s.m 4 2 (by simp) .pmc (by simp)
  exact ⟨_, exec_softResetPmc h, hheld, rfl, hcfg.trans (congrArg Pmc.cfg hpmc), hdump, rbit_pmcCleared_enable _, hcause,
    lmbOk_set _, only_lmb hparts (by decide), onlyRegs_lmb hregs⟩

theorem softResetSpi_clears {s : State} {a : Lmb} (h : Accepted s a 0x3C34 8) :
    ∃ t, exec (.softResetSpi a) s = .next t ∧ softHeld t.m 3 = true ∧ t.m.spi.held = none ∧ t.m.spi.spaFrame = none
      ∧ t.m.spi.spbFrame = none ∧ rbit t.m 0x3840 0 = false
      ∧ (∀ k : Fin 8, rget t.m (0x3820 + 4 * k.val) = 0 ∧ rget t.m (0x3860 + 4 * k.val) = 0)
      ∧ (s.m.spi.held.isSome = true → rbit t.m 0x3814 2 = true) ∧ rbit t.m 0x3C30 11 = true ∧ lmbOk t.m
      ∧ s.only [.regs, .lmb, .spi, .jnl] t := by
  have hparts : s.m.onlyParts [.regs, .lmb, .spi, .jnl] (softReset (storeWrite s.m 0x3C34 8) 3) :=
    onlyParts_trans (softCause_parts s.m 8 3 (by simp)) (softReset_spi_parts _)
  obtain ⟨hheld, hcause, _⟩ := softReset_marks (m := s.m) (v := 8) (j := 3) (by decide) (by decide)
    (softReset_spi_regs _) (by decide) (by decide)
  obtain ⟨hrel, hspa, hspb⟩ := softReset_spi_frames (storeWrite s.m 0x3C34 8)
  have hspi : (storeWrite s.m 0x3C34 8).spi = s.m.spi := storeWrite_only s.m 0x3C34 8 .spi (by simp)
  exact ⟨_, exec_softResetSpi h, hheld, hrel, hspa, hspb, softReset_spi_role _, softReset_spi_data _,
    fun hs => softReset_spi_holdBroken (by rwa [hspi]), hcause, lmbOk_set _, only_lmb hparts (by simp)⟩

theorem softResetDone_ends {s : State} (blk : Fin 4) (h : running s.m = true) :
    ∃ t, exec (.softResetDone blk) s = .next t ∧ softHeld t.m blk.val = false
      ∧ (∀ j < 4, j ≠ blk.val → softHeld t.m j = softHeld s.m j) ∧ s.only [.regs] t ∧ s.m.onlyRegs [0x3C34] t.m :=
  ⟨_, exec_softResetDone blk h, rbit_rsetf_bit s.m 0x3C34 0 (by omega),
    fun _ _ hj => rbit_rsetf_other s.m _ _ _ _ _ (by omega), only_next (onlyParts_rset s.m _ _ (by simp)),
    onlyRegs_rset s.m _ _ (by simp)⟩

/-! ### Every master that can start a soft reset -/

theorem softReset_spi_state (m : Core) :
    (softReset m 3).spi.held = none ∧ (softReset m 3).spi.spaFrame = none ∧ (softReset m 3).spi.spbFrame = none
      ∧ (∀ k : Fin 8, rget (softReset m 3) (0x3820 + 4 * k.val) = 0 ∧ rget (softReset m 3) (0x3860 + 4 * k.val) = 0)
      ∧ rbit (softReset m 3) 0x3840 0 = false ∧ (∀ i, i ≠ 0 → rbit (softReset m 3) 0x3840 i = rbit m 0x3840 i)
      ∧ rget (softReset m 3) 0x3808 = rget m 0x3808 ∧ rget (softReset m 3) 0x380C = rget m 0x380C := by
  obtain ⟨hrel, hspa, hspb⟩ := softReset_spi_frames m
  exact ⟨hrel, hspa, hspb, softReset_spi_data m, softReset_spi_role m, fun _ => softReset_spi_cfg m,
    softReset_spi_keeps m (by decide) (by decide), softReset_spi_keeps m (by decide) (by decide)⟩

/-- Settles O29: a write to CKP.SOFT_RST stores the block's bit and clears the block, and what a clearing changes and keeps
is that of the lemmas above; the end of a soft reset clears its bit alone. -/
theorem softResetsClearTheirBlocks : Obligations.SoftResetsClearTheirBlocks :=
  ⟨fun _ _ => softResetHlc_clears, fun _ _ => softResetEic_clears, fun _ _ => softResetPmc_clears,
    fun _ _ => softResetSpi_clears, softReset_hlc_state, softReset_spi_state, fun _ blk => softResetDone_ends blk⟩

end Sys2Proof.SoftReset
end

section
/-! PROOFS. The dead-man timer (spec/14_deadman_journal.md): accepted writes to DMT.CTL and DMT.SERVICE, what the entry
into each stage and a completed service change and keep, and the statement about them. -/

namespace Sys2Proof.DeadMan

open Sys2Proof.Machine Sys2Proof.Laws Sys2Proof.SoftReset

/-! ### The registers (Table RGS-2) -/

/-- DMT.CTL.enable. -/
def enableField : FieldDesc := ⟨0, 0, .rw, 0, .sw, none⟩

theorem regAt_dmtCtl : ∃ r, regAt 0x2800 = some r ∧ enableField ∈ r.fields := ⟨_, rfl, by decide⟩

theorem dmtOn_storeWrite {m : Core} {v : Word} (h : bit v 0 = true) : dmtOn (storeWrite m 0x2800 v) = true := by
  obtain ⟨r, hr, hf⟩ := regAt_dmtCtl
  rw [dmtOn, store_rw hr hf (.inl rfl) (Nat.le_refl 0) (Nat.le_refl 0), h]

theorem regAt_dmtService : regAt 0x2810 = some ⟨0x2810, 1, 4, [⟨31, 0, .wk, 0, .sw, none⟩]⟩ := by decide +kernel

/-- DMT.SERVICE has a WK field only, so a write stores nothing. -/
theorem rget_storeWrite_service (m : Core) (v : Word) (b : Nat) : rget (storeWrite m 0x2810 v) b = rget m b :=
  store_wo regAt_dmtService (by decide) (by decide) (by decide) b

theorem storeWrite_dmt (m : Core) (a : Nat) (v : Word) : (storeWrite m a v).dmt = m.dmt :=
  storeWrite_only m a v .dmt (by simp)

theorem storeWrite_stmp (m : Core) (a : Nat) (v : Word) : (storeWrite m a v).stmp = m.stmp :=
  storeWrite_only m a v .stmp (by simp)

/-! ### Enabling (R697) -/

/-- DMT.COUNT loaded with DMT.PERIOD. -/
def countLoaded (m : Core) : Core := modDmt m fun d => { d with count := rget m 0x2804 }

theorem action_dmtCtl {old m : Core} {w : Who} {g : Option Msg} {v : Word} (hoff : dmtOn old = false)
    (hv : bit v 0 = true) : writeAction old m w g 0x2800 v = countLoaded m := if_pos (by simp [hoff, hv])

theorem countLoaded_storeWrite_dmt (m : Core) (v : Word) :
    (countLoaded (storeWrite m 0x2800 v)).dmt = { m.dmt with count := rget m 0x2804 } := by
  rw [countLoaded, modDmt_dmt, storeWrite_dmt, storeWrite_regs m 0x2800 v 0x2804 (by simp)]

/-! ### Keys (R701, R703) -/

/-- An LMB write of MID 6 or 7 is rejected (R588). -/
theorem mid_lt_of_accepted {m : Core} {a : Lmb} {addr : Nat} {v : Word} (h : writeCode m (lmbWho a) addr v = 0) :
    a.mid.toNat < 6 := by
  by_contra hmid
  have hcode : writeCode m (lmbWho a) addr v = 4 := if_pos (by simp [lmbWho, Nat.le_of_not_lt hmid])
  rw [hcode] at h
  exact absurd h (by decide)

/-- A check that the code 0 has passed, and the checks after it. -/
theorem check_passed {c : Prop} [Decidable c] {k e : Nat} (h : (if c then k else e) = 0) (hk : k ≠ 0) : ¬c ∧ e = 0 := by
  split at h
  · exact absurd h hk
  · next hc => exact ⟨hc, h⟩

/-- An accepted write to DMT.SERVICE passes the check of its key, the eleventh of `writeCode`. -/
theorem serviceKey_of_accepted {m : Core} {w : Who} {v : Word} (h : writeCode m w 0x2810 v = 0) :
    (serviceKey m w.mid w.node v w.late).2 = true := by
  rw [writeCode, regAt_dmtService] at h
  iterate 10 obtain ⟨-, h⟩ := check_passed h (by decide)
  obtain ⟨hkey, -⟩ := check_passed h (by decide)
  simpa using hkey

/-- Whether a key is accepted depends on the timer's part of the machine and on the STMP tick. -/
theorem serviceKey_accepts_congr {m n : Core} (hd : n.dmt = m.dmt) (hs : n.stmp = m.stmp) (mid : Nat) (node : NodeId)
    (v : Word) (late : Bool) : (serviceKey n mid node v late).2 = (serviceKey m mid node v late).2 := by
  simp only [serviceKey, apply_ite Prod.snd, hd, hs]

/-- A timer without an armed key. -/
def disarmed (m : Core) : Core := modDmt m fun d => { d with armed := none }

/-- The first key of a master armed at the present tick. -/
def keyArmed (m : Core) (mid : BitVec 3) : Core :=
  modDmt m fun d => { d with armed := some (mid, 0), armedAt := m.stmp }

theorem serviceKey_first (m : Core) {mid : BitVec 3} (node : NodeId) (late : Bool) (h : mid.toNat ≠ 7) :
    (serviceKey m mid.toNat node 0xA5C3 late).1 = keyArmed m mid := by
  simp [serviceKey, keyArmed, h]

theorem serviceKey_second {m : Core} {mid : Nat} {node : NodeId} {late : Bool}
    (h : (serviceKey m mid node 0x3C5A late).2 = true) :
    (serviceKey m mid node 0x3C5A late).1 = service (disarmed m) mid node := by
  unfold serviceKey at h ⊢
  dsimp only at h ⊢
  generalize (BitVec.ofNat 3 mid, if mid = 7 then node else 0) = who at h ⊢
  rw [if_neg (by decide)] at h ⊢
  split at h
  · next hkey => rw [if_pos hkey]; rfl
  · exact absurd h (by simp)

/-! ### The window (R700) -/

theorem windowOpen_congr {m n : Core} (hstage : n.dmt.stage = m.dmt.stage) (hcount : n.dmt.count = m.dmt.count)
    (hregs : m.onlyRegs [] n) : windowOpen n = windowOpen m := by
  have hget (a : Nat) : rget n a = rget m a := hregs a (by simp)
  rw [windowOpen, windowOpen, rfld, rfld, hstage, hcount, hget, hget]

/-! ### Stage 1 is entered (R708) -/

/-- The journal record, DMT.STATUS.expired and source 16 of an entry into stage 1. -/
def stage1Reported (m : Core) (event mid node : Nat) : Core :=
  raise (rsetf (journal m 4 3 (dmtPayload m event mid node)) 0x2818 2 2 1) 16

theorem dmtStage1_eq (m : Core) (event mid node : Nat) :
    dmtStage1 m event mid node = modDmt (stage1Reported m event mid node)
      fun d => { d with stage := 1, count := rget (stage1Reported m event mid node) 0x2808 } := rfl

theorem stage1Reported_only (m : Core) (event mid node : Nat) :
    m.onlyParts (.jnl :: Part.report) (stage1Reported m event mid node) :=
  onlyParts_trans (onlyParts_trans (journal_only m 4 3 _) (onlyParts_rset _ 0x2818 _ (by decide)))
    (onlyParts_mono (raise_only _ 16) (by decide))

theorem stage1Reported_regs (m : Core) (event mid node : Nat) :
    m.onlyRegs (0x2818 :: journalRegs) (stage1Reported m event mid node) :=
  onlyRegs_trans
    (onlyRegs_trans (onlyRegs_mono (journal_regs m 4 3 _) (by decide)) (onlyRegs_rset _ 0x2818 _ (by simp)))
    (onlyRegs_mono (raise_regs _ 16) (by decide))

theorem dmtStage1_dmt (m : Core) (event mid node : Nat) :
    (dmtStage1 m event mid node).dmt = { m.dmt with stage := 1, count := rget m 0x2808 } := by
  have hdmt : (stage1Reported m event mid node).dmt = m.dmt := stage1Reported_only m event mid node .dmt (by decide)
  rw [dmtStage1_eq, modDmt_dmt, hdmt, stage1Reported_regs m event mid node 0x2808 (by decide)]

theorem dmtStage1_only (m : Core) (event mid node : Nat) :
    m.onlyParts (.dmt :: .jnl :: Part.report) (dmtStage1 m event mid node) :=
  onlyParts_trans (onlyParts_mono (stage1Reported_only m event mid node) (by decide)) (onlyParts_dmt _ _ (by decide))

theorem dmtStage1_regs (m : Core) (event mid node : Nat) :
    m.onlyRegs (0x2818 :: journalRegs) (dmtStage1 m event mid node) := stage1Reported_regs m event mid node

theorem dmtStage1_isPending (m : Core) (event mid node : Nat) : isPending (dmtStage1 m event mid node) 16 = true :=
  raise_isPending _ 16

/-- The bits of DMT.STATUS after an entry into stage 1 are those of the write of its expired bit. -/
theorem rbit_dmtStage1_status (m : Core) (event mid node i : Nat) :
    rbit (dmtStage1 m event mid node) 0x2818 i
      = rbit (rsetf (journal m 4 3 (dmtPayload m event mid node)) 0x2818 2 2 1) 0x2818 i :=
  rbit_of_onlyRegs (raise_regs _ 16) (by decide) i

theorem rbit_dmtStage1_expired (m : Core) (event mid node : Nat) :
    rbit (dmtStage1 m event mid node) 0x2818 2 = true := by
  rw [rbit_dmtStage1_status, rbit_rsetf_bit _ _ _ (by decide)]
  rfl

theorem rbit_dmtStage1_early (m : Core) (event mid node : Nat) :
    rbit (dmtStage1 m event mid node) 0x2818 3 = rbit m 0x2818 3 := by
  rw [rbit_dmtStage1_status, rbit_rsetf_other _ _ _ _ _ _ (by decide),
    rbit_of_onlyRegs (journal_regs m 4 3 _) (by decide)]

/-! ### A completed service (R704, R705) -/

theorem service_open {m : Core} (mid : Nat) (node : NodeId) (h : windowOpen m = true) :
    service m mid node = modDmt m fun d => { d with stage := 0, count := rget m 0x2804 } := if_pos h

theorem service_closed {m : Core} (mid : Nat) (node : NodeId) (h : windowOpen m = false) :
    service m mid node = dmtStage1 (rsetf m 0x2818 3 3 1) 5 mid node.toNat := if_neg (by simp [h])

theorem service_open_dmt {m : Core} (mid : Nat) (node : NodeId) (h : windowOpen m = true) :
    (service m mid node).dmt = { m.dmt with stage := 0, count := rget m 0x2804 } := by
  rw [service_open mid node h, modDmt_dmt]

theorem service_closed_dmt {m : Core} (mid : Nat) (node : NodeId) (h : windowOpen m = false) :
    (service m mid node).dmt = { m.dmt with stage := 1, count := rget m 0x2808 } := by
  rw [service_closed mid node h, dmtStage1_dmt, rsetf_dmt, rsetf, rget_rset_other _ _ (by decide)]

theorem rbit_service_early {m : Core} (mid : Nat) (node : NodeId) (h : windowOpen m = false) :
    rbit (service m mid node) 0x2818 3 = true := by
  rw [service_closed mid node h, rbit_dmtStage1_early, rbit_rsetf_bit _ _ _ (by decide)]
  rfl

theorem service_closed_isPending {m : Core} (mid : Nat) (node : NodeId) (h : windowOpen m = false) :
    isPending (service m mid node) 16 = true := by
  rw [service_closed mid node h, dmtStage1_isPending]

theorem service_closed_state {m : Core} (mid : Nat) (node : NodeId) (h : windowOpen m = false) :
    (service m mid node).dmt.stage = 1 ∧ (service m mid node).dmt.count = rget m 0x2808
      ∧ rbit (service m mid node) 0x2818 3 = true := by
  rw [service_closed_dmt mid node h]
  exact ⟨rfl, rfl, rbit_service_early mid node h⟩

/-! ### Stage 2 is entered (R710 to R712) -/

/-- The fatal record of an entry into stage 2, in the queue and in the tail buffer. -/
def fatalRecorded (m : Core) (event : Nat) : Core :=
  modJnl (journal m 4 4 (dmtPayload m event 0 0)) fun j => { j with
    tail := (tailMark 4 ((journal m 4 4 (dmtPayload m event 0 0)).time.extractLsb' 8 52) (dmtPayload m event 0 0)
      :: j.tail).take 16 }

theorem dmtStage2_eq (m : Core) (event : Nat) : dmtStage2 m event = dmtOutputs (fatalRecorded m event) := rfl

theorem fatalRecorded_only (m : Core) (event : Nat) : m.onlyParts (.jnl :: Part.report) (fatalRecorded m event) :=
  onlyParts_trans (journal_only m 4 4 _) (onlyParts_jnl _ _ (by decide))

theorem fatalRecorded_regs (m : Core) (event : Nat) : m.onlyRegs journalRegs (fatalRecorded m event) :=
  journal_regs m 4 4 _

theorem dmtOutputs_dmt (m : Core) :
    (dmtOutputs m).dmt = { m.dmt with stage := 2, fence := m.dmt.fence || rbit m 0x2800 5 } := rfl

theorem dmtOutputs_pins (m : Core) :
    (dmtOutputs m).pins = { m.pins with dmtRstN := m.pins.dmtRstN || rbit m 0x2800 4 } := rfl

theorem dmtStage2_dmt (m : Core) (event : Nat) :
    (dmtStage2 m event).dmt = { m.dmt with stage := 2, fence := m.dmt.fence || rbit m 0x2800 5 } := by
  have hdmt : (fatalRecorded m event).dmt = m.dmt := fatalRecorded_only m event .dmt (by decide)
  rw [dmtStage2_eq, dmtOutputs_dmt, hdmt, rbit_of_onlyRegs (fatalRecorded_regs m event) (by decide)]

theorem dmtStage2_pins (m : Core) (event : Nat) :
    (dmtStage2 m event).pins = { m.pins with dmtRstN := m.pins.dmtRstN || rbit m 0x2800 4 } := by
  have hpins : (fatalRecorded m event).pins = m.pins := fatalRecorded_only m event .pins (by decide)
  rw [dmtStage2_eq, dmtOutputs_pins, hpins, rbit_of_onlyRegs (fatalRecorded_regs m event) (by decide)]

theorem dmtStage2_only (m : Core) (event : Nat) :
    m.onlyParts (.dmt :: .pins :: .jnl :: Part.report) (dmtStage2 m event) :=
  onlyParts_trans (onlyParts_mono (fatalRecorded_only m event) (by decide))
    (onlyParts_trans (onlyParts_dmt _ _ (by decide)) (onlyParts_pins _ _ (by decide)))

theorem dmtStage2_regs (m : Core) (event : Nat) : m.onlyRegs journalRegs (dmtStage2 m event) :=
  fatalRecorded_regs m event

/-! ### The count at 0 (R699, R709) -/

/-- DMT.COUNT at 0. -/
def countZero (m : Core) : Core := modDmt m fun d => { d with count := 0 }

theorem dmtZero_stage0 {m : Core} (hon : dmtOn m = true) (h : m.dmt.stage = 0) :
    dmtZero m = dmtStage1 (countZero m) 1 0 0 := by
  simp [dmtZero, hon, h, countZero]

theorem dmtZero_stage1 {m : Core} (hon : dmtOn m = true) (h : m.dmt.stage = 1) :
    dmtZero m = dmtStage2 (countZero m) 2 := by
  simp [dmtZero, hon, h, countZero]

theorem countZero_parts {ps : List Part} (m : Core) (h : Part.dmt ∈ ps) : m.onlyParts ps (countZero m) :=
  onlyParts_dmt m _ h

/-! ### The commands -/

theorem awakened_awake {f : Core → Core} {s : State} (h : awake s.m = true) :
    awakened f s = .next { s with m := f s.m } := by simp [awakened, h]

theorem exec_dmtEnable {s : State} {a : Lmb} {v : Word} (h : Accepted s a 0x2800 v) (hoff : dmtOn s.m = false)
    (hv : bit v 0 = true) :
    exec (.dmtEnable a v) s = .next { s with m := setLmb (countLoaded (storeWrite s.m 0x2800 v)) (accOk 0) } :=
  accepted_next h rfl (action_dmtCtl hoff hv)

theorem exec_firstKey {s : State} {a : Lmb} (h : Accepted s a 0x2810 0xA5C3) :
    exec (.firstKey a) s = .next { s with m := setLmb (keyArmed (storeWrite s.m 0x2810 0xA5C3) a.mid) (accOk 0) } := by
  have hmid := mid_lt_of_accepted h.2
  exact accepted_next h rfl (serviceKey_first _ _ _ (by omega))

/-- The machine in which an accepted second key completes its service. -/
def keyStored (m : Core) : Core := disarmed (storeWrite m 0x2810 0x3C5A)

/-- A second key that is not late is the LMB write of its value. -/
theorem exec_secondKey_inTime {s : State} {a : Lmb} {cycles : Nat} (h : cycles ≤ 400) :
    exec (.secondKey a cycles) s = clocked (lmbWrite a 0x2810 0x3C5A) s := by
  have hlate : decide (400 < cycles) = false := by simpa using h
  show clocked (lmbWriteAs { lmbWho a with late := decide (400 < cycles) } 0x2810 0x3C5A) s = _
  rw [hlate]
  rfl

theorem exec_secondKey {s : State} {a : Lmb} {cycles : Nat} (hc : cycles ≤ 400) (h : Accepted s a 0x2810 0x3C5A) :
    exec (.secondKey a cycles) s
      = .next { s with m := setLmb (service (keyStored s.m) a.mid.toNat 0) (accOk 0) } := by
  have hkey : (serviceKey (storeWrite s.m 0x2810 0x3C5A) a.mid.toNat 0 0x3C5A false).2 = true :=
    (serviceKey_accepts_congr (storeWrite_dmt _ _ _) (storeWrite_stmp _ _ _) _ _ _ _).trans (serviceKey_of_accepted h.2)
  rw [exec_secondKey_inTime hc]
  exact accepted_next h rfl (serviceKey_second hkey)

theorem keyStored_dmt (m : Core) : (keyStored m).dmt = { m.dmt with armed := none } := by
  rw [keyStored, disarmed, modDmt_dmt, storeWrite_dmt]

theorem keyStored_regs (m : Core) : m.onlyRegs [] (keyStored m) := fun b _ => rget_storeWrite_service m _ b

theorem keyStored_parts (m : Core) : m.onlyParts [.regs, .lmb, .dmt] (keyStored m) :=
  onlyParts_trans (storeWrite_parts m _ _ (by simp)) (onlyParts_dmt _ _ (by simp))

theorem windowOpen_keyStored (m : Core) : windowOpen (keyStored m) = windowOpen m :=
  windowOpen_congr (by rw [keyStored_dmt]) (by rw [keyStored_dmt]) (keyStored_regs m)

theorem exec_dmtExpiry {s : State} (h : awake s.m = true) (hon : dmtOn s.m = true) (hstage : s.m.dmt.stage = 0) :
    exec .dmtExpiry s = .next { s with m := dmtStage1 (countZero s.m) 1 0 0 } := by
  rw [← dmtZero_stage0 hon hstage]
  exact (awakened_awake h).trans (by rw [if_pos hstage])

theorem exec_graceExpiry {s : State} (h : awake s.m = true) (hon : dmtOn s.m = true) (hstage : s.m.dmt.stage = 1) :
    exec .graceExpiry s = .next { s with m := dmtStage2 (countZero s.m) 2 } := by
  rw [← dmtZero_stage1 hon hstage]
  exact (awakened_awake h).trans (by rw [if_pos hstage])

/-! ### What each command does -/

theorem dmtEnable_takesEffect {s : State} {a : Lmb} {v : Word} (h : Accepted s a 0x2800 v) (hoff : dmtOn s.m = false)
    (hv : bit v 0 = true) :
    ∃ t, exec (.dmtEnable a v) s = .next t ∧ dmtOn t.m = true ∧ t.m.dmt = { s.m.dmt with count := rget s.m 0x2804 }
      ∧ lmbOk t.m ∧ s.only [.regs, .lmb, .dmt] t ∧ s.m.onlyRegs [0x2800] t.m := by
  have hparts : s.m.onlyParts [.regs, .lmb, .dmt] (countLoaded (storeWrite s.m 0x2800 v)) :=
    onlyParts_trans (storeWrite_parts s.m _ _ (by simp)) (onlyParts_dmt _ _ (by simp))
  exact ⟨_, exec_dmtEnable h hoff hv, dmtOn_storeWrite hv, countLoaded_storeWrite_dmt _ _, lmbOk_set _,
    only_lmb hparts (by simp), onlyRegs_lmb (storeWrite_regs s.m 0x2800 v)⟩

theorem firstKey_takesEffect {s : State} {a : Lmb} (h : Accepted s a 0x2810 0xA5C3) :
    ∃ t, exec (.firstKey a) s = .next t
      ∧ t.m.dmt = { s.m.dmt with armed := some (a.mid, 0), armedAt := s.m.stmp } ∧ lmbOk t.m
      ∧ s.only [.regs, .lmb, .dmt] t ∧ s.m.onlyRegs [] t.m := by
  have hdmt : (keyArmed (storeWrite s.m 0x2810 0xA5C3) a.mid).dmt
      = { s.m.dmt with armed := some (a.mid, 0), armedAt := s.m.stmp } := by
    rw [keyArmed, modDmt_dmt, storeWrite_dmt, storeWrite_stmp]
  have hparts : s.m.onlyParts [.regs, .lmb, .dmt] (keyArmed (storeWrite s.m 0x2810 0xA5C3) a.mid) :=
    onlyParts_trans (storeWrite_parts s.m _ _ (by simp)) (onlyParts_dmt _ _ (by simp))
  exact ⟨_, exec_firstKey h, hdmt, lmbOk_set _, only_lmb hparts (by simp),
    onlyRegs_lmb fun b _ => rget_storeWrite_service s.m _ b⟩

theorem secondKey_open {s : State} {a : Lmb} {cycles : Nat} (hc : cycles ≤ 400) (h : Accepted s a 0x2810 0x3C5A)
    (hw : windowOpen s.m = true) :
    ∃ t, exec (.secondKey a cycles) s = .next t
      ∧ t.m.dmt = { s.m.dmt with armed := none, stage := 0, count := rget s.m 0x2804 } ∧ lmbOk t.m
      ∧ s.only [.regs, .lmb, .dmt] t ∧ s.m.onlyRegs [] t.m := by
  have hopen : windowOpen (keyStored s.m) = true := (windowOpen_keyStored s.m).trans hw
  have hdmt : (service (keyStored s.m) a.mid.toNat 0).dmt
      = { s.m.dmt with armed := none, stage := 0, count := rget s.m 0x2804 } := by
    rw [service_open_dmt _ _ hopen, keyStored_dmt, keyStored_regs s.m 0x2804 (by simp)]
  obtain ⟨hparts, hregs⟩ : s.m.onlyParts [.regs, .lmb, .dmt] (service (keyStored s.m) a.mid.toNat 0)
      ∧ s.m.onlyRegs [] (service (keyStored s.m) a.mid.toNat 0) := by
    rw [service_open _ _ hopen]
    exact ⟨onlyParts_trans (keyStored_parts s.m) (onlyParts_dmt _ _ (by simp)), keyStored_regs s.m⟩
  exact ⟨_, exec_secondKey hc h, hdmt, lmbOk_set _, only_lmb hparts (by simp), onlyRegs_lmb hregs⟩

theorem secondKey_closed {s : State} {a : Lmb} {cycles : Nat} (hc : cycles ≤ 400) (h : Accepted s a 0x2810 0x3C5A)
    (hw : windowOpen s.m = false) :
    ∃ t, exec (.secondKey a cycles) s = .next t ∧ t.m.dmt.stage = 1 ∧ t.m.dmt.count = rget s.m 0x2808
      ∧ t.m.dmt.armed = none ∧ rbit t.m 0x2818 3 = true ∧ isPending t.m 16 = true ∧ lmbOk t.m := by
  have hclosed : windowOpen (keyStored s.m) = false := (windowOpen_keyStored s.m).trans hw
  have hdmt : (service (keyStored s.m) a.mid.toNat 0).dmt
      = { s.m.dmt with armed := none, stage := 1, count := rget s.m 0x2808 } := by
    rw [service_closed_dmt _ _ hclosed, keyStored_dmt, keyStored_regs s.m 0x2808 (by simp)]
  exact ⟨_, exec_secondKey hc h, congrArg Dmt.stage hdmt, congrArg Dmt.count hdmt, congrArg Dmt.armed hdmt,
    rbit_service_early _ _ hclosed, service_closed_isPending _ _ hclosed, lmbOk_set _⟩

theorem dmtExpiry_entersStage1 {s : State} (h : awake s.m = true) (hon : dmtOn s.m = true)
    (hstage : s.m.dmt.stage = 0) :
    ∃ t, exec .dmtExpiry s = .next t ∧ t.m.dmt.stage = 1 ∧ t.m.dmt.count = rget s.m 0x2808
      ∧ t.m.dmt.fence = s.m.dmt.fence ∧ rbit t.m 0x2818 2 = true ∧ isPending t.m 16 = true
      ∧ s.only (.dmt :: .jnl :: Part.report) t ∧ s.m.onlyRegs (0x2818 :: journalRegs) t.m := by
  have hdmt := dmtStage1_dmt (countZero s.m) 1 0 0
  exact ⟨_, exec_dmtExpiry h hon hstage, congrArg Dmt.stage hdmt, congrArg Dmt.count hdmt,
    (congrArg Dmt.fence hdmt).trans rfl, rbit_dmtStage1_expired _ _ _ _, dmtStage1_isPending _ _ _ _,
    only_next (onlyParts_trans (countZero_parts s.m (by simp)) (dmtStage1_only _ 1 0 0)),
    dmtStage1_regs (countZero s.m) 1 0 0⟩

theorem graceExpiry_entersStage2 {s : State} (h : awake s.m = true) (hon : dmtOn s.m = true)
    (hstage : s.m.dmt.stage = 1) :
    ∃ t, exec .graceExpiry s = .next t ∧ t.m.dmt.stage = 2 ∧ t.m.dmt.count = 0
      ∧ t.m.dmt.fence = (s.m.dmt.fence || rbit s.m 0x2800 5)
      ∧ t.m.pins = { s.m.pins with dmtRstN := s.m.pins.dmtRstN || rbit s.m 0x2800 4 }
      ∧ s.only (.dmt :: .pins :: .jnl :: Part.report) t ∧ s.m.onlyRegs journalRegs t.m := by
  have hdmt := dmtStage2_dmt (countZero s.m) 2
  exact ⟨_, exec_graceExpiry h hon hstage, congrArg Dmt.stage hdmt, congrArg Dmt.count hdmt, congrArg Dmt.fence hdmt,
    dmtStage2_pins (countZero s.m) 2,
    only_next (onlyParts_trans (countZero_parts s.m (by simp)) (dmtStage2_only _ 2)), dmtStage2_regs (countZero s.m) 2⟩

/-- Settles O17: a write to DMT.CTL or of a key is its store followed by the timer's action, an expiry is the count at 0
followed by the entry into the next stage, and what each changes and keeps is that of the lemmas above. -/
theorem deadManTimerIsServedOrExpires : Obligations.DeadManTimerIsServedOrExpires :=
  ⟨fun _ _ _ => dmtEnable_takesEffect, fun _ _ => firstKey_takesEffect, fun _ _ _ _ => secondKey_open,
    fun _ _ _ _ => secondKey_closed, fun _ => service_open_dmt, fun _ => service_closed_state,
    fun _ => dmtExpiry_entersStage1, fun _ => graceExpiry_entersStage2⟩

end Sys2Proof.DeadMan
end

section
/-! PROOFS. The boundary-scan TAP (spec/19_board_power_reset.md, R953 to R955): TRST_N, one TCK as the action of the
controller's state followed by the entry into the next, and the statement about them. -/

namespace Sys2Proof.TapController

open Sys2Proof.Machine Sys2Proof.Laws

/-! ### The action of the controller's state -/

theorem tapCapture_idcode {m : Core} (h : m.tap.instr = .idcode) : (tapCapture m).1 = idcodeBits := by
  simp [tapCapture, h, TapInstr.boundary]

theorem tapCapture_bypass {m : Core} (h : m.tap.instr = .bypass) : (tapCapture m).1 = [false] := by
  simp [tapCapture, h, TapInstr.boundary]

/-- A capture of the pins takes one of the values that the spec leaves free. -/
theorem tapCapture_parts (m : Core) : m.onlyParts [.free] (tapCapture m).2 := by
  unfold tapCapture
  split
  · exact onlyParts_free _ _ (by simp)
  · split <;> exact onlyParts_refl _ _

/-- What the controller's state does on a TCK, before the controller leaves it. -/
def stateActs (m : Core) (tdi : Bool) : Tap × Core :=
  match m.tap.st with
  | .drCapture => ({ m.tap with drBits := (tapCapture m).1 }, (tapCapture m).2)
  | .drShift => ({ m.tap with drBits := shiftIn m.tap.drBits tdi }, m)
  | .irCapture => ({ m.tap with irBits := true :: false :: Config.tapIrRest }, m)
  | .irShift => ({ m.tap with irBits := shiftIn m.tap.irBits tdi }, m)
  | _ => (m.tap, m)

theorem stateActs_drShift {m : Core} (h : m.tap.st = .drShift) (tdi : Bool) :
    (stateActs m tdi).1.drBits = shiftIn m.tap.drBits tdi := by
  simp [stateActs, h]

theorem stateActs_drCapture {m : Core} (h : m.tap.st = .drCapture) (tdi : Bool) :
    (stateActs m tdi).1.drBits = (tapCapture m).1 := by
  simp [stateActs, h]

theorem stateActs_parts (m : Core) (tdi : Bool) : m.onlyParts [.free] (stateActs m tdi).2 := by
  unfold stateActs
  split
  case h_1 => exact tapCapture_parts m
  all_goals exact onlyParts_refl _ _

/-! ### The entry into the next state -/

/-- The TAP as the controller enters a state: TDO is driven while shifting, an update takes the shifted bits, and
Test-Logic-Reset selects IDCODE. -/
def entered (t : Tap) (st : TapSt) : Tap :=
  let t := { t with st := st, tdo := match st with
    | .drShift => t.drBits.head?
    | .irShift => t.irBits.head?
    | _ => none }
  match st with
  | .irUpdate => { t with instr := tapInstr (Config.tapDecode t.irBits) }
  | .drUpdate => if t.instr.boundary then { t with boundary := t.drBits } else t
  | .reset => tapReset t
  | _ => t

/-- An update of the boundary-scan register changes that register alone. -/
theorem entered_drUpdate (t : Tap) :
    ∃ b, entered t .drUpdate = { t with st := .drUpdate, tdo := none, boundary := b } := by
  unfold entered
  dsimp only
  split <;> exact ⟨_, rfl⟩

@[simp] theorem entered_st (t : Tap) (st : TapSt) : (entered t st).st = st := by
  cases st
  case drUpdate => obtain ⟨b, hb⟩ := entered_drUpdate t; rw [hb]
  all_goals rfl

@[simp] theorem entered_drBits (t : Tap) (st : TapSt) : (entered t st).drBits = t.drBits := by
  cases st
  case drUpdate => obtain ⟨b, hb⟩ := entered_drUpdate t; rw [hb]
  all_goals rfl

/-! ### One TCK -/

theorem tapClock_eq (m : Core) (tms tdi : Bool) :
    tapClock m tms tdi
      = { (stateActs m tdi).2 with tap := entered (stateActs m tdi).1 (tapNext m.tap.st tms) } := rfl

theorem tapClock_st (m : Core) (tms tdi : Bool) : (tapClock m tms tdi).tap.st = tapNext m.tap.st tms := by
  simp [tapClock_eq]

theorem tapClock_drBits (m : Core) (tms tdi : Bool) :
    (tapClock m tms tdi).tap.drBits = (stateActs m tdi).1.drBits := by
  simp [tapClock_eq]

theorem tapClock_parts (m : Core) (tms tdi : Bool) : m.onlyParts [.tap, .free] (tapClock m tms tdi) := by
  have hacts : m.onlyParts [.tap, .free] (stateActs m tdi).2 := onlyParts_mono (stateActs_parts m tdi) (by simp)
  exact onlyParts_trans hacts (onlyParts_tap _ _ (by simp))

/-! ### The commands -/

theorem exec_tap (op : TapOp) (s : State) : exec (.tap op) s = .next { s with m := tapOp s.m op } := rfl

theorem exec_tck_held {s : State} (h : s.m.tap.trst = true) (tms tdi : Bool) :
    exec (.tap (.tck tms tdi)) s = .next s := by
  simp [exec_tap, tapOp, h]

theorem exec_tck {s : State} (h : s.m.tap.trst = false) (tms tdi : Bool) :
    exec (.tap (.tck tms tdi)) s = .next { s with m := tapClock s.m tms tdi } := by
  simp [exec_tap, tapOp, h]

theorem trstLow_resets (s : State) :
    ∃ t, exec (.tap (.trst true)) s = .next t ∧ t.m.tap.st = .reset ∧ t.m.tap.instr = .idcode
      ∧ t.m.tap.trst = true ∧ s.only [.tap] t :=
  ⟨_, exec_tap _ s, rfl, rfl, rfl, only_next (onlyParts_tap _ _ (by simp))⟩

theorem tck_takesEffect {s : State} (tms tdi : Bool) (h : s.m.tap.trst = false) :
    ∃ t, exec (.tap (.tck tms tdi)) s = .next t ∧ t.m.tap.st = tapNext s.m.tap.st tms
      ∧ (s.m.tap.st = .drShift → t.m.tap.drBits = shiftIn s.m.tap.drBits tdi)
      ∧ (s.m.tap.st = .drCapture → s.m.tap.instr = .idcode → t.m.tap.drBits = idcodeBits)
      ∧ (s.m.tap.st = .drCapture → s.m.tap.instr = .bypass → t.m.tap.drBits = [false])
      ∧ s.only [.tap, .free] t := by
  have hbits := tapClock_drBits s.m tms tdi
  exact ⟨_, exec_tck h tms tdi, tapClock_st s.m tms tdi,
    fun hst => hbits.trans (stateActs_drShift hst tdi),
    fun hst hi => hbits.trans ((stateActs_drCapture hst tdi).trans (tapCapture_idcode hi)),
    fun hst hi => hbits.trans ((stateActs_drCapture hst tdi).trans (tapCapture_bypass hi)),
    only_next (tapClock_parts s.m tms tdi)⟩

/-- Settles O34: TRST_N low puts the TAP in Test-Logic-Reset with IDCODE and holds it there, and a TCK with TRST_N high is
the action of the controller's state, which captures or shifts, followed by the entry into the state that TMS selects. -/
theorem tapFollowsItsController : Obligations.TapFollowsItsController :=
  ⟨trstLow_resets, fun _ tms tdi h => exec_tck_held h tms tdi, fun _ => tck_takesEffect⟩

end Sys2Proof.TapController
end

section
/-! PROOFS. The whole block (spec/00_scope.md): the shape of every command's answer, what a command leaves of the DRAM
content, a tick of an idle block, and the state after reset. -/

namespace Sys2Proof.Block

open Sys2Proof.Machine Sys2Proof.Laws

/-! ### The shape of a command's answer -/

/-- A command other than those that `writesDram` lists answers a next state with another machine at most. -/
theorem exec_keepsDram {c : Instr} (s : State) (h : writesDram c = false) :
    ∃ m, exec c s = .next { s with m := m } := by
  cases c with
  | coldReset | warmReset | pfailFlushDone | mbEntryFree | memoryAtomicResult | groomRepair | spprWaitEnd | pprDone =>
    cases h
  | _ => exact ⟨_, rfl⟩

/-- An answer that keeps the queue, and keeps the DRAM content canonical where it is. -/
def Sound (s : State) (o : Host.Outcome State Fault Refusal) : Prop :=
  ∃ t, o = .next t ∧ t.pending = s.pending ∧ (s.Inv → t.Inv)

theorem sound_next {s t : State} (hq : t.pending = s.pending) (hw : s.Inv → t.Inv) : Sound s (.next t) :=
  ⟨t, rfl, hq, hw⟩

theorem sound_same (s : State) (m : Core) : Sound s (.next { s with m := m }) := sound_next rfl id

/-- A command that writes DRAM is sound when its effect keeps the canonical form. -/
theorem sound_clockedDram {f : Dram → Core → Dram × Core} (s : State)
    (h : Memory.wf s.dram = true → Memory.wf (f s.dram s.m).1 = true) : Sound s (clockedDram f s) := by
  rcases clockedDram_cases f s with ⟨_, e⟩ | ⟨_, e⟩ <;> rw [e]
  · exact sound_next rfl h
  · exact sound_next rfl id

/-! ### The commands that write DRAM -/

section
variable {d : Dram} (h : Memory.wf d = true) (m : Core)
include h

theorem wf_mbFree (i : Nat) : Memory.wf (mbFree i d m).1 = true := by
  unfold mbFree
  split
  · exact h
  · dsimp only
    split
    · exact h
    · exact wf_dramWrite h _ _ _ _

theorem wf_unitResult (ch : Nat) : Memory.wf (unitResult ch d m).1 = true := by
  unfold unitResult
  split
  · exact h
  · dsimp only
    split
    · exact h
    · have hw (b c : Bool) (k l : Core) (x y : LineData) (a : Nat) (p : Bool) :
          Memory.wf (if b then dramWrite d k a x true else if c then (d, l) else dramWrite d k a y p).1 = true := by
        split
        · exact wf_dramWrite h _ _ _ _
        · split
          · exact h
          · exact wf_dramWrite h _ _ _ _
      split <;> exact hw _ _ _ _ _ _ _ _

theorem wf_groomAct (l : LineAddr) (ch lla : Nat) (again : Bool) (rf : ReadFault) :
    Memory.wf (groomAct l ch lla again rf d m).1 = true := by
  unfold groomAct
  dsimp only
  repeat' split
  all_goals first
    | exact h
    | exact wf_dramWrite h _ _ _ _

theorem wf_groomRepair (i : Nat) (rf : ReadFault) : Memory.wf (groomRepair i rf d m).1 = true := by
  unfold groomRepair
  split
  · exact h
  · split
    · split
      · exact wf_groomAct h _ _ _ _ _ _
      · exact h
    · exact h

theorem wf_spprWaitEnd : Memory.wf (spprWaitEnd d m).1 = true := by
  unfold spprWaitEnd
  split
  · exact h
  · split
    · exact h
    · exact wf_bufferBack h _ _

theorem wf_pprDone (refused : Bool) : Memory.wf (pprDone refused d m).1 = true := by
  unfold pprDone
  split
  · exact h
  · split
    · exact h
    · dsimp only
      split
      · exact wf_hardContent h _ _
      · exact wf_bufferBack h _ _

theorem wf_cutRepair : Memory.wf (cutRepair d m).1 = true := by
  unfold cutRepair
  split
  · split
    · exact wf_hardContent h _ _
    · exact wf_bufferBack h _ _
  · exact h

theorem wf_warmHold : Memory.wf (warmHold d m).1 = true := by
  unfold warmHold
  split
  · exact h
  · split
    · exact h
    · exact wf_cutRepair h m

theorem wf_flushEnd : Memory.wf (flushEnd d m).1 = true := by
  unfold flushEnd
  dsimp only
  split
  · exact h
  · exact wf_warmHold h _

end

theorem inv_reset_dram (m : Core) (q : List Instr) : State.Inv { dram := {}, m := m, pending := q } := rfl

/-- Every command answers a next state, takes nothing from the queue, and keeps the DRAM content canonical. -/
theorem exec_sound (c : Instr) (s : State) : Sound s (exec c s) := by
  cases c with
  | mbEntryFree i => exact sound_clockedDram s fun h => wf_mbFree h _ _
  | memoryAtomicResult ch => exact sound_clockedDram s fun h => wf_unitResult h _ _
  | groomRepair i rf => exact sound_clockedDram s fun h => wf_groomRepair h _ _ _
  | spprWaitEnd => exact sound_clockedDram s fun h => wf_spprWaitEnd h _
  | pprDone refused => exact sound_clockedDram s fun h => wf_pprDone h _ _
  | pfailFlushDone => exact sound_clockedDram s fun h => wf_flushEnd h _
  | warmReset ph =>
    cases ph with
    | hold => exact sound_next rfl fun h => wf_warmHold h _
    | release => exact sound_same s _
  | coldReset ph =>
    cases ph with
    | release st => exact sound_same s _
    | hold =>
      cases hh : s.m.pins.resetHeld with
      | true =>
        have e : exec (.coldReset .hold) s = .next s := by simp [exec, execColdReset, hh]
        exact e ▸ sound_same s _
      | false =>
        have e : exec (.coldReset .hold) s = .next { s with dram := {}, m := coldCore (cutWrite s.m) } := by
          simp [exec, execColdReset, hh]
        exact e ▸ sound_next rfl fun _ => inv_reset_dram _ _
  | _ => exact sound_same s _

/-- Settles O57: every command's answer is sound. -/
theorem noCommandStopsTheBlock : Obligations.NoCommandStopsTheBlock := fun c s =>
  let ⟨t, he, hq, _⟩ := exec_sound c s
  ⟨t, he, hq⟩

/-- Settles O58: a command outside `writesDram` changes the machine only. -/
theorem onlyMemoryWritesChangeTheDram : Obligations.OnlyMemoryWritesChangeTheDram := by
  intro c s t hc he
  obtain ⟨m, hm⟩ := exec_keepsDram s hc
  rw [hm] at he
  cases he
  rfl

/-! ### Steps -/

theorem step_front {s : State} {c : Instr} {r : List Instr} (h : s.pending = c :: r) :
    step s = exec c { s with pending := r } := by simp [step, h]

theorem step_idle {s : State} (h : s.pending = []) : step s = .next (tick s) := by simp [step, h]

/-- Settles O55: the queue's front decides the step. -/
theorem stepRunsTheFrontCommand : Obligations.StepRunsTheFrontCommand := fun _ _ _ h => step_front h

/-- Settles O59: a tick leaves the DRAM alone, and every command's answer is sound. -/
theorem stepsKeepTheDramCanonical : Obligations.StepsKeepTheDramCanonical := by
  intro s t hi hs
  cases hp : s.pending with
  | nil =>
    rw [step_idle hp] at hs
    cases hs
    exact hi
  | cons c r =>
    obtain ⟨u, hu, _, hw⟩ := exec_sound c { s with pending := r }
    rw [step_front hp, hu] at hs
    cases hs
    exact hw hi

/-! ### A tick -/

/-- What the rest of a tick leaves of the STMP count and of global time. -/
def KeepsClocks (m n : Core) : Prop := n.stmp = m.stmp ∧ n.time = m.time

theorem keepsClocks_of_only {ps : List Part} {m n : Core} (h : m.onlyParts ps n) (hs : Part.stmp ∉ ps)
    (ht : Part.time ∉ ps) : KeepsClocks m n := ⟨h .stmp hs, h .time ht⟩

theorem keepsClocks_trans {m n k : Core} (h : KeepsClocks m n) (g : KeepsClocks n k) : KeepsClocks m k :=
  ⟨g.1.trans h.1, g.2.trans h.2⟩

/-- The parts that the blocks of the main PLL may change in a tick. -/
def tickParts : List Part := .dmt :: .pins :: .jnl :: .mem :: Part.report

theorem report_tick {m n : Core} (h : m.onlyParts Part.report n) : m.onlyParts tickParts n := onlyParts_mono h (by decide)

theorem dmtZero_only (m : Core) : m.onlyParts tickParts (dmtZero m) := by
  have hc : m.onlyParts tickParts (modDmt m fun d => { d with count := 0 }) := onlyParts_dmt _ _ (by decide)
  unfold dmtZero
  split
  · exact onlyParts_refl _ _
  · split
    · exact onlyParts_trans hc (onlyParts_mono (DeadMan.dmtStage1_only _ _ _ _) (by decide))
    · split
      · exact onlyParts_trans hc (onlyParts_mono (DeadMan.dmtStage2_only _ _) (by decide))
      · exact onlyParts_refl _ _

theorem dmtClock_only (m : Core) : m.onlyParts tickParts (dmtClock m) := by
  unfold dmtClock dmtTick
  split
  · exact onlyParts_refl _ _
  · split
    · exact onlyParts_refl _ _
    · split
      · exact dmtZero_only m
      · exact onlyParts_dmt _ _ (by decide)

theorem evinCycle_only (m : Core) : m.onlyParts Part.report (evinCycle m) :=
  onlyParts_foldl _ (fun m n => by
    split
    · exact raise_only _ _
    · exact onlyParts_refl _ _) _ _

theorem lmEval_only (m : Core) (n : Nat) : m.onlyParts Part.report (lmEval m n) := by
  have hput (x : LevelMark) : m.onlyParts Part.report (modWhs m fun w => { w with lm := tput {} w.lm n x }) :=
    onlyParts_whs _ _ (by decide)
  unfold lmEval
  dsimp only
  split
  · exact onlyParts_trans (hput _) (raise_only _ _)
  · split
    · exact onlyParts_trans (hput _) (raise_only _ _)
    · exact hput _

theorem periodicCapture_only (m : Core) : m.onlyParts Part.report (periodicCapture m) := by
  have hlatch : m.onlyParts Part.report (modPmc m fun p => { p with capP := p.ctr }) := onlyParts_pmc _ _ (by decide)
  unfold periodicCapture
  refine onlyParts_trans (onlyParts_trans hlatch ?_) (onlyParts_pmc _ _ (by decide))
  split
  · exact onlyParts_refl _ _
  · split
    · exact onlyParts_trans (onlyParts_trans (onlyParts_rset _ _ _ (by decide)) (onlyParts_rset _ _ _ (by decide)))
        (raise_only _ _)
    · exact onlyParts_pmc _ _ (by decide)

theorem captureW_only (m : Core) (kind : Nat) : m.onlyParts [.regs, .pmc] (captureW m kind) :=
  onlyParts_trans (onlyParts_trans (onlyParts_trans (onlyParts_pmc m _ (by decide)) (onlyParts_rset _ _ _ (by decide)))
    (onlyParts_rset _ _ _ (by decide))) (onlyParts_rset _ _ _ (by decide))

theorem captureTick_only (m : Core) : m.onlyParts Part.report (captureTick m) := by
  have hlast : m.onlyParts Part.report (modPmc m fun p => { p with lastTime := m.time }) := onlyParts_pmc _ _ (by decide)
  unfold captureTick
  dsimp only
  split <;> split
  · exact onlyParts_trans (onlyParts_trans hlast (periodicCapture_only _)) (onlyParts_mono (captureW_only _ _) (by decide))
  · exact onlyParts_trans hlast (periodicCapture_only _)
  · exact onlyParts_trans hlast (onlyParts_mono (captureW_only _ _) (by decide))
  · exact hlast

theorem mgmtTick_only (m : Core) : m.onlyParts tickParts (mgmtTick m) := by
  have hcyc (m : Core) := report_tick (evinCycle_only m)
  have hpins := onlyParts_trans (hcyc m) (onlyParts_trans (hcyc _) (onlyParts_trans (hcyc _) (hcyc _)))
  unfold mgmtTick
  dsimp only
  refine onlyParts_trans (onlyParts_trans hpins ?_) (onlyParts_trans (report_tick (captureTick_only _))
    (report_tick (onlyParts_foldl _ lmEval_only _ _)))
  split
  · exact onlyParts_whs _ _ (by decide)
  · exact onlyParts_refl _ _

theorem memTick_only (m : Core) : m.onlyParts tickParts (memTick m) :=
  onlyParts_foldl _ (fun m ch => onlyParts_mono (wqDrain_only m ch 16) (by decide)) _ _

theorem setOffset_clocks (m : Core) (o : Int) : KeepsClocks m (setOffset m o) := by
  have hfab (f : Fab) : m.onlyParts (.fab :: Part.report) { m with fab := f } := onlyParts_fab _ _ (by decide)
  unfold setOffset
  dsimp only
  split
  · exact keepsClocks_of_only (onlyParts_trans (hfab _) (onlyParts_mono (raise_only _ _) (by decide))) (by decide)
      (by decide)
  · exact keepsClocks_of_only (hfab _) (by decide) (by decide)

theorem timeTick_stmp (m : Core) : (timeTick m).stmp = m.stmp := by
  unfold timeTick
  dsimp only
  split
  · exact (setOffset_clocks _ _).1
  · split
    · exact (setOffset_clocks _ _).1
    · rfl

theorem timeTick_time {m : Core} (h : m.fab.parent = none) : (timeTick m).time = m.time + 10 := by
  simp [timeTick, h]

/-- What a tick does after the STMP count and global time have advanced. -/
theorem tickRest_clocks (m : Core) :
    KeepsClocks m (if running (dmtClock m) then memTick (mgmtTick (dmtClock m)) else dmtClock m) := by
  have hd : KeepsClocks m (dmtClock m) := keepsClocks_of_only (dmtClock_only m) (by decide) (by decide)
  split
  · exact keepsClocks_trans hd (keepsClocks_of_only (onlyParts_trans (mgmtTick_only _) (memTick_only _)) (by decide)
      (by decide))
  · exact hd

theorem tickCore_advances {m : Core} (ha : awake m = true) (hr : m.pins.refclkStopped = false) :
    (tickCore m).stmp = m.stmp + 1 ∧ (m.fab.parent = none → (tickCore m).time = m.time + 10) := by
  have hrest := tickRest_clocks (timeTick { m with stmp := m.stmp + 1 })
  have he : tickCore m = (let k := dmtClock (timeTick { m with stmp := m.stmp + 1 })
      if running k then memTick (mgmtTick k) else k) := by simp [tickCore, ha, hr]
  rw [he]
  exact ⟨hrest.1.trans (timeTick_stmp _), fun hp => hrest.2.trans (timeTick_time hp)⟩

theorem tickCore_stopped {m : Core} (h : awake m = false ∨ m.pins.refclkStopped = true) : tickCore m = m := by
  rcases h with h | h <;> simp [tickCore, h]

/-- Settles O56: an idle step is a tick, which advances the clocks where they run and changes nothing where they do not. -/
theorem idleStepIsATick : Obligations.IdleStepIsATick := by
  intro s hp
  refine ⟨tick s, step_idle hp, rfl, hp, tickCore_advances, fun h => ?_⟩
  simp [tick, tickCore_stopped h]

/-! ### The state after reset -/

/-- Settles O60: each field of the reset state is written out in its definition. -/
theorem resetStateIsAsStated : Obligations.ResetStateIsAsStated :=
  ⟨rfl, rfl, rfl, rfl, rfl, fun _ => rfl, fun _ => rfl, fun _ => rfl, rfl, by decide +kernel, rfl, rfl, rfl, by decide +kernel,
    by decide +kernel⟩

end Sys2Proof.Block
end

section
/-! PROOFS. Register accesses over the LMB (spec/00_scope.md, spec/12_control_plane.md): what a write leaves in each bit,
accepted and rejected writes, and the reads of split counters, with the statements about them. -/

namespace Sys2Proof.Access

open Sys2Proof.Machine Sys2Proof.Laws

/-! ### Written bits (R10, Table SCP-3) -/

/-- A bit of a written register, by what the three masks of a write say of it. -/
theorem bit_storeFields (r : RegDesc) (old v : Word) {i : Nat} (hi : i < 32) :
    bit (storeFields r old v) i =
      (((bit old i && !(r.maskOf fun f => decide (f.acc = .rw) || decide (f.acc = .rwl)).testBit i
          || bit v i && (r.maskOf fun f => decide (f.acc = .rw) || decide (f.acc = .rwl)).testBit i)
        && !(bit v i && (r.maskOf fun f => decide (f.acc = .w1c)).testBit i))
        || bit v i && (r.maskOf fun f => decide (f.acc = .w1s)).testBit i) := by
  simp only [bit, storeFields, BitVec.getLsbD_or, BitVec.getLsbD_and, BitVec.getLsbD_not, BitVec.getLsbD_ofNat, hi,
    decide_true, Bool.true_and, Bool.not_and]

/-- Settles O1: no two fields of a register share a bit, so each mask of a write says of a bit what its field's access
type says. -/
theorem writtenBitsFollowTheirAccessType : Obligations.WrittenBitsFollowTheirAccessType := by
  intro addr r f old v i hr hf hlo hhi
  have hok := regAt_ok hr
  simp only [regOk, Bool.and_eq_true] at hok
  obtain ⟨⟨hrw, hw1c⟩, hw1s⟩ := hok
  obtain ⟨hi, hrw⟩ := maskOk_bit hrw hf hlo hhi
  obtain ⟨_, hw1c⟩ := maskOk_bit hw1c hf hlo hhi
  obtain ⟨_, hw1s⟩ := maskOk_bit hw1s hf hlo hhi
  rw [bit_storeFields r old v hi, hrw, hw1c, hw1s]
  cases f.acc <;> simp

/-! ### Accepted writes of plain registers -/

/-- No plain register is CFG.THROW, whose start reports later. -/
theorem not_throw_of_plain {a : Nat} (v : Word) (h : plainAddr a = true) : (decide (a = 0x404) && bit v 0) = false := by
  have hne : a ≠ 0x404 := fun e => by rw [e] at h; exact absurd h (by decide)
  simp [hne]

/-- Settles O2: the write of a plain register is its store. -/
theorem registerWriteSetsItsFields : Obligations.RegisterWriteSetsItsFields := fun _ _ _ v _ h hr hp =>
  ⟨_, accepted_next h (not_throw_of_plain v hp) (action_plain hp), storeWrite_get hr, lmbOk_set _,
    only_lmb (storeWrite_parts _ _ _ (by simp)) (by simp), onlyRegs_lmb (storeWrite_regs _ _ _)⟩

/-! ### Reject codes (Table CTL-1) -/

theorem slotEdit_code {m : Core} {s op : Nat} {f : SlotEnt} {c : Nat} (h : (slotEdit m s op f).1 = .rejected c) :
    c = 5 ∨ c = 0xC := by
  unfold slotEdit at h
  dsimp only at h
  split at h
  · cases h
  · split at h
    · cases h
    · injection h with h; exact .inr h.symm
  · injection h with h; exact .inl h.symm
  · split at h
    · cases h
    · injection h with h; exact .inl h.symm
  · split at h
    · cases h
    · injection h with h; exact .inl h.symm
  · cases h
  · cases h

theorem outcomeCode_cases (m : Core) (a : Nat) (v : Word) :
    outcomeCode m a v = 0 ∨ outcomeCode m a v = 5 ∨ outcomeCode m a v = 0xC := by
  unfold outcomeCode
  split
  · split
    · next h => exact .inr (slotEdit_code h)
    · exact .inl rfl
  · exact .inl rfl

/-- Every reject code is one of Table CTL-1's, and SEQUENCE (7) is DMT.SERVICE's own. -/
theorem writeCode_range (m : Core) (w : Who) (a : Nat) (v : Word) :
    writeCode m w a v < 256 ∧ (a ≠ 0x2810 → writeCode m w a v ≠ 7) := by
  have hother : outcomeCode m a v < 256 ∧ outcomeCode m a v ≠ 7 := by
    rcases outcomeCode_cases m a v with h | h | h <;> rw [h] <;> decide
  have hcheck {c : Prop} [Decidable c] {k e : Nat} (hk : k < 256 ∧ (a ≠ 0x2810 → k ≠ 7))
      (he : e < 256 ∧ (a ≠ 0x2810 → e ≠ 7)) : (if c then k else e) < 256 ∧ (a ≠ 0x2810 → (if c then k else e) ≠ 7) := by
    split
    · exact hk
    · exact he
  unfold writeCode
  refine hcheck (by simp) ?_
  split
  · simp
  · iterate 9 refine hcheck (by simp) ?_
    split
    · next h =>
      refine ⟨by decide, fun ha => absurd h ?_⟩
      simp [ha]
    · exact ⟨hother.1, fun _ => hother.2⟩

/-! ### The reject record (R598) -/

/-- The record of a rejected access of a master that is not the image loader. -/
def rejectWord (code mid : Nat) (read : Bool) (a : Nat) : Word :=
  word [(24, code), (21, mid), (20, 0), (19, b1 read), (0, a)]

theorem rejectWord_toNat {code mid : Nat} {read : Bool} {a : Nat} (hc : code < 256) (hm : mid < 8) (ha : a < 2 ^ 16) :
    (rejectWord code mid read a).toNat = code * 2 ^ 24 + mid * 2 ^ 21 + b1 read * 2 ^ 19 + a := by
  have hb : b1 read ≤ 1 := by cases read <;> decide
  simp only [rejectWord, word, List.foldl, BitVec.toNat_ofNat]
  omega

theorem rejectWord_fields {code mid a : Nat} (hc : code < 256) (hm : mid < 8) (ha : a < 2 ^ 16) :
    fld (rejectWord code mid false a) 31 24 = code ∧ fld (rejectWord code mid false a) 23 21 = mid
      ∧ bit (rejectWord code mid false a) 20 = false ∧ bit (rejectWord code mid false a) 19 = false
      ∧ fld (rejectWord code mid false a) 15 0 = a := by
  simp only [fld, bit, BitVec.getLsbD, Nat.testBit_eq_decide_div_mod_eq, rejectWord_toNat hc hm ha,
    Nat.shiftRight_eq_div_pow, b1, Bool.false_eq_true, if_false, decide_eq_false_iff_not]
  omega

/-- The reject registers after a record: the latest, the count, and the first where none stood. -/
def recorded (m : Core) (r : Word) : Core :=
  if rfld m 0x34 31 24 = 0 then rset (rinc (rset m 0x30 r) 0x38 1) 0x34 r else rinc (rset m 0x30 r) 0x38 1

theorem recordReject_write {m : Core} {w : Who} {addr code : Nat} (hb : w.boot = false) (ha : addr ≠ 0x2810)
    (hc : code ≠ 7) : recordReject m w false addr code = recorded m (rejectWord code w.mid false addr) := by
  have hfirst (r : Word) : rfld (rinc (rset m 0x30 r) 0x38 1) 0x34 31 24 = rfld m 0x34 31 24 := by
    unfold rfld rinc
    rw [rget_rset_other _ _ (by decide), rget_rset_other _ _ (by decide)]
  simp only [recordReject, hb, recorded, rejectWord, hfirst, hc, ha, b1]
  simp

theorem recorded_only (m : Core) (r : Word) : m.onlyParts [.regs, .lmb] (recorded m r) := by
  have h : m.onlyParts [.regs, .lmb] (rinc (rset m 0x30 r) 0x38 1) :=
    onlyParts_trans (onlyParts_rset m 0x30 r (by simp)) (onlyParts_rset _ _ _ (by simp))
  unfold recorded
  split
  · exact onlyParts_trans h (onlyParts_rset _ _ _ (by simp))
  · exact h

theorem recorded_regs (m : Core) (r : Word) : m.onlyRegs [0x30, 0x34, 0x38] (recorded m r) := by
  have h : m.onlyRegs [0x30, 0x34, 0x38] (rinc (rset m 0x30 r) 0x38 1) :=
    onlyRegs_trans (onlyRegs_rset m 0x30 r (by simp)) (onlyRegs_rset _ _ _ (by simp))
  unfold recorded
  split
  · exact onlyRegs_trans h (onlyRegs_rset _ _ _ (by simp))
  · exact h

theorem rget_recorded_latest (m : Core) (r : Word) : rget (recorded m r) 0x30 = r := by
  unfold recorded rinc
  split <;> simp [rget_rset]

theorem rget_recorded_count (m : Core) (r : Word) :
    rget (recorded m r) 0x38 = BitVec.ofNat 32 (min ((rget m 0x38).toNat + 1) 0xFFFFFFFF) := by
  unfold recorded rinc
  split <;> simp [rget_rset]

theorem rget_recorded_first (m : Core) (r : Word) :
    rget (recorded m r) 0x34 = if rfld m 0x34 31 24 = 0 then r else rget m 0x34 := by
  unfold recorded rinc
  split <;> simp [rget_rset]

/-- The next state of a rejected LMB write outside DMT.SERVICE. -/
theorem exec_registerWrite_rejected {s : State} {a : Lmb} {n : BitVec 14} {v : Word} (hr : running s.m = true)
    (hc : writeCode s.m (lmbWho a) (4 * n.toNat) v ≠ 0) (ha : 4 * n.toNat ≠ 0x2810) :
    exec (.registerWrite a n v) s = .next { s with
      m := setLmb (recorded s.m (rejectWord (writeCode s.m (lmbWho a) (4 * n.toNat) v) a.mid.toNat false (4 * n.toNat)))
        (accRej (writeCode s.m (lmbWho a) (4 * n.toNat) v)) } := by
  show clocked (lmbWrite a (4 * n.toNat) v) s = _
  rw [clocked_running hr, lmbWrite_rejected hc, recordReject_write rfl ha ((writeCode_range _ _ _ _).2 ha)]
  rfl

/-- Settles O3: the reject record's fields are its word's. -/
theorem rejectedWriteChangesOnlyTheRecord : Obligations.RejectedWriteChangesOnlyTheRecord := by
  intro s a n v hr hc ha
  have hn : 4 * n.toNat < 2 ^ 16 := by have := n.isLt; omega
  obtain ⟨hcode, hmid, hboot, hread, haddr⟩ :=
    rejectWord_fields (writeCode_range s.m (lmbWho a) (4 * n.toNat) v).1 a.mid.isLt hn
  refine ⟨_, exec_registerWrite_rejected hr hc ha, rfl, ?_, ?_, ?_, ?_, ?_, rget_recorded_count _ _, ?first,
    only_lmb (recorded_only _ _) (by simp), onlyRegs_lmb (recorded_regs _ _)⟩
  case first => rw [rget_setLmb, rget_setLmb, rget_recorded_first, rget_recorded_latest]
  all_goals simp only [rfld, rbit, rget_setLmb, rget_recorded_latest, hcode, hmid, hboot, hread, haddr]

/-! ### Unprivileged and locked writes (R588, R589, R602) -/

/-- A write that R588 or R589 forbids is rejected with NOT_PRIVILEGED. -/
theorem writeCode_notPrivileged {m : Core} {a : Lmb} {addr : Nat} (v : Word)
    (h : 6 ≤ a.mid.toNat ∨ (a.priv = false ∧ (regAt addr).isSome = true ∧ addr ≠ 0x2810)) :
    writeCode m (lmbWho a) addr v = 4 := by
  rcases h with h | ⟨hp, hs, ha⟩
  · exact if_pos (by simp [lmbWho, h])
  · obtain ⟨r, hr⟩ := Option.isSome_iff_exists.1 hs
    have hmay : mayWrite m (lmbWho a) addr = false := by simp [mayWrite, ha, lmbWho, hp]
    unfold writeCode
    split
    · rfl
    · rw [hr]
      exact if_pos (by simp [hmay])

/-- Every rejected LMB write reports its code. -/
theorem exec_registerWrite_code {s : State} {a : Lmb} {n : BitVec 14} {v : Word} {c : Nat} (hr : running s.m = true)
    (hc : writeCode s.m (lmbWho a) (4 * n.toNat) v = c) (h0 : c ≠ 0) :
    ∃ t, exec (.registerWrite a n v) s = .next t ∧ t.m.lmb = ⟨false, BitVec.ofNat 8 c, 0⟩ := by
  subst hc
  refine ⟨_, clocked_running hr, ?_⟩
  rw [lmbWrite_rejected h0]
  rfl

/-- Where the registers with an RWL field stand: CFG.ALLOW_0 to CFG.ALLOW_15, FAB.PRIORITY and DMT.SERVICE_MASK. -/
def RwlPlace (a : Nat) : Prop := (0x420 ≤ a ∧ a < 0x460) ∨ a = 0x2000 ∨ a = 0x2814

/-- Whether every address that a register with an RWL field covers is such a place. -/
def rwlPlaced (r : RegDesc) : Bool :=
  !r.hasRwl || [(0x420, 16, 4), (0x2000, 1, 4), (0x2814, 1, 4)].contains (r.base, r.count, r.stride)

theorem banks_rwlPlaced : banks.all (fun b => b.all rwlPlaced) = true := by decide +kernel

theorem rwlPlace_of_hasRwl {a : Nat} {r : RegDesc} (h : regAt a = some r) (hw : r.hasRwl = true) : RwlPlace a := by
  have hmem : r ∈ bankOf a := List.mem_of_find?_eq_some h
  have hcov : r.covers a = true := List.find?_some (p := fun r : RegDesc => r.covers a) (l := bankOf a) h
  have hp : rwlPlaced r = true := by
    rcases bankOf_mem a with hb | hb
    · rw [hb] at hmem; cases hmem
    · exact List.all_eq_true.1 (List.all_eq_true.1 banks_rwlPlaced _ hb) _ hmem
  simp only [rwlPlaced, hw, Bool.not_true, Bool.false_or, List.contains_eq_mem, decide_eq_true_eq, List.mem_cons,
    List.not_mem_nil, or_false, Prod.mk.injEq] at hp
  simp only [RegDesc.covers, Bool.and_eq_true, decide_eq_true_eq] at hcov
  obtain ⟨⟨hbase, hstep⟩, hcount⟩ := hcov
  unfold RwlPlace
  rcases hp with ⟨hb, hc, hs⟩ | ⟨hb, hc, hs⟩ | ⟨hb, hc, hs⟩ <;> rw [hb, hs] at hstep hcount <;>
    rw [hb] at hbase <;> omega

/-- No block that a soft reset holds has a register with an RWL field. -/
theorem inSoftReset_rwl {a : Nat} (m : Core) (h : RwlPlace a) : inSoftReset m a = false := by
  have hblk : a / 0x400 = 1 ∨ a / 0x400 = 8 ∨ a / 0x400 = 10 := by unfold RwlPlace at h; omega
  rcases hblk with e | e | e <;> simp [inSoftReset, e]

theorem isView_rwl {a : Nat} (h : RwlPlace a) : isView a = false := by
  have h' : a < 0x3040 := by unfold RwlPlace at h; omega
  simp only [isView, inBlock, Bool.or_eq_false_iff, Bool.and_eq_false_iff, decide_eq_false_iff_not]
  omega

/-- A register with an RWL field is not read-only as a whole. -/
theorem allRo_of_hasRwl {r : RegDesc} (h : r.hasRwl = true) : r.allRo = false := by
  obtain ⟨f, hf, hacc⟩ := List.any_eq_true.1 h
  refine List.all_eq_false.2 ⟨f, hf, ?_⟩
  simp [of_decide_eq_true hacc]

/-- A privileged write to a locked register is rejected with LOCKED. -/
theorem writeCode_locked {m : Core} {a : Lmb} {addr : Nat} (v : Word) {r : RegDesc} (hlock : rbit m 0x2C 0 = true)
    (hmid : a.mid.toNat < 6) (hp : a.priv = true) (hb : m.boot.applying = false) (hr : regAt addr = some r)
    (hw : r.hasRwl = true) : writeCode m (lmbWho a) addr v = 3 := by
  have hplace := rwlPlace_of_hasRwl hr hw
  have hser : addr ≠ 0x2810 := by unfold RwlPlace at hplace; omega
  have hmay : mayWrite m (lmbWho a) addr = true := by simp [mayWrite, hser, lmbWho, hp]
  have hsix : (decide (6 ≤ a.mid.toNat)) = false := by simpa using hmid
  have hpass : ((lmbWho a).lmb && decide (6 ≤ (lmbWho a).mid)) = false := hsix
  simp only [writeCode, hpass, hr, hmay, inSoftReset_rwl m hplace, hb, writeReadOnly, allRo_of_hasRwl hw, isView_rwl hplace,
    hw, hlock, Bool.not_true, Bool.false_and, Bool.or_self, Bool.and_self, Bool.false_eq_true, if_false, if_true]

/-- Settles O4: the second check of Table CTL-7 finds the privilege missing, the seventh the lock set. -/
theorem unprivilegedAndLockedWritesAreRejected : Obligations.UnprivilegedAndLockedWritesAreRejected := by
  refine ⟨fun s a n v hr h => ?_, fun s a n v r hr hlock hmid hp hb hreg hw => ?_⟩
  · have hc := writeCode_notPrivileged (m := s.m) v h
    exact ⟨hc, exec_registerWrite_code hr hc (by decide)⟩
  · have hc := writeCode_locked v hlock hmid hp hb hreg hw
    have hplace := rwlPlace_of_hasRwl hreg hw
    have hser : 4 * n.toNat ≠ 0x2810 := by unfold RwlPlace at hplace; omega
    refine ⟨_, exec_registerWrite_rejected hr (by rw [hc]; decide) hser, by rw [hc]; rfl, ?_⟩
    refine recorded_regs _ _ _ ?_
    unfold RwlPlace at hplace
    simp only [List.mem_cons, List.not_mem_nil, or_false]
    omega

/-! ### Split reads (R611, R612, R879) -/

/-- A privileged read of a mapped register by a master of the LMB is accepted. -/
theorem readCode_privileged {m : Core} {a : Lmb} {addr : Nat} (hmid : a.mid.toNat < 6) (hp : a.priv = true)
    (hreg : (regAt addr).isSome = true) : readCode m (lmbWho a) addr = 0 := by
  have hsix : (decide (6 ≤ a.mid.toNat)) = false := by simpa using hmid
  obtain ⟨r, hr⟩ := Option.isSome_iff_exists.1 hreg
  simp [readCode, lmbWho, hsix, mayRead, hp, hr]

/-- The next state of an accepted LMB read. -/
theorem clocked_read {s : State} {a : Lmb} {addr : Nat} (hr : running s.m = true)
    (hc : readCode s.m (lmbWho a) addr = 0) :
    clocked (lmbRead a addr) s = .next { s with
      m := setLmb (readValue s.m (lmbWho a) addr).2 (accOk (readValue s.m (lmbWho a) addr).1) } := by
  rw [clocked_running hr, lmbRead, regRead]
  simp [hc]

theorem low_reg (i : Fin 8) : (regAt (0x3040 + 4 * i.val)).isSome = true := by revert i; decide +kernel

theorem high_reg (i : Fin 8) : (regAt (0x3060 + 4 * i.val)).isSome = true := by revert i; decide +kernel

theorem inSoftReset_pmc {m : Core} {a : Nat} (h : a / 0x400 = 12) (hs : softHeld m 2 = false) : inSoftReset m a = false := by
  simp [inSoftReset, h, hs]

/-- A live low half is read, and its high half latched. -/
theorem readValue_low {m : Core} {w : Who} (i : Fin 8) (hs : softHeld m 2 = false) (hv : viewSource m w.mid = 0) :
    readValue m w (0x3040 + 4 * i.val)
      = (BitVec.ofNat 32 (tget 0 m.pmc.ctr (8 * viewGroup m w.mid + i.val)), { m with
          hold := tput 0 m.hold w.mid
            (BitVec.ofNat 32 (tget 0 m.pmc.ctr (8 * viewGroup m w.mid + i.val) / 2 ^ 32)) }) := by
  have hi := i.isLt
  have hlow : 0x3040 + 4 * i.val < 0x3060 := by omega
  have hix : (0x3040 + 4 * i.val - 0x3040) / 4 = i.val := by omega
  simp only [readValue, inSoftReset_pmc (show (0x3040 + 4 * i.val) / 0x400 = 12 by omega) hs, low_addr i, hlow, hix, hv,
    Bool.false_eq_true, if_false, if_true]

/-- A high half is read from the latch. -/
theorem readValue_high {m : Core} {w : Who} (i : Fin 8) (hs : softHeld m 2 = false) :
    readValue m w (0x3060 + 4 * i.val) = (tget 0 m.hold w.mid, m) := by
  have hi := i.isLt
  have hhigh : ¬ 0x3060 + 4 * i.val < 0x3060 := by omega
  simp only [readValue, inSoftReset_pmc (show (0x3060 + 4 * i.val) / 0x400 = 12 by omega) hs, high_addr i, hhigh,
    Bool.false_eq_true, if_false, if_true]

/-- Settles O7: an accepted read returns what `readValue` gives and leaves the machine as that leaves it. -/
theorem splitReadsLatchTheHighHalf : Obligations.SplitReadsLatchTheHighHalf := by
  refine ⟨fun s a i hr hmid hp hs hv => ?_, fun s a i hr hmid hp hs => ?_, fun s a hr hmid hp => ?_⟩
  · have hread := clocked_read hr (readCode_privileged hmid hp (low_reg i))
    rw [readValue_low (w := lmbWho a) i hs hv] at hread
    exact ⟨_, hread, rfl, by simp [lmbWho], only_lmb (onlyParts_hold _ _ (by simp)) (by simp)⟩
  · have hread := clocked_read hr (readCode_privileged hmid hp (high_reg i))
    rw [readValue_high (w := lmbWho a) i hs] at hread
    exact ⟨_, hread, rfl, only_lmb (onlyParts_refl _ _) (by simp)⟩
  · have hread := clocked_read hr (readCode_privileged (addr := 0x2018) hmid hp (by decide +kernel))
    have hval : readValue s.m (lmbWho a) 0x2018 = (s.m.time.extractLsb' 0 32,
        { s.m with timeHold := tput 0 s.m.timeHold a.mid.toNat (s.m.time.extractLsb' 32 32) }) := by
      simp [readValue, inSoftReset, isView, inBlock, lmbWho]
    rw [hval] at hread
    exact ⟨_, hread, rfl, by simp, only_lmb (onlyParts_timeHold _ _ (by simp)) (by simp)⟩

end Sys2Proof.Access
end

section
/-! PROOFS. The indirect windows, the configuration sets and the points throw (spec/12_control_plane.md), with the
statements about them. -/

namespace Sys2Proof.Windows

open Sys2Proof.Machine Sys2Proof.Laws Sys2Proof.Access

/-- The next state of a command while the clocks run. -/
theorem clocked_next {f : Core → Core} {s : State} {n : Core} (h : running s.m = true) (hn : f s.m = n) :
    clocked f s = .next { s with m := n } := by rw [clocked_running h, hn]

/-! ### Commands (R604, R606) -/

theorem winNum_inj {i j : WinId} (h : winNum i = winNum j) : i = j := by
  revert h; cases i <;> cases j <;> decide

theorem winOf_setWin (m : Core) (i j : WinId) (x : Window) :
    winOf (setWin m i x) j = if i = j then x else winOf m j := by
  simp only [winOf, setWin_wins, tget_tput]
  by_cases h : i = j
  · simp [h]
  · rw [if_neg h, if_neg fun e => h (winNum_inj e)]

/-- A window's command register holds nothing: every field of it is WO. -/
theorem rget_storeWrite_winCmd (m : Core) (i : WinId) (v : Word) (b : Nat) :
    rget (storeWrite m (winCmd i) v) b = rget m b := by
  have hw : ∃ r, regAt (winCmd i) = some r ∧ r.maskOf (fun f => decide (f.acc = .rw) || decide (f.acc = .rwl)) = 0
      ∧ r.maskOf (fun f => decide (f.acc = .w1c)) = 0 ∧ r.maskOf (fun f => decide (f.acc = .w1s)) = 0 := by
    cases i <;> exact ⟨_, rfl, by decide +kernel, by decide +kernel, by decide +kernel⟩
  obtain ⟨r, hr, hrw, hw1c, hw1s⟩ := hw
  exact store_wo hr hrw hw1c hw1s b

theorem winCmd_ne_throw (i : WinId) : winCmd i ≠ 0x404 := by cases i <;> decide

/-- The next state of an accepted window command. -/
theorem windowCommand_next {s : State} {a : Lmb} {i : WinId} {v : Word} (h : Accepted s a (winCmd i) v) :
    clocked (lmbWrite a (winCmd i) v) s = .next { s with
      m := setLmb (winAccept (storeWrite s.m (winCmd i) v) i (winPend (storeWrite s.m (winCmd i) v) i v)) (accOk 0) } :=
  accepted_next h (by simp [winCmd_ne_throw]) (action_window i)

theorem b1_true : b1 true = 1 := rfl

theorem b1_false : b1 false = 0 := rfl

theorem cmdWord_toNat (write : Bool) (w : WinCmd) : (cmdWord write w).toNat
    = b1 write * 2 ^ 31 + b1 w.set * 2 ^ 30 + w.seq.toNat * 2 ^ 26 + w.table.toNat * 2 ^ 22 + w.index.toNat := by
  have hw : b1 write ≤ 1 := by cases write <;> decide
  have hs : b1 w.set ≤ 1 := by cases w.set <;> decide
  simp only [cmdWord, word, List.foldl, BitVec.toNat_ofNat]
  omega

/-- The fields of a command's word are the command's. -/
theorem winPend_cmdWord (m : Core) (i : WinId) (write : Bool) (w : WinCmd) :
    winPend m i (cmdWord write w)
      = ⟨w.seq, write, w.set, w.table.toNat, w.index.toNat, (winPend m i (cmdWord write w)).words⟩ := by
  have hw : b1 write ≤ 1 := by cases write <;> decide
  have hs : b1 w.set ≤ 1 := by cases w.set <;> decide
  have hseq : (cmdWord write w).extractLsb' 26 4 = w.seq := by
    apply BitVec.eq_of_toNat_eq
    rw [BitVec.extractLsb'_toNat, cmdWord_toNat, Nat.shiftRight_eq_div_pow]
    omega
  have hop : cmdWrite (cmdWord write w) = write := by
    simp only [cmdWrite, bit, BitVec.getLsbD, Nat.testBit_eq_decide_div_mod_eq, cmdWord_toNat]
    cases write
    · exact decide_eq_false (by rw [b1_false]; omega)
    · exact decide_eq_true (by rw [b1_true]; omega)
  have hset : bit (cmdWord write w) 30 = w.set := by
    simp only [bit, BitVec.getLsbD, Nat.testBit_eq_decide_div_mod_eq, cmdWord_toNat]
    cases w.set
    · exact decide_eq_false (by rw [b1_false]; omega)
    · exact decide_eq_true (by rw [b1_true]; omega)
  have htable : fld (cmdWord write w) 25 22 = w.table.toNat := by
    simp only [fld, cmdWord_toNat, Nat.shiftRight_eq_div_pow]
    omega
  have hindex : fld (cmdWord write w) 21 0 = w.index.toNat := by
    simp only [fld, cmdWord_toNat, Nat.shiftRight_eq_div_pow]
    omega
  simp only [winPend, hseq, hop, hset, htable, hindex]

theorem winOf_winAccept (m : Core) (i j : WinId) (p : WinPend) :
    winOf (winAccept m i p) j = if i = j then { pend := some p, seq := p.seq } else winOf m j := by
  have h : (winAccept m i p).wins = (setWin m i { pend := some p, seq := p.seq }).wins := by
    unfold winAccept; dsimp only; split <;> rfl
  rw [← winOf_setWin]
  simp only [winOf, h]

theorem winAccept_cfg (m : Core) (i : WinId) (p : WinPend) : (winAccept m i p).cfg
    = if i = .cfg ∧ p.write = true ∧ p.set ≠ m.cfg.epoch then { m.cfg with copyDone := false } else m.cfg := by
  unfold winAccept
  by_cases h : i = .cfg ∧ p.write = true ∧ p.set ≠ m.cfg.epoch
  · rw [if_pos h]
    simp [h, modCfg]
  · rw [if_neg h]
    dsimp only
    rw [if_neg]
    · rfl
    · intro e
      obtain ⟨hiw, hs⟩ := Bool.and_eq_true_iff.1 e
      obtain ⟨hi, hw⟩ := Bool.and_eq_true_iff.1 hiw
      exact h ⟨of_decide_eq_true hi, hw, of_decide_eq_true hs⟩

theorem winAccept_only (m : Core) (i : WinId) (p : WinPend) : m.onlyParts [.wins, .cfg] (winAccept m i p) := by
  unfold winAccept
  dsimp only
  split
  · exact onlyParts_trans (onlyParts_wins m _ (by decide)) (onlyParts_cfg _ _ (by decide))
  · exact onlyParts_wins _ _ (by decide)

/-- The fourteen commands are LMB writes of their words to their windows. -/
theorem exec_windowCommand {a : Lmb} {w : WinCmd} {c : Instr} {i : WinId} {write : Bool}
    (h : (c, i, write) ∈ ([(.cfgTableRead a w, .cfg, false), (.cfgTableWrite a w, .cfg, true), (.trkProbe a w, .trk, false),
      (.dirProbe a w, .dir, false), (.predictorRead a w, .atm, false), (.predictorWrite a w, .atm, true),
      (.fabTableRead a w, .fab, false), (.fabTableWrite a w, .fab, true), (.pprWindowRead a w, .ppr, false),
      (.eicSourceRead a w, .eic, false), (.eicSourceWrite a w, .eic, true), (.pmcCounterRead a w, .pmc, false),
      (.pmcCounterWrite a w, .pmc, true), (.snapshotRead a w, .whs, false)] : List (Instr × WinId × Bool))) (s : State) :
    exec c s = clocked (lmbWrite a (winCmd i) (cmdWord write w)) s := by
  simp only [List.mem_cons, List.not_mem_nil, or_false, Prod.mk.injEq] at h
  rcases h with ⟨rfl, rfl, rfl⟩ | ⟨rfl, rfl, rfl⟩ | ⟨rfl, rfl, rfl⟩ | ⟨rfl, rfl, rfl⟩ | ⟨rfl, rfl, rfl⟩ | ⟨rfl, rfl, rfl⟩ |
    ⟨rfl, rfl, rfl⟩ | ⟨rfl, rfl, rfl⟩ | ⟨rfl, rfl, rfl⟩ | ⟨rfl, rfl, rfl⟩ | ⟨rfl, rfl, rfl⟩ | ⟨rfl, rfl, rfl⟩ |
    ⟨rfl, rfl, rfl⟩ | ⟨rfl, rfl, rfl⟩ <;> rfl

/-- Settles O8: an accepted command stands pending in its window, whose results then show only its tag. -/
theorem windowCommandsBecomePending : Obligations.WindowCommandsBecomePending := by
  intro s a w c i write hc h
  have hp := winPend_cmdWord (storeWrite s.m (winCmd i) (cmdWord write w)) i write w
  generalize hm : storeWrite s.m (winCmd i) (cmdWord write w) = m at hp
  generalize hq : winPend m i (cmdWord write w) = p at hp
  have hstore := storeWrite_only s.m (winCmd i) (cmdWord write w)
  rw [hm] at hstore
  have hwin (j : WinId) (x : AccRes) : winOf (setLmb (winAccept m i p) x) j
      = if i = j then { pend := some p, seq := p.seq } else winOf s.m j := by
    rw [show winOf (setLmb (winAccept m i p) x) j = winOf (winAccept m i p) j from rfl, winOf_winAccept]
    have hwins : m.wins = s.m.wins := hstore .wins (by decide)
    rw [show winOf m j = winOf s.m j by simp only [winOf, hwins]]
  refine ⟨_, (exec_windowCommand hc s).trans (windowCommand_next h), ?_, ?_, ?_, ?_, lmbOk_set _, ?_, ?_⟩
  all_goals rw [hm, hq]
  · refine ⟨p, by simp [hwin], ?_⟩
    rw [hp]
    simp
  · intro k
    simp only [winResult, hwin, if_true]
    rw [hp]
    simp [word]
  · intro j hj
    rw [hwin, if_neg (Ne.symm hj)]
  · show (winAccept m i p).cfg = _
    rw [winAccept_cfg, hstore .cfg (by decide), hp]
  · exact only_lmb (onlyParts_trans (onlyParts_mono hstore (by decide))
      (onlyParts_mono (winAccept_only m i p) (by decide))) (by decide)
  · intro b _
    show rget (winAccept m i p) b = _
    rw [rget_congr (winAccept_only m i p .regs (by decide)), ← hm, rget_storeWrite_winCmd]

/-! ### Completion (R607, R610) -/

theorem freeLine_only (m : Core) : m.onlyParts [.free] (freeLine m).2 := onlyParts_free _ _ (by decide)

/-- A probe of the deck consumes at most one free value. -/
theorem dirProbe_only (m : Core) (k : Nat) (e : Env) : m.onlyParts [.free] (dirProbe m k e).2 := by
  have hent (f : Option DeckFault) : m.onlyParts [.free] (probeEnt m k f).2.2 := by
    unfold probeEnt
    dsimp only
    split
    · exact freeLine_only m
    · exact freeLine_only m
    · exact freeLine_only m
    · exact onlyParts_refl _ _
  unfold dirProbe
  dsimp only
  split
  · exact onlyParts_refl _ _
  · exact hent _

/-- The reads of every window but DIR leave the machine as it was. -/
theorem winRead_state {m : Core} {i : WinId} (p : WinPend) (e : Env) (h : i ≠ .dir) : (winRead m i p e).2 = m := by
  cases i <;> first | rfl | exact absurd rfl h

theorem winRead_only (m : Core) (i : WinId) (p : WinPend) (e : Env) : m.onlyParts [.free] (winRead m i p e).2 := by
  by_cases h : i = .dir
  · subst h; exact dirProbe_only _ _ _
  · rw [winRead_state p e h]; exact onlyParts_refl _ _

theorem winComplete_read {m : Core} {i : WinId} {p : WinPend} (e : Env) (h : (winOf m i).pend = some p)
    (hw : p.write = false) : winComplete m i e
      = setWin (winRead m i p e).2 i { pend := none, seq := p.seq, valid := true, res := (winRead m i p e).1 } := by
  unfold winComplete
  rw [h]
  simp [hw]

/-- A write command of a window other than DIR puts its entry in place and shows it. -/
theorem winComplete_write {m : Core} {i : WinId} {p : WinPend} (e : Env) (hi : i ≠ .dir)
    (h : (winOf m i).pend = some p) (hw : p.write = true) : winComplete m i e
      = setWin (winWrite m i p) i
          { pend := none, seq := p.seq, valid := true, res := (winRead (winWrite m i p) i p e).1 } := by
  unfold winComplete
  rw [h]
  dsimp only
  rw [if_pos hw, winRead_state p e hi]

theorem modSet_only (m : Core) (e : Bool) (f : CfgSet → CfgSet) : m.onlyParts [.cfg] (modSet m e f) := by
  cases e <;> exact onlyParts_cfg _ _ (by decide)

theorem setOf_modSet_same (m : Core) (e : Bool) (f : CfgSet → CfgSet) : setOf (modSet m e f) e = f (setOf m e) := by
  cases e <;> rfl

theorem setOf_modSet_other (m : Core) (e : Bool) (f : CfgSet → CfgSet) : setOf (modSet m e f) (!e) = setOf m (!e) := by
  cases e <;> rfl

/-- What a completed write command leaves: the entry put in place, and its window valid. -/
theorem exec_windowWrite {s : State} {i : WinId} {p : WinPend} (e : Env) (part : Part) (hr : running s.m = true)
    (hi : i ≠ .dir) (h : (winOf s.m i).pend = some p) (hw : p.write = true)
    (ho : s.m.onlyParts [part] (winWrite s.m i p)) :
    ∃ x : Window, x.valid = true
      ∧ exec (.windowComplete i e) s = .next { s with m := setWin (winWrite s.m i p) i x }
      ∧ winOf (setWin (winWrite s.m i p) i x) i = x
      ∧ s.only [.wins, part] { s with m := setWin (winWrite s.m i p) i x } := by
  refine ⟨_, rfl, clocked_next (f := fun m => winComplete m i e) hr (winComplete_write e hi h hw), by rw [winOf_setWin, if_pos rfl], only_next ?_⟩
  exact onlyParts_trans (onlyParts_mono ho (by simp)) (onlyParts_wins _ _ (by simp))

/-- Settles O9: a command completes with the entry as `winRead` gives it, after `winWrite` has put it in place. -/
theorem windowCommandsComplete : Obligations.WindowCommandsComplete := by
  refine ⟨fun s i e p hr h hw => ?_, fun s e p hr hw => ⟨fun h htab => ?_, fun h => ?_, fun h => ?_, fun h => ?_⟩⟩
  · refine ⟨_, clocked_next (f := fun m => winComplete m i e) hr (winComplete_read e h hw), ?_, fun hi => only_next ?_, only_next ?_⟩
    · rw [winOf_setWin, if_pos rfl]
    · rw [winRead_state p e hi]
      exact onlyParts_wins _ _ (by decide)
    · exact onlyParts_trans (onlyParts_mono (winRead_only s.m i p e) (by decide)) (onlyParts_wins _ _ (by decide))
  · obtain ⟨x, hx, hn, hwin, ho⟩ := exec_windowWrite e .cfg hr (by decide) h hw (modSet_only _ _ _)
    refine ⟨_, hn, ?_, setOf_modSet_other s.m p.set _, by rw [hwin, hx], ho⟩
    show tget 0xFFFF (setOf (modSet s.m p.set _) p.set).wayMasks p.index = _
    rw [setOf_modSet_same, htab]
    simp [cfgPut]
  · obtain ⟨x, hx, hn, hwin, ho⟩ := exec_windowWrite e .atm hr (by decide) h hw (onlyParts_atm _ _ (by simp))
    exact ⟨_, hn, by simp [winWrite], by rw [hwin, hx], ho⟩
  · obtain ⟨x, hx, hn, hwin, ho⟩ := exec_windowWrite e .eic hr (by decide) h hw
      (onlyParts_trans (onlyParts_eic s.m _ (by simp)) (eicUpdate_only _))
    refine ⟨_, hn, ?_, eicUpdate_st _, by rw [hwin, hx], ho⟩
    simp only [srcCfg, winWrite, setWin_eic, eicUpdate_cfg, modEic_eic, tget_tput, if_true]
  · obtain ⟨x, hx, hn, hwin, ho⟩ := exec_windowWrite e .pmc hr (by decide) h hw (onlyParts_pmc _ _ (by simp))
    have hcfg : ctrCfg (setWin (winWrite s.m .pmc p) .pmc x) p.index = ctrOfWords p.words := by
      simp [ctrCfg, winWrite, modPmc]
    exact ⟨_, hn, by rw [hcfg]; rfl, by rw [hcfg]; rfl, by rw [hcfg]; rfl, by rw [hwin, hx], ho⟩

/-! ### Copies (R617) -/

theorem rget_storeWrite_start (m : Core) {a : Nat} (v : Word) (h : a = 0x404 ∨ a = 0x408) (b : Nat) :
    rget (storeWrite m a v) b = rget m b := by
  rcases h with rfl | rfl <;> exact store_wo rfl (by decide +kernel) (by decide +kernel) (by decide +kernel) b

/-- Settles O10: the copied set replaces the standby one. -/
theorem copyMakesTheSetsEqual : Obligations.CopyMakesTheSetsEqual := by
  refine ⟨fun s a h => ?_, fun s hr hc => ?_⟩
  · have hcfg : (storeWrite s.m 0x408 1).cfg = s.m.cfg := storeWrite_only s.m 0x408 1 .cfg (by decide)
    exact ⟨_, accepted_next h rfl rfl, rfl, rfl, (congrArg Cfg.set0 hcfg :), (congrArg Cfg.set1 hcfg :), lmbOk_set _,
      only_lmb (onlyParts_trans (storeWrite_parts _ _ _ (by decide)) (onlyParts_cfg _ _ (by decide))) (by decide),
      fun b _ => rget_storeWrite_start s.m 1 (.inr rfl) b⟩
  · let n := modCfg (modSet s.m (!s.m.cfg.epoch) fun _ => setOf s.m s.m.cfg.epoch)
      fun c => { c with copying := false, copyDone := true }
    have hdone : copyDone s.m = raise n 134 := by unfold copyDone; simp only [hc]; rfl
    have hcfg : (raise n 134).cfg = n.cfg := raise_only n 134 .cfg (by decide)
    have hset (e : Bool) : setOf n e = setOf s.m s.m.cfg.epoch := by
      cases e <;> cases he : s.m.cfg.epoch <;> simp [n, modCfg, modSet, Machine.setOf, he]
    refine ⟨_, clocked_next hr hdone, ?_, ?_, ?_, ?_, ?_, ?_, ?_, ?_⟩
    · exact (congrArg Cfg.set0 hcfg).trans (hset false)
    · exact (congrArg Cfg.set1 hcfg).trans (hset true)
    · refine (congrArg Cfg.epoch hcfg).trans ?_
      cases he : s.m.cfg.epoch <;> simp [n, modCfg, modSet, he]
    · rw [hcfg]; rfl
    · rw [hcfg]; rfl
    · exact raise_isPending _ _
    · exact only_next (onlyParts_trans (onlyParts_trans (onlyParts_mono (modSet_only _ _ _) (by decide))
        (onlyParts_cfg _ _ (by decide))) (onlyParts_mono (raise_only _ _) (by decide)))
    · have hregs : n.regs = s.m.regs := by
        show (modSet s.m _ _).regs = _
        exact modSet_only s.m _ _ .regs (by decide)
      exact onlyRegs_trans (onlyRegs_of_eq hregs) (raise_regs _ _)

/-! ### The points throw (R594, R622, R624, R625) -/

/-- The machine after a check of a throw: its result recorded, the check over. -/
def checked (m : Core) : Core :=
  modCfg (recordCheck m (throwCheck m)) fun c => { c with check := .idle, thrAcc := none }

theorem recordCheck_only (m : Core) (r : Option CheckFail) : m.onlyParts [.regs] (recordCheck m r) := by
  cases r <;> exact onlyParts_rset _ _ _ (by decide)

theorem recordCheck_regs (m : Core) (r : Option CheckFail) : m.onlyRegs [0x40C] (recordCheck m r) := by
  cases r <;> exact onlyRegs_rset _ _ _ (by decide)

theorem checked_cfg (m : Core) : (checked m).cfg = { m.cfg with check := .idle, thrAcc := none } := by
  have h : (recordCheck m (throwCheck m)).cfg = m.cfg := recordCheck_only m _ .cfg (by decide)
  simp only [checked, modCfg, h]

theorem checked_only (m : Core) : m.onlyParts [.regs, .cfg] (checked m) :=
  onlyParts_trans (onlyParts_mono (recordCheck_only m _) (by decide)) (onlyParts_cfg _ _ (by decide))

theorem rget_checked (m : Core) (a : Nat) : rget (checked m) a = rget (recordCheck m (throwCheck m)) a := rfl

/-- A passed check that an LMB master began flips the epoch. -/
theorem throwCheckDone_passed {m : Core} {mid : Nat} (hc : m.cfg.check = .throwCmd)
    (ha : m.cfg.thrAcc = some (mid, false, none)) (hm : mid < 6) (hp : throwCheck m = none) :
    throwCheckDone m = setLmb (flip (checked m)) (accOk 0) := by
  have h6 : mid ≠ 6 := by omega
  simp [throwCheckDone, hc, ha, hp, throwResult, h6, checked]

/-- A failed one rejects the write. -/
theorem throwCheckDone_failed {m : Core} {mid : Nat} {f : CheckFail} (hc : m.cfg.check = .throwCmd)
    (ha : m.cfg.thrAcc = some (mid, false, none)) (hm : mid < 6) (hp : throwCheck m = some f) :
    throwCheckDone m = setLmb (recorded (checked m) (rejectWord 8 mid false 0x404)) (accRej 8) := by
  have h6 : mid ≠ 6 := by omega
  have hrec := recordReject_write (m := checked m) (w := { mid := mid, priv := true }) (addr := 0x404) (code := 8) rfl
    (by decide) (by decide)
  rw [← hrec]
  simp [throwCheckDone, hc, ha, hp, throwResult, h6, checked]

theorem flip_only (m : Core) : m.onlyParts [.cfg] (flip m) := onlyParts_cfg _ _ (by decide)

theorem setPort_only (m : Core) (p : Nat) (q : Port) : m.onlyParts [.ports] (setPort m p q) :=
  onlyParts_ports _ _ (by decide)

/-- The credit books of a port after a drain that the port's link has seen. -/
def drainedPort (m : Core) (p : Nat) : Core :=
  let q := port m p
  if q.link = .starting || q.link = .complete then
    setPort m p ((List.range 12).foldl (fun q v => setVcb q v (bookThrow (allotOf (allotSet m) p v) (vcb q v))) q)
  else m

theorem drainedPort_only (m : Core) (p : Nat) : m.onlyParts [.ports] (drainedPort m p) := by
  unfold drainedPort
  dsimp only
  split
  · exact setPort_only _ _ _
  · exact onlyParts_refl _ _

/-- A drain that nothing holds open ends. -/
theorem drainEnd_next {m : Core} (hd : m.cfg.drain = true) (hh : drainHeld m = false) : drainEnd m
    = raise ((List.range 16).foldl drainedPort (modCfg m fun c => { c with drain := false })) 128 := by
  unfold drainEnd
  rw [if_neg (by simp [hd, hh])]
  rfl

/-- Settles O11: a throw goes through its check, the flip and the drain. -/
theorem throwFlipsTheEpoch : Obligations.ThrowFlipsTheEpoch := by
  refine ⟨fun s a h => ?_, fun s mid hr hc ha hm hp => ?_, fun s mid f hr hc ha hm hp => ?_, fun s hr hd hh => ?_⟩
  · have hst := storeWrite_only s.m 0x404 1
    have hw : lmbWrite a 0x404 1 s.m = modCfg (storeWrite s.m 0x404 1)
        fun c => { c with check := .throwCmd, thrAcc := some ((lmbWho a).mid, (lmbWho a).boot, none) } := by
      unfold lmbWrite regWrite
      rw [h.2]
      rfl
    refine ⟨_, clocked_next h.1 hw, rfl, rfl, ?_, ?_, only_next ?_, ?_⟩
    · have hcfg : (storeWrite s.m 0x404 1).cfg = s.m.cfg := hst .cfg (by decide)
      exact (congrArg Cfg.epoch hcfg :)
    · exact hst .lmb (by decide)
    · exact onlyParts_trans (onlyParts_mono hst (by decide)) (onlyParts_cfg _ _ (by decide))
    · exact fun b _ => rget_storeWrite_start s.m 1 (.inl rfl) b
  · refine ⟨_, clocked_next hr (throwCheckDone_passed hc ha hm hp), ?_, rfl, rfl, ?_, ?_, ?_, ?_,
      lmbOk_set _, only_lmb (onlyParts_trans (onlyParts_mono (checked_only _) (by decide))
        (onlyParts_mono (flip_only _) (by decide))) (by decide), ?_⟩
    · show (!(checked s.m).cfg.epoch) = _
      rw [checked_cfg]
    · show (checked s.m).cfg.check = _
      rw [checked_cfg]
    · show (checked s.m).cfg.set0 = _
      rw [checked_cfg]
    · show (checked s.m).cfg.set1 = _
      rw [checked_cfg]
    · show rbit (recordCheck s.m (throwCheck s.m)) 0x40C 31 = false
      rw [hp, recordCheck, rbit_rsetf _ _ _ _ _ _ _ (by decide)]
      rfl
    · exact recordCheck_regs s.m (throwCheck s.m)
  · have hcfg (x : Word) (y : AccRes) : (setLmb (recorded (checked s.m) x) y).cfg
        = { s.m.cfg with check := .idle, thrAcc := none } :=
      (recorded_only (checked s.m) x .cfg (by decide)).trans (checked_cfg s.m)
    refine ⟨_, clocked_next hr (throwCheckDone_failed hc ha hm hp), ?_, ?_, ?_, rfl, ?_,
      only_lmb (onlyParts_trans (onlyParts_mono (checked_only _) (by decide))
        (onlyParts_mono (recorded_only _ _) (by decide))) (by decide), ?_⟩
    · rw [hcfg]
    · rw [hcfg]
    · rw [hcfg]
    · show rget (recorded (checked s.m) _) 0x40C = _
      rw [recorded_regs (checked s.m) _ 0x40C (by decide), rget_checked, hp, recordCheck, rget_rset_same]
    · exact onlyRegs_trans (onlyRegs_mono (recordCheck_regs s.m (throwCheck s.m)) (by decide))
        (onlyRegs_mono (recorded_regs (checked s.m) _) (by decide))
  · have hports := onlyParts_foldl drainedPort drainedPort_only (List.range 16)
      (modCfg s.m fun c => { c with drain := false })
    refine ⟨_, clocked_next hr (drainEnd_next hd hh), ?_, raise_isPending _ _, only_next ?_, ?_⟩
    · exact (raise_only _ 128 .cfg (by decide)).trans (hports .cfg (by decide))
    · exact onlyParts_trans (onlyParts_trans (onlyParts_cfg _ _ (by decide)) (onlyParts_mono hports (by decide)))
        (onlyParts_mono (raise_only _ _) (by decide))
    · refine onlyRegs_trans (onlyRegs_of_eq ?_) (raise_regs _ _)
      exact hports .regs (by decide)

/-! ### The check (R622, Table CTL-3) -/

/-- Settles O12: the first two searches of the check find nothing. -/
theorem passedCheckMeansSoundRegions : Obligations.PassedCheckMeansSoundRegions := by
  intro m h
  simp only [throwCheck, Option.or_eq_none_iff] at h
  obtain ⟨hregions, hmasks, _⟩ := h
  refine ⟨fun x hx hv => ?_, fun i hi => ?_⟩
  · have hn := List.find?_eq_none.1 (Option.map_eq_none_iff.1 hregions) x hx
    simpa [hv] using hn
  · have hn := List.find?_eq_none.1 (Option.map_eq_none_iff.1 hmasks) i (List.mem_range.2 hi)
    simpa using hn

end Sys2Proof.Windows
end

section
/-! PROOFS. The controls of the ports, the image loader, the line caches, the memory and the directory: what their
accepted writes do, with the statements about them. -/

namespace Sys2Proof.Controls

open Sys2Proof.Machine Sys2Proof.Laws Sys2Proof.Access

/-! ### SPA passes to the next engine (R807) -/

theorem spaBreak_only (m : Core) : m.onlyParts [.regs, .spi] (spaBreak m) := by
  unfold spaBreak
  split
  · exact onlyParts_refl _ _
  · exact onlyParts_trans (onlyParts_spi m _ (by decide)) (onlyParts_rset _ _ _ (by decide))

theorem spaBreak_regs (m : Core) : m.onlyRegs [0x3814] (spaBreak m) := by
  unfold spaBreak
  split
  · exact onlyRegs_refl _ _
  · exact onlyRegs_trans (onlyRegs_of_eq (n := { m with spi := { m.spi with held := none } }) rfl)
      (onlyRegs_rset _ _ _ (by decide))

theorem spaBoundary_only (m : Core) : m.onlyParts [.regs, .spi] (spaBoundary m) := by
  unfold spaBoundary
  split
  · exact onlyParts_trans (spaBreak_only m) (onlyParts_spi _ _ (by decide))
  · split
    · exact onlyParts_trans (spaBreak_only m) (onlyParts_spi _ _ (by decide))
    · exact onlyParts_spi _ _ (by decide)

theorem spaBoundary_regs (m : Core) : m.onlyRegs [0x3814] (spaBoundary m) := by
  unfold spaBoundary
  split
  · exact onlyRegs_trans (spaBreak_regs m) (onlyRegs_of_eq rfl)
  · split
    · exact onlyRegs_trans (spaBreak_regs m) (onlyRegs_of_eq rfl)
    · exact onlyRegs_of_eq rfl

theorem spaCall_only (m : Core) : m.onlyParts [.regs, .spi] (spaCall m) := by
  unfold spaCall
  split
  · exact spaBoundary_only m
  · exact onlyParts_refl _ _

theorem spaCall_regs (m : Core) : m.onlyRegs [0x3814] (spaCall m) := by
  unfold spaCall
  split
  · exact spaBoundary_regs m
  · exact onlyRegs_refl _ _

/-! ### Registers that hold nothing -/

/-- The registers at an address all of whose fields are WO. -/
def commandReg (a : Nat) : Bool :=
  match regAt a with
  | some r => r.fields.all fun f => decide (f.acc = .wo)
  | none => true

/-- A write leaves such a register and every other one as it was. -/
theorem rget_storeWrite_command {m : Core} {a : Nat} (v : Word) (h : commandReg a = true) (b : Nat) :
    rget (storeWrite m a v) b = rget m b := by
  unfold commandReg at h
  cases hr : regAt a with
  | none => simp [storeWrite, hr]
  | some r =>
    rw [hr] at h
    have hmask (p : FieldDesc → Bool) (hp : ∀ f ∈ r.fields, p f = false) : r.maskOf p = 0 := by
      unfold RegDesc.maskOf
      rw [List.filter_eq_nil_iff.2 fun f hf => by simp [hp f hf]]
      rfl
    have hwo (f : FieldDesc) (hf : f ∈ r.fields) : f.acc = .wo := of_decide_eq_true (List.all_eq_true.1 h f hf)
    exact store_wo hr (hmask _ fun f hf => by simp [hwo f hf]) (hmask _ fun f hf => by simp [hwo f hf])
      (hmask _ fun f hf => by simp [hwo f hf]) b

/-! ### Credit allotments of a port (R250, R251) -/

theorem tget_tput_other {α : Type} [DecidableEq α] (d e : α) (t : Tab α) {k j : Nat} (v : α) (h : k ≠ j) :
    tget d (tput e t k v) j = tget d t j := by
  unfold tput tget
  split
  · rw [tfind_tdel, if_neg h]
  · rw [tfind_tset, if_neg h]

/-- The allotments after defaults were loaded into the listed channels of a port. -/
theorem allot_loadDefaults (x8 : Bool) (p q v : Nat) (hv : v < 12) (vs : List Nat) (hvs : ∀ w ∈ vs, w < 12) (t : Tab Nat) :
    tget (defaultAllot (decide (q < 8)) v) (vs.foldl (fun t w =>
        tput (defaultAllot (decide (p < 8)) w) t (12 * p + w) (defaultAllot x8 w)) t) (12 * q + v)
      = if p = q ∧ v ∈ vs then defaultAllot x8 v else tget (defaultAllot (decide (q < 8)) v) t (12 * q + v) := by
  induction vs generalizing t with
  | nil => simp
  | cons w ws ih =>
    have hw : w < 12 := hvs w (by simp)
    rw [List.foldl_cons, ih fun u hu => hvs u (by simp [hu])]
    by_cases hin : p = q ∧ v ∈ ws
    · rw [if_pos hin, if_pos ⟨hin.1, by simp [hin.2]⟩]
    · rw [if_neg hin]
      by_cases hk : p = q ∧ w = v
      · obtain ⟨rfl, rfl⟩ := hk
        rw [if_pos ⟨rfl, by simp⟩, tget_tput, if_pos rfl]
      · rw [tget_tput_other _ _ _ _ (by omega), if_neg]
        rintro ⟨rfl, hmem⟩
        rcases List.mem_cons.1 hmem with rfl | hmem
        · exact hk ⟨rfl, rfl⟩
        · exact hin ⟨rfl, hmem⟩

theorem allotOf_loadDefaults (x8 : Bool) (p q : Nat) (c : CfgSet) (v : Fin 12) :
    allotOf (loadDefaults x8 p c) q v.val = if p = q then defaultAllot x8 v.val else allotOf c q v.val := by
  have h := allot_loadDefaults x8 p q v.val v.isLt (List.range 12) (fun _ hw => List.mem_range.1 hw) c.allot
  rw [allotOf, loadDefaults, h]
  simp [v.isLt, allotOf]

/-- The sets after a change of a port's bifurcate bit. -/
theorem setOf_bifurcate (m : Core) (p : Nat) (on e : Bool) : Machine.setOf (bifurcate m p on) e
    = if on then loadDefaults false (p + 8) (loadDefaults false p (Machine.setOf m e))
      else loadDefaults true p (Machine.setOf m e) := by
  cases e <;> rfl

theorem bifurcate_only (m : Core) (p : Nat) (on : Bool) : m.onlyParts [.cfg] (bifurcate m p on) :=
  onlyParts_cfg _ _ (by decide)

/-! ### OLF.PORT_CFG (R869) -/

theorem portCfg_fields (p : Fin 16) : ∃ r, regAt (0x800 + 4 * p.val) = some r
    ∧ (∃ f ∈ r.fields, f.acc = .rw ∧ f.lo = 4 ∧ f.hi = 4) ∧ (∃ f ∈ r.fields, f.acc = .rw ∧ f.lo = 0 ∧ f.hi = 1)
    ∧ (p.val < 8 → ∃ f ∈ r.fields, f.acc = .rw ∧ f.lo = 8 ∧ f.hi = 8) := by
  revert p; decide +kernel

theorem fld_one (x : Word) (i : Nat) : fld x i i = b1 (bit x i) := by
  simp only [fld, bit, BitVec.getLsbD, b1, Nat.testBit_eq_decide_div_mod_eq, Nat.shiftRight_eq_div_pow,
    Nat.add_sub_cancel_left, decide_eq_true_eq, pow_one]
  split <;> omega

theorem b1_inj {a b : Bool} : b1 a = b1 b ↔ a = b := by cases a <;> cases b <;> decide

theorem changes_bit (m : Core) (a i : Nat) (v : Word) : changes m a v i i = (bit v i != rbit m a i) := by
  simp only [changes, rfld, rbit, fld_one, ne_eq, b1_inj]
  cases bit v i <;> cases bit (rget m a) i <;> rfl

/-- What an accepted write to OLF.PORT_CFG does beyond storing its fields: a changed bifurcate bit loads defaults. -/
theorem action_portCfg_port {old m : Core} {w : Who} {g : Option Msg} {p : Fin 16} {v : Word} (hp : p.val < 8) :
    writeAction old m w g (0x800 + 4 * p.val) v
      = if bit v 8 = bifurcated old p.val then m else bifurcate m p.val (bit v 8) := by
  rw [action_portCfg (by rw [portCfg_addr]; simpa using hp), changes_bit,
    show (0x800 + 4 * p.val - 0x800) / 4 = p.val by omega]
  by_cases h : bit v 8 = bifurcated old p.val
  · rw [if_pos h, if_neg (by rw [h]; simp [bifurcated])]
  · rw [if_neg h, if_pos (by simpa [bifurcated] using h)]

/-- A port of the upper half has no bifurcate bit. -/
theorem action_portCfg_half {old m : Core} {w : Who} {g : Option Msg} {p : Fin 16} {v : Word} (hp : ¬ p.val < 8) :
    writeAction old m w g (0x800 + 4 * p.val) v = m := by
  refine action_plain ?_
  have key : ∀ q : Fin 16, q.val < 8 ∨ plainAddr (0x800 + 4 * q.val) = true := by decide +kernel
  exact (key p).resolve_left hp

theorem writeAction_portCfg_only {old m : Core} {w : Who} {g : Option Msg} {p : Fin 16} {v : Word} :
    m.onlyParts [.cfg] (writeAction old m w g (0x800 + 4 * p.val) v) := by
  by_cases hp : p.val < 8
  · rw [action_portCfg_port hp]
    split
    · exact onlyParts_refl _ _
    · exact bifurcate_only _ _ _
  · rw [action_portCfg_half hp]
    exact onlyParts_refl _ _

theorem writeAction_portCfg_regs (old m : Core) (w : Who) (g : Option Msg) (p : Fin 16) (v : Word) :
    (writeAction old m w g (0x800 + 4 * p.val) v).regs = m.regs := writeAction_portCfg_only .regs (by decide)

/-- The sets after an accepted write to OLF.PORT_CFG. -/
theorem setOf_portCfgWrite (m : Core) (w : Who) (g : Option Msg) {p : Fin 16} (v : Word) (hp : p.val < 8) (x : AccRes)
    (e : Bool) : Machine.setOf (setLmb (writeAction m (storeWrite m (0x800 + 4 * p.val) v) w g (0x800 + 4 * p.val) v) x) e
      = if bit v 8 = bifurcated m p.val then Machine.setOf m e
        else if bit v 8 then loadDefaults false (p.val + 8) (loadDefaults false p.val (Machine.setOf m e))
        else loadDefaults true p.val (Machine.setOf m e) := by
  have hset : Machine.setOf (storeWrite m (0x800 + 4 * p.val) v) e = Machine.setOf m e := by
    have hcfg : (storeWrite m (0x800 + 4 * p.val) v).cfg = m.cfg := storeWrite_only _ _ _ .cfg (by decide)
    simp only [Machine.setOf, hcfg]
  have hlmb (n : Core) : Machine.setOf (setLmb n x) e = Machine.setOf n e := rfl
  rw [action_portCfg_port hp, hlmb]
  split
  · exact hset
  · rw [setOf_bifurcate, hset]

theorem portCfg_not_throw (p : Fin 16) (v : Word) : (decide (0x800 + 4 * p.val = 0x404) && bit v 0) = false := by
  have h : 0x800 + 4 * p.val ≠ 0x404 := by omega
  simp [h]

/-! ### Reload (R639) -/

/-- The image loader at the start of a reload: copy A is read next, and GEN.BOOT_STATUS is clear. -/
def reloading (m : Core) : Core :=
  { rset m 0x40 0 with
    boot := { m.boot with loading := 1, read := [], cut := false, ended := false, warm := false, recs := [] } }

theorem action_bootReload (old m : Core) (w : Who) (g : Option Msg) :
    writeAction old m w g 0x44 1 = spaCall (reloading m) := rfl

theorem reloading_only (m : Core) : m.onlyParts [.regs, .boot] (reloading m) :=
  onlyParts_trans (onlyParts_rset m 0x40 0 (by decide)) (onlyParts_boot _ _ (by decide))

theorem reloading_regs (m : Core) : m.onlyRegs [0x40] (reloading m) :=
  fun b hb => onlyRegs_rset m 0x40 0 (List.mem_singleton.2 rfl) b hb

theorem reloading_status (m : Core) : rget (reloading m) 0x40 = 0 := rget_rset_same m 0x40 0

/-! ### Link reset (R58) -/

theorem linkCtl_not_throw (p : Fin 16) (v : Word) : (decide (0x900 + 4 * p.val = 0x404) && bit v 0) = false := by
  have h : 0x900 + 4 * p.val ≠ 0x404 := by omega
  simp [h]

theorem linkCtl_not_report (p : Fin 16) : 0x900 + 4 * p.val ∉ journalRegs := by
  have h : 0x900 + 4 * p.val < 0x2000 := by have := p.isLt; omega
  simp only [journalRegs, reportRegs, List.mem_cons, List.not_mem_nil, or_false]
  omega

/-- Settles O6: each write stores its fields and does what its register's action says. -/
theorem portAndBootWritesTakeEffect : Obligations.PortAndBootWritesTakeEffect := by
  refine ⟨fun s a p v h => ?_, fun s a h => ?_, fun s a p h hl => ?_⟩
  · obtain ⟨r, hr, ⟨f4, hf4, ha4, hl4, hh4⟩, ⟨f0, hf0, ha0, hl0, hh0⟩, h8⟩ := portCfg_fields p
    refine ⟨_, clocked_accepted h (portCfg_not_throw p v), ?_, ?_, fun hp => ?_, fun hp hb hv e vc => ?_,
      fun hp hb hv e vc => ?_, lmbOk_set _, only_lmb (onlyParts_trans (storeWrite_parts _ _ _ (by decide))
        (onlyParts_mono writeAction_portCfg_only (by decide))) (by decide), ?_⟩
    · simp only [rbit_setLmb, rbit_congr (writeAction_portCfg_regs _ _ _ _ _ _)]
      exact store_rw hr hf4 (.inl ha4) (by omega) (by omega)
    · simp only [rfld, rget_setLmb, rget_congr (writeAction_portCfg_regs _ _ _ _ _ _)]
      exact store_fld hr hf0 (.inl ha0) 1 0 (by omega) (by omega)
    · obtain ⟨f8, hf8, ha8, hl8, hh8⟩ := h8 hp
      simp only [bifurcated, rbit_setLmb, rbit_congr (writeAction_portCfg_regs _ _ _ _ _ _)]
      exact store_rw hr hf8 (.inl ha8) (by omega) (by omega)
    · simp only [setOf_portCfgWrite s.m (lmbWho a) none v hp, hb, hv]
      simp [allotOf_loadDefaults]
    · simp only [setOf_portCfgWrite s.m (lmbWho a) none v hp, hb, hv]
      simp [allotOf_loadDefaults]
    · exact onlyRegs_trans (storeWrite_regs _ _ _) (onlyRegs_lmb (onlyRegs_of_eq (writeAction_portCfg_regs _ _ _ _ _ _)))
  · have hst := storeWrite_only s.m 0x44 1
    have hboot : (setLmb (spaCall (reloading (storeWrite s.m 0x44 1))) (accOk 0)).boot
        = (reloading (storeWrite s.m 0x44 1)).boot := spaCall_only _ .boot (by decide)
    refine ⟨_, accepted_next h rfl (action_bootReload _ _ _ _), ?_, ?_, ?_, ?_, lmbOk_set _, ?_, ?_⟩
    · rw [hboot]; rfl
    · rw [hboot]; rfl
    · rw [hboot]; rfl
    · exact (spaCall_regs _ 0x40 (by decide)).trans (reloading_status _)
    · exact only_lmb (onlyParts_trans (onlyParts_trans (onlyParts_mono hst (by decide))
        (onlyParts_mono (reloading_only _) (by decide))) (onlyParts_mono (spaCall_only _) (by decide))) (by decide)
    · exact onlyRegs_trans (fun b _ => rget_storeWrite_command 1 (by decide +kernel) b)
        (onlyRegs_trans (onlyRegs_mono (reloading_regs _) (by decide)) (onlyRegs_mono (spaCall_regs _) (by decide)))
  · have hact : writeAction s.m (storeWrite s.m (0x900 + 4 * p.val) 1) (lmbWho a) none (0x900 + 4 * p.val) 1
        = clearLink (storeWrite s.m (0x900 + 4 * p.val) 1) p.val .down := by
      rw [action_linkCtl (linkCtl_addr p), hl, show (0x900 + 4 * p.val - 0x900) / 4 = p.val by omega]
      rfl
    obtain ⟨l, hport⟩ := clearLink_port (storeWrite s.m (0x900 + 4 * p.val) 1) p.val .down
    refine ⟨_, accepted_next h (linkCtl_not_throw p 1) hact, ?_, ?_, ?_, ?_, lmbOk_set _⟩
    · simp only [rbit, rget_setLmb, clearLink_regs _ _ _ _ (linkCtl_not_report p)]
      exact store_rw (linkCtl_reg p) (List.mem_singleton.2 rfl) (.inl rfl) (Nat.le_refl 0) (Nat.le_refl 0)
    · exact congrArg Port.link hport
    · exact congrArg Port.replayBuf hport
    · exact congrArg Port.vcs hport

/-! ### Block controls -/

/-- A machine in which a row waits for a spare although no copy runs: DIR.SPARE_CMD does not start the row again. -/
def rowWaits : Core := { Tests.base with deck := { initDone := true, spareQ := [⟨false, 0⟩] } }

/-- Refutes O13: the last clause takes every machine in which the write is accepted, and in one in which the row that
is written stands in the queue of waiting rows while no copy runs, the write starts no copy. No step leads to such a
machine: a copy that ends starts the rows that wait. -/
theorem not_blockControlsTakeEffect : ¬ Obligations.BlockControlsTakeEffect := by
  intro h
  obtain ⟨-, -, -, -, -, hspare⟩ := h
  obtain ⟨t, ht, hdeck, -⟩ := hspare { m := rowWaits } ⟨0, true⟩ false 0 (by decide +kernel) (by decide +kernel)
  have hno : (match exec (.spareCmd ⟨0, true⟩ false 0) { m := rowWaits } with
    | .next t => t.m.deck.copying
    | _ => none) = none := by decide +kernel
  have hyes : t.m.deck.copying = some ⟨false, 0⟩ := by rw [hdeck]
  rw [ht] at hno
  exact absurd (hyes.symm.trans hno) (by simp)

end Sys2Proof.Controls
end

section
/-! PROOFS. Messages that Jalair originates (spec/02_olfer_messages.md): where `send` puts them. -/

namespace Sys2Proof.Sending

open Sys2Proof.Machine Sys2Proof.Laws

theorem tally_unconfigured {m : Core} (h : m.pmc.cfg = []) (b : Blk) (e n : Nat) : tally b e n m = m := by
  simp [tally, h]

theorem nodeId_congr {as : List Nat} {m n : Core} (h : m.onlyRegs as n) (ha : 0x20 ∉ as) : nodeId n = nodeId m := by
  simp only [nodeId, rfld, h 0x20 ha]

/-- Routes depend on the configuration sets and on the ports. -/
theorem routeOf_congr {m n : Core} (hc : n.cfg = m.cfg) (hp : n.ports = m.ports) (e : Bool) (d : NodeId) :
    routeOf n e d = routeOf m e d := by
  have hnamed : namedPort n e d = namedPort m e d := by simp only [namedPort, Machine.setOf, hc]
  have hport (p : Nat) : port n p = port m p := by simp only [port, hp]
  have hruns (p : Nat) : runsX4 n p = runsX4 m p := by rw [runsX4, runsX4, hport]
  have hstarted (p : Nat) : started n p = started m p := by rw [started, started, hport]
  simp only [routeOf, hnamed, hruns, hstarted]

/-- A message with a route joins the queue of its port, as Jalair's own. -/
theorem send_routed {m : Core} {src : Nat} {o : Option Nat} {e : Bool} {x : Msg} {p : Nat} (hd : x.dest ≠ nodeId m)
    (hr : routeOf m e x.dest = some p) : send m src o e x = enqueue (tally .xbr 3 1 m) p src o (stamped m x) := by
  have ht := tally_only .xbr 3 1 m
  have hn : nodeId (tally .xbr 3 1 m) = nodeId m := nodeId_congr (tally_regs .xbr 3 1 m) (by decide)
  have hroute : routeOf (tally .xbr 3 1 m) e x.dest = some p := by
    rw [routeOf_congr (ht .cfg (by decide)) (ht .ports (by decide)), hr]
  unfold send
  dsimp only
  rw [hn, if_neg hd, hroute]
  rfl

/-- A message to Jalair's own node is delivered to its inbox. -/
theorem send_self {m : Core} {src : Nat} {o : Option Nat} {e : Bool} {x : Msg} (hd : x.dest = nodeId m) :
    send m src o e x = deliver (tally .xbr 3 1 m) 16 (vcOf (stamped m x)) (stamped m x) := by
  have hn : nodeId (tally .xbr 3 1 m) = nodeId m := nodeId_congr (tally_regs .xbr 3 1 m) (by decide)
  unfold send
  dsimp only
  rw [hn, if_pos hd]
  rfl

/-- What stands at the end of a port's queue once a message has joined it: the message, with its dateline flag as the
port sets it. -/
theorem enqueue_port (m : Core) (p src : Nat) (o : Option Nat) (x : Msg) : ∃ d,
    port (enqueue m p src o x) p = { port m p with
      txq := (port m p).txq ++ [⟨src, vcOf { x with dateline := d }, { x with dateline := d }, o⟩] } := by
  unfold enqueue
  dsimp only
  rw [port_setPort, if_pos rfl]
  by_cases h : dateline m p = true
  · exact ⟨true, by rw [if_pos h]⟩
  · exact ⟨x.dateline, by rw [if_neg h]⟩

/-- A message with a route stands at the end of its port's queue. -/
theorem send_routed_port {m : Core} {src : Nat} {o : Option Nat} {e : Bool} {x : Msg} {p : Nat} (hd : x.dest ≠ nodeId m)
    (hr : routeOf m e x.dest = some p) : ∃ d, (port (send m src o e x) p).txq = (port m p).txq
      ++ [⟨src, vcOf { stamped m x with dateline := d }, { stamped m x with dateline := d }, o⟩] := by
  obtain ⟨d, h⟩ := enqueue_port (tally .xbr 3 1 m) p src o (stamped m x)
  have hp : port (tally .xbr 3 1 m) p = port m p := by
    simp only [port, show (tally .xbr 3 1 m).ports = m.ports from tally_only .xbr 3 1 m .ports (by decide)]
  exact ⟨d, by rw [send_routed hd hr, h, hp]⟩

/-- A queue that messages have only joined still holds what it held. -/
theorem mem_txq_of_joined {m n : Core} (h : joined m n) {p : Nat} {x : XItem} (hx : x ∈ (port m p).txq) :
    x ∈ (port n p).txq := by
  obtain ⟨l, hl⟩ := h p
  rw [hl]
  exact List.mem_append_left _ hx

end Sys2Proof.Sending
end

section
/-! PROOFS. The event interrupt controller (spec/13_interrupts.md): sources raised and cleared, claims and completions,
and `EVT` messages, with the statements about them. -/

namespace Sys2Proof.Events

open Sys2Proof.Machine Sys2Proof.Laws Sys2Proof.SoftReset Sys2Proof.Access Sys2Proof.Windows Sys2Proof.Controls
  Sys2Proof.Sending

/-! ### Sources after one of them is set -/

theorem srcSt_setSrc (m : Core) (n k : Nat) (x : SrcSt) : srcSt (setSrc m n x) k = if n = k then x else srcSt m k := by
  simp [srcSt]

theorem setSrc_only (m : Core) (n : Nat) (x : SrcSt) : m.onlyParts [.eic] (setSrc m n x) := onlyParts_eic _ _ (by decide)

theorem srcSt_eicUpdate (m : Core) (k : Nat) : srcSt (eicUpdate m) k = srcSt m k := by simp [srcSt]

theorem srcSt_congr {m n : Core} (h : n.eic = m.eic) (k : Nat) : srcSt n k = srcSt m k := by simp [srcSt, h]

/-! ### What a report leaves of the event controller -/

/-- The event controllers of two machines differ in the sources' states, the interrupt lines and the `EVT` records only,
and no `EVT` has become or ceased to be stalled. -/
structure Reported (m n : Core) : Prop where
  eic : ∃ x i e, n.eic = { m.eic with st := x, irq := i, evt := e }
  stalled : ∀ t, (tget {} n.eic.evt t).stalled = (tget {} m.eic.evt t).stalled

theorem reported_of_eq {m n : Core} (h : n.eic = m.eic) : Reported m n := ⟨⟨_, _, _, h⟩, fun t => by rw [h]⟩

theorem reported_trans {m n k : Core} (h : Reported m n) (g : Reported n k) : Reported m k := by
  obtain ⟨_, _, _, he⟩ := h.eic
  obtain ⟨x, i, e, hg⟩ := g.eic
  exact ⟨⟨x, i, e, by rw [hg, he]⟩, fun t => (g.stalled t).trans (h.stalled t)⟩

theorem evtDue_stalled (m : Core) (t u : Nat) :
    (tget {} (evtDue m t).eic.evt u).stalled = (tget {} m.eic.evt u).stalled := by
  unfold evtDue
  split
  · rfl
  · dsimp only
    rw [tget_tput]
    split
    · next h => rw [h]
    · rfl

theorem eicTarget_stalled (m : Core) (t u : Nat) :
    (tget {} (eicTarget m t).eic.evt u).stalled = (tget {} m.eic.evt u).stalled := by
  have hlevel (n : Core) (l : Nat) : (tget {} (evtLevel n t l).eic.evt u).stalled = (tget {} n.eic.evt u).stalled := by
    unfold evtLevel
    dsimp only
    rw [tget_tput]
    split
    · next h => rw [h]
    · rfl
  rw [eicTarget, hlevel, evtJudge]
  split
  · exact evtDue_stalled _ _ _
  · rfl

theorem eicUpdate_reported (m : Core) : Reported m (eicUpdate m) := by
  obtain ⟨i, e, h⟩ := eicUpdate_delivered m
  exact ⟨⟨_, i, e, h⟩, fun t => by simp only [eicUpdate, List.foldl, eicTarget_stalled]⟩

theorem setSrc_reported (m : Core) (n : Nat) (x : SrcSt) : Reported m (setSrc m n x) := ⟨⟨_, _, _, rfl⟩, fun _ => rfl⟩

theorem srcRaise_reported (m : Core) (n : Nat) : Reported m (srcRaise m n) := by
  unfold srcRaise
  split
  · exact setSrc_reported _ _ _
  · exact setSrc_reported _ _ _
  · exact reported_of_eq rfl

theorem raiseRaw_reported (m : Core) (n : Nat) : Reported m (raiseRaw m n) := by
  have hcheck : (whistleCheck (srcRaise m n) n).eic = (srcRaise m n).eic := whistleCheck_only _ n .eic (by decide)
  exact reported_trans (srcRaise_reported m n) (reported_trans (reported_of_eq hcheck) (eicUpdate_reported _))

theorem ctrAdd_reported (k : Nat) (c : CtrCfg) (n : Nat) (m : Core) : Reported m (ctrAdd k c n m) := by
  have hwrap (v : Nat) : Reported m (ctrWrap (ctrStore m k v) k) := reported_of_eq rfl
  unfold ctrAdd ctrReach
  split
  · exact reported_of_eq rfl
  · split
    · exact reported_trans (hwrap _) (raiseRaw_reported _ _)
    · exact hwrap _

theorem tally_reported (b : Blk) (e n : Nat) (m : Core) : Reported m (tally b e n m) := by
  unfold tally
  induction m.pmc.cfg generalizing m with
  | nil => exact reported_of_eq rfl
  | cons x r ih =>
    refine reported_trans ?_ (ih _)
    dsimp only
    split
    · exact ctrAdd_reported _ _ _ _
    · exact reported_of_eq rfl

/-- A report changes the sources' states, the interrupt lines and the `EVT` records only. -/
theorem raise_reported (m : Core) (n : Nat) : Reported m (raise m n) := by
  have hrepeat : Reported m (countRepeat m n) := by
    unfold countRepeat
    split
    · exact tally_reported _ _ _ _
    · exact reported_of_eq rfl
  exact reported_trans (reported_trans hrepeat (tally_reported .eic 1 1 _)) (raiseRaw_reported _ n)

theorem queueRecs_reported (m : Core) (q : List QRec) : Reported m (queueRecs m q) :=
  reported_trans (n := { m with jnl := { m.jnl with queue := q } }) (reported_of_eq rfl) (tally_reported .jnl 1 1 _)

theorem dropRec_reported (m : Core) (s : BitVec 4) : Reported m (dropRec m s) :=
  reported_trans (n := tally .jnl 3 1 (rinc m 0x2C20 1)) (reported_trans (n := rinc m 0x2C20 1) (reported_of_eq rfl)
    (tally_reported _ _ _ _)) (reported_of_eq rfl)

theorem journal_reported (m : Core) (t s : Nat) (p : BitVec 128) : Reported m (journal m t s p) := by
  unfold journal enqueueRec
  split
  · exact reported_of_eq rfl
  · split
    · exact queueRecs_reported _ _
    · split
      · exact reported_trans (queueRecs_reported _ _) (dropRec_reported _ _)
      · exact dropRec_reported _ _

theorem evinDrop_reported (m : Core) (n : Nat) : Reported m (evinDrop m n) := by
  unfold evinDrop
  split
  · exact reported_trans (setSrc_reported _ _ _) (eicUpdate_reported _)
  · exact reported_of_eq rfl

theorem Reported.stackOf {m n : Core} (h : Reported m n) (t : Nat) : stackOf n t = stackOf m t := by
  obtain ⟨x, i, e, h⟩ := h.eic
  simp [Machine.stackOf, h]

theorem Reported.srcCfg {m n : Core} (h : Reported m n) (k : Nat) : srcCfg n k = srcCfg m k := by
  obtain ⟨x, i, e, h⟩ := h.eic
  simp [Machine.srcCfg, h]

theorem Reported.evin {m n : Core} (h : Reported m n) : n.eic.evin = m.eic.evin ∧ n.eic.evinKnown = m.eic.evinKnown := by
  obtain ⟨x, i, e, h⟩ := h.eic
  simp [h]

/-! ### Inactive level-sensed inputs (R663) -/

theorem evinDrop_only (m : Core) (n : Nat) : m.onlyParts [.eic] (evinDrop m n) := by
  unfold evinDrop
  split
  · exact onlyParts_trans (setSrc_only _ _ _) (eicUpdate_only _)
  · exact onlyParts_refl _ _

theorem srcSt_evinDrop_other (m : Core) {n k : Nat} (h : n ≠ k) : srcSt (evinDrop m n) k = srcSt m k := by
  unfold evinDrop
  split
  · rw [srcSt_eicUpdate, srcSt_setSrc, if_neg h]
  · rfl

/-- A pin's source stops pending where the pin is level-sensed and not active. -/
theorem srcSt_evinDrop_inactive {m : Core} {n : Nat} (hn : n < 16) (hl : evinLevel m n = true)
    (ha : evinActive m n = false) : srcSt (evinDrop m n) n ≠ .pending := by
  unfold evinDrop
  by_cases hp : srcSt m n = .pending
  · rw [if_pos (by simp [hn, hl, ha, hp]), srcSt_eicUpdate, srcSt_setSrc, if_pos rfl]
    decide
  · rw [if_neg (by simp [hp])]
    exact hp

/-- Only a pin's pending source is dropped. -/
theorem evinDrop_kept {m : Core} {n : Nat} (h : 16 ≤ n ∨ srcSt m n ≠ .pending) : evinDrop m n = m := by
  unfold evinDrop
  rw [if_neg]
  rcases h with h | h
  · simp [Nat.not_lt.2 h]
  · simp [h]

/-! ### Pending bits cleared (R653) -/

/-- A source's state without its pending bit. -/
def unpend (x : SrcSt) : SrcSt :=
  match x with
  | .pending => .inactive
  | .both => .active
  | y => y

/-- One pending bit cleared. -/
def clearOne (m : Core) (n : Nat) : Core :=
  match srcSt m n with
  | .pending => setSrc m n .inactive
  | .both => setSrc m n .active
  | _ => m

theorem srcSt_clearOne (m : Core) (n k : Nat) :
    srcSt (clearOne m n) k = if n = k then unpend (srcSt m k) else srcSt m k := by
  unfold clearOne
  by_cases h : n = k
  · subst h
    rw [if_pos rfl]
    cases hs : srcSt m n <;> simp [unpend, srcSt_setSrc, hs]
  · rw [if_neg h]
    split
    · rw [srcSt_setSrc, if_neg h]
    · rw [srcSt_setSrc, if_neg h]
    · rfl

theorem clearOne_only (m : Core) (n : Nat) : m.onlyParts [.eic] (clearOne m n) := by
  unfold clearOne
  split
  · exact setSrc_only _ _ _
  · exact setSrc_only _ _ _
  · exact onlyParts_refl _ _

/-- The pending bits of the listed sources of a register cleared where the written value has ones. -/
def clearBits (k : Nat) (v : Word) (m : Core) (js : List Nat) : Core :=
  js.foldl (fun m j => if bit v j then clearOne m (32 * k + j) else m) m

theorem clearPending_eq (m : Core) (k : Nat) (v : Word) :
    clearPending m k v = eicUpdate (clearBits k v m (List.range 32)) := rfl

theorem clearBits_only (k : Nat) (v : Word) (m : Core) (js : List Nat) : m.onlyParts [.eic] (clearBits k v m js) := by
  refine onlyParts_foldl _ (fun m j => ?_) _ _
  split
  · exact clearOne_only _ _
  · exact onlyParts_refl _ _

theorem unpend_unpend (x : SrcSt) : unpend (unpend x) = unpend x := by cases x <;> rfl

theorem srcSt_clearBits (k : Nat) (v : Word) (n : Nat) (js : List Nat) (m : Core) :
    srcSt (clearBits k v m js) n
      = if ∃ j ∈ js, bit v j = true ∧ 32 * k + j = n then unpend (srcSt m n) else srcSt m n := by
  induction js generalizing m with
  | nil => simp [clearBits]
  | cons j js ih =>
    rw [show clearBits k v m (j :: js) = clearBits k v (if bit v j then clearOne m (32 * k + j) else m) js from rfl, ih]
    by_cases hj : bit v j = true ∧ 32 * k + j = n
    · obtain ⟨hb, he⟩ := hj
      rw [if_pos hb, srcSt_clearOne, if_pos he, unpend_unpend, ite_self, if_pos ⟨j, by simp, hb, he⟩]
    · have hstep : srcSt (if bit v j then clearOne m (32 * k + j) else m) n = srcSt m n := by
        split
        · next hb => rw [srcSt_clearOne, if_neg fun he => hj ⟨hb, he⟩]
        · rfl
      rw [hstep]
      refine if_congr ⟨fun ⟨i, hi, h⟩ => ⟨i, by simp [hi], h⟩, fun ⟨i, hi, h⟩ => ?_⟩ rfl rfl
      rcases List.mem_cons.1 hi with rfl | hi
      · exact absurd h hj
      · exact ⟨i, hi, h⟩

theorem unpend_not_pending (x : SrcSt) : unpend x ≠ .pending ∧ unpend x ≠ .both := by cases x <;> decide

theorem unpend_active (x : SrcSt) : (unpend x = .active ∨ unpend x = .both) ↔ (x = .active ∨ x = .both) := by
  cases x <;> decide

theorem srcSt_clearPending (m : Core) (k : Nat) (v : Word) (n : Nat) : srcSt (clearPending m k v) n
    = if ∃ j ∈ List.range 32, bit v j = true ∧ 32 * k + j = n then unpend (srcSt m n) else srcSt m n := by
  rw [clearPending_eq, srcSt_eicUpdate, srcSt_clearBits]

theorem clearPending_only (m : Core) (k : Nat) (v : Word) : m.onlyParts [.eic] (clearPending m k v) :=
  onlyParts_trans (clearBits_only _ _ _ _) (eicUpdate_only _)

/-! ### EVIN pins (R659 to R663) -/

/-- The machine once a pin's filtered value is known anew. -/
def pinSeen (m : Core) (n : Nat) (level : Bool) : Core :=
  modEic m fun x => { x with evin := tput false x.evin n level, evinKnown := tput false x.evinKnown n true }

theorem evinActive_pinSeen (m : Core) (n : Nat) (level : Bool) :
    evinActive (pinSeen m n level) n = decide (level = rbit m (0x2500 + 4 * n) 0) := by
  have hreg : rbit (pinSeen m n level) (0x2500 + 4 * n) 0 = rbit m (0x2500 + 4 * n) 0 := rfl
  rw [evinActive, hreg]
  simp [pinSeen]

/-- A changed filtered value of a known pin raises its source where it is active, and drops a level-sensed one where it
is not. -/
theorem evinChange_known {m : Core} {n : Nat} {level : Bool} (hk : tget false m.eic.evinKnown n = true)
    (hv : tget false m.eic.evin n ≠ level) : evinChange m n level
      = if level = rbit m (0x2500 + 4 * n) 0 then raise (pinSeen m n level) n
        else if evinLevel m n then evinDrop (pinSeen m n level) n else pinSeen m n level := by
  have hl : evinLevel (pinSeen m n level) n = evinLevel m n := rfl
  unfold evinChange
  simp only [hk, hv]
  show (if evinLevel (pinSeen m n level) n then (if evinActive (pinSeen m n level) n then raise (pinSeen m n level) n
      else evinDrop (pinSeen m n level) n) else if true && evinActive (pinSeen m n level) n then raise (pinSeen m n level) n
      else pinSeen m n level) = _
  rw [hl, evinActive_pinSeen]
  by_cases ha : level = rbit m (0x2500 + 4 * n) 0
  · simp [ha]
  · simp [ha]

theorem evinCfg_not_throw (n : Fin 16) (v : Word) : (decide (0x2500 + 4 * n.val = 0x404) && bit v 0) = false := by
  have h : 0x2500 + 4 * n.val ≠ 0x404 := by omega
  simp [h]

theorem evinCfg_level (n : Fin 16) : ∃ r, regAt (0x2500 + 4 * n.val) = some r
    ∧ ∃ f ∈ r.fields, f.acc = .rw ∧ f.lo = 1 ∧ f.hi = 1 := by
  revert n; decide +kernel

theorem pending_not_throw (k : Fin 8) (v : Word) : (decide (0x2400 + 4 * k.val = 0x404) && bit v 0) = false := by
  have h : 0x2400 + 4 * k.val ≠ 0x404 := by omega
  simp [h]

/-- A source number as a word's low byte. -/
theorem fld_setWidth (source : BitVec 8) : fld (source.setWidth 32) 7 0 = source.toNat := by
  have := source.isLt
  simp only [fld, BitVec.toNat_setWidth, Nat.shiftRight_zero]
  omega

/-- The machine once a pin's filter has restarted. -/
def pinForgotten (m : Core) (n : Nat) : Core :=
  modEic m fun x => { x with evinKnown := tput false x.evinKnown n false }

/-- Settles O14: sources are raised by `raise`, and lose their pending bit by `clearPending` and `evinDrop`. -/
theorem sourcesAreRaisedAndCleared : Obligations.SourcesAreRaisedAndCleared := by
  refine ⟨fun s a source h => ?_, fun s a k v h => ?_, fun s a n v h => ?_, fun s n level hr hk hv => ?_⟩
  · have hst := storeWrite_only s.m 0x2448 (source.setWidth 32)
    refine ⟨_, accepted_next (n := raise (storeWrite s.m 0x2448 (source.setWidth 32)) source.toNat) h rfl ?_,
      raise_isPending _ _, lmbOk_set _, only_lmb (onlyParts_trans (onlyParts_mono hst (by decide))
        (onlyParts_mono (raise_only _ _) (by decide))) (by decide), ?_⟩
    · show raise _ (fld (source.setWidth 32) 7 0) = _
      rw [fld_setWidth]
    · exact onlyRegs_trans (fun b _ => rget_storeWrite_command _ (by decide +kernel) b) (raise_regs _ _)
  · have hst := storeWrite_only s.m (0x2400 + 4 * k.val) v
    have hact : writeAction s.m (storeWrite s.m (0x2400 + 4 * k.val) v) (lmbWho a) none (0x2400 + 4 * k.val) v
        = clearPending (storeWrite s.m (0x2400 + 4 * k.val) v) k.val v := by
      rw [action_pending (pending_addr k), show (0x2400 + 4 * k.val - 0x2400) / 4 = k.val by omega]
    have hsrc (n : Nat) : srcSt (setLmb (clearPending (storeWrite s.m (0x2400 + 4 * k.val) v) k.val v) (accOk 0)) n
        = if ∃ j ∈ List.range 32, bit v j = true ∧ 32 * k.val + j = n then unpend (srcSt s.m n) else srcSt s.m n := by
      have hlmb (m : Core) (x : AccRes) : srcSt (setLmb m x) n = srcSt m n := rfl
      rw [hlmb, srcSt_clearPending, srcSt_congr (hst .eic (by decide))]
    refine ⟨_, accepted_next h (pending_not_throw k v) hact, fun j hj hb => ?_, fun n hn => ?_, fun n => ?_, lmbOk_set _,
      only_lmb (onlyParts_trans (onlyParts_mono hst (by decide)) (onlyParts_mono (clearPending_only _ _ _) (by decide)))
        (by decide), ?_⟩
    · have hne := unpend_not_pending (srcSt s.m (32 * k.val + j))
      simp only [isPending, hsrc, if_pos (show ∃ i ∈ List.range 32, bit v i = true ∧ 32 * k.val + i = 32 * k.val + j from
        ⟨j, List.mem_range.2 hj, hb, rfl⟩)]
      simp [hne.1, hne.2]
    · simp only [hsrc]
      refine if_neg ?_
      rintro ⟨j, hj, hb, rfl⟩
      have hj := List.mem_range.1 hj
      rcases hn with hn | hn
      · omega
      · rw [show (32 * k.val + j) % 32 = j by omega, hb] at hn
        cases hn
    · have hact (x : SrcSt) : (decide (unpend x = .active) || decide (unpend x = .both))
          = (decide (x = .active) || decide (x = .both)) := by cases x <;> rfl
      simp only [isActive, hsrc]
      split
      · exact hact _
      · rfl
    · exact onlyRegs_trans (storeWrite_regs _ _ _) (onlyRegs_lmb (onlyRegs_of_only (clearPending_only _ _ _) (by decide)))
  · have hst := storeWrite_only s.m (0x2500 + 4 * n.val) v
    obtain ⟨r, hreg, f, hf, hacc, hlo, hhi⟩ := evinCfg_level n
    generalize hm : storeWrite s.m (0x2500 + 4 * n.val) v = m at hst
    have hact : writeAction s.m m (lmbWho a) none (0x2500 + 4 * n.val) v = evinDrop (pinForgotten m n.val) n.val := by
      rw [action_evin (evinCfg_addr n), show (0x2500 + 4 * n.val - 0x2500) / 4 = n.val by omega]
      rfl
    have hdrop := evinDrop_only (pinForgotten m n.val) n.val
    have hknown : tget false (evinDrop (pinForgotten m n.val) n.val).eic.evinKnown n.val = false := by
      rw [(evinDrop_reported _ _).evin.2]
      simp [pinForgotten]
    have hlevel : evinLevel m n.val = bit v 1 := by
      rw [← hm]
      exact store_rw hreg hf (.inl hacc) (by omega) (by omega)
    have hinact : evinActive (pinForgotten m n.val) n.val = false := by simp [evinActive, pinForgotten]
    refine ⟨_, accepted_next h (evinCfg_not_throw n v) (by rw [hm, hact]), ?_, ?_, hknown, fun hb => ?_, lmbOk_set _,
      only_lmb (onlyParts_trans (onlyParts_mono hst (by decide)) (onlyParts_trans (onlyParts_eic _ _ (by decide))
        (onlyParts_mono hdrop (by decide)))) (by decide), ?_⟩
    · exact (rbit_congr (hdrop .regs (by decide)) _ _).trans hlevel
    · exact Bool.and_eq_false_iff.2 (.inl hknown)
    · exact srcSt_evinDrop_inactive n.isLt (hlevel.trans hb) hinact
    · refine onlyRegs_trans (n := m) (hm ▸ storeWrite_regs _ _ _) (onlyRegs_of_eq ?_)
      exact hdrop .regs (by decide)
  · have hseen : s.m.onlyParts [.eic] (pinSeen s.m n.val level) := onlyParts_eic _ _ (by decide)
    have hval : tget false (pinSeen s.m n.val level).eic.evin n.val = level := by simp [pinSeen]
    have hlevel : evinLevel (pinSeen s.m n.val level) n.val = evinLevel s.m n.val := rfl
    have hact := evinActive_pinSeen s.m n.val level
    refine ⟨_, clocked_next (f := fun m => evinChange m n.val level) hr (evinChange_known hk hv), ?_, fun ha => ?_,
      fun ha hl => ?_, only_next ?_, ?_⟩
    · dsimp only
      split
      · rw [(raise_reported _ _).evin.1, hval]
      · split
        · rw [(evinDrop_reported _ _).evin.1, hval]
        · exact hval
    · rw [if_pos ha]
      exact raise_isPending _ _
    · rw [if_neg ha, if_pos hl]
      exact srcSt_evinDrop_inactive n.isLt (hlevel.trans hl) (hact.trans (decide_eq_false ha))
    · split
      · exact onlyParts_trans (onlyParts_mono hseen (by decide)) (raise_only _ _)
      · split
        · exact onlyParts_mono (onlyParts_trans hseen (evinDrop_only _ _)) (by decide)
        · exact onlyParts_mono hseen (by decide)
    · dsimp only
      split
      · exact onlyRegs_trans (onlyRegs_of_only hseen (by decide)) (raise_regs _ _)
      · split
        · exact onlyRegs_of_only (onlyParts_trans hseen (evinDrop_only _ _)) (by decide)
        · exact onlyRegs_of_only hseen (by decide)

/-! ### Claims and completions (R651, R652, R667 to R672) -/

/-- Selection depends on the sources and on the registers of the target. -/
theorem selected_congr {m n : Core} (he : n.eic = m.eic) (hr : ∀ a, rget n a = rget m a) (t : Nat) :
    selected n t = selected m t := by
  have hst (k : Nat) : srcSt n k = srcSt m k := srcSt_congr he k
  have hcfg (k : Nat) : srcCfg n k = srcCfg m k := by rw [srcCfg, srcCfg, he]
  have hmode : threshMode n t = threshMode m t := by rw [threshMode, threshMode, rbit, rbit, hr]
  have hstack : stackOf n t = stackOf m t := by rw [stackOf, stackOf, he]
  have hthresh : rfld n (0x2484 + 0x20 * t) 3 0 = rfld m (0x2484 + 0x20 * t) 3 0 := by rw [rfld, rfld, hr]
  have hprio : runningPrio n t = runningPrio m t := by rw [runningPrio, runningPrio, hmode, hstack, hthresh]
  have helig (k : Nat) : eligible n t k = eligible m t k := by rw [eligible, eligible, hst, hcfg, hprio]
  simp only [selected, helig, hcfg, he]

/-- A claim's result register after the claim was counted. -/
def claimShown (m : Core) (t e : Nat) (w : Word) : Core := rset (tally .eic e 1 m) (0x2490 + 0x20 * t) w

theorem claimShown_only (m : Core) (t e : Nat) (w : Word) : m.onlyParts Part.report (claimShown m t e w) :=
  onlyParts_trans (tally_only _ _ _ _) (onlyParts_rset _ _ _ (by decide))

theorem claimShown_regs (m : Core) (t e : Nat) (w : Word) :
    m.onlyRegs ((0x2490 + 0x20 * t) :: reportRegs) (claimShown m t e w) :=
  onlyRegs_trans (onlyRegs_mono (tally_regs _ _ _ _) (by simp +contextual)) (onlyRegs_rset _ _ _ (by simp))

theorem claimShown_reported (m : Core) (t e : Nat) (w : Word) : Reported m (claimShown m t e w) :=
  reported_trans (tally_reported .eic e 1 m) (reported_of_eq rfl)

theorem rget_claimShown (m : Core) (t e : Nat) (w : Word) : rget (claimShown m t e w) (0x2490 + 0x20 * t) = w :=
  rget_rset_same _ _ _

theorem threshMode_claimShown (m : Core) (t : Fin 4) (e : Nat) (w : Word) :
    threshMode (claimShown m t.val e w) t.val = threshMode m t.val := by
  have ht := t.isLt
  unfold threshMode rbit
  rw [claimShown_regs m t.val e w]
  simp only [reportRegs, List.mem_cons, List.not_mem_nil, or_false]
  omega

/-- In STACK mode a claimed source and its level are pushed. -/
def pushClaim (m : Core) (t n l : Nat) : Core :=
  if threshMode m t then m else modEic m fun x => { x with stack := tput [] x.stack t ((n, l) :: tget [] x.stack t) }

theorem pushClaim_only (m : Core) (t n l : Nat) : m.onlyParts [.eic] (pushClaim m t n l) := by
  unfold pushClaim
  split
  · exact onlyParts_refl _ _
  · exact onlyParts_eic _ _ (by decide)

theorem srcSt_pushClaim (m : Core) (t n l k : Nat) : srcSt (pushClaim m t n l) k = srcSt m k := by
  unfold pushClaim
  split <;> rfl

theorem stackOf_pushClaim (m : Core) (t n l : Nat) :
    stackOf (pushClaim m t n l) t = if threshMode m t then stackOf m t else (n, l) :: stackOf m t := by
  unfold pushClaim
  split
  · rfl
  · simp [stackOf]

theorem stackOf_eicUpdate (m : Core) (t : Nat) : stackOf (eicUpdate m) t = stackOf m t := (eicUpdate_reported m).stackOf t

/-- A claim of source `n` of level `l`: its word `w` is shown, the source is active, and it stands on the stack. -/
def claimTaken (m : Core) (t n l : Nat) (w : Word) : Core :=
  eicUpdate (pushClaim (setSrc (claimShown m t 3 w) n .active) t n l)

theorem claimTaken_eic (m : Core) (t n l : Nat) (w : Word) : (claimShown m t 3 w).onlyParts [.eic] (claimTaken m t n l w) :=
  onlyParts_trans (onlyParts_trans (setSrc_only _ _ _) (pushClaim_only _ _ _ _)) (eicUpdate_only _)

theorem claimTaken_only (m : Core) (t n l : Nat) (w : Word) : m.onlyParts Part.report (claimTaken m t n l w) :=
  onlyParts_trans (claimShown_only _ _ _ _) (onlyParts_mono (claimTaken_eic _ _ _ _ _) (by decide))

theorem claimTaken_regs (m : Core) (t n l : Nat) (w : Word) :
    m.onlyRegs ((0x2490 + 0x20 * t) :: reportRegs) (claimTaken m t n l w) :=
  onlyRegs_trans (claimShown_regs _ _ _ _) (onlyRegs_of_only (claimTaken_eic _ _ _ _ _) (by decide))

theorem claimTaken_src (m : Core) (t n l : Nat) (w : Word) (r : AccRes) :
    srcSt (setLmb (claimTaken m t n l w) r) n = .active := by
  refine (srcSt_eicUpdate _ n).trans ?_
  rw [srcSt_pushClaim, srcSt_setSrc, if_pos rfl]

theorem claimTaken_stack (m : Core) (t : Fin 4) (n l : Nat) (w : Word) (r : AccRes) :
    stackOf (setLmb (claimTaken m t.val n l w) r) t.val
      = if threshMode m t.val then stackOf m t.val else (n, l) :: stackOf m t.val := by
  have hmode : threshMode (setSrc (claimShown m t.val 3 w) n .active) t.val = threshMode m t.val :=
    threshMode_claimShown m t 3 w
  have hstack : stackOf (setSrc (claimShown m t.val 3 w) n .active) t.val = stackOf m t.val :=
    (claimShown_reported m t.val 3 w).stackOf t.val
  refine (stackOf_eicUpdate _ t.val).trans ?_
  rw [stackOf_pushClaim, hmode, hstack]

theorem claimTaken_shown (m : Core) (t n l : Nat) (w : Word) (r : AccRes) :
    rfld (setLmb (claimTaken m t n l w) r) (0x2490 + 0x20 * t) 8 0 = fld w 8 0 := by
  rw [rfld_setLmb, rfld, rget_congr (claimTaken_eic m t n l w .regs (by decide)), rget_claimShown]

theorem claimShown_stack (m : Core) (t e : Nat) (w : Word) (r : AccRes) :
    stackOf (setLmb (claimShown m t e w) r) t = stackOf m t := (claimShown_reported m t e w).stackOf t

/-- The word of a claim's result. -/
def claimWord (m : Core) (t mid rest : Nat) : Word :=
  BitVec.ofNat 32 ((rfld m (0x2490 + 0x20 * t) 23 20 + 1) % 16 * 2 ^ 20 + mid * 2 ^ 16 + rest)

theorem claim_some {m : Core} {t n : Nat} (mid : Nat) (h : selected m t = some n) : claim m t mid
    = claimTaken m t n (srcCfg m n).1 (claimWord m t mid ((srcCfg m n).1 * 2 ^ 12 + n)) := by
  unfold claim
  rw [h]
  simp only [claimTaken, claimShown, claimWord, pushClaim, Nat.add_assoc]

theorem claim_none {m : Core} {t : Nat} (mid : Nat) (h : selected m t = none) :
    claim m t mid = claimShown m t 4 (claimWord m t mid 0x100) := by
  unfold claim
  rw [h]
  rfl

theorem claimWord_source (m : Core) (t mid l n : Nat) (hn : n < 256) : fld (claimWord m t mid (l * 2 ^ 12 + n)) 8 0 = n := by
  simp only [fld, claimWord, BitVec.toNat_ofNat, Nat.shiftRight_zero]
  omega

theorem claimWord_none (m : Core) (t mid : Nat) : bit (claimWord m t mid 0x100) 8 = true := by
  simp only [bit, claimWord, BitVec.getLsbD, BitVec.toNat_ofNat, Nat.testBit_eq_decide_div_mod_eq]
  exact decide_eq_true (by omega)

theorem claimNone_shown (m : Core) (t mid : Nat) (r : AccRes) :
    rbit (setLmb (claimShown m t 4 (claimWord m t mid 0x100)) r) (0x2490 + 0x20 * t) 8 = true := by
  rw [rbit_setLmb, rbit, rget_claimShown, claimWord_none]

/-- A source's state after its completion. -/
def completed (x : SrcSt) : SrcSt :=
  match x with
  | .active => .inactive
  | .both => .pending
  | y => y

/-- A source completed, before a level-sensed one is judged anew. -/
def completeOne (m : Core) (n : Nat) : Core :=
  match srcSt m n with
  | .active => setSrc m n .inactive
  | .both => setSrc m n .pending
  | _ => m

theorem completeSrc_eq (m : Core) (n : Nat) : completeSrc m n = eicUpdate (evinDrop (completeOne m n) n) := rfl

theorem srcSt_completeOne (m : Core) (n k : Nat) :
    srcSt (completeOne m n) k = if n = k then completed (srcSt m k) else srcSt m k := by
  unfold completeOne
  by_cases h : n = k
  · subst h
    rw [if_pos rfl]
    cases hs : srcSt m n <;> simp [completed, srcSt_setSrc, hs]
  · rw [if_neg h]
    split
    · rw [srcSt_setSrc, if_neg h]
    · rw [srcSt_setSrc, if_neg h]
    · rfl

theorem completeOne_only (m : Core) (n : Nat) : m.onlyParts [.eic] (completeOne m n) := by
  unfold completeOne
  split
  · exact setSrc_only _ _ _
  · exact setSrc_only _ _ _
  · exact onlyParts_refl _ _

theorem completeOne_stack (m : Core) (n : Nat) : (completeOne m n).eic.stack = m.eic.stack := by
  unfold completeOne
  split <;> rfl

theorem completeSrc_only (m : Core) (n : Nat) : m.onlyParts [.eic] (completeSrc m n) :=
  onlyParts_trans (onlyParts_trans (completeOne_only m n) (evinDrop_only _ _)) (eicUpdate_only _)

theorem Reported.stack {m n : Core} (h : Reported m n) : n.eic.stack = m.eic.stack := by
  obtain ⟨x, i, e, h⟩ := h.eic
  simp [h]

theorem completeSrc_stack (m : Core) (n : Nat) : (completeSrc m n).eic.stack = m.eic.stack := by
  rw [completeSrc_eq, (eicUpdate_reported _).stack, (evinDrop_reported _ _).stack, completeOne_stack]

/-- What a completion leaves of the sources: the completed one in its next state, but that a pin's source may stop
pending; every other one as it was. -/
theorem srcSt_completeSrc (m : Core) (n : Nat) :
    (srcSt m n = .active → srcSt (completeSrc m n) n = .inactive)
      ∧ (srcSt m n = .both → 16 ≤ n → srcSt (completeSrc m n) n = .pending)
      ∧ ∀ k, k ≠ n → srcSt (completeSrc m n) k = srcSt m k := by
  have hone : srcSt (completeOne m n) n = completed (srcSt m n) := by rw [srcSt_completeOne, if_pos rfl]
  rw [completeSrc_eq]
  simp only [srcSt_eicUpdate]
  refine ⟨fun h => ?_, fun h hn => ?_, fun k hk => ?_⟩
  · rw [h] at hone
    rw [evinDrop_kept (.inr (by rw [hone]; decide)), hone]
    rfl
  · rw [evinDrop_kept (.inl hn), hone, h]
    rfl
  · rw [srcSt_evinDrop_other _ (Ne.symm hk), srcSt_completeOne, if_neg (Ne.symm hk)]

/-- The top of a target's stack is popped. -/
def popped (m : Core) (t : Nat) : Core :=
  modEic m fun x => { x with stack := tput [] x.stack t ((tget [] x.stack t).drop 1) }

theorem popped_only (m : Core) (t : Nat) : m.onlyParts [.eic] (popped m t) := onlyParts_eic _ _ (by decide)

theorem srcSt_popped (m : Core) (t k : Nat) : srcSt (popped m t) k = srcSt m k := rfl

theorem stackOf_popped (m : Core) (t : Nat) : stackOf (popped m t) t = (stackOf m t).drop 1 := by
  simp [stackOf, popped]

theorem eoi_eq (m : Core) (t n : Nat) : eoi m t n = completeSrc (popped m t) n := rfl

/-- The registers of a target. -/
theorem target_addr (n : Fin 4) {k : Nat} (h : k < 32) : (0x2480 + k + 0x20 * n.val - 0x2480) / 32 = n.val
    ∧ (0x2480 + k + 0x20 * n.val) % 32 = k ∧ 0x2480 ≤ 0x2480 + k + 0x20 * n.val ∧ 0x2480 + k + 0x20 * n.val < 0x2500 := by
  have := n.isLt
  omega

theorem action_targetReg {old m : Core} {w : Who} {g : Option Msg} {v : Word} (n : Fin 4) {k a : Nat} (h : k < 32)
    (ha : a = 0x2480 + k + 0x20 * n.val) : writeAction old m w g a v = targetWrite m w n.val k v := by
  subst ha
  obtain ⟨hix, hk, hlo, hhi⟩ := target_addr n h
  rw [action_target hlo hhi, hix, hk]

theorem target_command (n : Fin 4) : commandReg (0x248C + 0x20 * n.val) = true
    ∧ commandReg (0x2494 + 0x20 * n.val) = true ∧ commandReg (0x2498 + 0x20 * n.val) = true := by
  revert n; decide +kernel

theorem not_throw {a : Nat} (v : Word) (h : a ≠ 0x404) : (decide (a = 0x404) && bit v 0) = false := by simp [h]

theorem targetWrite_claim (m : Core) (w : Who) (t : Nat) : targetWrite m w t 12 1 = claim m t w.mid := by
  show (if bit (1 : Word) 0 then claim m t w.mid else m) = _
  rw [if_pos (by decide)]

/-- A register write that breaks a rule of state, and none of the checks before it, is rejected with WRONG_STATE. -/
theorem writeCode_wrongState {m : Core} {a : Lmb} {addr : Nat} {v : Word} {r : RegDesc} (hmid : a.mid.toNat < 6)
    (hp : a.priv = true) (hb : m.boot.applying = false) (hs : inSoftReset m addr = false) (hser : addr ≠ 0x2810)
    (hr : regAt addr = some r) (hro : r.allRo = false) (hview : isView addr = false) (hrwl : r.hasRwl = false)
    (hwin : winOfCmd addr = none) (hw : wrongState m (lmbWho a) addr v = true) : writeCode m (lmbWho a) addr v = 5 := by
  have hmay : mayWrite m (lmbWho a) addr = true := by simp [mayWrite, hser, lmbWho, hp]
  have hsix : (decide (6 ≤ a.mid.toNat)) = false := by simpa using hmid
  have hpass : ((lmbWho a).lmb && decide (6 ≤ (lmbWho a).mid)) = false := hsix
  simp only [writeCode, hpass, hr, hmay, hs, hb, writeReadOnly, hro, hview, hrwl, hwin, hw, Bool.not_true, Bool.false_and,
    Bool.or_self, Bool.false_eq_true, if_false, if_true]

theorem target_order_regs (n : Fin 4) (k : Nat) (h : k = 20 ∨ k = 24) : ∃ r, regAt (0x2480 + k + 0x20 * n.val) = some r
    ∧ r.allRo = false ∧ r.hasRwl = false ∧ winOfCmd (0x2480 + k + 0x20 * n.val) = none
    ∧ isView (0x2480 + k + 0x20 * n.val) = false := by
  rcases h with rfl | rfl <;> revert n <;> decide +kernel

theorem wrongState_eoi (m : Core) (w : Who) (n : Fin 4) (v : Word) :
    wrongState m w (0x2494 + 0x20 * n.val) v = !eoiOk m n.val (fld v 7 0) := by
  match n with
  | 0 => rfl
  | 1 => rfl
  | 2 => rfl
  | 3 => rfl

theorem wrongState_complete (m : Core) (w : Who) (n : Fin 4) (v : Word) :
    wrongState m w (0x2498 + 0x20 * n.val) v = !completeOk m n.val (fld v 7 0) := by
  match n with
  | 0 => rfl
  | 1 => rfl
  | 2 => rfl
  | 3 => rfl

/-- A privileged write to EIC.Tn_EOI or EIC.Tn_COMPLETE out of order is rejected, and changes no source. -/
theorem order_rejected {s : State} {a : Lmb} {n : Fin 4} {k addr : Nat} {v : Word}
    (ha : addr = 0x2480 + k + 0x20 * n.val) (hk : k = 20 ∨ k = 24)
    (hr : running s.m = true) (hmid : a.mid.toNat < 6) (hp : a.priv = true) (hb : s.m.boot.applying = false)
    (hs : softHeld s.m 1 = false) (hw : wrongState s.m (lmbWho a) addr v = true) :
    ∃ t, clocked (lmbWrite a addr v) s = .next t ∧ t.m.lmb = ⟨false, 5, 0⟩ ∧ t.m.eic = s.m.eic := by
  subst ha
  obtain ⟨r, hreg, hro, hrwl, hwin, hview⟩ := target_order_regs n k hk
  have hblk : (0x2480 + k + 0x20 * n.val) / 0x400 = 9 := by have := n.isLt; omega
  have hser : 0x2480 + k + 0x20 * n.val ≠ 0x2810 := by have := n.isLt; omega
  have hcode := writeCode_wrongState hmid hp hb (by simp [inSoftReset, hblk, hs]) hser hreg hro hview hrwl hwin hw
  refine ⟨_, clocked_next hr (lmbWrite_rejected (by rw [hcode]; decide)), by rw [hcode]; rfl, ?_⟩
  rw [hcode, recordReject_write rfl hser (by decide)]
  exact recorded_only _ _ .eic (by decide)

/-- Settles O15: a claim selects, shows and pushes; an EOI and a completion complete their source. -/
theorem claimsAndCompletionsMoveTheSource : Obligations.ClaimsAndCompletionsMoveTheSource := by
  refine ⟨fun s a n k h hsel hk => ?_, fun s a n h hsel => ?_, fun s a n source h => ?_, fun s a n source h => ?_,
    fun s a n source hr hmid hp hb hs htop => ?_, fun s a n source hr hmid hp hb hs hact => ?_⟩
  · have hst := storeWrite_only s.m (0x248C + 0x20 * n.val) 1
    have hreg := rget_storeWrite_command (m := s.m) 1 (target_command n).1
    generalize hm : storeWrite s.m (0x248C + 0x20 * n.val) 1 = m at hst hreg
    have heic : m.eic = s.m.eic := hst .eic (by decide)
    have hact : writeAction s.m m (lmbWho a) none (0x248C + 0x20 * n.val) 1 = claim m n.val (lmbWho a).mid :=
      (action_targetReg n (k := 12) (by decide) (by omega)).trans (targetWrite_claim _ _ _)
    rw [claim_some _ ((selected_congr heic hreg n.val).trans hsel)] at hact
    have hmode : threshMode m n.val = threshMode s.m n.val := by simp only [threshMode, rbit, hreg]
    have hstk : stackOf m n.val = stackOf s.m n.val := by rw [stackOf, stackOf, heic]
    have hcfg : srcCfg m k = srcCfg s.m k := by rw [srcCfg, srcCfg, heic]
    refine ⟨_, accepted_next h (not_throw 1 (by omega)) (by rw [hm, hact]), ?_, fun ht => ?_, fun ht => ?_, ?_, lmbOk_set _,
      only_lmb (onlyParts_trans (onlyParts_mono hst (by decide))
        (onlyParts_mono (claimTaken_only _ _ _ _ _) (by decide))) (by decide), ?_⟩
    · exact claimTaken_src _ _ _ _ _ _
    · exact (claimTaken_stack _ _ _ _ _ _).trans (by rw [hmode, ht, hcfg, hstk]; rfl)
    · exact (claimTaken_stack _ _ _ _ _ _).trans (by rw [hmode, ht, hstk]; rfl)
    · exact (claimTaken_shown _ _ _ _ _ _).trans (claimWord_source _ _ _ _ _ hk)
    · exact onlyRegs_lmb (onlyRegs_trans (fun b _ => hreg b) (claimTaken_regs _ _ _ _ _))
  · have hst := storeWrite_only s.m (0x248C + 0x20 * n.val) 1
    have hreg := rget_storeWrite_command (m := s.m) 1 (target_command n).1
    generalize hm : storeWrite s.m (0x248C + 0x20 * n.val) 1 = m at hst hreg
    have heic : m.eic = s.m.eic := hst .eic (by decide)
    have hact : writeAction s.m m (lmbWho a) none (0x248C + 0x20 * n.val) 1 = claim m n.val (lmbWho a).mid :=
      (action_targetReg n (k := 12) (by decide) (by omega)).trans (targetWrite_claim _ _ _)
    rw [claim_none _ ((selected_congr heic hreg n.val).trans hsel)] at hact
    have hstk : stackOf m n.val = stackOf s.m n.val := by rw [stackOf, stackOf, heic]
    refine ⟨_, accepted_next h (not_throw 1 (by omega)) (by rw [hm, hact]), ?_, ?_, lmbOk_set _,
      only_lmb (onlyParts_trans (onlyParts_mono hst (by decide))
        (onlyParts_mono (claimShown_only _ _ _ _) (by decide))) (by decide), ?_⟩
    · exact claimNone_shown _ _ _ _
    · exact (claimShown_stack _ _ _ _ _).trans hstk
    · exact onlyRegs_lmb (onlyRegs_trans (fun b _ => hreg b) (claimShown_regs _ _ _ _))
  · have hst := storeWrite_only s.m (0x2494 + 0x20 * n.val) (source.setWidth 32)
    have hreg := rget_storeWrite_command (m := s.m) (source.setWidth 32) (target_command n).2.1
    generalize hm : storeWrite s.m (0x2494 + 0x20 * n.val) (source.setWidth 32) = m at hst hreg
    have heic : m.eic = s.m.eic := hst .eic (by decide)
    have hact : writeAction s.m m (lmbWho a) none (0x2494 + 0x20 * n.val) (source.setWidth 32)
        = completeSrc (popped m n.val) source.toNat :=
      (action_targetReg n (k := 20) (by decide) (by omega)).trans (by simp only [targetWrite, fld_setWidth, eoi_eq])
    have honly : m.onlyParts [.eic] (completeSrc (popped m n.val) source.toNat) :=
      onlyParts_trans (popped_only _ _) (completeSrc_only _ _)
    obtain ⟨hinact, hpend, hother⟩ := srcSt_completeSrc (popped m n.val) source.toNat
    simp only [srcSt_popped, srcSt_congr heic] at hinact hpend hother
    refine ⟨_, accepted_next (n := completeSrc (popped m n.val) source.toNat) h (not_throw _ (by omega)) (by rw [hm, hact]), ?_, hinact, hpend, hother, lmbOk_set _,
      only_lmb (onlyParts_trans (onlyParts_mono hst (by decide)) (onlyParts_mono honly (by decide))) (by decide), ?_⟩
    · have hstk : stackOf (completeSrc (popped m n.val) source.toNat) n.val = stackOf (popped m n.val) n.val := by
        rw [stackOf, completeSrc_stack, stackOf]
      refine hstk.trans ?_
      rw [stackOf_popped, stackOf, heic, stackOf]
    · exact onlyRegs_trans (fun b _ => hreg b) (onlyRegs_lmb (onlyRegs_of_only honly (by decide)))
  · have hst := storeWrite_only s.m (0x2498 + 0x20 * n.val) (source.setWidth 32)
    have hreg := rget_storeWrite_command (m := s.m) (source.setWidth 32) (target_command n).2.2
    generalize hm : storeWrite s.m (0x2498 + 0x20 * n.val) (source.setWidth 32) = m at hst hreg
    have heic : m.eic = s.m.eic := hst .eic (by decide)
    have hact : writeAction s.m m (lmbWho a) none (0x2498 + 0x20 * n.val) (source.setWidth 32) = completeSrc m source.toNat :=
      (action_targetReg n (k := 24) (by decide) (by omega)).trans (by simp only [targetWrite, fld_setWidth])
    have hsrc (k : Nat) : srcSt m k = srcSt s.m k := srcSt_congr heic k
    obtain ⟨hinact, hpend, hother⟩ := srcSt_completeSrc m source.toNat
    simp only [hsrc] at hinact hpend hother
    refine ⟨_, accepted_next (n := completeSrc m source.toNat) h (not_throw _ (by omega)) (by rw [hm, hact]), hinact, hpend, hother, ?_, lmbOk_set _,
      only_lmb (onlyParts_trans (onlyParts_mono hst (by decide))
        (onlyParts_mono (completeSrc_only _ _) (by decide))) (by decide), ?_⟩
    · exact (completeSrc_stack m source.toNat).trans (by rw [heic])
    · exact onlyRegs_trans (fun b _ => hreg b) (onlyRegs_lmb (onlyRegs_of_only (completeSrc_only _ _) (by decide)))
  · refine order_rejected (n := n) (k := 20) (by omega) (.inl rfl) hr hmid hp hb hs ?_
    rw [wrongState_eoi, fld_setWidth, eoiOk]
    cases hstk : stackOf s.m n.val with
    | nil => simp
    | cons x r =>
      have hne : x.1 ≠ source.toNat := by simpa [hstk] using htop
      simp [hne]
  · refine order_rejected (n := n) (k := 24) (by omega) (.inr rfl) hr hmid hp hb hs ?_
    rw [wrongState_complete, fld_setWidth, completeOk, hact]
    simp

/-! ### `EVT` messages (R676 to R680) -/

/-- The record of a due `EVT` once it has been sent. -/
def sentEvt (m : Core) (t : Nat) : Core :=
  modEic m fun x => { x with evt := tput {} x.evt t { tget {} m.eic.evt t with
    waiting := false, stalled := false, sent := (tget {} m.eic.evt t).sent + 1 } }

/-- The `EVT` that a target sends for a source. -/
def evtMsg (m : Core) (t n : Nat) : Msg :=
  { op := .evt, dest := BitVec.ofNat 16 (rfld m (0x2488 + 0x20 * t) 15 0), status := BitVec.ofNat 8 t
    aux := BitVec.ofNat 16 n
    data := bePut ((tget {} m.eic.evt t).sent + 1).toNat 0 4 ||| bePut (srcCfg m n).1 4 1 }

theorem evtSend_next {m : Core} {t n : Nat} (hw : (tget {} m.eic.evt t).waiting = true)
    (hs : (tget {} m.eic.evt t).stalled = false) (hsel : selected m t = some n) :
    evtSend m t = sendMgt (tally .eic 5 1 (sentEvt m t)) (evtMsg m t n) := by
  unfold evtSend
  simp only [hw, hs, evtContent, hsel]
  rfl

theorem evtDue_some {m : Core} {t n : Nat} (h : selected m t = some n) :
    tget {} (evtDue m t).eic.evt t = { tget {} m.eic.evt t with
      waiting := true, source := n, level := (srcCfg m n).1
      since := if (tget {} m.eic.evt t).waiting then (tget {} m.eic.evt t).since else m.stmp } := by
  simp [evtDue, h]

/-- The record of a due `EVT` that has waited too long. -/
def stalledEvt (m : Core) (t : Nat) : Core :=
  modEic m fun x => { x with evt := tput {} x.evt t { tget {} m.eic.evt t with stalled := true } }

theorem stalledEvt_stalled (m : Core) (t : Nat) : (tget {} (stalledEvt m t).eic.evt t).stalled = true := by
  simp [stalledEvt]

theorem evtStall_next {m : Core} {t : Nat} (hw : (tget {} m.eic.evt t).waiting = true)
    (hs : (tget {} m.eic.evt t).stalled = false) :
    evtStall m t = journalFab (stalledEvt m t) 2 6 (rfld m (0x2488 + 0x20 * t) 15 0) t := by
  unfold evtStall
  dsimp only
  rw [if_neg (by rw [hw, hs]; decide)]
  rfl

/-- Settles O16: a due message is sent with what the target selects now. -/
theorem eventsAreSentAndResent : Obligations.EventsAreSentAndResent := by
  refine ⟨fun s n k p hr hw hs hc hsel hd hroute => ?_, fun s n k hr hb hsel => ?_, fun s n hr hw hs => ?_⟩
  · have hnode : nodeId (sentEvt s.m n.val) = nodeId s.m := rfl
    have hcount : tally .eic 5 1 (sentEvt s.m n.val) = sentEvt s.m n.val := tally_unconfigured (m := sentEvt s.m n.val) hc _ _ _
    have hxbr : tally .xbr 3 1 (sentEvt s.m n.val) = sentEvt s.m n.val :=
      tally_unconfigured (m := sentEvt s.m n.val) hc _ _ _
    have hto : { evtMsg s.m n.val k with epoch := (sentEvt s.m n.val).cfg.epoch }.dest ≠ nodeId (sentEvt s.m n.val) := hd
    have hport : routeOf (sentEvt s.m n.val) (sentEvt s.m n.val).cfg.epoch
        { evtMsg s.m n.val k with epoch := (sentEvt s.m n.val).cfg.epoch }.dest = some p :=
      (routeOf_congr (m := s.m) rfl rfl _ _).trans hroute
    have hnext : evtSend s.m n.val = enqueue (sentEvt s.m n.val) p 17 none (stamped (sentEvt s.m n.val)
        { evtMsg s.m n.val k with epoch := (sentEvt s.m n.val).cfg.epoch }) := by
      rw [evtSend_next hw hs hsel, hcount, sendMgt,
        send_routed hto hport, hxbr]
    have hevt : (tget {} (sentEvt s.m n.val).eic.evt n.val) = { tget {} s.m.eic.evt n.val with
        waiting := false, stalled := false, sent := (tget {} s.m.eic.evt n.val).sent + 1 } := by simp [sentEvt]
    obtain ⟨d, hport⟩ := enqueue_port (sentEvt s.m n.val) p 17 none (stamped (sentEvt s.m n.val)
        { evtMsg s.m n.val k with epoch := (sentEvt s.m n.val).cfg.epoch })
    refine ⟨_, clocked_next (f := fun m => evtSend m n.val) hr hnext, ?_, ?_, ?_, only_next ?_⟩
    · exact congrArg EvtSt.waiting hevt
    · exact congrArg EvtSt.sent hevt
    · dsimp only
      rw [hport]
      exact ⟨_, List.mem_append_right _ (List.mem_singleton.2 rfl), rfl, rfl, rfl, rfl⟩
    · exact onlyParts_trans (onlyParts_eic _ _ (by decide)) (onlyParts_mono (enqueue_only _ _ _ _ _) (by decide))
  · have hdue := evtDue_some hsel
    refine ⟨_, clocked_next (f := fun m => if rbit m (0x2480 + 0x20 * n.val) 2 then evtDue m n.val else m) hr (if_pos hb),
      ?_, ?_, ?_, only_next (evtDue_only _ _)⟩
    · exact congrArg EvtSt.waiting hdue
    · exact congrArg EvtSt.source hdue
    · exact congrArg EvtSt.level hdue
  · refine ⟨_, clocked_next (f := fun m => evtStall m n.val) hr (evtStall_next hw hs), ?_, only_next ?_, ?_⟩
    · exact ((journal_reported (stalledEvt s.m n.val) _ _ _).stalled n.val).trans (stalledEvt_stalled _ _)
    · exact onlyParts_trans (onlyParts_eic _ _ (by decide)) (journal_only _ _ _ _)
    · exact onlyRegs_trans (onlyRegs_of_eq (n := stalledEvt s.m n.val) rfl) (journal_regs _ _ _ _)

end Sys2Proof.Events
end

section
/-! PROOFS. The black-box journal (spec/14_deadman_journal.md): records and their layout, the record engine, restores
and the tail buffer, with the statements about them. -/

namespace Sys2Proof.Journal

open Sys2Proof.Machine Sys2Proof.Laws Sys2Proof.Access Sys2Proof.Windows Sys2Proof.Controls Sys2Proof.Sending
  Sys2Proof.Events

/-! ### The layout of a record (R716 to R719, Table DMJ-4) -/

theorem crc32Bit_lt {c : Nat} (h : c < 2 ^ 32) : crc32Bit c < 2 ^ 32 := by
  unfold crc32Bit
  split
  · exact Nat.xor_lt_two_pow (by omega) (by decide)
  · omega

theorem crc32Byte_lt {c b : Nat} (h : c < 2 ^ 32) (hb : b < 2 ^ 32) : crc32Byte c b < 2 ^ 32 := by
  unfold crc32Byte
  iterate 8 apply crc32Bit_lt
  exact Nat.xor_lt_two_pow h hb

theorem crc32c_lt {c : Nat} {bs : List Nat} (h : c < 2 ^ 32) (hb : ∀ b ∈ bs, b < 2 ^ 32) : crc32c c bs < 2 ^ 32 := by
  have hfold : foldNat crc32Byte bs c < 2 ^ 32 := by
    rw [foldNat_eq]
    induction bs generalizing c with
    | nil => exact h
    | cons b bs ih => exact ih (crc32Byte_lt h (hb b (by simp))) fun x hx => hb x (by simp [hx])
  exact Nat.xor_lt_two_pow hfold (by decide)

theorem recordCrc_lt (h : Nat) (prev : BitVec 32) : recordCrc h prev < 2 ^ 32 := by
  have hbytes (n : Nat) : ∀ b ∈ beBytes h n, b < 2 ^ 32 := by
    induction n with
    | zero => simp [beBytes]
    | succ n ih =>
      intro b hb
      rcases List.mem_cons.1 hb with rfl | hb
      · omega
      · exact ih b hb
  exact crc32c_lt prev.isLt (hbytes 28)

theorem recordOf_toNat (h : Nat) (prev : BitVec 32) :
    (recordOf h prev).toNat = (h * 2 ^ 32 + recordCrc h prev) % 2 ^ 256 := BitVec.toNat_ofNat _ _

/-- Where the sequence number of a record stands. -/
theorem sequence_bits (a : Nat) {s t p c : Nat} (hs : s < 2 ^ 32) (ht : t < 2 ^ 52) (hp : p < 2 ^ 128) (hc : c < 2 ^ 32) :
    ((((a * 2 ^ 32 + s) * 2 ^ 52 + t) * 2 ^ 128 + p) * 2 ^ 32 + c) % 2 ^ 256 / 2 ^ 212 % 2 ^ (243 + 1 - 212) = s := by
  omega

/-- Where the payload of a record stands. -/
theorem payload_bits (a : Nat) {p c : Nat} (hp : p < 2 ^ 128) (hc : c < 2 ^ 32) :
    ((a * 2 ^ 128 + p) * 2 ^ 32 + c) % 2 ^ 256 / 2 ^ 32 % 2 ^ 128 = p := by
  omega

theorem recSeq_recordOf (single : Bool) (r : QRec) (sq : BitVec 32) (prev : BitVec 32) :
    recSeq (recordOf (recordHead single r sq.toNat) prev) = sq.toNat := by
  rw [recSeq, fld, recordOf_toNat, Nat.shiftRight_eq_div_pow]
  exact sequence_bits _ sq.isLt r.time.isLt r.payload.isLt (recordCrc_lt _ prev)

theorem payload_recordOf (single : Bool) (r : QRec) (sq : BitVec 32) (prev : BitVec 32) :
    (recordOf (recordHead single r sq.toNat) prev).extractLsb' 32 128 = r.payload := by
  apply BitVec.eq_of_toNat_eq
  rw [BitVec.extractLsb'_toNat, recordOf_toNat, Nat.shiftRight_eq_div_pow]
  exact payload_bits _ r.payload.isLt (recordCrc_lt _ prev)

/-! ### What writes to the journal's registers do (R734, R736, R737) -/

/-- The payload of a SOFTWARE record: four words, the first one uppermost. -/
theorem payload_words (w : Nat → Nat) (hw : ∀ i, w i < 2 ^ 32) (k : Fin 4) :
    (payload ((List.range 4).map fun i => (32, w i))).extractLsb' (96 - 32 * k.val) 32 = BitVec.ofNat 32 (w k.val) := by
  have h0 := hw 0; have h1 := hw 1; have h2 := hw 2; have h3 := hw 3
  have hp : payload ((List.range 4).map fun i => (32, w i))
      = BitVec.ofNat 128 (((w 0 * 2 ^ 32 + w 1) * 2 ^ 32 + w 2) * 2 ^ 32 + w 3) := by
    simp only [payload, List.range, List.range.loop, List.map, List.foldl, Nat.zero_mul, Nat.zero_add, Nat.mod_eq_of_lt h0,
      Nat.mod_eq_of_lt h1, Nat.mod_eq_of_lt h2, Nat.mod_eq_of_lt h3]
    rfl
  rw [hp]
  apply BitVec.eq_of_toNat_eq
  rw [BitVec.extractLsb'_toNat, BitVec.toNat_ofNat, BitVec.toNat_ofNat, Nat.shiftRight_eq_div_pow]
  match k with
  | 0 => show _ / 2 ^ 96 % _ = w 0 % _; omega
  | 1 => show _ / 2 ^ 64 % _ = w 1 % _; omega
  | 2 => show _ / 2 ^ 32 % _ = w 2 % _; omega
  | 3 => show _ / 2 ^ 0 % _ = w 3 % _; omega

theorem recAction_congr {m n : Core} (h : ∀ a, rget n a = rget m a) (t s : Nat) : recAction n t s = recAction m t s := by
  have hrule : ruleAction n t s = ruleAction m t s := by simp only [ruleAction, rfld, h]
  simp only [recAction, hrule]

/-- A record that finds room in the queue. -/
theorem journal_room {m : Core} {t s : Nat} (p : BitVec 128) (ha : recAction m t s ≠ 3) (hq : m.jnl.queue.length < 64) :
    journal m t s p = queueRecs m (m.jnl.queue ++ [eventRec m t s p]) := by
  simp [journal, enqueueRec, ha, hq]

/-- Writing rows of a register array one after another. -/
theorem rget_foldl_rset (base : Nat) (f : Nat → Word) (ks : List Nat) (m : Core) {a : Nat} :
    rget (ks.foldl (fun m k => rset m (base + 4 * k) (f k)) m) a
      = if a ∈ ks.map (fun k => base + 4 * k) then f ((a - base) / 4) else rget m a := by
  induction ks generalizing m with
  | nil => rfl
  | cons k ks ih =>
    rw [List.foldl_cons, ih, List.map_cons]
    by_cases hm : a ∈ ks.map (fun k => base + 4 * k)
    · rw [if_pos hm, if_pos (List.mem_cons_of_mem _ hm)]
    · rw [if_neg hm]
      by_cases ha : a = base + 4 * k
      · rw [ha, rget_rset_same, if_pos List.mem_cons_self, show (base + 4 * k - base) / 4 = k by omega]
      · rw [rget_rset_other _ _ (Ne.symm ha), if_neg (by simp only [List.mem_cons, not_or]; exact ⟨ha, hm⟩)]

theorem fld_setWidth4 (x : BitVec 4) : fld (x.setWidth 32) 3 0 = x.toNat := by
  have := x.isLt
  simp only [fld, BitVec.toNat_setWidth, Nat.shiftRight_zero]
  omega

/-- The machine after the latch of a record of the tail buffer. -/
def latched (m : Core) (r : BitVec 256) (i : Nat) : Core :=
  (List.range 8).foldl (fun m k => rset m (0x2CA4 + 4 * k) (BitVec.ofNat 32 (fld r (255 - 32 * k) (224 - 32 * k))))
    (rset m 0x2CA0 (BitVec.ofNat 32 (((rfld m 0x2CA0 15 12 + 1) % 16) * 2 ^ 12 + i)))

theorem tailLatch_eq {m : Core} {i : Nat} {r : BitVec 256} (h : m.jnl.tail[i]? = some r) : tailLatch m i = latched m r i := by
  simp only [tailLatch, h]
  rfl

theorem latched_only (m : Core) (r : BitVec 256) (i : Nat) : m.onlyParts [.regs] (latched m r i) :=
  onlyParts_trans (onlyParts_rset _ _ _ (by decide)) (onlyParts_foldl _ (fun _ _ => onlyParts_rset _ _ _ (by decide)) _ _)

theorem latched_regs (m : Core) (r : BitVec 256) (i : Nat) :
    m.onlyRegs [0x2CA0, 0x2CA4, 0x2CA8, 0x2CAC, 0x2CB0, 0x2CB4, 0x2CB8, 0x2CBC, 0x2CC0] (latched m r i) := by
  intro a ha
  have hrow : a ∉ (List.range 8).map fun k => 0x2CA4 + 4 * k := fun h => ha (List.mem_cons_of_mem _ h)
  rw [latched, rget_foldl_rset, if_neg hrow,
    rget_rset_other _ _ fun h => ha (by rw [← h]; exact List.mem_cons_self)]

theorem latched_word (m : Core) (r : BitVec 256) (i : Nat) (k : Fin 8) :
    rget (latched m r i) (0x2CA4 + 4 * k.val) = r.extractLsb' (224 - 32 * k.val) 32 := by
  rw [latched, rget_foldl_rset, if_pos (List.mem_map.2 ⟨k.val, List.mem_range.2 k.isLt, rfl⟩),
    show (0x2CA4 + 4 * k.val - 0x2CA4) / 4 = k.val by omega]
  apply BitVec.eq_of_toNat_eq
  have hw : 255 - 32 * k.val + 1 - (224 - 32 * k.val) = 32 := by omega
  rw [BitVec.toNat_ofNat, BitVec.extractLsb'_toNat, fld, hw, Nat.mod_mod]

theorem latched_index (m : Core) (r : BitVec 256) {i : Nat} (hi : i < 16) : rfld (latched m r i) 0x2CA0 3 0 = i := by
  rw [rfld, latched, rget_foldl_rset, if_neg (by decide), rget_rset_same]
  generalize (rfld m 0x2CA0 15 12 + 1) % 16 = c
  simp only [fld, BitVec.toNat_ofNat, Nat.shiftRight_zero]
  omega

/-- The registers and the pin of a device whose failed mark is cleared. -/
def unmarked (m : Core) (mirror : Bool) : Core :=
  let m := rsetf m 0x2C08 (b1 mirror) (b1 mirror) 0
  let m := if mirror then rsetf m 0x2C08 11 8 0 else rsetf m 0x2C08 7 4 0
  rsetf { m with pins := { m.pins with jfailN := false } } 0x2C08 2 2 0

theorem restoreDev_eq (m : Core) (mirror : Bool) : ∃ p, restoreDev m mirror = journal (unmarked m mirror) 5 3 p := ⟨_, rfl⟩

theorem unmarked_only (m : Core) (mirror : Bool) : m.onlyParts [.regs, .pins] (unmarked m mirror) := by
  cases mirror
  all_goals
    refine onlyParts_trans ?_ (onlyParts_rset _ _ _ (by decide))
    refine onlyParts_trans ?_ (onlyParts_pins _ _ (by decide))
    exact onlyParts_trans (onlyParts_rset _ _ _ (by decide)) (onlyParts_rset _ _ _ (by decide))

theorem unmarked_regs (m : Core) (mirror : Bool) : m.onlyRegs [0x2C08] (unmarked m mirror) := by
  cases mirror
  all_goals
    refine onlyRegs_trans ?_ (onlyRegs_rset _ _ _ (by decide))
    refine onlyRegs_trans ?_ (onlyRegs_of_eq rfl)
    exact onlyRegs_trans (onlyRegs_rset _ _ _ (by decide)) (onlyRegs_rset _ _ _ (by decide))

theorem unmarked_pins (m : Core) (mirror : Bool) : (unmarked m mirror).pins = { m.pins with jfailN := false } := by
  cases mirror <;> rfl

theorem rget_unmarked (m : Core) (mirror : Bool) : rget (unmarked m mirror) 0x2C08
    = putFld (putFld (putFld (rget m 0x2C08) (b1 mirror) (b1 mirror) 0) (if mirror then 11 else 7) (if mirror then 8 else 4) 0)
        2 2 0 := by
  cases mirror
  all_goals
    rw [unmarked, rsetf, rget_rset_same]
    simp [rsetf, rget]

theorem devLive_unmarked (m : Core) (mirror other : Bool) :
    devLive (unmarked m mirror) other = (decide (other = mirror) || devLive m other) := by
  unfold devLive rbit
  rw [rget_unmarked]
  cases mirror <;> cases other <;> simp [bit_putFld, b1]

theorem cause_unmarked (m : Core) (mirror : Bool) :
    rfld (unmarked m mirror) 0x2C08 (if mirror then 11 else 7) (if mirror then 8 else 4) = 0 := by
  rw [rfld, rget_unmarked]
  cases mirror
  · exact (fld_putFld_other _ _ _ _ _ _ (by decide) (by decide)).trans (fld_putFld_same _ _ _ _ (by decide))
  · exact (fld_putFld_other _ _ _ _ _ _ (by decide) (by decide)).trans (fld_putFld_same _ _ _ _ (by decide))

theorem failN_unmarked (m : Core) (mirror : Bool) : rbit (unmarked m mirror) 0x2C08 2 = false := by
  rw [rbit, rget_unmarked]
  simp [bit_putFld]

/-- What an accepted write of a restore bit does. -/
theorem restored {s : State} {a : Lmb} {v : Word} (mirror : Bool) (h : Accepted s a 0x2C04 v)
    (hv : bit v 0 = !mirror ∧ bit v 1 = mirror) :
    ∃ t, clocked (lmbWrite a 0x2C04 v) s = .next t ∧ devLive t.m mirror = true
      ∧ devLive t.m (!mirror) = devLive s.m (!mirror)
      ∧ rfld t.m 0x2C08 (if mirror then 11 else 7) (if mirror then 8 else 4) = 0 ∧ rbit t.m 0x2C08 2 = false
      ∧ t.m.pins = { s.m.pins with jfailN := false } ∧ lmbOk t.m
      ∧ s.only (.lmb :: .pins :: .jnl :: Part.report) t ∧ s.m.onlyRegs (0x2C08 :: journalRegs) t.m := by
  obtain ⟨p, hp⟩ := restoreDev_eq (storeWrite s.m 0x2C04 v) mirror
  have hact : writeAction s.m (storeWrite s.m 0x2C04 v) (lmbWho a) none 0x2C04 v
      = journal (unmarked (storeWrite s.m 0x2C04 v) mirror) 5 3 p := by
    rw [← hp]
    show (if bit v 1 then restoreDev (if bit v 0 then _ else _) true else _) = _
    rw [hv.1, hv.2]
    cases mirror <;> rfl
  have hreg (b : Nat) : rget (storeWrite s.m 0x2C04 v) b = rget s.m b := rget_storeWrite_command _ (by decide +kernel) b
  have hlive (o : Bool) : devLive (storeWrite s.m 0x2C04 v) o = devLive s.m o := by simp only [devLive, rbit, hreg]
  have hun : s.m.onlyParts [.regs, .pins] (unmarked (storeWrite s.m 0x2C04 v) mirror) :=
    onlyParts_trans (storeWrite_parts _ _ _ (by decide)) (unmarked_only _ _)
  have hj := journal_only (unmarked (storeWrite s.m 0x2C04 v) mirror) 5 3 p
  have hkeep : rget (journal (unmarked (storeWrite s.m 0x2C04 v) mirror) 5 3 p) 0x2C08
      = rget (unmarked (storeWrite s.m 0x2C04 v) mirror) 0x2C08 := journal_regs _ _ _ _ 0x2C08 (by decide)
  have hdev (o : Bool) : devLive (journal (unmarked (storeWrite s.m 0x2C04 v) mirror) 5 3 p) o
      = (decide (o = mirror) || devLive s.m o) := by
    rw [← hlive, ← devLive_unmarked, devLive, devLive, rbit, rbit, hkeep]
  have hpins : (journal (unmarked (storeWrite s.m 0x2C04 v) mirror) 5 3 p).pins = { s.m.pins with jfailN := false } := by
    have h1 : (storeWrite s.m 0x2C04 v).pins = s.m.pins := storeWrite_only s.m 0x2C04 v .pins (by decide)
    have h2 : (journal (unmarked (storeWrite s.m 0x2C04 v) mirror) 5 3 p).pins
        = (unmarked (storeWrite s.m 0x2C04 v) mirror).pins := hj .pins (by decide)
    rw [h2, unmarked_pins, h1]
  refine ⟨_, accepted_next h (not_throw _ (by decide)) hact, ?_, ?_, ?_, ?_, hpins, lmbOk_set _,
    only_lmb (onlyParts_trans (onlyParts_mono hun (by decide)) (onlyParts_mono hj (by decide))) (by decide), ?_⟩
  · exact (hdev mirror).trans (by simp)
  · exact (hdev (!mirror)).trans (by cases mirror <;> simp)
  · exact (congrArg (fun x => fld x _ _) hkeep).trans (cause_unmarked _ mirror)
  · exact (congrArg (fun x => bit x 2) hkeep).trans (failN_unmarked _ mirror)
  · refine onlyRegs_lmb (onlyRegs_trans (n := storeWrite s.m 0x2C04 v) (fun b _ => hreg b) (onlyRegs_trans
      (onlyRegs_mono (unmarked_regs _ _) (by decide)) (onlyRegs_mono (journal_regs _ _ _ _) (by decide))))

theorem action_softRecord (old m : Core) (w : Who) (g : Option Msg) (v : Word) :
    writeAction old m w g 0x2C80 v = softRecord m (fld v 3 0) := rfl

theorem action_tailLatch (old m : Core) (w : Who) (g : Option Msg) (v : Word) :
    writeAction old m w g 0x2CA0 v = tailLatch m (fld v 3 0) := rfl

/-- Settles O18: a software record by `journal_room` and `payload_words`, a latch by `latched`, restores by `restored`. -/
theorem journalWritesTakeEffect : Obligations.JournalWritesTakeEffect := by
  refine ⟨fun s a severity h hact hroom => ?_, fun s a index r h htail => ?_, fun s a h => ?_, fun s a h => ?_⟩
  · have hst := storeWrite_only s.m 0x2C80 (severity.setWidth 32)
    have hreg (b : Nat) : rget (storeWrite s.m 0x2C80 (severity.setWidth 32)) b = rget s.m b :=
      rget_storeWrite_command _ (by decide +kernel) b
    have hjnl : (storeWrite s.m 0x2C80 (severity.setWidth 32)).jnl = s.m.jnl := hst .jnl (by decide)
    have htime : (storeWrite s.m 0x2C80 (severity.setWidth 32)).time = s.m.time := hst .time (by decide)
    generalize hm : storeWrite s.m 0x2C80 (severity.setWidth 32) = m at hst hreg hjnl htime
    have hrun : writeAction s.m m (lmbWho a) none 0x2C80 (severity.setWidth 32)
        = queueRecs m (m.jnl.queue ++ [eventRec m 8 severity.toNat
            (payload ((List.range 4).map fun i => (32, (rget m (0x2C84 + 4 * i)).toNat)))]) := by
      rw [action_softRecord, fld_setWidth4]
      exact journal_room _ (by rwa [recAction_congr hreg]) (by rwa [hjnl])
    refine ⟨_, accepted_next h (not_throw _ (by decide)) (by rw [hm, hrun]), ⟨eventRec m 8 severity.toNat
      (payload ((List.range 4).map fun i => (32, (rget m (0x2C84 + 4 * i)).toNat))), ?_, rfl, ?_, ?_, fun k => ?_⟩, lmbOk_set _, only_lmb (onlyParts_trans (onlyParts_mono hst (by decide)) (onlyParts_mono
        (queueRecs_only _ _) (by decide))) (by decide), ?_⟩
    · show (queueRecs m _).jnl.queue = _
      rw [queueRecs, tally_jnl, hjnl]
    · exact BitVec.ofNat_toNat 4 severity
    · exact congrArg (BitVec.extractLsb' 8 52) htime
    · refine (payload_words (fun i => (rget m (0x2C84 + 4 * i)).toNat) (fun i => (rget m (0x2C84 + 4 * i)).isLt) k).trans ?_
      rw [BitVec.ofNat_toNat, BitVec.setWidth_eq, hreg]
    · exact onlyRegs_lmb (onlyRegs_trans (n := m) (fun b _ => hreg b) (fun b hb => tally_regs _ _ _ _ b hb))
  · have hst := storeWrite_only s.m 0x2CA0 (index.setWidth 32)
    have hjnl : (storeWrite s.m 0x2CA0 (index.setWidth 32)).jnl = s.m.jnl := hst .jnl (by decide)
    generalize hm : storeWrite s.m 0x2CA0 (index.setWidth 32) = m at hst hjnl
    have hrun : writeAction s.m m (lmbWho a) none 0x2CA0 (index.setWidth 32) = latched m r index.toNat := by
      rw [action_tailLatch, fld_setWidth4]
      exact tailLatch_eq (by rwa [hjnl])
    refine ⟨_, accepted_next (n := latched m r index.toNat) h (not_throw _ (by decide)) (by rw [hm, hrun]),
      fun k => (rget_setLmb _ _ _).trans (latched_word m r index.toNat k),
      (rfld_setLmb _ _ _ _ _).trans (latched_index m r index.isLt), lmbOk_set _, only_lmb (onlyParts_trans (onlyParts_mono hst (by decide))
        (onlyParts_mono (latched_only _ _ _) (by decide))) (by decide), ?_⟩
    have hregs : s.m.onlyRegs [0x2CA0] m := hm ▸ storeWrite_regs _ _ _
    have hall : s.m.onlyRegs _ (latched m r index.toNat) :=
      onlyRegs_trans (onlyRegs_mono hregs (by decide)) (latched_regs m r index.toNat)
    exact onlyRegs_lmb hall
  · exact restored false h ⟨by decide, by decide⟩
  · exact restored true h ⟨by decide, by decide⟩
end Sys2Proof.Journal
end

section
/-! PROOFS. The journal's record engine, its head search and its power-fail flush (spec/14_deadman_journal.md), with the
statements about them. -/

namespace Sys2Proof.Engine

open Sys2Proof.Machine Sys2Proof.Laws Sys2Proof.Windows Sys2Proof.Controls Sys2Proof.Sending Sys2Proof.Journal

/-! ### Sources that stay pending -/

/-- Every source that is pending before is pending after. -/
def PendingKept (m n : Core) : Prop := ∀ k, isPending m k = true → isPending n k = true

theorem pendingKept_trans {m n o : Core} (h : PendingKept m n) (g : PendingKept n o) : PendingKept m o :=
  fun k hk => g k (h k hk)

theorem pendingKept_of_only {ps : List Part} {m n : Core} (h : m.onlyParts ps n) (he : Part.eic ∉ ps) : PendingKept m n :=
  fun k hk => (isPending_congr (congrArg Eic.st (h .eic he : n.eic = m.eic)) k).trans hk

theorem tally_pendingKept (b : Blk) (e n : Nat) (m : Core) : PendingKept m (tally b e n m) := tally_isPending b e n m

theorem raise_pendingKept (m : Core) (n : Nat) : PendingKept m (raise m n) := raise_isPending_mono m n

theorem send_pendingKept (m : Core) (src : Nat) (o : Option Nat) (e : Bool) (x : Msg) :
    PendingKept m (send m src o e x) := by
  have hd (n : Core) (p v : Nat) (y : Msg) : PendingKept n (deliver n p v y) := pendingKept_of_only (deliver_only _ _ _ _) (by decide)
  have hj (n : Core) (y : Msg) (c : Nat) : PendingKept n (journalDrop n y c) := fun _ hk => journal_isPending _ _ _ _ _ hk
  unfold send
  dsimp only
  split
  · exact pendingKept_trans (tally_pendingKept _ _ _ _) (hd _ _ _ _)
  · split
    · exact pendingKept_trans (tally_pendingKept _ _ _ _) (pendingKept_of_only (enqueue_only _ _ _ _ _) (by decide))
    · split
      · exact pendingKept_trans (pendingKept_trans (tally_pendingKept _ _ _ _) (pendingKept_trans (tally_pendingKept _ _ _ _)
          (hj _ _ _))) (hd _ _ _ _)
      · exact pendingKept_trans (tally_pendingKept _ _ _ _) (pendingKept_trans (tally_pendingKept _ _ _ _) (hj _ _ _))

/-! ### A record taken from the queue (R718 to R721, R738, R751) -/

/-- What copies of records for the keepers, and the reports of messages, change of the journal: records may join the queue
or be lost. -/
def JnlNoted (m n : Core) : Prop :=
  ∃ q l ls jq, n.jnl = { m.jnl with queue := q, lost := l, lostSev := ls, jrcQuiet := jq }

theorem noted_of_eq {m n : Core} (h : n.jnl = m.jnl) : JnlNoted m n := ⟨_, _, _, _, h⟩

theorem noted_of_only {ps : List Part} {m n : Core} (h : m.onlyParts ps n) (hj : Part.jnl ∉ ps) : JnlNoted m n :=
  noted_of_eq (h .jnl hj)

theorem noted_trans {m n o : Core} (h : JnlNoted m n) (g : JnlNoted n o) : JnlNoted m o := by
  obtain ⟨_, _, _, _, hn⟩ := h
  obtain ⟨q, l, ls, jq, ho⟩ := g
  exact ⟨q, l, ls, jq, by rw [ho, hn]⟩

theorem queueRecs_noted (m : Core) (q : List QRec) : JnlNoted m (queueRecs m q) :=
  ⟨q, _, _, _, by rw [queueRecs, tally_jnl]⟩

theorem dropRec_noted (m : Core) (s : BitVec 4) : JnlNoted m (dropRec m s) := by
  have h : (tally .jnl 3 1 (rinc m 0x2C20 1)).jnl = m.jnl := tally_jnl _ _ _ _
  exact ⟨_, _, _, _, by rw [dropRec, noteLost, h]⟩

theorem enqueueRec_noted (m : Core) (r : QRec) (f : List QRec → List QRec) : JnlNoted m (enqueueRec m r f) := by
  unfold enqueueRec
  split
  · exact queueRecs_noted _ _
  · split
    · exact noted_trans (queueRecs_noted _ _) (dropRec_noted _ _)
    · exact dropRec_noted _ _

theorem journalDrop_noted (m : Core) (x : Msg) (c : Nat) : JnlNoted m (journalDrop m x c) := by
  unfold journalDrop journal
  split
  · exact noted_of_eq rfl
  · exact enqueueRec_noted _ _ _

theorem send_noted (m : Core) (src : Nat) (o : Option Nat) (e : Bool) (x : Msg) : JnlNoted m (send m src o e x) := by
  have ht (b : Blk) (k : Nat) (n : Core) : JnlNoted n (tally b k 1 n) := noted_of_eq (tally_jnl _ _ _ _)
  have hd (n : Core) (p v : Nat) (y : Msg) : JnlNoted n (deliver n p v y) := noted_of_only (deliver_only _ _ _ _) (by decide)
  unfold send
  dsimp only
  split
  · exact noted_trans (ht _ _ _) (hd _ _ _ _)
  · split
    · exact noted_trans (ht _ _ _) (noted_of_only (enqueue_only _ _ _ _ _) (by decide))
    · split
      · exact noted_trans (noted_trans (ht _ _ _) (noted_trans (ht _ _ _) (journalDrop_noted _ _ _))) (hd _ _ _ _)
      · exact noted_trans (ht _ _ _) (noted_trans (ht _ _ _) (journalDrop_noted _ _ _))

theorem jrcDisplace_only (m : Core) (k : NodeId) : m.onlyParts [.ports] (jrcDisplace m k) := by
  unfold jrcDisplace
  split
  · exact onlyParts_refl _ _
  · dsimp only
    split
    · exact setPort_only _ _ _
    · exact onlyParts_refl _ _

/-- Whether a keeper's displaced copies have been reported. -/
def setQuiet (m : Core) (i : Nat) (b : Bool) : Core := modJnl m fun j => { j with jrcQuiet := tput false j.jrcQuiet i b }

/-- A keeper's full list has lost its oldest copy. -/
def jrcDropped (m : Core) (k : NodeId) (i : Nat) : Core :=
  let n := rinc (jrcDisplace m k) 0x2C24 1
  setQuiet (if tget false n.jnl.jrcQuiet i then n else raise n 148) i true

theorem jrcDropped_state (m : Core) (k : NodeId) (i : Nat) : JnlNoted m (jrcDropped m k i) ∧ PendingKept m (jrcDropped m k i)
    ∧ m.onlyRegs (0x2C24 :: journalRegs) (jrcDropped m k i) := by
  have hd := jrcDisplace_only m k
  have h1 : m.onlyParts [.ports, .regs] (rinc (jrcDisplace m k) 0x2C24 1) :=
    onlyParts_trans (onlyParts_mono hd (by decide)) (onlyParts_rset _ _ _ (by decide))
  have hr1 : m.onlyRegs (0x2C24 :: journalRegs) (rinc (jrcDisplace m k) 0x2C24 1) :=
    onlyRegs_trans (onlyRegs_of_only hd (by decide)) (onlyRegs_rset _ _ _ (by decide))
  have hq (n : Core) : JnlNoted n (setQuiet n i true) ∧ PendingKept n (setQuiet n i true)
      ∧ n.onlyRegs (0x2C24 :: journalRegs) (setQuiet n i true) := ⟨⟨_, _, _, _, rfl⟩, fun _ h => h, onlyRegs_of_eq rfl⟩
  unfold jrcDropped
  dsimp only
  obtain ⟨ha, hb, hc⟩ := hq (if tget false (rinc (jrcDisplace m k) 0x2C24 1).jnl.jrcQuiet i
    then rinc (jrcDisplace m k) 0x2C24 1 else raise (rinc (jrcDisplace m k) 0x2C24 1) 148)
  refine ⟨noted_trans (noted_trans (noted_of_only h1 (by decide)) ?_) ha,
    pendingKept_trans (pendingKept_trans (pendingKept_of_only h1 (by decide)) ?_) hb, onlyRegs_trans (onlyRegs_trans hr1 ?_) hc⟩
  · split
    · exact noted_of_eq rfl
    · exact noted_of_only (raise_only _ _) (by decide)
  · split
    · exact fun _ h => h
    · exact raise_pendingKept _ _
  · split
    · exact onlyRegs_refl _ _
    · exact onlyRegs_mono (raise_regs _ _) (by decide)

theorem jrcTo_state (b : BitVec 256) (m : Core) (i : Nat) : JnlNoted m (jrcTo b m i) ∧ PendingKept m (jrcTo b m i)
    ∧ m.onlyRegs (0x2C24 :: journalRegs) (jrcTo b m i) := by
  have hs (n : Core) (x : Msg) : JnlNoted n (sendMgt (tally .jnl 4 1 n) x) ∧ PendingKept n (sendMgt (tally .jnl 4 1 n) x)
      ∧ n.onlyRegs (0x2C24 :: journalRegs) (sendMgt (tally .jnl 4 1 n) x) :=
    ⟨noted_trans (noted_of_eq (tally_jnl _ _ _ _)) (send_noted _ _ _ _ _),
      pendingKept_trans (tally_pendingKept _ _ _ _) (send_pendingKept _ _ _ _ _),
      onlyRegs_trans (onlyRegs_mono (tally_regs _ _ _ _) (by decide)) (onlyRegs_mono (sendMgt_regs _ _) (by decide))⟩
  have hq (n : Core) (k : NodeId) (full : Bool) :
      JnlNoted n (if full then jrcDropped n k i else setQuiet n i false)
        ∧ PendingKept n (if full then jrcDropped n k i else setQuiet n i false)
        ∧ n.onlyRegs (0x2C24 :: journalRegs) (if full then jrcDropped n k i else setQuiet n i false) := by
    cases full
    · exact ⟨⟨_, _, _, _, rfl⟩, fun _ h => h, onlyRegs_of_eq rfl⟩
    · exact jrcDropped_state n k i
  unfold jrcTo
  split
  · exact ⟨noted_of_eq rfl, fun _ h => h, onlyRegs_refl _ _⟩
  · obtain ⟨hn, hp, hr⟩ := hq m (BitVec.ofNat 16 (rfld m (0x203C + 4 * i) 15 0))
      (decide (16 ≤ (jrcWaiting m (BitVec.ofNat 16 (rfld m (0x203C + 4 * i) 15 0))).length))
    obtain ⟨hn', hp', hr'⟩ := hs (if decide (16 ≤ (jrcWaiting m (BitVec.ofNat 16 (rfld m (0x203C + 4 * i) 15 0))).length)
        then jrcDropped m (BitVec.ofNat 16 (rfld m (0x203C + 4 * i) 15 0)) i else setQuiet m i false)
      { op := .jrc, dest := BitVec.ofNat 16 (rfld m (0x203C + 4 * i) 15 0), tag := BitVec.ofNat 12 (recSeq b)
        data := bePut b.toNat 0 32 }
    exact ⟨noted_trans hn hn', pendingKept_trans hp hp', onlyRegs_trans hr hr'⟩

/-- The crc that the next record starts from (R718). -/
def crcBefore (m : Core) : BitVec 32 := if m.jnl.nextSeq.toNat = 0 then 0xFFFFFFFF#32 else m.jnl.lastCrc

/-- The next record's bytes. -/
def numbered (m : Core) (r : QRec) (single : Bool) : BitVec 256 :=
  recordOf (recordHead single r m.jnl.nextSeq.toNat) (crcBefore m)

/-- The journal when a record has its number and its slot. -/
def advanced (m : Core) (r : QRec) (single : Bool) : Core :=
  modJnl m fun j => { j with
    nextSeq := BitVec.ofNat 32 (seqNext m.jnl.nextSeq.toNat), lastCrc := recCrc (numbered m r single)
    slot := slotAfter (jnlSlots m) (seqNext m.jnl.nextSeq.toNat) m.jnl.slot
    tail := (numbered m r single :: (if r.typ = 4 then j.tail.erase (tailMark r.sev.toNat r.time r.payload) else j.tail)).take 16 }

/-- A record's copies go to the keepers (R738). -/
def toKeepers (m : Core) (r : QRec) (b : BitVec 256) : Core :=
  if rbit m 0x2C00 8 && (r.action = 0 || r.action = 2) then [0, 1].foldl (jrcTo b) m else m

/-- The end of the pinned region is reported (R721). -/
def pinnedEnd (m : Core) (sq : Nat) : Core := if sq = 1023 then raise m 147 else m

theorem takeRec_eq (m : Core) (r : QRec) (single : Bool) : takeRec m r single
    = (pinnedEnd (toKeepers (advanced m r single) r (numbered m r single)) m.jnl.nextSeq.toNat, numbered m r single, m.jnl.slot,
        crcBefore m) := rfl

theorem toKeepers_off {m : Core} (h : rbit m 0x2C00 8 = false) (r : QRec) (b : BitVec 256) : toKeepers m r b = m := by
  rw [toKeepers, h]
  rfl

theorem toKeepers_state (m : Core) (r : QRec) (b : BitVec 256) :
    JnlNoted m (toKeepers m r b) ∧ PendingKept m (toKeepers m r b) ∧ m.onlyRegs (0x2C24 :: journalRegs) (toKeepers m r b) := by
  unfold toKeepers
  split
  · obtain ⟨ha, hb, hc⟩ := jrcTo_state b m 0
    obtain ⟨ha', hb', hc'⟩ := jrcTo_state b (jrcTo b m 0) 1
    exact ⟨noted_trans ha ha', pendingKept_trans hb hb', onlyRegs_trans hc hc'⟩
  · exact ⟨noted_of_eq rfl, fun _ h => h, onlyRegs_refl _ _⟩

theorem pinnedEnd_only (m : Core) (sq : Nat) : m.onlyParts Part.report (pinnedEnd m sq) := by
  unfold pinnedEnd
  split
  · exact raise_only _ _
  · exact onlyParts_refl _ _

theorem pinnedEnd_regs (m : Core) (sq : Nat) : m.onlyRegs reportRegs (pinnedEnd m sq) := by
  unfold pinnedEnd
  split
  · exact raise_regs _ _
  · exact onlyRegs_refl _ _

theorem pinnedEnd_jnl (m : Core) (sq : Nat) : (pinnedEnd m sq).jnl = m.jnl := pinnedEnd_only m sq .jnl (by decide)

theorem pinnedEnd_pendingKept (m : Core) (sq : Nat) : PendingKept m (pinnedEnd m sq) := by
  unfold pinnedEnd
  split
  · exact raise_pendingKept _ _
  · exact fun _ h => h

/-- A taken record's sequence number. -/
theorem recSeq_numbered (m : Core) (r : QRec) (single : Bool) : recSeq (numbered m r single) = m.jnl.nextSeq.toNat :=
  recSeq_recordOf _ _ _ _

/-- A taken record's payload. -/
theorem payload_numbered (m : Core) (r : QRec) (single : Bool) : (numbered m r single).extractLsb' 32 128 = r.payload :=
  payload_recordOf _ _ _ _

/-! ### The write of a record (R727 to R731) -/

/-- The engine's write of a record to the primary begins. -/
theorem beginWrite_primary {m : Core} (h : devLive m false = true) (b : BitVec 256) (slot : Nat) (prev : BitVec 32) :
    beginWrite m b slot prev
      = spaCall (modJnl m fun j => { j with cur := some { bytes := b, prev := prev, slot := slot, mirror := false } }) := by
  simp [beginWrite, h]

theorem spaCall_jnl (m : Core) : (spaCall m).jnl = m.jnl := spaCall_only m .jnl (by decide)

theorem spaBoundary_jnl (m : Core) : (spaBoundary m).jnl = m.jnl := spaBoundary_only m .jnl (by decide)

theorem devLive_congr {as : List Nat} {m n : Core} (h : m.onlyRegs as n) (ha : 0x2C08 ∉ as) (d : Bool) :
    devLive n d = devLive m d := by
  rw [devLive, devLive, rbit, rbit, h _ ha]

theorem lostRecord_none {m : Core} (h : m.jnl.lost = 0) : lostRecord m = m := by simp [lostRecord, h]

/-- The machine without the queue's oldest record. -/
def dequeued (m : Core) (q : List QRec) : Core := modJnl m fun j => { j with queue := q }

/-- The machine when a record taken by itself has its number. -/
def numberTaken (m : Core) (r : QRec) (q : List QRec) : Core :=
  pinnedEnd (advanced (dequeued m q) r (oneLive m)) m.jnl.nextSeq.toNat

/-- The write of a record to the primary, as it begins. -/
def primaryWrite (m : Core) (r : QRec) : JWrite :=
  { bytes := numbered m r (oneLive m), prev := crcBefore m, slot := m.jnl.slot, mirror := false }

/-- The machine when the write of a record that it took has begun. -/
def writeBegun (m : Core) (r : QRec) (q : List QRec) : Core :=
  spaCall (modJnl (numberTaken m r q) fun j => { j with cur := some (primaryWrite m r) })

theorem takeRec_local {m : Core} (r : QRec) (q : List QRec) (hk : rbit m 0x2C00 8 = false) :
    takeRec (dequeued m q) r (oneLive m) = (numberTaken m r q, numbered m r (oneLive m), m.jnl.slot, crcBefore m) := by
  have hk' : rbit (advanced (dequeued m q) r (oneLive m)) 0x2C00 8 = false := (rbit_congr rfl _ _).trans hk
  rw [takeRec_eq, toKeepers_off hk']
  rfl

theorem recordTake_local {m : Core} {r : QRec} {q : List QRec} (he : engineFree m = true) (hq : m.jnl.queue = r :: q)
    (ha : r.action ≠ 2) (hl : m.jnl.lost = 0) (hk : rbit m 0x2C00 8 = false) (hd : devLive m false = true) :
    recordTake m = writeBegun m r q := by
  have hlost : (numberTaken m r q).jnl.lost = 0 := by
    rw [numberTaken, pinnedEnd_jnl]
    exact hl
  have hregs : m.onlyRegs reportRegs (numberTaken m r q) :=
    onlyRegs_trans (n := advanced (dequeued m q) r (oneLive m)) (onlyRegs_of_eq rfl) (pinnedEnd_regs _ _)
  have hlive : devLive (numberTaken m r q) false = true := (devLive_congr hregs (by decide) _).trans hd
  have htake := takeRec_local r q hk
  unfold dequeued at htake
  unfold recordTake
  rw [if_neg (by rw [he]; decide)]
  split
  · next h => rw [hq] at h; cases h
  · next h =>
    rw [hq] at h
    obtain ⟨rfl, rfl⟩ := List.cons.inj h
    rw [htake]
    dsimp only
    rw [lostRecord_none hlost, if_neg ha, beginWrite_primary hlive]
    rfl

theorem writeBegun_jnl (m : Core) (r : QRec) (q : List QRec) : (writeBegun m r q).jnl
    = { (advanced (dequeued m q) r (oneLive m)).jnl with cur := some (primaryWrite m r) } := by
  have hn : (numberTaken m r q).jnl = (advanced (dequeued m q) r (oneLive m)).jnl := pinnedEnd_jnl _ _
  rw [writeBegun, spaCall_jnl, ← hn]
  rfl

/-- A device's slot after a write to it. -/
theorem devSlot_devWrite (m : Core) (d : Bool) (k : Nat) (r : BitVec 256) (e : Bool) (j : Nat) :
    devSlot (devWrite m d k r) e j = if e = d ∧ k = j then r else devSlot m e j := by
  cases d <;> cases e <;> simp [devSlot, devWrite, modJnl]

theorem devSlot_congr {m n : Core} (h0 : n.jnl.dev0 = m.jnl.dev0) (h1 : n.jnl.dev1 = m.jnl.dev1) (d : Bool) (k : Nat) :
    devSlot n d k = devSlot m d k := by
  rw [devSlot, devSlot, h0, h1]

/-- The machine when a device holds the record of a write. -/
def written (m : Core) (c : JWrite) : Core :=
  setHead (devWrite (tally .jnl 2 1 m) c.mirror c.slot c.bytes) c.mirror c.slot

theorem written_only (m : Core) (c : JWrite) : m.onlyParts (.jnl :: Part.report) (written m c) := by
  refine onlyParts_trans (onlyParts_mono (tally_only .jnl 2 1 m) (by decide)) ?_
  exact onlyParts_trans (onlyParts_jnl _ _ (by decide)) (onlyParts_jnl _ _ (by decide))

theorem written_regs (m : Core) (c : JWrite) : m.onlyRegs reportRegs (written m c) := tally_regs .jnl 2 1 m

theorem devSlot_written (m : Core) (c : JWrite) (e : Bool) (j : Nat) :
    devSlot (written m c) e j = if e = c.mirror ∧ c.slot = j then c.bytes else devSlot m e j := by
  have hhead (n : Core) (k : Nat) : devSlot (setHead n c.mirror k) e j = devSlot n e j := rfl
  have ht : (tally .jnl 2 1 m).jnl = m.jnl := tally_jnl _ _ _ _
  rw [written, hhead, devSlot_devWrite, devSlot_congr (congrArg Jnl.dev0 ht) (congrArg Jnl.dev1 ht)]

/-- What a write in progress goes on to leaves of everything else: the devices' contents, and all but the journal, SPA and
the count of lost records. -/
theorem writeNext_only {m : Core} {c : JWrite} (hw : c.wrote = true) :
    m.onlyParts [.jnl, .spi, .regs] (writeNext m c) ∧ m.onlyRegs [0x3814] (writeNext m c)
      ∧ (writeNext m c).jnl.dev0 = m.jnl.dev0 ∧ (writeNext m c).jnl.dev1 = m.jnl.dev1 := by
  have hb (n : Core) (hn : n = modJnl m fun j => { j with cur := none }) : m.onlyParts [.jnl, .spi, .regs] (spaBoundary n) ∧
      m.onlyRegs [0x3814] (spaBoundary n) ∧ (spaBoundary n).jnl.dev0 = m.jnl.dev0 ∧ (spaBoundary n).jnl.dev1 = m.jnl.dev1 := by
    subst hn
    refine ⟨onlyParts_trans (onlyParts_jnl m _ (by decide)) (onlyParts_mono (spaBoundary_only _) (by decide)),
      onlyRegs_trans (onlyRegs_of_eq rfl) (spaBoundary_regs _), ?_, ?_⟩
    · rw [spaBoundary_jnl]
      rfl
    · rw [spaBoundary_jnl]
      rfl
  unfold writeNext
  split
  · split
    · exact ⟨onlyParts_jnl m _ (by decide), onlyRegs_of_eq rfl, rfl, rfl⟩
    · exact ⟨onlyParts_jnl m _ (by decide), onlyRegs_of_eq rfl, rfl, rfl⟩
  · exact hb _ rfl

theorem writeNext_end {m : Core} {c : JWrite} (hw : c.wrote = true) (h : c.mirror = true ∨ devLive m true = false) :
    (writeNext m c).jnl.cur = none := by
  have hc : (!c.mirror && devLive m true) = false := by
    rcases h with h | h
    · rw [h]; rfl
    · rw [h, Bool.and_false]
  rw [writeNext, if_neg (by rw [hc]; decide), if_pos hw, spaBoundary_jnl]
  rfl

theorem writeNext_mirror {m : Core} {c : JWrite} (hc : c.mirror = false) (h0 : devLive m false = true)
    (h1 : devLive m true = true) : (writeNext m c).jnl.cur = some { c with mirror := true, repeated := false } := by
  simp [writeNext, hc, h0, h1, modJnl]

/-! ### Failed writes (R730, R731, R733) -/

theorem devScramble_only (m : Core) (c : JWrite) : m.onlyParts [.jnl, .free] (devScramble m c) :=
  onlyParts_trans (onlyParts_mono (freeLine_only m) (by decide)) (onlyParts_jnl _ _ (by decide))

/-- A device's failed mark, with its cause. -/
def marked (m : Core) (mirror : Bool) (cause : Nat) : Core :=
  let m := rsetf m 0x2C08 (b1 mirror) (b1 mirror) 1
  if mirror then rsetf m 0x2C08 11 8 cause else rsetf m 0x2C08 7 4 cause

/-- JFAIL_N follows where both devices have failed (R733). -/
def bothFailed (m : Core) : Core :=
  if !devLive m false && !devLive m true then
    raise (rsetf { m with pins := { m.pins with jfailN := true } } 0x2C08 2 2 1) 146
  else m

theorem devLive_marked (m : Core) (mirror : Bool) (cause : Nat) : devLive (marked m mirror cause) mirror = false := by
  cases mirror <;> simp [marked, devLive, rbit_rsetf, b1]

theorem devLive_bothFailed {m : Core} {d : Bool} (h : devLive m d = false) : devLive (bothFailed m) d = false := by
  have hr (n : Core) : n.onlyRegs reportRegs (raise n 146) := raise_regs n 146
  unfold bothFailed
  split
  · rw [devLive_congr (hr _) (by decide)]
    rw [devLive] at h ⊢
    rw [rbit_rsetf _ _ _ _ _ _ _ (by cases d <;> decide), if_pos rfl, if_neg (by cases d <;> decide)]
    exact h
  · exact h

theorem bothFailed_pendingKept (m : Core) : PendingKept m (bothFailed m) := by
  unfold bothFailed
  split
  · exact fun k hk => raise_pendingKept _ 146 k hk
  · exact fun _ h => h

theorem deviceFailed_eq (m : Core) (mirror : Bool) (cause sq : Nat) : ∃ typ sev p, deviceFailed m mirror cause sq
    = journalHead (bothFailed (raise (marked m mirror cause) (if mirror then 145 else 144))) typ sev p := ⟨_, _, _, rfl⟩

/-- A device that is marked failed is not live, and its source is pending (R731). -/
theorem deviceFailed_state (m : Core) (mirror : Bool) (cause sq : Nat) :
    devLive (deviceFailed m mirror cause sq) mirror = false
      ∧ isPending (deviceFailed m mirror cause sq) (if mirror then 145 else 144) = true := by
  obtain ⟨typ, sev, p, he⟩ := deviceFailed_eq m mirror cause sq
  rw [he]
  constructor
  · rw [journalHead, devLive_congr (enqueueRec_regs _ _ _) (by decide)]
    apply devLive_bothFailed
    rw [devLive_congr (raise_regs _ _) (by decide)]
    exact devLive_marked _ _ _
  · exact enqueueRec_isPending _ _ _ _ (bothFailed_pendingKept _ _ (raise_isPending _ _))

theorem writeNext_kept (m : Core) (c : JWrite) : PendingKept m (writeNext m c) ∧ m.onlyRegs [0x3814, 0x2C0C] (writeNext m c) := by
  have hend : PendingKept m (spaBoundary (modJnl m fun j => { j with cur := none }))
      ∧ m.onlyRegs [0x3814, 0x2C0C] (spaBoundary (modJnl m fun j => { j with cur := none })) := by
    constructor
    · exact pendingKept_trans (n := modJnl m fun j => { j with cur := none }) (fun _ h => h)
        (pendingKept_of_only (spaBoundary_only _) (by decide))
    · exact onlyRegs_trans (n := modJnl m fun j => { j with cur := none }) (onlyRegs_of_eq rfl)
        (onlyRegs_mono (spaBoundary_regs _) (by decide))
  unfold writeNext
  split
  · split
    · exact ⟨fun _ h => h, onlyRegs_of_eq rfl⟩
    · exact ⟨fun _ h => h, onlyRegs_of_eq rfl⟩
  · dsimp only
    split
    · exact hend
    · exact ⟨hend.1, onlyRegs_trans hend.2 (onlyRegs_rset _ _ _ (by decide))⟩

/-- Settles O19: `recordTake_local` for a record taken, `written` and `writeNext` for a write that ends, and
`deviceFailed_state` for the second failed one. -/
theorem journalEngineWritesBothDevices : Obligations.JournalEngineWritesBothDevices := by
  refine ⟨fun s r q hr he hq ha hl hk hd => ?_, fun s c hr hc hp => ?_, fun s c hr hc hp hrep => ?_,
    fun s c hr hc hp hrep => ?_⟩
  · have hjnl := writeBegun_jnl s.m r q
    exact ⟨_, clocked_next hr (recordTake_local he hq ha hl hk hd), congrArg Jnl.queue hjnl, congrArg Jnl.nextSeq hjnl,
      _, congrArg Jnl.cur hjnl, rfl, rfl, recSeq_numbered _ _ _, payload_numbered _ _ _,
      congrArg (fun j : Jnl => j.tail.head?) hjnl⟩
  · have hlive (d : Bool) : devLive (written s.m c) d = devLive s.m d := devLive_congr (written_regs _ _) (by decide) d
    have hdone : deviceWriteDone s.m .ok = writeNext (written s.m c) { c with wrote := true } := by
      simp only [deviceWriteDone, hc, hp]
      rfl
    obtain ⟨hparts, hregs, h0, h1⟩ := writeNext_only (m := written s.m c) (c := { c with wrote := true }) rfl
    refine ⟨_, clocked_next (f := fun m => deviceWriteDone m .ok) hr hdone, ?_, fun hm => ?_, fun hm hd => ?_,
      fun hm h1 h0 => ?_, only_next ?_, ?_⟩
    · exact (devSlot_congr h0 h1 _ _).trans (by rw [devSlot_written, if_pos ⟨rfl, rfl⟩])
    · exact writeNext_end rfl (.inl hm)
    · exact writeNext_end rfl (.inr ((hlive true).trans hd))
    · exact writeNext_mirror hm ((hlive false).trans h0) ((hlive true).trans h1)
    · exact onlyParts_trans (onlyParts_mono (written_only _ _) (by decide)) (onlyParts_mono hparts (by decide))
    · exact onlyRegs_trans (onlyRegs_mono (written_regs _ _) (by decide)) (onlyRegs_mono hregs (by decide))
  · have hstep : wipTimeout s.m = modJnl (devScramble s.m c) fun j => { j with cur := some { c with repeated := true } } := by
      simp [wipTimeout, hc, hp, writeFailed, hrep]
    exact ⟨_, clocked_next hr hstep, rfl, only_next (onlyParts_trans (devScramble_only _ _) (onlyParts_jnl _ _ (by decide)))⟩
  · have hstep : wipTimeout s.m = writeNext (deviceFailed (devScramble s.m c) c.mirror 2 (recSeq c.bytes)) c := by
      simp [wipTimeout, hc, hp, writeFailed, hrep]
    obtain ⟨hdead, hpend⟩ := deviceFailed_state (devScramble s.m c) c.mirror 2 (recSeq c.bytes)
    obtain ⟨hkept, hregs⟩ := writeNext_kept (deviceFailed (devScramble s.m c) c.mirror 2 (recSeq c.bytes)) c
    exact ⟨_, clocked_next hr hstep, (devLive_congr hregs (by decide) _).trans hdead, hkept _ hpend⟩

/-! ### A message taken from the inbox -/

theorem freeSlots_only (m : Core) (p v n : Nat) : m.onlyParts [.ports] (freeSlots m p v n) := by
  unfold freeSlots
  split
  · exact onlyParts_refl _ _
  · exact setPort_only _ _ _

/-- The machine without the inbox, the slots of the message that leaves it freed. -/
def released (m : Core) (i : InMsg) : Core :=
  let n : Core := { m with inbox := [] }
  if clsOf i.msg.op = .rsp || clsOf i.msg.op = .dat || !i.slots then n else freeSlots n i.port i.vc (slotsOf i.msg)

theorem takeInbox_single {m : Core} {i : InMsg} {f : Msg → Bool} (hi : m.inbox = [i]) (hf : f i.msg = true) :
    takeInbox m f = some (i, released m i) := by
  have ht : takeFirst (fun i : InMsg => f i.msg) m.inbox = some (i, []) := by simp [hi, takeFirst, hf]
  rw [takeInbox, ht]
  rfl

theorem released_only (m : Core) (i : InMsg) : m.onlyParts [.inbox, .ports] (released m i) := by
  have h0 : m.onlyParts [.inbox, .ports] { m with inbox := [] } := onlyParts_inbox _ _ (by decide)
  unfold released
  dsimp only
  split
  · exact h0
  · exact onlyParts_trans h0 (onlyParts_mono (freeSlots_only _ _ _ _) (by decide))

theorem released_inbox (m : Core) (i : InMsg) : (released m i).inbox = [] := by
  unfold released
  dsimp only
  split
  · rfl
  · exact freeSlots_only { m with inbox := [] } _ _ _ .inbox (by decide)

/-! ### The head search (R741, R742) -/

theorem headSeq_only (m : Core) (d : Bool) : m.onlyParts [.free] (headSeq m d).2 := by
  unfold headSeq
  split
  · exact onlyParts_refl _ _
  · exact freeLine_only m

/-- The machine when a search of two empty devices has ended: the journal starts at sequence 0, in slot 0 (R741). -/
def emptyFound (m : Core) (a b : Nat) : Core :=
  let n := modJnl (headSeq (headSeq m false).2 true).2 fun j => { j with searching := false, searched := true }
  let n := modJnl n fun j => { j with nextSeq := 0, lastCrc := 0xFFFFFFFF#32, slot := 0 }
  setHead (setHead n false a) true b

theorem emptyFound_only (m : Core) (a b : Nat) : m.onlyParts [.jnl, .free] (emptyFound m a b) := by
  have h0 := onlyParts_trans (headSeq_only m false) (headSeq_only _ true)
  refine onlyParts_trans (onlyParts_mono h0 (by decide)) ?_
  exact onlyParts_trans (onlyParts_trans (onlyParts_trans (onlyParts_jnl _ _ (by decide)) (onlyParts_jnl _ _ (by decide)))
    (onlyParts_jnl _ _ (by decide))) (onlyParts_jnl _ _ (by decide))

theorem headSearchDone_empty {m : Core} (hs : m.jnl.searching = true) (h0 : headOf m false = none)
    (h1 : headOf m true = none) :
    ∃ a b p, headSearchDone m = journalHead (spaBoundary (emptyFound m a b)) 1 1 p := by
  have hh : higherHead m = none := by simp [higherHead, h0, h1]
  unfold headSearchDone
  rw [if_neg (by rw [hs]; decide), hh]
  exact ⟨_, _, _, rfl⟩

/-- Settles O21: a search of two empty devices ends in `emptyFound`; what stands behind it is a journal record. -/
theorem headSearchFindsEmptyDevices : Obligations.HeadSearchFindsEmptyDevices := by
  refine ⟨fun s hr hn hb => ?_, fun s hr hs h0 h1 => ?_, fun s i hr hi hop => ?_⟩
  · have hstep : headSearchStart s.m = spaCall (modJnl s.m fun j => { j with needSearch := false, searching := true }) := by
      simp [headSearchStart, hn, hb]
    have hjnl := spaCall_jnl (modJnl s.m fun j => { j with needSearch := false, searching := true })
    exact ⟨_, clocked_next hr hstep, congrArg Jnl.searching hjnl, congrArg Jnl.needSearch hjnl,
      only_next (onlyParts_trans (onlyParts_jnl _ _ (by decide)) (onlyParts_mono (spaCall_only _) (by decide))),
      onlyRegs_trans (onlyRegs_of_eq rfl) (spaCall_regs _)⟩
  · obtain ⟨a, b, p, hstep⟩ := headSearchDone_empty hs h0 h1
    have hfound : (spaBoundary (emptyFound s.m a b)).jnl = (emptyFound s.m a b).jnl := spaBoundary_jnl _
    obtain ⟨q, l, ls, jq, hjnl⟩ : JnlNoted (emptyFound s.m a b) (journalHead (spaBoundary (emptyFound s.m a b)) 1 1 p) :=
      noted_trans (noted_of_eq hfound) (enqueueRec_noted _ _ _)
    have hparts : s.m.onlyParts [.jnl, .free, .spi, .regs] (spaBoundary (emptyFound s.m a b)) :=
      onlyParts_trans (onlyParts_mono (emptyFound_only _ _ _) (by decide)) (onlyParts_mono (spaBoundary_only _) (by decide))
    have hregs : s.m.onlyRegs [0x3814] (spaBoundary (emptyFound s.m a b)) :=
      onlyRegs_trans (onlyRegs_of_only (emptyFound_only _ _ _) (by decide)) (spaBoundary_regs _)
    exact ⟨_, clocked_next hr hstep, congrArg Jnl.searching hjnl, congrArg Jnl.searched hjnl, congrArg Jnl.nextSeq hjnl,
      congrArg Jnl.slot hjnl,
      only_next (onlyParts_trans (onlyParts_mono hparts (by decide)) (onlyParts_mono (enqueueRec_only _ _ _) (by decide))),
      onlyRegs_trans (onlyRegs_mono hregs (by decide)) (onlyRegs_mono (enqueueRec_regs _ _ _) (by decide))⟩
  · have htake : takeInbox s.m (fun x => decide (x.op = .jrc)) = some (i, released s.m i) :=
      takeInbox_single hi (by rw [hop]; decide)
    have htrk : (released s.m i).trk = s.m.trk := released_only s.m i .trk (by decide)
    have hexec : execJrc s = .next { s with m := countRule (released s.m i) 739 } := by
      unfold execJrc
      exact clocked_next hr (by rw [htake])
    refine ⟨_, hexec, released_inbox _ _, ?_, only_next ?_⟩
    · exact congrArg (fun t : Tracker => { t with counts := tput 0 t.counts 739 (tget 0 t.counts 739 + 1) }) htrk
    · exact onlyParts_trans (onlyParts_mono (released_only _ _) (by decide)) (onlyParts_mono (countRule_only _ _) (by decide))

/-! ### The power-fail flush (R743 to R748, R956) -/

/-- What taking records for a flush leaves of the machine: the sources that were pending, and of the journal all but what
stands here. -/
theorem takeFlush_qrecs (rs : List QRec) (m : Core) :
    (takeFlush m rs).jnl.flushing.map (fun f => f.qrec)
      = m.jnl.flushing.map (fun f => f.qrec) ++ rs.filter (fun r => decide (r.action ≠ 2)) := by
  induction rs generalizing m with
  | nil => simp [takeFlush]
  | cons r rs ih =>
    obtain ⟨_, _, _, _, hk⟩ := (toKeepers_state (advanced m r true) r (numbered m r true)).1
    have hfl : (takeRec m r true).1.jnl.flushing = m.jnl.flushing := by
      rw [takeRec_eq]
      dsimp only
      rw [pinnedEnd_jnl, hk]
      rfl
    rw [takeFlush]
    rw [ih]
    by_cases ha : r.action = 2
    · rw [if_pos ha, hfl, List.filter_cons_of_neg (by simp [ha])]
    · rw [if_neg ha, List.filter_cons_of_pos (by simp [ha])]
      simp [modJnl, hfl]

theorem takeRec_kept (m : Core) (r : QRec) (single : Bool) : PendingKept m (takeRec m r single).1
    ∧ (takeRec m r single).1.jnl.pfail = m.jnl.pfail ∧ (takeRec m r single).1.jnl.flushed = m.jnl.flushed := by
  obtain ⟨⟨_, _, _, _, hk⟩, hp, _⟩ := toKeepers_state (advanced m r single) r (numbered m r single)
  have hjnl := pinnedEnd_jnl (toKeepers (advanced m r single) r (numbered m r single)) m.jnl.nextSeq.toNat
  rw [hk] at hjnl
  exact ⟨pendingKept_trans (n := advanced m r single) (fun _ h => h) (pendingKept_trans hp (pinnedEnd_pendingKept _ _)),
    (congrArg Jnl.pfail hjnl :), (congrArg Jnl.flushed hjnl :)⟩

theorem takeFlush_kept (rs : List QRec) (m : Core) : PendingKept m (takeFlush m rs)
    ∧ (takeFlush m rs).jnl.pfail = m.jnl.pfail ∧ (takeFlush m rs).jnl.flushed = m.jnl.flushed := by
  induction rs generalizing m with
  | nil => exact ⟨fun _ h => h, rfl, rfl⟩
  | cons r rs ih =>
    obtain ⟨hp, hpf, hfl⟩ := takeRec_kept m r true
    rw [takeFlush]
    split
    · obtain ⟨hp', hpf', hfl'⟩ := ih (takeRec m r true).1
      exact ⟨pendingKept_trans hp hp', hpf'.trans hpf, hfl'.trans hfl⟩
    · obtain ⟨hp', hpf', hfl'⟩ := ih (modJnl (takeRec m r true).1 fun j => { j with
        flushing := j.flushing ++ [⟨(takeRec m r true).2.2.1, (takeRec m r true).2.1, (takeRec m r true).2.2.2, r⟩] })
      exact ⟨pendingKept_trans hp hp', hpf'.trans hpf, hfl'.trans hfl⟩

theorem takeRec_off {m : Core} (h : rbit m 0x2C00 8 = false) (r : QRec) (single : Bool) :
    m.onlyParts (.jnl :: Part.report) (takeRec m r single).1 ∧ m.onlyRegs reportRegs (takeRec m r single).1
      ∧ (takeRec m r single).1.jnl.queue = m.jnl.queue := by
  have hadv : rbit (advanced m r single) 0x2C00 8 = false := (rbit_congr rfl _ _).trans h
  have hstep : (takeRec m r single).1 = pinnedEnd (advanced m r single) m.jnl.nextSeq.toNat := by
    rw [takeRec_eq, toKeepers_off hadv]
  rw [hstep, pinnedEnd_jnl]
  exact ⟨onlyParts_trans (n := advanced m r single) (onlyParts_jnl m _ (by decide)) (onlyParts_mono (pinnedEnd_only _ _) (by decide)),
    onlyRegs_trans (n := advanced m r single) (onlyRegs_of_eq rfl) (pinnedEnd_regs _ _), rfl⟩

theorem takeFlush_off (rs : List QRec) {m : Core} (h : rbit m 0x2C00 8 = false) :
    m.onlyParts (.jnl :: Part.report) (takeFlush m rs) ∧ m.onlyRegs reportRegs (takeFlush m rs)
      ∧ (takeFlush m rs).jnl.queue = m.jnl.queue := by
  induction rs generalizing m with
  | nil => exact ⟨onlyParts_refl _ _, onlyRegs_refl _ _, rfl⟩
  | cons r rs ih =>
    obtain ⟨hp, hr, hq⟩ := takeRec_off h r true
    have hoff : rbit (takeRec m r true).1 0x2C00 8 = false := (SoftReset.rbit_of_onlyRegs hr (by decide) 8).trans h
    rw [takeFlush]
    split
    · obtain ⟨hp', hr', hq'⟩ := ih hoff
      exact ⟨onlyParts_trans hp hp', onlyRegs_trans hr hr', hq'.trans hq⟩
    · obtain ⟨hp', hr', hq'⟩ := ih (m := modJnl (takeRec m r true).1 fun j => { j with
        flushing := j.flushing ++ [⟨(takeRec m r true).2.2.1, (takeRec m r true).2.1, (takeRec m r true).2.2.2, r⟩] })
        ((rbit_congr rfl _ _).trans hoff)
      exact ⟨onlyParts_trans (onlyParts_trans hp (onlyParts_jnl _ _ (by decide))) hp',
        onlyRegs_trans (onlyRegs_trans hr (onlyRegs_of_eq rfl)) hr', hq'.trans hq⟩

/-- The machine as a power failure is recognised, before its flush. -/
def failed (m : Core) : Core := cutRead (raise (modJnl m fun j => { j with pfail := true, flushed := false }) 22)

theorem pfailAssert_eq {m : Core} (hp : m.jnl.pfail = false) (hr : running m = true) : pfailAssert m = flushBegin (failed m) := by
  have hrun : running (modJnl m fun j => { j with pfail := true, flushed := false }) = true := hr
  simp [pfailAssert, hp, hrun, failed]

theorem cutRead_only (m : Core) : m.onlyParts [.boot] (cutRead m) := by
  unfold cutRead
  split
  · exact onlyParts_boot _ _ (by decide)
  · exact onlyParts_refl _ _

theorem failed_only (m : Core) : m.onlyParts (.jnl :: .boot :: Part.report) (failed m) :=
  onlyParts_trans (onlyParts_trans (onlyParts_jnl m _ (by decide)) (onlyParts_mono (raise_only _ 22) (by decide)))
    (onlyParts_mono (cutRead_only _) (by decide))

theorem failed_regs (m : Core) : m.onlyRegs reportRegs (failed m) :=
  onlyRegs_trans (n := raise (modJnl m fun j => { j with pfail := true, flushed := false }) 22)
    (fun a ha => raise_regs (modJnl m fun j => { j with pfail := true, flushed := false }) 22 a ha)
    (onlyRegs_of_only (cutRead_only _) (by decide))

theorem failed_jnl (m : Core) : (failed m).jnl = { m.jnl with pfail := true, flushed := false } := by
  have h1 : (failed m).jnl = (raise (modJnl m fun j => { j with pfail := true, flushed := false }) 22).jnl :=
    cutRead_only _ .jnl (by decide)
  rw [h1]
  exact raise_only _ 22 .jnl (by decide)

theorem failed_time (m : Core) : (failed m).time = m.time := failed_only m .time (by decide)

theorem failed_pending (m : Core) : isPending (failed m) 22 = true :=
  pendingKept_of_only (cutRead_only _) (by decide) _ (raise_isPending _ _)

/-- The journal cannot flush: no search has found its head, or no device is live (R748). -/
def cannotFlush (m : Core) : Bool :=
  m.jnl.needSearch || m.jnl.searching || (!devLive m false && !devLive m true)

theorem cannotFlush_failed (m : Core) : cannotFlush (failed m) = cannotFlush m := by
  simp only [cannotFlush, failed_jnl, devLive_congr (failed_regs m) (by decide)]

/-- The POWER_FAIL record of a flush that takes records of a queue (R744). -/
def failRecord (m : Core) : QRec :=
  ⟨7#7, 3#4, m.time.extractLsb' 8 52,
    payload [(8, min 7 m.jnl.queue.length + 1), (8, m.jnl.queue.length - min 7 m.jnl.queue.length), (32, m.jnl.nextSeq.toNat)],
    recAction m 7 3⟩

/-- The frame of a write is ended and the records of a flush have left the queue. -/
def flushReady (m : Core) : Core :=
  tally .jnl 1 1 (modJnl (endFrame m) fun j => { j with queue := j.queue.drop (min 7 (endFrame m).jnl.queue.length) })

theorem flushBegin_eq {m : Core} (h : cannotFlush m = false) : flushBegin m
    = spaCall (takeFlush (flushReady m) ((endFrame m).jnl.queue.take (min 7 (endFrame m).jnl.queue.length)
        ++ [failRecord (endFrame m)])) := by
  unfold cannotFlush at h
  unfold flushBegin
  rw [if_neg (by rw [h]; decide)]
  rfl

theorem flushBegin_kept {m : Core} (h : cannotFlush m = true) : flushBegin m = m := if_pos h

/-- The frame that ends changes the device and its write alone. -/
theorem endFrame_state (m : Core) : m.onlyParts [.jnl] (endFrame m) ∧ (endFrame m).jnl.queue = m.jnl.queue
    ∧ (endFrame m).jnl.flushing = m.jnl.flushing ∧ (endFrame m).jnl.nextSeq = m.jnl.nextSeq
    ∧ (endFrame m).jnl.pfail = m.jnl.pfail ∧ (endFrame m).jnl.flushed = m.jnl.flushed := by
  unfold endFrame
  split
  · exact ⟨onlyParts_refl _ _, rfl, rfl, rfl, rfl, rfl⟩
  · next c _ =>
    have hw (m : Core) (mirror : Bool) (k : Nat) (b : BitVec 256) : (devWrite m mirror k b).jnl.queue = m.jnl.queue
        ∧ (devWrite m mirror k b).jnl.flushing = m.jnl.flushing ∧ (devWrite m mirror k b).jnl.nextSeq = m.jnl.nextSeq
        ∧ (devWrite m mirror k b).jnl.pfail = m.jnl.pfail ∧ (devWrite m mirror k b).jnl.flushed = m.jnl.flushed := by
      cases mirror <;> exact ⟨rfl, rfl, rfl, rfl, rfl⟩
    obtain ⟨hq, hf, hn, hp, hd⟩ := hw m c.mirror c.slot c.bytes
    exact ⟨onlyParts_trans (onlyParts_jnl m _ (by decide)) (onlyParts_trans (onlyParts_jnl _ _ (by decide))
      (onlyParts_jnl _ _ (by decide))), hq, hf, hn, hp, hd⟩

theorem flushReady_only (m : Core) : m.onlyParts (.jnl :: Part.report) (flushReady m) :=
  onlyParts_trans (onlyParts_trans (onlyParts_mono (endFrame_state m).1 (by decide)) (onlyParts_jnl _ _ (by decide)))
    (onlyParts_mono (tally_only .jnl 1 1 _) (by decide))

theorem flushReady_regs (m : Core) : m.onlyRegs reportRegs (flushReady m) :=
  onlyRegs_trans (onlyRegs_of_only (endFrame_state m).1 (by decide)) (onlyRegs_trans (onlyRegs_of_eq rfl) (tally_regs .jnl 1 1 _))

theorem flushReady_jnl (m : Core) : (flushReady m).jnl
    = { (endFrame m).jnl with queue := (endFrame m).jnl.queue.drop (min 7 (endFrame m).jnl.queue.length) } := by
  rw [flushReady, tally_jnl]
  rfl

theorem flushReady_pendingKept (m : Core) : PendingKept m (flushReady m) :=
  pendingKept_trans (pendingKept_of_only (endFrame_state m).1 (by decide))
    (fun k hk => tally_isPending .jnl 1 1 _ k hk)

/-- A power failure's own record is never one for the keepers alone (R724). -/
theorem recAction_powerFail (m : Core) : recAction m 7 3 ≠ 2 := by
  unfold recAction
  dsimp only
  rw [if_pos (by decide)]
  split
  · decide
  · split
    · decide
    · assumption

theorem flushTakes_eq (q : List QRec) {r : QRec} (hr : r.action ≠ 2) :
    (q.take (min 7 q.length) ++ [r]).filter (fun r => decide (r.action ≠ 2)) = flushTakes q ++ [r] := by
  have htake : q.take (min 7 q.length) = q.take 7 := by
    rcases Nat.le_total 7 q.length with h | h
    · rw [Nat.min_eq_left h]
    · rw [Nat.min_eq_right h, List.take_length, List.take_of_length_le h]
  rw [htake, List.filter_append, flushTakes, List.filter_cons_of_pos (by simp [hr])]
  rfl

theorem drop_min (q : List QRec) : q.drop (min 7 q.length) = q.drop 7 := by
  rcases Nat.le_total 7 q.length with h | h
  · rw [Nat.min_eq_left h]
  · rw [Nat.min_eq_right h, List.drop_length, List.drop_of_length_le h]

/-- What the begin of a flush always leaves: the sources, the failure and the records that it takes. -/
theorem flushBegin_state {m : Core} (h : cannotFlush m = false) :
    PendingKept m (flushBegin m) ∧ (flushBegin m).jnl.pfail = m.jnl.pfail ∧ (flushBegin m).jnl.flushed = m.jnl.flushed
      ∧ (flushBegin m).jnl.flushing.map (fun f => f.qrec)
        = m.jnl.flushing.map (fun f => f.qrec) ++ flushTakes m.jnl.queue ++ [failRecord (endFrame m)] := by
  obtain ⟨_, hq, hf, hn, hp, hd⟩ := endFrame_state m
  have hready := flushReady_jnl m
  rw [flushBegin_eq h, spaCall_jnl]
  obtain ⟨hk, hp', hd'⟩ := takeFlush_kept ((endFrame m).jnl.queue.take (min 7 (endFrame m).jnl.queue.length)
    ++ [failRecord (endFrame m)]) (flushReady m)
  refine ⟨pendingKept_trans (pendingKept_trans (flushReady_pendingKept m) hk)
    (pendingKept_of_only (spaCall_only _) (by decide)), ?_, ?_, ?_⟩
  · rw [hp', hready]
    exact hp
  · rw [hd', hready]
    exact hd
  · rw [takeFlush_qrecs, flushTakes_eq _ (recAction_powerFail _), hready, List.append_assoc]
    show (endFrame m).jnl.flushing.map _ ++ _ = _
    rw [hf, hq]

theorem flushBegin_off {m : Core} (h : cannotFlush m = false) (hk : rbit m 0x2C00 8 = false) :
    m.onlyParts (.jnl :: .spi :: Part.report) (flushBegin m) ∧ m.onlyRegs (0x3814 :: reportRegs) (flushBegin m)
      ∧ (flushBegin m).jnl.queue = m.jnl.queue.drop 7 := by
  have hready : rbit (flushReady m) 0x2C00 8 = false := (SoftReset.rbit_of_onlyRegs (flushReady_regs m) (by decide) 8).trans hk
  obtain ⟨hp, hr, hq⟩ := takeFlush_off ((endFrame m).jnl.queue.take (min 7 (endFrame m).jnl.queue.length)
    ++ [failRecord (endFrame m)]) hready
  rw [flushBegin_eq h]
  refine ⟨onlyParts_trans (onlyParts_trans (onlyParts_mono (flushReady_only m) (by decide)) (onlyParts_mono hp (by decide)))
      (onlyParts_mono (spaCall_only _) (by decide)),
    onlyRegs_trans (onlyRegs_trans (onlyRegs_mono (flushReady_regs m) (by decide)) (onlyRegs_mono hr (by decide)))
      (onlyRegs_mono (spaCall_regs _) (by decide)), ?_⟩
  rw [spaCall_jnl, hq, flushReady_jnl]
  show List.drop _ _ = _
  rw [(endFrame_state m).2.1, drop_min]

/-- The device's slots of a flush are written (R745). -/
def flushWritten (m : Core) (d : Bool) (fs : List FlushRec) : Core :=
  fs.foldl (fun m x => setHead (devWrite (tally .jnl 2 1 m) d x.slot x.bytes) d x.slot) m

/-- The write of a flush's record to a device. -/
def flushWrite (d : Bool) (x : FlushRec) : JWrite := { bytes := x.bytes, prev := x.prev, slot := x.slot, mirror := d }

theorem flushWritten_state (d : Bool) (fs : List FlushRec) (m : Core) :
    m.onlyParts (.jnl :: Part.report) (flushWritten m d fs) ∧ m.onlyRegs reportRegs (flushWritten m d fs)
      ∧ (flushWritten m d fs).jnl.pfail = m.jnl.pfail ∧ (∀ k, devSlot (flushWritten m d fs) (!d) k = devSlot m (!d) k)
      ∧ (∀ k, k ∉ fs.map (fun f => f.slot) → devSlot (flushWritten m d fs) d k = devSlot m d k)
      ∧ ((fs.map (fun f => f.slot)).Nodup → ∀ f ∈ fs, devSlot (flushWritten m d fs) d f.slot = f.bytes) := by
  induction fs generalizing m with
  | nil => exact ⟨onlyParts_refl _ _, onlyRegs_refl _ _, rfl, fun _ => rfl, fun _ _ => rfl, fun _ f hf => by cases hf⟩
  | cons x fs ih =>
    obtain ⟨hp, hr, hf, ho, hk, hn⟩ := ih (written m (flushWrite d x))
    have hslot (e : Bool) (k : Nat) : devSlot (written m (flushWrite d x)) e k = if e = d ∧ x.slot = k then x.bytes else devSlot m e k :=
      devSlot_written m (flushWrite d x) e k
    have hpf : (written m (flushWrite d x)).jnl.pfail = m.jnl.pfail := by
      have ht : (tally .jnl 2 1 m).jnl = m.jnl := tally_jnl _ _ _ _
      cases d <;> exact (congrArg Jnl.pfail ht :)
    refine ⟨onlyParts_trans (written_only m (flushWrite d x)) hp, onlyRegs_trans (written_regs m (flushWrite d x)) hr, hf.trans hpf, fun k => ?_,
      fun k hne => ?_, fun hnd f hmem => ?_⟩
    · exact (ho k).trans (by rw [hslot, if_neg (by simp)])
    · rw [List.map_cons, List.mem_cons, not_or] at hne
      exact (hk k hne.2).trans (by rw [hslot, if_neg fun h => hne.1 h.2.symm])
    · rw [List.map_cons, List.nodup_cons] at hnd
      rcases List.mem_cons.1 hmem with rfl | hmem
      · exact (hk _ hnd.1).trans (by rw [hslot, if_pos ⟨rfl, rfl⟩])
      · exact hn hnd.2 f hmem

/-- The flush's records have left the journal. -/
def flushClosed (m : Core) : Core :=
  let n := flushWritten m (flushDev m) m.jnl.flushing
  modJnl n fun j => { j with flushing := [], flushed := n.jnl.pfail }

/-- The machine when a flush has ended. -/
def flushed (m : Core) : Core := raise (spaBoundary (flushClosed m)) 149

theorem flushDone_eq {m : Core} (h : m.jnl.flushing ≠ []) : flushDone m = flushed m := by
  unfold flushDone
  rw [if_neg (by simpa using h)]
  rfl

theorem flushed_jnl (m : Core) : (flushed m).jnl = (flushClosed m).jnl := by
  have h1 : (flushed m).jnl = (spaBoundary (flushClosed m)).jnl := raise_only _ 149 .jnl (by decide)
  rw [h1, spaBoundary_jnl]

theorem flushClosed_only (m : Core) : m.onlyParts (.jnl :: Part.report) (flushClosed m) :=
  onlyParts_trans (flushWritten_state (flushDev m) m.jnl.flushing m).1 (onlyParts_jnl _ _ (by decide))

theorem flushed_only (m : Core) : m.onlyParts (.jnl :: .spi :: Part.report) (flushed m) :=
  onlyParts_trans (onlyParts_trans (onlyParts_mono (flushClosed_only m) (by decide))
    (onlyParts_mono (spaBoundary_only _) (by decide))) (onlyParts_mono (raise_only _ _) (by decide))

theorem flushed_regs (m : Core) : m.onlyRegs (0x3814 :: reportRegs) (flushed m) := by
  have h : m.onlyRegs reportRegs (flushClosed m) := (flushWritten_state (flushDev m) m.jnl.flushing m).2.1
  exact onlyRegs_trans (onlyRegs_trans (onlyRegs_mono h (by decide)) (onlyRegs_mono (spaBoundary_regs _) (by decide)))
    (onlyRegs_mono (raise_regs _ _) (by decide))

theorem devSlot_flushed (m : Core) (d : Bool) (k : Nat) :
    devSlot (flushed m) d k = devSlot (flushWritten m (flushDev m) m.jnl.flushing) d k :=
  devSlot_congr (n := flushed m) (m := flushClosed m) (congrArg Jnl.dev0 (flushed_jnl m)) (congrArg Jnl.dev1 (flushed_jnl m)) d k

/-! A warm reset that has waited for the flush -/

/-- Drawing a free value for each of a list of lines, whatever is done with them. -/
theorem foldl_freeLine_only {α : Type} (g : α × Core → Nat → α) (ls : List Nat) (a : α × Core) :
    a.2.onlyParts [.free] (ls.foldl (fun a l => (g a l, (freeLine a.2).2)) a).2 := by
  induction ls generalizing a with
  | nil => exact onlyParts_refl _ _
  | cons l ls ih => exact onlyParts_trans (freeLine_only a.2) (ih (g a l, (freeLine a.2).2))

theorem hardContent_only (m : Core) (ls : List Nat) (d : Dram) : m.onlyParts [.free] (hardContent m ls d).2 :=
  foldl_freeLine_only (fun a l => writeLine a.1 l (freeLine a.2).1 false) ls (d, m)

theorem cutRepair_only (d : Dram) (m : Core) : m.onlyParts [.free] (cutRepair d m).2 := by
  unfold cutRepair
  split
  · split
    · exact hardContent_only _ _ _
    · exact onlyParts_refl _ _
  · exact onlyParts_refl _ _

/-- The journal but for its write in progress. -/
def sameRest (j k : Jnl) : Prop := ∃ c, k = { j with cur := c }

theorem cutWrite_jnl (m : Core) : sameRest m.jnl (cutWrite m).jnl := by
  unfold cutWrite
  split
  · unfold beginWrite
    split
    · exact ⟨_, spaCall_jnl _⟩
    · exact ⟨m.jnl.cur, rfl⟩
  · exact ⟨m.jnl.cur, rfl⟩

theorem warmCore_state {m : Core} (h : m.jnl.flushing = []) : (warmCore m).jnl.flushing = []
    ∧ (warmCore m).jnl.dev0 = m.jnl.dev0 ∧ (warmCore m).jnl.dev1 = m.jnl.dev1 ∧ (warmCore m).pins.warmHeld = true
    ∧ (warmCore m).pins.warmAfterFlush = none ∧ (warmCore m).trk = {} ∧ (warmCore m).ports = [] := by
  have hj : (warmCore m).jnl = jnlKept m.jnl := rfl
  have hu : unflush m.jnl = m.jnl := by rw [unflush, h]
  have hk : jnlKept m.jnl = { m.jnl with needSearch := m.jnl.needSearch || m.jnl.searching, searching := false, jrcQuiet := [] } := by
    rw [jnlKept, hu]
  rw [hj, hk]
  exact ⟨h, rfl, rfl, rfl, rfl, rfl, rfl⟩

/-- The machine that the warm reset leaves that has waited for a flush. -/
def warmFlushed (d : Dram) (m : Core) : Core :=
  warmCore (cutWrite (cutRepair d (modPins (flushed m) fun p => { p with warmAfterFlush := none })).2)

theorem warmFlushed_state (d : Dram) (m : Core) : (warmFlushed d m).jnl.flushing = []
    ∧ (∀ e k, devSlot (warmFlushed d m) e k = devSlot (flushed m) e k) ∧ (warmFlushed d m).pins.warmHeld = true
    ∧ (warmFlushed d m).pins.warmAfterFlush = none ∧ (warmFlushed d m).trk = {} ∧ (warmFlushed d m).ports = [] := by
  have hc : (cutRepair d (modPins (flushed m) fun p => { p with warmAfterFlush := none })).2.jnl = (flushed m).jnl :=
    cutRepair_only _ _ .jnl (by decide)
  obtain ⟨c, hw⟩ := cutWrite_jnl (cutRepair d (modPins (flushed m) fun p => { p with warmAfterFlush := none })).2
  rw [hc] at hw
  have hfl : (flushed m).jnl.flushing = [] := by rw [flushed_jnl]; rfl
  obtain ⟨hf, h0, h1, hrest⟩ := warmCore_state ((congrArg Jnl.flushing hw :).trans hfl)
  exact ⟨hf, fun e k => devSlot_congr (h0.trans (congrArg Jnl.dev0 hw :)) (h1.trans (congrArg Jnl.dev1 hw :)) e k, hrest⟩

theorem flushEnd_none {d : Dram} {m : Core} (h : m.jnl.flushing ≠ []) (hw : m.pins.warmAfterFlush = none) :
    flushEnd d m = (d, flushed m) := by
  rw [flushEnd, hw, flushDone_eq h]

theorem flushEnd_warm {d : Dram} {m : Core} (h : m.jnl.flushing ≠ []) (hw : m.pins.warmAfterFlush = some false)
    (hr : running m = true) : (flushEnd d m).2 = warmFlushed d m := by
  have hpins : (flushed m).pins = m.pins := flushed_only m .pins (by decide)
  have hfl : (flushed m).jnl.flushing = [] := by rw [flushed_jnl]; rfl
  simp only [running, Bool.and_eq_true, Bool.not_eq_true'] at hr
  obtain ⟨⟨⟨hcold, hwarm⟩, _⟩, _⟩ := hr
  rw [flushEnd, hw, flushDone_eq h]
  simp [warmHold, modPins, hpins, hcold, hwarm, hfl, warmFlushed]

/-- Settles O20: `flushBegin_state` and `flushBegin_off` for the begin of a flush, `flushWritten_state` for its end, and
`warmFlushed_state` for the reset that has waited for it. -/
theorem powerFailFlushesTheQueue : Obligations.PowerFailFlushesTheQueue := by
  refine ⟨fun s hp hr => ?_, fun s hp hr hc => ?_, fun s hp hr hn hs hl => ?_, fun s hr hf hnd hw => ?_,
    fun s hr hf hnd hw => ?_, fun s => ?_⟩
  · have hstep : exec .pfailAssert s = .next { s with m := flushBegin (failed s.m) } := by
      rw [← pfailAssert_eq hp hr]
      rfl
    have hjnl := failed_jnl s.m
    cases hc : cannotFlush (failed s.m) with
    | true =>
      rw [flushBegin_kept hc] at hstep
      exact ⟨_, hstep, (congrArg Jnl.pfail hjnl :), (congrArg Jnl.flushed hjnl :), failed_pending _, rfl, rfl⟩
    | false =>
      obtain ⟨hk, hpf, hfl, _⟩ := flushBegin_state hc
      exact ⟨_, hstep, hpf.trans (congrArg Jnl.pfail hjnl :), hfl.trans (congrArg Jnl.flushed hjnl :),
        hk _ (failed_pending _), rfl, rfl⟩
  · have hc : cannotFlush (failed s.m) = true := by
      rw [cannotFlush_failed]
      rcases hc with h | h | ⟨h0, h1⟩ <;> simp [cannotFlush, *]
    refine ⟨_, rfl, ?_⟩
    rw [pfailAssert_eq hp hr, flushBegin_kept hc]
    exact ⟨failed_jnl _, failed_pending _, only_next (failed_only _), failed_regs _⟩
  · have hc : cannotFlush (failed s.m) = false := by
      rw [cannotFlush_failed]
      rcases hl with h | h <;> simp [cannotFlush, *]
    have hjnl := failed_jnl s.m
    obtain ⟨hend, heq, _, hen, _, _⟩ := endFrame_state (failed s.m)
    obtain ⟨hk, hpf, hfl, hq⟩ := flushBegin_state hc
    have htime : (endFrame (failed s.m)).time = s.m.time :=
      (hend .time (by decide) : (endFrame (failed s.m)).time = (failed s.m).time).trans (failed_time _)
    have hqueue : (failed s.m).jnl.queue = s.m.jnl.queue := (congrArg Jnl.queue hjnl :)
    have hseq : (failed s.m).jnl.nextSeq = s.m.jnl.nextSeq := (congrArg Jnl.nextSeq hjnl :)
    refine ⟨_, failRecord (endFrame (failed s.m)), rfl, ?_⟩
    rw [pfailAssert_eq hp hr]
    refine ⟨hpf.trans (congrArg Jnl.pfail hjnl :), hfl.trans (congrArg Jnl.flushed hjnl :), hk _ (failed_pending _), ?_, rfl, rfl,
      ?_, ?_, fun hoff => ?_, rfl, rfl⟩
    · rw [hqueue, (congrArg Jnl.flushing hjnl :)] at hq
      exact hq
    · exact congrArg (BitVec.extractLsb' 8 52) htime
    · have hlen : s.m.jnl.queue.length - min 7 s.m.jnl.queue.length = s.m.jnl.queue.length - 7 := by omega
      rw [failRecord, heq, hqueue, hen, hseq, hlen]
    · have hoff' : rbit (failed s.m) 0x2C00 8 = false := (SoftReset.rbit_of_onlyRegs (failed_regs _) (by decide) 8).trans hoff
      obtain ⟨hparts, hregs, hdrop⟩ := flushBegin_off hc hoff'
      rw [hqueue] at hdrop
      exact ⟨hdrop, only_next (onlyParts_trans (onlyParts_mono (failed_only _) (by decide)) (onlyParts_mono hparts (by decide))),
        onlyRegs_trans (onlyRegs_mono (failed_regs _) (by decide)) hregs⟩
  · obtain ⟨_, _, hpf, ho, hk, hn⟩ := flushWritten_state (flushDev s.m) s.m.jnl.flushing s.m
    have hstep : exec .pfailFlushDone s = .next { s with m := flushed s.m } := by
      show clockedDram flushEnd s = _
      rw [clockedDram, if_pos hr, flushEnd_none hf hw]
    exact ⟨_, hstep, congrArg Jnl.flushing (flushed_jnl s.m), (congrArg Jnl.flushed (flushed_jnl s.m)).trans hpf,
      fun f hmem => (devSlot_flushed _ _ _).trans (hn hnd f hmem), fun k hne => (devSlot_flushed _ _ _).trans (hk k hne),
      fun k => (devSlot_flushed _ _ _).trans (ho k), raise_isPending _ _, only_next (flushed_only _), flushed_regs _⟩
  · obtain ⟨_, _, _, _, _, hn⟩ := flushWritten_state (flushDev s.m) s.m.jnl.flushing s.m
    obtain ⟨hfl, hdev, hheld, hwait, htrk, hports⟩ := warmFlushed_state s.dram s.m
    have hstep : exec .pfailFlushDone s
        = .next { s with dram := (flushEnd s.dram s.m).1, m := warmFlushed s.dram s.m } := by
      show clockedDram flushEnd s = _
      rw [clockedDram, if_pos hr, flushEnd_warm hf hw hr]
    exact ⟨_, hstep, hfl, fun f hmem => (hdev _ _).trans ((devSlot_flushed _ _ _).trans (hn hnd f hmem)), hheld, hwait, htrk,
      hports, rfl⟩
  · refine ⟨_, rfl, rfl, ?_, only_next (onlyParts_jnl s.m _ (by decide))⟩
    simp [engineFree, pfailDeassert, modJnl]

end Sys2Proof.Engine
end

section
/-! PROOFS. Arrivals at the home tracker (spec/03_coherence_flows.md, R154; spec/06_progress.md, R263 to R265), and what
reports leave of the whistle. -/

namespace Sys2Proof.Arriving

open Sys2Proof.Machine Sys2Proof.Laws Sys2Proof.Windows Sys2Proof.Engine

/-! ### Arrivals -/

/-- The machine when an arrival has its writeback buffer: its slots in the port's buffer are freed. -/
def wbTaken (m : Core) (x : Arrival) : Core :=
  let n := if x.slots then freeSlots m x.port (vcOf x.msg) (slotsOf x.msg) else m
  { n with trk := { n.trk with
    wbUse := tput 0 n.trk.wbUse (poolKey (arrSlot m x)) (tget 0 n.trk.wbUse (poolKey (arrSlot m x)) + 1) } }

theorem slotsFreed_only (m : Core) (x : Arrival) :
    m.onlyParts [.ports] (if x.slots then freeSlots m x.port (vcOf x.msg) (slotsOf x.msg) else m) := by
  split
  · exact freeSlots_only _ _ _ _
  · exact onlyParts_refl _ _

theorem wbTaken_only (m : Core) (x : Arrival) : m.onlyParts [.ports, .trk] (wbTaken m x) :=
  onlyParts_trans (onlyParts_mono (slotsFreed_only m x) (by decide)) (onlyParts_trk _ _ (by decide))

theorem wbTaken_trk (m : Core) (x : Arrival) : ∃ as u, (wbTaken m x).trk = { m.trk with arrivals := as, wbUse := u } := by
  have h : (if x.slots then freeSlots m x.port (vcOf x.msg) (slotsOf x.msg) else m).trk = m.trk :=
    slotsFreed_only m x .trk (by decide)
  rw [← h]
  exact ⟨_, _, rfl⟩

/-- The grants of writeback buffers change the port buffers and the tracker alone, of it the arrivals and the buffers. -/
theorem grantWb_state (done rest : List Arrival) (m : Core) (bl : List (Nat × Nat)) :
    m.onlyParts [.ports, .trk] (grantWb m bl done rest)
      ∧ (∃ as u, (grantWb m bl done rest).trk = { m.trk with arrivals := as, wbUse := u })
      ∧ ∀ a, a ∈ done ∨ a ∈ rest → ∃ w, { a with wb := w } ∈ (grantWb m bl done rest).trk.arrivals := by
  induction rest generalizing m bl done with
  | nil =>
    refine ⟨onlyParts_trk _ _ (by decide), ⟨_, _, rfl⟩, fun a ha => ⟨a.wb, ?_⟩⟩
    rcases ha with ha | ha
    · exact List.mem_reverse.2 ha
    · cases ha
  | cons x rest ih =>
    have hkeep (n : Core) (bl : List (Nat × Nat)) (hp : m.onlyParts [.ports, .trk] n)
        (ht : ∃ as u, n.trk = { m.trk with arrivals := as, wbUse := u }) (y : Arrival) (hy : ∃ w, y = { x with wb := w }) :
        m.onlyParts [.ports, .trk] (grantWb n bl (y :: done) rest)
          ∧ (∃ as u, (grantWb n bl (y :: done) rest).trk = { m.trk with arrivals := as, wbUse := u })
          ∧ ∀ a, a ∈ done ∨ a ∈ x :: rest → ∃ w, { a with wb := w } ∈ (grantWb n bl (y :: done) rest).trk.arrivals := by
      obtain ⟨hp', ⟨as, u, ht'⟩, hm⟩ := ih (y :: done) n bl
      obtain ⟨_, _, ht⟩ := ht
      obtain ⟨w, rfl⟩ := hy
      refine ⟨onlyParts_trans hp hp', ⟨as, u, by rw [ht', ht]⟩, fun a ha => ?_⟩
      rcases ha with ha | ha
      · exact hm a (.inl (List.mem_cons_of_mem _ ha))
      · rcases List.mem_cons.1 ha with rfl | ha
        · obtain ⟨v, hv⟩ := hm { a with wb := w } (.inl List.mem_cons_self)
          exact ⟨v, hv⟩
        · exact hm a (.inr ha)
    have hsame (bl : List (Nat × Nat)) := hkeep m bl (onlyParts_refl _ _) ⟨_, _, rfl⟩ x ⟨x.wb, rfl⟩
    rw [grantWb]
    split
    · split
      · exact hsame _
      · split
        · exact hkeep (wbTaken m x) _ (wbTaken_only m x) (wbTaken_trk m x) _ ⟨_, rfl⟩
        · exact hsame _
    · exact hsame _

theorem arrive_only (m : Core) (a : Arrival) : m.onlyParts [.ports, .trk] (arrive m a) :=
  onlyParts_trans (onlyParts_trk m _ (by decide)) (grantWb_state [] _ _ []).1

/-- An arrival changes of the tracker the arrivals and the writeback buffers alone. -/
theorem arrive_trk (m : Core) (a : Arrival) : ∃ as u, (arrive m a).trk = { m.trk with arrivals := as, wbUse := u } := by
  obtain ⟨as, u, h⟩ := (grantWb_state [] (m.trk.arrivals ++ [a]) { m with trk := { m.trk with arrivals := m.trk.arrivals ++ [a] } } []).2.1
  exact ⟨as, u, h⟩

/-- What arrives stands among the arrivals, and so does what stood there. -/
theorem mem_arrive (m : Core) (a : Arrival) {b : Arrival} (h : b = a ∨ b ∈ m.trk.arrivals) :
    ∃ w, { b with wb := w } ∈ (arrive m a).trk.arrivals := by
  refine (grantWb_state [] (m.trk.arrivals ++ [a]) { m with trk := { m.trk with arrivals := m.trk.arrivals ++ [a] } } []).2.2 b
    (.inr ?_)
  rcases h with rfl | h
  · exact List.mem_append_right _ (List.mem_singleton.2 rfl)
  · exact List.mem_append_left _ h

/-! ### What reports leave of the whistle -/

/-- Two machines whose whistles differ in what a trigger changes. -/
def WhsNoted (m n : Core) : Prop := ∃ ms d r, n.whs = { m.whs with missed := ms, drivePend := d, recog := r }

theorem whsNoted_of_eq {m n : Core} (h : n.whs = m.whs) : WhsNoted m n := ⟨_, _, _, h⟩

theorem whsNoted_trans {m n o : Core} (h : WhsNoted m n) (g : WhsNoted n o) : WhsNoted m o := by
  obtain ⟨_, _, _, hn⟩ := h
  obtain ⟨ms, d, r, ho⟩ := g
  exact ⟨ms, d, r, by rw [ho, hn]⟩

theorem raiseRaw_whsNoted (m : Core) (n : Nat) : WhsNoted m (raiseRaw m n) := by
  have hsrc : (srcRaise m n).whs = m.whs := by
    unfold srcRaise
    split
    · rfl
    · rfl
    · rfl
  have hcheck (m : Core) : WhsNoted m (whistleCheck m n) := by
    unfold whistleCheck
    split
    · unfold whistleTrigger
      split
      · exact ⟨_, _, _, rfl⟩
      · split
        · exact ⟨_, _, _, rfl⟩
        · exact ⟨_, _, _, rfl⟩
    · exact whsNoted_of_eq rfl
  exact whsNoted_trans (whsNoted_of_eq hsrc) (whsNoted_trans (hcheck _) (whsNoted_of_eq (eicUpdate_only _ .whs (by decide))))

theorem ctrAdd_whsNoted (k : Nat) (c : CtrCfg) (n : Nat) (m : Core) : WhsNoted m (ctrAdd k c n m) := by
  have hwrap (v : Nat) : WhsNoted m (ctrWrap (ctrStore m k v) k) := whsNoted_of_eq rfl
  unfold ctrAdd ctrReach
  split
  · exact whsNoted_of_eq rfl
  · split
    · exact whsNoted_trans (hwrap _) (raiseRaw_whsNoted _ _)
    · exact hwrap _

theorem tally_whsNoted (b : Blk) (e n : Nat) (m : Core) : WhsNoted m (tally b e n m) := by
  unfold tally
  induction m.pmc.cfg generalizing m with
  | nil => exact whsNoted_of_eq rfl
  | cons x r ih =>
    refine whsNoted_trans ?_ (ih _)
    dsimp only
    split
    · exact ctrAdd_whsNoted _ _ _ _
    · exact whsNoted_of_eq rfl

theorem raise_whsNoted (m : Core) (n : Nat) : WhsNoted m (raise m n) := by
  have hrep : WhsNoted m (countRepeat m n) := by
    unfold countRepeat
    split
    · exact tally_whsNoted _ _ _ _
    · exact whsNoted_of_eq rfl
  exact whsNoted_trans hrep (whsNoted_trans (tally_whsNoted _ _ _ _) (raiseRaw_whsNoted _ _))

theorem queueRecs_whsNoted (m : Core) (q : List QRec) : WhsNoted m (queueRecs m q) := tally_whsNoted .jnl 1 1 _

theorem dropRec_whsNoted (m : Core) (s : BitVec 4) : WhsNoted m (dropRec m s) := tally_whsNoted .jnl 3 1 (rinc m 0x2C20 1)

theorem journal_whsNoted (m : Core) (t s : Nat) (p : BitVec 128) : WhsNoted m (journal m t s p) := by
  unfold journal enqueueRec
  split
  · exact whsNoted_of_eq rfl
  · split
    · exact queueRecs_whsNoted m _
    · split
      · exact whsNoted_trans (queueRecs_whsNoted m _) (dropRec_whsNoted _ _)
      · exact dropRec_whsNoted m _

end Sys2Proof.Arriving
end

section
/-! PROOFS. Captures, dumps, the whistle and the level marks (spec/15_observability.md), with the statements about them. -/

namespace Sys2Proof.Observe

open Sys2Proof.Machine Sys2Proof.Laws Sys2Proof.Windows Sys2Proof.Controls Sys2Proof.Sending Sys2Proof.Events
  Sys2Proof.Engine Sys2Proof.Arriving

/-! ### Captures (R766, R767, R769, R779) -/

/-- The machine after a capture into P with dumping off. -/
def capturedP (m : Core) : Core :=
  modPmc m fun p => { p with capP := p.ctr, wrapped := [], stepped := false }

theorem periodicCapture_off {m : Core} (h : rbit m 0x30A0 0 = false) : periodicCapture m = capturedP m := by
  have h' : rbit (modPmc m fun p => { p with capP := p.ctr }) 0x30A0 0 = false := h
  unfold periodicCapture
  dsimp only
  rw [h']
  rfl

/-- The record of a capture that is made (R769). -/
def captureRecord (m : Core) : DumpRec := dumpRecord (modPmc m fun p => { p with capP := p.ctr })

theorem periodicCapture_dump {m : Core} (h : rbit m 0x30A0 0 = true) (hd : m.pmc.dump = none) :
    periodicCapture m = modPmc (capturedP m) fun p => { p with dump := some (captureRecord m) } := by
  have h' : rbit (modPmc m fun p => { p with capP := p.ctr }) 0x30A0 0 = true := h
  have hd' : (modPmc m fun p => { p with capP := p.ctr }).pmc.dump = none := hd
  unfold periodicCapture
  dsimp only
  rw [h', hd']
  rfl

/-- The overrun of a capture that meets a record in progress is marked and counted (R769). -/
def overrunMarked (m : Core) : Core :=
  rsetf (rinc (modPmc m fun p => { p with capP := p.ctr }) 0x30C0 1) 0x30B8 0 0 1

/-- The machine when a capture has met a record in progress. -/
def overrun (m : Core) : Core :=
  modPmc (raise (overrunMarked m) 178) fun p => { p with wrapped := [], stepped := false }

theorem periodicCapture_overrun {m : Core} {d : DumpRec} (h : rbit m 0x30A0 0 = true) (hd : m.pmc.dump = some d) :
    periodicCapture m = overrun m := by
  have h' : rbit (modPmc m fun p => { p with capP := p.ctr }) 0x30A0 0 = true := h
  have hd' : (modPmc m fun p => { p with capP := p.ctr }).pmc.dump = some d := hd
  unfold periodicCapture
  dsimp only
  rw [h', hd']
  rfl

theorem raise_counted (m : Core) (n : Nat) : SoftReset.Counted m (raise m n) := by
  have hrep : SoftReset.Counted m (countRepeat m n) := by
    unfold countRepeat
    split
    · exact SoftReset.tally_counted _ _ _ _
    · exact SoftReset.counted_of_eq rfl
  exact SoftReset.counted_trans hrep (SoftReset.counted_trans (SoftReset.tally_counted _ _ _ _)
    (SoftReset.counted_of_eq (SoftReset.raiseRaw_pmc _ _)))

/-- A register that counts up, and no other, after an increment. -/
theorem rget_rinc (m : Core) (a n : Nat) :
    rget (rinc m a n) a = BitVec.ofNat 32 (min ((rget m a).toNat + n) 0xFFFFFFFF) := by
  rw [rinc, rget_rset_same]

/-- Settles O22: a capture into P copies the counters, and its record or its overrun follow by the dump's state. -/
theorem capturesLatchTheCounters : Obligations.CapturesLatchTheCounters := by
  refine ⟨fun s a h => ?_, fun s a v h hoff hon => ?_, fun s hr hoff => ?_, fun s hr hon hd => ?_, fun s d hr hon hd => ?_⟩
  · have hst := storeWrite_only s.m 0x3088 1
    have hpmc : (storeWrite s.m 0x3088 1).pmc = s.m.pmc := hst .pmc (by decide)
    refine ⟨_, accepted_next (n := modPmc (storeWrite s.m 0x3088 1) fun p => { p with capDue := true }) h
      (not_throw _ (by decide)) rfl, congrArg (fun p : Pmc => { p with capDue := true }) hpmc, lmbOk_set _,
      only_lmb (onlyParts_trans (onlyParts_mono hst (by decide)) (onlyParts_pmc _ _ (by decide))) (by decide), ?_⟩
    exact onlyRegs_lmb (onlyRegs_trans (n := storeWrite s.m 0x3088 1)
      (fun b _ => rget_storeWrite_command _ (by decide +kernel) b) (onlyRegs_of_eq rfl))
  · have hst := storeWrite_only s.m 0x30A0 v
    have hreg : regAt 0x30A0 = some ⟨0x30A0, 1, 0x4, [⟨1, 1, .rw, 0, .sw, none⟩, ⟨0, 0, .rw, 0, .sw, none⟩]⟩ := by
      decide +kernel
    have h0 : rbit (storeWrite s.m 0x30A0 v) 0x30A0 0 = bit v 0 :=
      store_rw hreg (f := ⟨0, 0, .rw, 0, .sw, none⟩) (by simp) (.inl rfl) (by decide) (by decide)
    have h1 : rbit (storeWrite s.m 0x30A0 v) 0x30A0 1 = bit v 1 :=
      store_rw hreg (f := ⟨1, 1, .rw, 0, .sw, none⟩) (by simp) (.inl rfl) (by decide) (by decide)
    have hact : writeAction s.m (storeWrite s.m 0x30A0 v) (lmbWho a) none 0x30A0 v
        = rset (rset (rset (storeWrite s.m 0x30A0 v) 0x30BC 0) 0x30C0 0) 0x30C4 0 := by
      show (if !rbit s.m 0x30A0 0 && bit v 0 then _ else _) = _
      rw [hoff, hon]
      rfl
    refine ⟨_, accepted_next h (not_throw _ (by decide)) hact, ?_, ?_, ?_, ?_, ?_, lmbOk_set _, only_lmb ?_ (by decide), ?_⟩
    · simp only [rbit_setLmb, rbit_rset]
      exact h0.trans hon
    · simp only [rbit_setLmb, rbit_rset]
      exact h1
    · simp [rget_rset]
    · simp [rget_rset]
    · simp
    · exact onlyParts_trans (onlyParts_mono hst (by decide)) (onlyParts_trans (onlyParts_trans
        (onlyParts_rset _ _ _ (by decide)) (onlyParts_rset _ _ _ (by decide))) (onlyParts_rset _ _ _ (by decide)))
    · exact onlyRegs_lmb (onlyRegs_trans (onlyRegs_mono (storeWrite_regs _ _ _) (by decide)) (onlyRegs_trans (onlyRegs_trans
        (onlyRegs_rset _ _ _ (by decide)) (onlyRegs_rset _ _ _ (by decide))) (onlyRegs_rset _ _ _ (by decide))))
  · exact ⟨_, clocked_next hr (periodicCapture_off hoff), rfl, rfl, rfl, only_next (onlyParts_pmc s.m _ (by decide))⟩
  · refine ⟨_, clocked_next hr (periodicCapture_dump hon hd), rfl, ⟨captureRecord s.m, rfl, rfl, ?_, rfl, rfl⟩,
      only_next (onlyParts_trans (onlyParts_pmc s.m _ (by decide)) (onlyParts_pmc _ _ (by decide)))⟩
    simp [captureRecord, dumpRecord]
  · refine ⟨_, clocked_next hr (periodicCapture_overrun hon hd), ?_, ?_, ?_, ?_, only_next ?_, ?_⟩
    · obtain ⟨c, w, hp⟩ := raise_counted (overrunMarked s.m) 178
      exact (congrArg Pmc.dump hp :).trans hd
    · refine (SoftReset.rbit_of_onlyRegs (m := overrunMarked s.m)
        (raise_regs _ 178) (by decide) 0).trans ?_
      exact SoftReset.rbit_rsetf_bit _ _ _ (by decide)
    · exact raise_isPending _ 178
    · refine (raise_regs (overrunMarked s.m) 178 0x30C0
        (by decide)).trans ?_
      exact (rget_rset_other _ _ (by decide)).trans (rget_rinc _ _ _)
    · exact onlyParts_trans (onlyParts_trans (onlyParts_trans (onlyParts_trans (onlyParts_pmc s.m _ (by decide))
        (onlyParts_rset _ _ _ (by decide))) (onlyParts_rset _ _ _ (by decide))) (raise_only _ 178)) (onlyParts_pmc _ _ (by decide))
    · refine onlyRegs_trans (n := overrunMarked s.m) ?_
        (onlyRegs_mono (raise_regs _ 178) (by decide))
      exact onlyRegs_trans (n := rinc (modPmc s.m fun p => { p with capP := p.ctr }) 0x30C0 1)
        (onlyRegs_rset (modPmc s.m fun p => { p with capP := p.ctr }) _ _ (by decide)) (onlyRegs_rset _ _ _ (by decide))

/-! ### Dumps (R773, R776, R801) -/

/-- The message of a piece (R773). -/
def pieceMsg (m : Core) (d : DumpRec) (i : Nat) : Msg :=
  { op := .ttd, dest := dumpNode m, tag := m.fab.mtag, line := pieceLine m d.num.toNat i, data := (d.pieces[i]?).getD 0 }

/-- The record when a piece has been sent. -/
def pieceSent (m : Core) (d : DumpRec) (i : Nat) : DumpRec := { d with sent := d.sent ++ [(i, m.fab.mtag)] }

/-- The machine as a piece leaves: its tag is used. -/
def pieceTagged (m : Core) (d : DumpRec) (i : Nat) : Core :=
  modPmc (nextTag m) fun p => { p with dump := some (pieceSent m d i) }

theorem dumpPieceSend_remote {m : Core} {d : DumpRec} {i : Nat} (hd : m.pmc.dump = some d) (hi : nextPiece d = some i)
    (hn : dumpNode m ≠ nodeId m) : dumpPieceSend m = sendMgt (pieceTagged m d i) (pieceMsg m d i) := by
  have hb : (m.pmc.dump.bind fun d => (nextPiece d).map fun i => (d, i)) = some (d, i) := by rw [hd]; simp [hi]
  have hne : (pieceMsg m d i).dest ≠ nodeId (pieceTagged m d i) := hn
  unfold dumpPieceSend
  rw [hb]
  exact if_pos hne

/-- The machine without a record that is abandoned. -/
def recordDropped (m : Core) (d : DumpRec) : Core :=
  rinc (rset (modPmc m fun p => { p with
    dump := none
    abandonedTags := p.abandonedTags ++ (d.sent.filter fun x => !d.acked.contains x.1).map (·.2) }) 0x30BC (d.num + 1)) 0x30C4 1

theorem dumpAbandon_some {m : Core} {d : DumpRec} (h : m.pmc.dump = some d) :
    ∃ p, dumpAbandon m = journal (recordDropped m d) 0x14 2 p := by
  refine ⟨payload [(8, 8), (16, (dumpNode (recordDropped m d)).toNat), (8, 0), (32, d.num.toNat)], ?_⟩
  unfold dumpAbandon
  rw [h]
  rfl

theorem recordDropped_only (m : Core) (d : DumpRec) : m.onlyParts [.pmc, .regs] (recordDropped m d) :=
  onlyParts_trans (onlyParts_trans (onlyParts_pmc m _ (by decide)) (onlyParts_rset _ _ _ (by decide)))
    (onlyParts_rset _ _ _ (by decide))

theorem recordDropped_regs (m : Core) (d : DumpRec) : m.onlyRegs [0x30BC, 0x30C4] (recordDropped m d) :=
  onlyRegs_trans (onlyRegs_trans (onlyRegs_of_eq rfl) (onlyRegs_rset _ _ _ (by decide))) (onlyRegs_rset _ _ _ (by decide))

theorem isHome_congr {as : List Nat} {m n : Core} (h : m.onlyRegs as n) (ha : 0x1C ∉ as) : isHome n = isHome m := by
  simp only [isHome, role, rfld, h 0x1C ha]

/-- The local write arrival that a `TTD` becomes (R776). -/
def ttdArrival (m : Core) (i : InMsg) : Arrival :=
  { port := 16, cyc := m.trk.core, job := .ttd, msg := { i.msg with op := .wrl } }

/-- Settles O23: a piece is a routed management message, an abandoned record is `recordDropped` with its journal record, and
a `TTD` arrives as a local write. -/
theorem dumpPiecesAreSentAndServed : Obligations.DumpPiecesAreSentAndServed := by
  refine ⟨fun s d i p hr hd hi hn hroute => ?_, fun s d hr hd => ?_, fun s i hr hi hop hh => ?_⟩
  · have hrt : routeOf (pieceTagged s.m d i) (pieceTagged s.m d i).cfg.epoch
        ({ pieceMsg s.m d i with epoch := (pieceTagged s.m d i).cfg.epoch } : Msg).dest = some p :=
      (routeOf_congr (m := s.m) rfl rfl _ _).trans hroute
    have hdest : ({ pieceMsg s.m d i with epoch := (pieceTagged s.m d i).cfg.epoch } : Msg).dest ≠ nodeId (pieceTagged s.m d i) := hn
    obtain ⟨e, hq⟩ := send_routed_port (src := 17) (o := none) hdest hrt
    have hsent : sendMgt (pieceTagged s.m d i) (pieceMsg s.m d i) = enqueue (tally .xbr 3 1 (pieceTagged s.m d i)) p 17 none
        (stamped (pieceTagged s.m d i) { pieceMsg s.m d i with epoch := (pieceTagged s.m d i).cfg.epoch }) :=
      send_routed hdest hrt
    have henq := enqueue_only (tally .xbr 3 1 (pieceTagged s.m d i)) p 17 none
      (stamped (pieceTagged s.m d i) { pieceMsg s.m d i with epoch := (pieceTagged s.m d i).cfg.epoch })
    have ht := tally_only .xbr 3 1 (pieceTagged s.m d i)
    obtain ⟨c, w, hp⟩ := SoftReset.tally_counted .xbr 3 1 (pieceTagged s.m d i)
    have htag : s.m.onlyParts [.pmc, .fab] (pieceTagged s.m d i) :=
      onlyParts_trans (onlyParts_fab s.m _ (by decide)) (onlyParts_pmc _ _ (by decide))
    refine ⟨_, clocked_next hr (dumpPieceSend_remote hd hi hn), ?_, ?_, ?_, ?_, ?_⟩
    · rw [hsent]
      exact (congrArg Pmc.dump ((henq .pmc (by decide)).trans hp) :)
    · refine ⟨_, hq ▸ List.mem_append_right _ (List.mem_singleton.2 rfl), rfl, rfl, rfl, rfl, rfl⟩
    · rw [hsent]
      exact (henq .fab (by decide)).trans (ht .fab (by decide))
    · rw [hsent]
      exact only_next (onlyParts_trans (onlyParts_trans (onlyParts_mono htag (by decide)) (onlyParts_mono ht (by decide)))
        (onlyParts_mono henq (by decide)))
    · rw [hsent]
      exact onlyRegs_trans (onlyRegs_of_only htag (by decide)) (onlyRegs_trans (tally_regs _ _ _ _)
        (onlyRegs_of_only henq (by decide)))
  · obtain ⟨p, hp⟩ := dumpAbandon_some hd
    obtain ⟨c, w, hpmc⟩ := SoftReset.journal_counted (recordDropped s.m d) 0x14 2 p
    have hj := journal_regs (recordDropped s.m d) 0x14 2 p
    refine ⟨_, clocked_next hr hp, (congrArg Pmc.dump hpmc :), ?_, ?_, only_next (onlyParts_trans
      (onlyParts_mono (recordDropped_only _ _) (by decide)) (onlyParts_mono (journal_only _ _ _ _) (by decide))),
      onlyRegs_trans (onlyRegs_mono (recordDropped_regs _ _) (by decide)) (onlyRegs_mono hj (by decide))⟩
    · exact (hj 0x30BC (by decide)).trans ((rget_rset_other _ _ (by decide)).trans (rget_rset_same _ _ _))
    · refine (hj 0x30C4 (by decide)).trans ((rget_rinc _ _ _).trans ?_)
      rw [rget_rset_other _ _ (by decide)]
      rfl
  · have htake : takeInbox s.m (fun x => decide (x.op = .ttd)) = some (i, released s.m i) :=
      takeInbox_single hi (by rw [hop]; decide)
    have hrel := released_only s.m i
    have hhome : isHome (released s.m i) = true :=
      (isHome_congr (as := []) (onlyRegs_of_only hrel (by decide)) (by decide)).trans hh
    have hstep : ttd s.m = arrive (released s.m i) (ttdArrival (released s.m i) i) := by
      unfold ttd
      rw [htake]
      dsimp only
      rw [if_neg (by rw [hhome]; decide)]
      rfl
    have harr := arrive_only (released s.m i) (ttdArrival (released s.m i) i)
    obtain ⟨w, hw⟩ := mem_arrive (released s.m i) (ttdArrival (released s.m i) i) (.inl rfl)
    refine ⟨_, clocked_next hr hstep, (harr .inbox (by decide)).trans (released_inbox _ _), ⟨_, hw, rfl, rfl, rfl⟩,
      only_next (onlyParts_trans (onlyParts_mono hrel (by decide)) (onlyParts_mono harr (by decide)))⟩

/-! ### The whistle (R780 to R782, R785) -/

theorem storeWrite_whs (m : Core) (a : Nat) (v : Word) : (storeWrite m a v).whs = m.whs :=
  storeWrite_only m a v .whs (by decide)

theorem whistleTrigger_whs (m : Core) : (whistleTrigger m).whs
    = if m.whs.armed = false then { m.whs with missed := min (m.whs.missed + 1) 0xFFFF }
      else if rbit m 0x3404 1 = true then { m.whs with drivePend := true } else { m.whs with recog := true } := by
  unfold whistleTrigger
  cases m.whs.armed <;> cases rbit m 0x3404 1 <;> rfl

/-- What a write of WHS.CTL does beyond storing its drive bit. -/
def whsCtl (m : Core) (v : Word) : Core :=
  let n := if bit v 0 then modWhs m fun x => { x with armed := true } else m
  if bit v 2 then modWhs n fun x => { x with missed := 0 } else n

theorem action_whsCtl (old m : Core) (w : Who) (g : Option Msg) (v : Word) : writeAction old m w g 0x3404 v = whsCtl m v := rfl

theorem whsCtl_only (m : Core) (v : Word) : m.onlyParts [.whs] (whsCtl m v) := by
  have harm (n : Core) : n.onlyParts [.whs] (if bit v 0 then modWhs n fun x => { x with armed := true } else n) := by
    split
    · exact onlyParts_whs _ _ (by decide)
    · exact onlyParts_refl _ _
  unfold whsCtl
  dsimp only
  split
  · exact onlyParts_trans (harm m) (onlyParts_whs _ _ (by decide))
  · exact harm m

theorem whsCtl_armed {m : Core} {v : Word} (h : bit v 0 = true) : (whsCtl m v).whs.armed = true := by
  unfold whsCtl
  rw [if_pos h]
  dsimp only
  split
  · rfl
  · rfl

theorem whsCtl_missed {m : Core} {v : Word} (h : bit v 2 = true) : (whsCtl m v).whs.missed = 0 := by
  unfold whsCtl
  dsimp only
  rw [if_pos h]
  rfl

theorem bit_or (x y : Word) (i : Nat) : bit (x ||| y) i = (bit x i || bit y i) := BitVec.getLsbD_or

theorem rbit_whsCtl (m : Core) (v : Word) : rbit (storeWrite m 0x3404 v) 0x3404 1 = bit v 1 := by
  have hreg : regAt 0x3404 = some ⟨0x3404, 1, 0x4, [⟨2, 2, .wo, 0, .sw, none⟩, ⟨1, 1, .rw, 0, .sw, none⟩,
      ⟨0, 0, .wo, 0, .sw, none⟩]⟩ := by decide +kernel
  exact store_rw hreg (f := ⟨1, 1, .rw, 0, .sw, none⟩) (by simp) (.inl rfl) (by decide) (by decide)

/-- What an accepted write of WHS.CTL that keeps the drive bit does. -/
theorem whsCtl_accepted {s : State} {a : Lmb} {v : Word} (h : Accepted s a 0x3404 (rget s.m 0x3404 ||| v)) (hv : bit v 1 = false) :
    ∃ t, clocked (fun m => lmbWrite a 0x3404 (rget m 0x3404 ||| v) m) s = .next t
      ∧ t.m.whs = (whsCtl (storeWrite s.m 0x3404 (rget s.m 0x3404 ||| v)) (rget s.m 0x3404 ||| v)).whs
      ∧ rbit t.m 0x3404 1 = rbit s.m 0x3404 1 ∧ lmbOk t.m ∧ s.only [.regs, .lmb, .whs] t ∧ s.m.onlyRegs [0x3404] t.m := by
  have hst := storeWrite_only s.m 0x3404 (rget s.m 0x3404 ||| v)
  have hctl := whsCtl_only (storeWrite s.m 0x3404 (rget s.m 0x3404 ||| v)) (rget s.m 0x3404 ||| v)
  have hnext : clocked (fun m => lmbWrite a 0x3404 (rget m 0x3404 ||| v) m) s
      = .next { s with m := setLmb (whsCtl (storeWrite s.m 0x3404 (rget s.m 0x3404 ||| v)) (rget s.m 0x3404 ||| v)) (accOk 0) } := by
    rw [clocked_next (f := fun m => lmbWrite a 0x3404 (rget m 0x3404 ||| v) m) h.1 (lmbWrite_accepted h.2 (not_throw _ (by decide))),
      action_whsCtl]
  refine ⟨_, hnext, rfl, ?_, lmbOk_set _, only_lmb (onlyParts_trans (onlyParts_mono hst (by decide))
    (onlyParts_mono hctl (by decide))) (by decide), onlyRegs_lmb (onlyRegs_trans (storeWrite_regs _ _ _)
      (onlyRegs_of_only hctl (by decide)))⟩
  rw [rbit_setLmb, rbit_congr (hctl .regs (by decide)), rbit_whsCtl, bit_or, hv, Bool.or_false]
  rfl

/-- Settles O24: a trigger by `whistleTrigger_whs`, WHS.CTL by `whsCtl_accepted`, the pin's commands by their definitions. -/
theorem whistleTriggersAreRecognisedOrMissed : Obligations.WhistleTriggersAreRecognisedOrMissed := by
  refine ⟨fun s a h => ?_, fun s a h => ?_, fun s a h => ?_, fun s hr => ?_, fun s hr => ?_⟩
  · have hreg (b : Nat) : rget (storeWrite s.m 0x3400 1) b = rget s.m b := rget_storeWrite_command _ (by decide +kernel) b
    have hdrive : rbit (storeWrite s.m 0x3400 1) 0x3404 1 = rbit s.m 0x3404 1 := congrArg (fun w => bit w 1) (hreg 0x3404)
    have htrig := whistleTrigger_whs (storeWrite s.m 0x3400 1)
    rw [storeWrite_whs, hdrive] at htrig
    exact ⟨_, accepted_next (n := whistleTrigger (storeWrite s.m 0x3400 1)) h (not_throw _ (by decide)) rfl, htrig, lmbOk_set _,
      only_lmb (onlyParts_trans (storeWrite_parts _ _ _ (by decide)) (onlyParts_mono (whistleTrigger_only _) (by decide)))
        (by decide),
      onlyRegs_lmb (onlyRegs_trans (n := storeWrite s.m 0x3400 1) (fun b _ => hreg b)
        (onlyRegs_of_only (whistleTrigger_only _) (by decide)))⟩
  · obtain ⟨t, ht, hw, hrest⟩ := whsCtl_accepted h (by decide)
    exact ⟨t, ht, (congrArg Whs.armed hw).trans (whsCtl_armed (by rw [bit_or]; exact Bool.or_true _)), hrest⟩
  · obtain ⟨t, ht, hw, hrest⟩ := whsCtl_accepted h (by decide)
    exact ⟨t, ht, (congrArg Whs.missed hw).trans (whsCtl_missed (by rw [bit_or]; exact Bool.or_true _)), hrest⟩
  · refine ⟨_, clocked_next (f := fun m => if m.whs.armed then modWhs m fun w => { w with recog := true }
      else modWhs m fun w => { w with missed := min (w.missed + 1) 0xFFFF }) hr rfl, ?_, only_next ?_⟩
    · exact apply_ite Core.whs _ _ _
    · split
      · exact onlyParts_whs s.m _ (by decide)
      · exact onlyParts_whs s.m _ (by decide)
  · exact ⟨_, clocked_running (f := fun m => modWhs m fun w => { w with driving := false, drivePend := false }) hr, rfl,
      only_next (onlyParts_whs s.m _ (by decide))⟩

/-! ### The capture edge and the audit (R276, R277, R784 to R786) -/

theorem bit_ofNat (n : Nat) {i : Nat} (h : i < 32) : bit (BitVec.ofNat 32 n) i = decide (n / 2 ^ i % 2 = 1) := by
  rw [bit, BitVec.getLsbD_ofNat, decide_eq_true h, Bool.true_and, Nat.testBit_eq_decide_div_mod_eq]

/-- The machine as a capture edge has latched its snapshot, before the counters (R784). -/
def snapped (m : Core) : Core :=
  modWhs { m with free := m.free + 1 } fun w => { w with
    armed := false, recog := false, captured := true, captureDone := false, auditDue := true, snap := snapshot m (building m) }

theorem whistleCapture_eq {m : Core} (h : m.whs.recog = true) :
    whistleCapture m = rsetf (captureW (snapped m) 1) 0xC04 31 31 0 := by
  unfold whistleCapture
  rw [if_neg (by rw [h]; decide)]
  rfl

theorem snapped_only (m : Core) : m.onlyParts [.free, .whs] (snapped m) :=
  onlyParts_trans (onlyParts_free m _ (by decide)) (onlyParts_whs _ _ (by decide))

theorem captureW_only (m : Core) (k : Nat) : m.onlyParts [.pmc, .regs] (captureW m k) :=
  onlyParts_trans (onlyParts_trans (onlyParts_trans (onlyParts_pmc m _ (by decide)) (onlyParts_rset _ _ _ (by decide)))
    (onlyParts_rset _ _ _ (by decide))) (onlyParts_rset _ _ _ (by decide))

theorem captureW_regs (m : Core) (k : Nat) : m.onlyRegs [0x308C, 0x3090, 0x3094] (captureW m k) :=
  onlyRegs_trans (onlyRegs_trans (onlyRegs_trans (onlyRegs_of_eq rfl) (onlyRegs_rset _ _ _ (by decide)))
    (onlyRegs_rset _ _ _ (by decide))) (onlyRegs_rset _ _ _ (by decide))

/-- What a capture into W shows of itself: its mark and kind, and the time. -/
theorem captureW_shown (m : Core) : rbit (captureW m 1) 0x308C 31 = true ∧ rbit (captureW m 1) 0x308C 0 = true
    ∧ rget (captureW m 1) 0x3090 = m.time.extractLsb' 0 32 ∧ rget (captureW m 1) 0x3094 = m.time.extractLsb' 32 32 := by
  have hword : rget (captureW m 1) 0x308C = BitVec.ofNat 32 (2 ^ 31 + ((rfld m 0x308C 23 16 + 1) % 256) * 2 ^ 16 + 1) :=
    (rget_rset_other _ _ (by decide)).trans ((rget_rset_other _ _ (by decide)).trans (rget_rset_same _ _ _))
  have hlt : (rfld m 0x308C 23 16 + 1) % 256 < 256 := Nat.mod_lt _ (by decide)
  refine ⟨?_, ?_, (rget_rset_other _ _ (by decide)).trans (rget_rset_same _ _ _), rget_rset_same _ _ _⟩
  · rw [rbit, hword, bit_ofNat _ (by decide)]
    generalize (rfld m 0x308C 23 16 + 1) % 256 = c at hlt
    exact decide_eq_true (by omega)
  · rw [rbit, hword, bit_ofNat _ (by decide)]
    generalize (rfld m 0x308C 23 16 + 1) % 256 = c
    exact decide_eq_true (by omega)

/-- The number that holds a list of bits, bit 0 first. -/
theorem foldl_bits (f : Nat → Bool) : (List.range 5).foldl (fun a b => a + b1 (f b) * 2 ^ b) 0
    = b1 (f 0) + 2 * b1 (f 1) + 4 * b1 (f 2) + 8 * b1 (f 3) + 16 * b1 (f 4) := by
  simp only [List.range, List.range.loop, List.foldl]
  omega

/-- The audit's mismatch bits: bit `b` says whether book `b` mismatches. -/
def auditBits (bs : List (Option (Nat × List Nat))) : Nat :=
  (List.range 5).foldl (fun a b => a + b1 ((bs[b]?).getD none).isSome * 2 ^ b) 0

/-- The pair that the audit shows: the first of the sending books. -/
def auditFirst (bs : List (Option (Nat × List Nat))) : Nat :=
  match bs with
  | some x :: _ => x.1
  | _ :: some x :: _ => x.1
  | _ => 0

/-- The audit's status word. -/
def auditWord (bits first : Nat) : Word := word [(31, 1), (20, first / 12), (16, first % 12), (0, bits)]

theorem auditBits_spec (bs : List (Option (Nat × List Nat))) : auditBits bs < 32
    ∧ ∀ b < 5, decide (auditBits bs / 2 ^ b % 2 = 1) = ((bs[b]?).getD none).isSome := by
  have hle (x : Bool) : b1 x ≤ 1 := by cases x <;> decide
  have hval : auditBits bs = _ := foldl_bits fun b => ((bs[b]?).getD none).isSome
  have h0 := hle ((bs[0]?).getD none).isSome
  have h1 := hle ((bs[1]?).getD none).isSome
  have h2 := hle ((bs[2]?).getD none).isSome
  have h3 := hle ((bs[3]?).getD none).isSome
  have h4 := hle ((bs[4]?).getD none).isSome
  rw [hval]
  have hb1 (x : Bool) (n : Nat) (h : n = b1 x) : decide (n = 1) = x := by subst h; cases x <;> rfl
  refine ⟨by omega, fun b hb => ?_⟩
  match b, hb with
  | 0, _ => exact hb1 _ _ (by omega)
  | 1, _ => exact hb1 _ _ (by omega)
  | 2, _ => exact hb1 _ _ (by omega)
  | 3, _ => exact hb1 _ _ (by omega)
  | 4, _ => exact hb1 _ _ (by omega)

theorem auditWord_toNat {bits first : Nat} (hb : bits < 32) (hf : first < 192) :
    (auditWord bits first).toNat = 2 ^ 31 + first / 12 * 2 ^ 20 + first % 12 * 2 ^ 16 + bits := by
  simp only [auditWord, word, List.foldl, BitVec.toNat_ofNat]
  omega

theorem bit_eq_decide (x : Word) (i : Nat) : bit x i = decide (x.toNat / 2 ^ i % 2 = 1) := by
  rw [bit, BitVec.getLsbD, Nat.testBit_eq_decide_div_mod_eq]

theorem auditWord_done {bits first : Nat} (hb : bits < 32) (hf : first < 192) : bit (auditWord bits first) 31 = true := by
  rw [bit_eq_decide, auditWord_toNat hb hf]
  exact decide_eq_true (by omega)

theorem auditWord_book {bits first b : Nat} (hb : bits < 32) (hf : first < 192) (h : b < 5) :
    bit (auditWord bits first) b = decide (bits / 2 ^ b % 2 = 1) := by
  rw [bit_eq_decide, auditWord_toNat hb hf]
  congr 2
  match b, h with
  | 0, _ => omega
  | 1, _ => omega
  | 2, _ => omega
  | 3, _ => omega
  | 4, _ => omega

/-- The first mismatching pair of a port and virtual channel. -/
def auditPair (m : Core) (f : Nat → Bool) : Option (Nat × List Nat) :=
  ((List.range 192).find? f).map fun i => (i, (List.range 9).map fun k => (latched m i k).toNat)

theorem auditPair_lt {m : Core} {f : Nat → Bool} {x : Nat × List Nat} (h : auditPair m f = some x) : x.1 < 192 := by
  obtain ⟨i, hi, rfl⟩ := Option.map_eq_some_iff.1 h
  exact List.mem_range.1 (List.mem_of_find?_eq_some hi)

theorem auditBooks_pairs (m : Core) : ∃ r, auditBooks m = auditPair m (sendBad m) :: auditPair m (recvBad m) :: r := ⟨_, rfl⟩

theorem auditFirst_lt (m : Core) : auditFirst (auditBooks m) < 192 := by
  obtain ⟨r, h⟩ := auditBooks_pairs m
  rw [h]
  cases h0 : auditPair m (sendBad m) with
  | some x => exact auditPair_lt h0
  | none =>
    cases h1 : auditPair m (recvBad m) with
    | some x => exact auditPair_lt h1
    | none => exact (by decide : (0 : Nat) < 192)

/-- The audit's end: its word is shown and source 180 raised. -/
def auditShown (m : Core) : Core :=
  raise (rset (modWhs m fun w => { w with auditDue := false }) 0xC04
    (auditWord (auditBits (auditBooks m)) (auditFirst (auditBooks m)))) 180

/-- A mismatching book is recorded. -/
def bookRecord (bs : List (Option (Nat × List Nat))) (m : Core) (b : Nat) : Core :=
  match (bs[b]?).getD none with
  | some x => journalAudit m b x.1 x.2
  | none => m

/-- The mismatching books are recorded. -/
def auditRecords (bs : List (Option (Nat × List Nat))) (m : Core) : Core := (List.range 5).foldl (bookRecord bs) m

theorem auditComplete_eq {m : Core} (h : m.whs.auditDue = true) : auditComplete m
    = if auditBits (auditBooks m) = 0 then auditShown m else auditRecords (auditBooks m) (raise (auditShown m) 32) := by
  unfold auditComplete
  rw [if_neg (by rw [h]; decide)]
  rfl

/-- What the audit's records leave: what reports leave, and the sources that are pending. -/
theorem auditRecords_state (bs : List (Option (Nat × List Nat))) (m : Core) :
    m.onlyParts (.jnl :: Part.report) (auditRecords bs m) ∧ m.onlyRegs journalRegs (auditRecords bs m)
      ∧ PendingKept m (auditRecords bs m) ∧ WhsNoted m (auditRecords bs m) := by
  have hone (m : Core) (b : Nat) : m.onlyParts (.jnl :: Part.report) (bookRecord bs m b)
      ∧ m.onlyRegs journalRegs (bookRecord bs m b) ∧ PendingKept m (bookRecord bs m b) ∧ WhsNoted m (bookRecord bs m b) := by
    unfold bookRecord
    split
    · exact ⟨journal_only _ _ _ _, journal_regs _ _ _ _, fun k hk => journal_isPending _ _ _ _ k hk, journal_whsNoted _ _ _ _⟩
    · exact ⟨onlyParts_refl _ _, onlyRegs_refl _ _, fun _ h => h, whsNoted_of_eq rfl⟩
  unfold auditRecords
  induction List.range 5 generalizing m with
  | nil => exact ⟨onlyParts_refl _ _, onlyRegs_refl _ _, fun _ h => h, whsNoted_of_eq rfl⟩
  | cons b l ih =>
    obtain ⟨hp, hr, hk, hw⟩ := hone m b
    obtain ⟨hp', hr', hk', hw'⟩ := ih (bookRecord bs m b)
    exact ⟨onlyParts_trans hp hp', onlyRegs_trans hr hr', pendingKept_trans hk hk', whsNoted_trans hw hw'⟩

theorem auditShown_only (m : Core) : m.onlyParts Part.report (auditShown m) :=
  onlyParts_trans (onlyParts_trans (onlyParts_whs m _ (by decide)) (onlyParts_rset _ _ _ (by decide))) (raise_only _ _)

theorem auditShown_regs (m : Core) : m.onlyRegs (0xC04 :: reportRegs) (auditShown m) :=
  onlyRegs_trans (n := rset (modWhs m fun w => { w with auditDue := false }) 0xC04
    (auditWord (auditBits (auditBooks m)) (auditFirst (auditBooks m))))
    (onlyRegs_rset (modWhs m fun w => { w with auditDue := false }) _ _ (by decide)) (onlyRegs_mono (raise_regs _ _) (by decide))

theorem auditShown_due (m : Core) : (auditShown m).whs.auditDue = false := by
  obtain ⟨_, _, _, h⟩ := raise_whsNoted (rset (modWhs m fun w => { w with auditDue := false }) 0xC04
    (auditWord (auditBits (auditBooks m)) (auditFirst (auditBooks m)))) 180
  exact (congrArg Whs.auditDue h :)

theorem auditShown_word (m : Core) : rget (auditShown m) 0xC04 = auditWord (auditBits (auditBooks m)) (auditFirst (auditBooks m)) :=
  (raise_regs _ 180 0xC04 (by decide)).trans (rget_rset_same _ _ _)

/-- What an audit always leaves: its word, source 180, and at a mismatch source 32. -/
theorem auditComplete_state {m : Core} (h : m.whs.auditDue = true) :
    m.onlyParts (.jnl :: Part.report) (auditComplete m) ∧ m.onlyRegs (0xC04 :: journalRegs) (auditComplete m)
      ∧ (auditComplete m).whs.auditDue = false ∧ isPending (auditComplete m) 180 = true
      ∧ rget (auditComplete m) 0xC04 = auditWord (auditBits (auditBooks m)) (auditFirst (auditBooks m))
      ∧ (auditBits (auditBooks m) ≠ 0 → isPending (auditComplete m) 32 = true) := by
  rw [auditComplete_eq h]
  split
  · next hb =>
    exact ⟨onlyParts_mono (auditShown_only m) (by decide), onlyRegs_mono (auditShown_regs m) (by decide), auditShown_due m,
      raise_isPending _ _, auditShown_word m, fun hne => absurd hb hne⟩
  · obtain ⟨hp, hr, hk, _, _, _, hw⟩ := auditRecords_state (auditBooks m) (raise (auditShown m) 32)
    obtain ⟨_, _, _, hw'⟩ := raise_whsNoted (auditShown m) 32
    refine ⟨onlyParts_trans (onlyParts_mono (auditShown_only m) (by decide)) (onlyParts_trans
        (onlyParts_mono (raise_only _ _) (by decide)) hp),
      onlyRegs_trans (onlyRegs_mono (auditShown_regs m) (by decide)) (onlyRegs_trans (onlyRegs_mono (raise_regs _ _) (by decide))
        (onlyRegs_mono hr (by decide))), ?_, ?_, ?_, fun _ => hk _ (raise_isPending _ _)⟩
    · rw [hw, hw']
      exact auditShown_due m
    · exact hk _ (raise_pendingKept _ _ _ (raise_isPending _ _))
    · exact (hr 0xC04 (by decide)).trans ((raise_regs _ 32 0xC04 (by decide)).trans (auditShown_word m))

/-- Settles O25: the edge is `snapped` with a capture into W, the audit's end `auditComplete_state`. -/
theorem whistleCaptureLatchesEverything : Obligations.WhistleCaptureLatchesEverything := by
  refine ⟨fun s hr hrec => ?_, fun s hr hc hd => ?_, fun s hr hd => ?_⟩
  · obtain ⟨hmark, hkind, hlo, hhi⟩ := captureW_shown (snapped s.m)
    have hw : (rsetf (captureW (snapped s.m) 1) 0xC04 31 31 0).whs = (snapped s.m).whs := rfl
    have hp : (rsetf (captureW (snapped s.m) 1) 0xC04 31 31 0).pmc.capW = s.m.pmc.ctr := rfl
    have hkeep (a : Nat) (ha : 0xC04 ≠ a) : rget (rsetf (captureW (snapped s.m) 1) 0xC04 31 31 0) a
        = rget (captureW (snapped s.m) 1) a := rget_rset_other _ _ ha
    refine ⟨_, clocked_next hr (whistleCapture_eq hrec), congrArg Whs.snap hw, congrArg Whs.armed hw, congrArg Whs.recog hw,
      congrArg Whs.captureDone hw, congrArg Whs.auditDue hw, hp, ?_, ?_, ?_, ?_, ?_, only_next ?_, ?_⟩
    · exact (congrArg (fun x => bit x 31) (hkeep _ (by decide))).trans hmark
    · exact (congrArg (fun x => bit x 0) (hkeep _ (by decide))).trans hkind
    · exact (hkeep _ (by decide)).trans hlo
    · exact (hkeep _ (by decide)).trans hhi
    · exact SoftReset.rbit_rsetf_bit _ _ _ (by decide)
    · exact onlyParts_trans (onlyParts_trans (onlyParts_mono (snapped_only _) (by decide))
        (onlyParts_mono (captureW_only _ _) (by decide))) (onlyParts_rset _ _ _ (by decide))
    · exact onlyRegs_trans (onlyRegs_trans (onlyRegs_of_only (snapped_only _) (by decide))
        (onlyRegs_mono (captureW_regs _ _) (by decide))) (onlyRegs_rset _ _ _ (by decide))
  · have hstep : captureDone s.m = raise (modWhs s.m fun w => { w with captureDone := true }) 179 := by
      simp [captureDone, hc, hd]
    obtain ⟨_, _, _, hw⟩ := raise_whsNoted (modWhs s.m fun w => { w with captureDone := true }) 179
    exact ⟨_, clocked_next hr hstep, (congrArg Whs.captureDone hw :), raise_isPending _ _,
      only_next (onlyParts_trans (onlyParts_whs s.m _ (by decide)) (raise_only _ _)),
      onlyRegs_trans (n := modWhs s.m fun w => { w with captureDone := true }) (onlyRegs_of_eq rfl) (raise_regs _ _)⟩
  · obtain ⟨hp, hregs, hdue, h180, hword, h32⟩ := auditComplete_state hd
    obtain ⟨hlt, hbits⟩ := auditBits_spec (auditBooks s.m)
    have hfirst := auditFirst_lt s.m
    refine ⟨_, clocked_next hr rfl, hdue, ?_, h180, fun b hb => ?_, fun ⟨b, hb, hbad⟩ => h32 fun h0 => ?_, only_next hp, hregs⟩
    · exact (congrArg (fun x => bit x 31) hword).trans (auditWord_done hlt hfirst)
    · exact (congrArg (fun x => bit x b) hword).trans ((auditWord_book hlt hfirst hb).trans (hbits b hb))
    · rw [← hbits b hb, h0, Nat.zero_div] at hbad
      exact absurd hbad (by decide)

/-! ### The level marks (R792 to R795) -/

/-- The machine with monitor `n` as given. -/
def putMark (m : Core) (n : Nat) (x : LevelMark) : Core := modWhs m fun w => { w with lm := tput {} w.lm n x }

theorem lmOf_putMark (m : Core) (n : Nat) (x : LevelMark) : lmOf (putMark m n x) n = x := by simp [lmOf, putMark, modWhs]

theorem putMark_only (m : Core) (n : Nat) (x : LevelMark) : m.onlyParts [.whs] (putMark m n x) := onlyParts_whs _ _ (by decide)

theorem lmOf_raise (m : Core) (k n : Nat) : lmOf (raise m k) n = lmOf m n := by
  obtain ⟨_, _, _, h⟩ := raise_whsNoted m k
  rw [lmOf, lmOf, h]

theorem lmOf_congr {m k : Core} (h : k.whs = m.whs) (n : Nat) : lmOf k n = lmOf m n := by rw [lmOf, lmOf, h]

/-- A monitor as it evaluates its level, before a crossing. -/
def evaluated (m : Core) (n : Nat) : LevelMark :=
  { lmOf m n with level := levelOf m n, peak := max (lmOf m n).peak (levelOf m n) }

/-- A monitor that has crossed its high mark (R792). -/
def crossedUp (m : Core) (n : Nat) : LevelMark :=
  { evaluated m n with above := true, up := true, count := min ((lmOf m n).count + 1) 255 }

/-- A monitor that has crossed its low mark (R792). -/
def crossedDown (m : Core) (n : Nat) : LevelMark := { evaluated m n with above := false, down := true }

/-- A monitor whose count is cleared (R794). -/
def clearedMark (m : Core) (n : Nat) : LevelMark :=
  { lmOf m n with count := 0, level := levelOf m n, peak := levelOf m n }

/-- A monitor that is formed anew (R795). -/
def formedMark (m : Core) (n : Nat) : LevelMark :=
  { lmOf m n with
    above := decide (rfld m (0x3484 + 0x20 * n) 31 16 < levelOf m n), count := 0, level := levelOf m n, peak := levelOf m n }

theorem lmEval_up {m : Core} {n : Nat} (ha : (lmOf m n).above = false) (h : rfld m (0x3484 + 0x20 * n) 31 16 < levelOf m n) :
    lmEval m n = raise (putMark m n (crossedUp m n)) (96 + 2 * n) := by
  unfold lmEval
  dsimp only
  rw [if_pos (by rw [ha, decide_eq_true h]; rfl)]
  rfl

theorem lmEval_down {m : Core} {n : Nat} (ha : (lmOf m n).above = true) (h : levelOf m n < rfld m (0x3484 + 0x20 * n) 15 0) :
    lmEval m n = raise (putMark m n (crossedDown m n)) (97 + 2 * n) := by
  unfold lmEval
  dsimp only
  rw [if_neg (by rw [ha]; simp), if_pos (by rw [ha, decide_eq_true h]; rfl)]
  rfl

/-- A level depends on the parts that hold the resources and on the registers. -/
theorem levelOf_congr {m k : Core} (hr : ∀ a, rget k a = rget m a) (ht : k.trk = m.trk) (hp : k.ports = m.ports)
    (hc : k.ca = m.ca) (hj : k.jnl = m.jnl) (n : Nat) : levelOf k n = levelOf m n := by
  simp only [levelOf, rfld, hr, port, ht, hp, hc, hj, totalUsed, sharedUsed]

/-- A write that stores its fields in a monitor's register, and what stands behind it. -/
theorem mark_accepted {s : State} {a : Lmb} {v : Word} {addr n k : Nat} {f : Core → LevelMark} (h : Accepted s a addr v)
    (hn : n < 16) (ha : addr = 0x3480 + k + 0x20 * n) (hk : k < 32) (hw : ∀ m, markWrite m n k v = putMark m n (f m)) :
    clocked (lmbWrite a addr v) s = .next
      { s with m := setLmb (putMark (storeWrite s.m addr v) n (f (storeWrite s.m addr v))) (accOk 0) } := by
  subst ha
  refine accepted_next h (not_throw _ (by omega)) ?_
  rw [action_mark (by omega) (by omega), show (0x3480 + k + 0x20 * n - 0x3480) / 32 = n by omega,
    show (0x3480 + k + 0x20 * n) % 32 = k by omega, hw]

theorem clear_command (n : Fin 16) : commandReg (0x3490 + 0x20 * n.val) = true := by revert n; decide +kernel

/-- Settles O26: crossings by `lmEval_up` and `lmEval_down`, writes by `mark_accepted`. -/
theorem levelMarksCross : Obligations.LevelMarksCross := by
  refine ⟨fun s n hr ha hl => ?_, fun s n hr ha hl => ?_, fun s a n h => ?_, fun s a n marks v h => ?_⟩
  · have hlm := (lmOf_raise _ (96 + 2 * n.val) n.val).trans (lmOf_putMark s.m n.val (crossedUp s.m n.val))
    exact ⟨_, clocked_next (f := fun m => lmEval m n.val) hr (lmEval_up ha hl), congrArg LevelMark.above hlm,
      congrArg LevelMark.up hlm, congrArg LevelMark.count hlm, raise_isPending _ _,
      only_next (onlyParts_trans (onlyParts_mono (putMark_only _ _ _) (by decide)) (raise_only _ _)),
      onlyRegs_trans (onlyRegs_of_only (putMark_only _ _ _) (by decide)) (raise_regs _ _)⟩
  · have hlm := (lmOf_raise _ (97 + 2 * n.val) n.val).trans (lmOf_putMark s.m n.val (crossedDown s.m n.val))
    exact ⟨_, clocked_next (f := fun m => lmEval m n.val) hr (lmEval_down ha hl), congrArg LevelMark.above hlm,
      congrArg LevelMark.down hlm, (congrArg LevelMark.count hlm :), raise_isPending _ _,
      only_next (onlyParts_trans (onlyParts_mono (putMark_only _ _ _) (by decide)) (raise_only _ _)),
      onlyRegs_trans (onlyRegs_of_only (putMark_only _ _ _) (by decide)) (raise_regs _ _)⟩
  · have hst := storeWrite_only s.m (0x3490 + 0x20 * n.val) 1
    have hreg (b : Nat) : rget (storeWrite s.m (0x3490 + 0x20 * n.val) 1) b = rget s.m b :=
      rget_storeWrite_command _ (clear_command n) b
    have hnext := mark_accepted (n := n.val) (k := 16) (f := fun m => clearedMark m n.val) h n.isLt rfl (by decide)
      fun _ => rfl
    have hlevel : levelOf (storeWrite s.m (0x3490 + 0x20 * n.val) 1) n.val = levelOf s.m n.val :=
      levelOf_congr hreg (hst .trk (by decide)) (hst .ports (by decide)) (hst .ca (by decide)) (hst .jnl (by decide)) _
    have hold : lmOf (storeWrite s.m (0x3490 + 0x20 * n.val) 1) n.val = lmOf s.m n.val := lmOf_congr (storeWrite_whs _ _ _) _
    generalize storeWrite s.m (0x3490 + 0x20 * n.val) 1 = m at hst hreg hnext hlevel hold
    have hlm := lmOf_putMark m n.val (clearedMark m n.val)
    refine ⟨_, hnext, congrArg LevelMark.count hlm, (congrArg LevelMark.peak hlm).trans hlevel,
      (congrArg LevelMark.above hlm).trans (congrArg LevelMark.above hold :), (congrArg LevelMark.up hlm).trans
        (congrArg LevelMark.up hold :), (congrArg LevelMark.down hlm).trans (congrArg LevelMark.down hold :), lmbOk_set _,
      only_lmb (onlyParts_trans (onlyParts_mono hst (by decide)) (onlyParts_mono (putMark_only m _ _) (by decide))) (by decide),
      onlyRegs_lmb (onlyRegs_trans (n := m) (fun b _ => hreg b) (onlyRegs_of_only (putMark_only m _ _) (by decide)))⟩
  · have hst := storeWrite_only s.m (0x3480 + 4 * b1 marks + 0x20 * n.val) v
    have hstr := storeWrite_regs s.m (0x3480 + 4 * b1 marks + 0x20 * n.val) v
    have hnext := mark_accepted (n := n.val) (k := 4 * b1 marks) (f := fun m => formedMark m n.val) h n.isLt rfl
      (by cases marks <;> decide) fun m => by cases marks <;> rfl
    have hold : lmOf (storeWrite s.m (0x3480 + 4 * b1 marks + 0x20 * n.val) v) n.val = lmOf s.m n.val :=
      lmOf_congr (storeWrite_whs _ _ _) _
    generalize storeWrite s.m (0x3480 + 4 * b1 marks + 0x20 * n.val) v = m at hst hstr hnext hold
    have hlm := lmOf_putMark m n.val (formedMark m n.val)
    have hlevel (x : LevelMark) (r : AccRes) : levelOf (setLmb (putMark m n.val x) r) n.val = levelOf m n.val :=
      levelOf_congr (fun _ => rfl) rfl rfl rfl rfl _
    refine ⟨_, hnext, (congrArg LevelMark.above hlm).trans ?_, congrArg LevelMark.count hlm,
      (congrArg LevelMark.peak hlm).trans (hlevel _ _).symm, (congrArg LevelMark.up hlm).trans (congrArg LevelMark.up hold :),
      (congrArg LevelMark.down hlm).trans (congrArg LevelMark.down hold :), lmbOk_set _,
      only_lmb (onlyParts_trans (onlyParts_mono hst (by decide)) (onlyParts_mono (putMark_only m _ _) (by decide))) (by decide),
      onlyRegs_lmb (onlyRegs_trans hstr (onlyRegs_of_only (putMark_only m _ _) (by decide)))⟩
    dsimp only
    rw [hlevel]
    rfl

end Sys2Proof.Observe
end

section
/-! PROOFS. The serial ports (spec/16_serial_ports.md): master transfers, mode faults and slave frames, with the statements
about them. -/

namespace Sys2Proof.Serial

open Sys2Proof.Machine Sys2Proof.Laws Sys2Proof.Windows Sys2Proof.Controls Sys2Proof.Events Sys2Proof.Engine

/-! ### SPA and SPB as masters (R807 to R819, R832 to R838) -/

/-- The owner of SPA at a frame boundary, where no frame of software is left (R807). -/
theorem spaBoundary_idle {m : Core} (hf : m.spi.spaFrame = none) (hj : spaJournal m = false) (hl : spaLoader m = false) :
    spaBoundary m = spaOwn m 0 := by
  simp [spaBoundary, hj, hl, hf]

/-- An engine that has waited takes SPA at a frame boundary and breaks a hold (R818). -/
theorem spaBoundary_engine {m : Core} {k : Nat} (hh : m.spi.held = some k) (he : spaJournal m = true ∨ spaLoader m = true) :
    spaBoundary m = spaOwn (rsetf { m with spi := { m.spi with held := none } } 0x3814 2 2 1)
      (if spaJournal m = true then 1 else 2) := by
  have hb : spaBreak m = rsetf { m with spi := { m.spi with held := none } } 0x3814 2 2 1 := by simp [spaBreak, hh]
  unfold spaBoundary
  rw [hb]
  cases hj : spaJournal m with
  | true => rfl
  | false =>
    have hl : spaLoader m = true := he.resolve_left (by rw [hj]; decide)
    rw [hl]
    rfl

theorem spaBoundary_software {m : Core} {f : SpiFrame} (hf : m.spi.spaFrame = some f) (hj : spaJournal m = false)
    (hl : spaLoader m = false) : spaBoundary m = spaOwn m 3 := by
  simp [spaBoundary, hj, hl, hf]

theorem spaBreak_frame (m : Core) : (spaBreak m).spi.spaFrame = m.spi.spaFrame := by
  unfold spaBreak
  split
  · rfl
  · rfl

theorem spaCall_frame (m : Core) : (spaCall m).spi.spaFrame = m.spi.spaFrame := by
  unfold spaCall
  split
  · unfold spaBoundary
    split
    · exact spaBreak_frame m
    · split
      · exact spaBreak_frame m
      · rfl
  · rfl

theorem spaBreak_none {m : Core} (h : m.spi.held = none) : spaBreak m = m := by simp [spaBreak, h]

/-- Without a hold a frame boundary changes the owner alone. -/
theorem spaCall_free {m : Core} (h : m.spi.held = none) : ∃ k, spaCall m = spaOwn m k := by
  unfold spaCall
  split
  · unfold spaBoundary
    rw [spaBreak_none h]
    split
    · exact ⟨_, rfl⟩
    · split
      · exact ⟨_, rfl⟩
      · exact ⟨_, rfl⟩
  · exact ⟨m.spi.own, rfl⟩

theorem rxUnits_only (m : Core) (base len n : Nat) (rx : List Word) : m.onlyParts [.regs] (rxUnits m base len n rx) :=
  onlyParts_foldl _ (fun _ _ => onlyParts_rset _ _ _ (by decide)) _ _

/-- What the registers read after received units have replaced data registers (R809). -/
theorem rget_rxUnits (m : Core) (base len n : Nat) (rx : List Word) (a : Nat) : rget (rxUnits m base len n rx) a
    = if a ∈ (List.range n).map (fun k => base + 4 * k) then BitVec.ofNat 32 (((rx[(a - base) / 4]?).getD 0).toNat % 2 ^ len)
      else rget m a :=
  Journal.rget_foldl_rset base (fun i => BitVec.ofNat 32 (((rx[i]?).getD 0).toNat % 2 ^ len)) (List.range n) m

theorem rget_rxUnits_same (m : Core) (base len : Nat) {n k : Nat} (rx : List Word) (h : k < n) :
    rget (rxUnits m base len n rx) (base + 4 * k) = BitVec.ofNat 32 (((rx[k]?).getD 0).toNat % 2 ^ len) := by
  rw [rget_rxUnits, if_pos (List.mem_map.2 ⟨k, List.mem_range.2 h, rfl⟩), show (base + 4 * k - base) / 4 = k by omega]

theorem rxUnits_regs (m : Core) (base len : Nat) {n : Nat} (rx : List Word) (h : n ≤ 8) :
    m.onlyRegs ((List.range 8).map fun k => base + 4 * k) (rxUnits m base len n rx) := by
  intro a ha
  rw [rget_rxUnits, if_neg]
  intro hmem
  obtain ⟨k, hk, rfl⟩ := List.mem_map.1 hmem
  exact ha (List.mem_map.2 ⟨k, List.mem_range.2 (Nat.lt_of_lt_of_le (List.mem_range.1 hk) h), rfl⟩)

/-- The machine as the software frame of SPA ends, before the frame boundary. -/
def spaEnded (m : Core) (f : SpiFrame) (rx : List Word) : Core :=
  let n := rxUnits m 0x3820 f.unitLen f.units rx
  { n with spi := { n.spi with spaFrame := none, held := if f.hold then some f.sel else none } }

theorem spaFrameDone_eq {m : Core} {f : SpiFrame} (rx : List Word) (hf : m.spi.spaFrame = some f) (ho : m.spi.own = 3) :
    spaFrameDone m rx = raise (tally .spi 1 1 (rsetf (spaBoundary (spaEnded m f rx)) 0x3814 0 0 1)) 160 := by
  unfold spaFrameDone
  rw [hf]
  dsimp only
  rw [if_neg (by rw [ho]; decide)]
  rfl

theorem spaEnded_only (m : Core) (f : SpiFrame) (rx : List Word) : m.onlyParts [.regs, .spi] (spaEnded m f rx) :=
  onlyParts_trans (onlyParts_mono (rxUnits_only _ _ _ _ _) (by decide)) (onlyParts_spi _ _ (by decide))

theorem spaEnded_spi (m : Core) (f : SpiFrame) (rx : List Word) :
    (spaEnded m f rx).spi = { m.spi with spaFrame := none, held := if f.hold then some f.sel else none } := by
  have h : (rxUnits m 0x3820 f.unitLen f.units rx).spi = m.spi := rxUnits_only _ _ _ _ _ .spi (by decide)
  rw [← h]
  rfl

theorem spaJournal_congr {m n : Core} (h : n.jnl = m.jnl) : spaJournal n = spaJournal m := by rw [spaJournal, spaJournal, h]

theorem spaLoader_congr {m n : Core} (h : n.boot = m.boot) : spaLoader n = spaLoader m := by rw [spaLoader, spaLoader, h]

/-- The report at the end of a transfer: its event is counted and its source raised. -/
def reported (m : Core) (e k : Nat) : Core := raise (tally .spi e 1 m) k

theorem reported_only (m : Core) (e k : Nat) : m.onlyParts Part.report (reported m e k) :=
  onlyParts_trans (tally_only .spi e 1 m) (raise_only _ k)

theorem reported_regs (m : Core) (e k : Nat) : m.onlyRegs reportRegs (reported m e k) :=
  onlyRegs_trans (tally_regs .spi e 1 m) (raise_regs _ k)

theorem reported_spi (m : Core) (e k : Nat) : (reported m e k).spi = m.spi := reported_only m e k .spi (by decide)

/-- The machine as an SPB master transfer ends. -/
def spbEnded (m : Core) (f : SpiFrame) (rx : List Word) : Core :=
  let n := rsetf (rsetf (rxUnits m 0x3860 f.unitLen f.units rx) 0x3848 29 29 1) 0x3848 24 16 (f.unitLen * f.units)
  { n with spi := { n.spi with spbFrame := none } }

theorem spbTransferDone_eq {m : Core} {f : SpiFrame} (rx : List Word) (hf : m.spi.spbFrame = some f) :
    spbTransferDone m rx = reported (spbEnded m f rx) 2 161 := by
  unfold spbTransferDone
  rw [hf]
  rfl

theorem spbEnded_only (m : Core) (f : SpiFrame) (rx : List Word) : m.onlyParts [.regs, .spi] (spbEnded m f rx) :=
  onlyParts_trans (onlyParts_trans (onlyParts_trans (onlyParts_mono (rxUnits_only _ _ _ _ _) (by decide))
    (onlyParts_rset _ _ _ (by decide))) (onlyParts_rset _ _ _ (by decide))) (onlyParts_spi _ _ (by decide))

theorem spbEnded_spi (m : Core) (f : SpiFrame) (rx : List Word) : (spbEnded m f rx).spi = { m.spi with spbFrame := none } := by
  have h : (rxUnits m 0x3860 f.unitLen f.units rx).spi = m.spi := rxUnits_only _ _ _ _ _ .spi (by decide)
  rw [← h]
  rfl

theorem rget_spbEnded (m : Core) (f : SpiFrame) (rx : List Word) {a : Nat} (ha : 0x3848 ≠ a) :
    rget (spbEnded m f rx) a = rget (rxUnits m 0x3860 f.unitLen f.units rx) a :=
  (rget_rset_other _ _ ha).trans (rget_rset_other _ _ ha)

theorem spbEnded_done (m : Core) (f : SpiFrame) (rx : List Word) : rbit (spbEnded m f rx) 0x3848 29 = true := by
  have h : rbit (spbEnded m f rx) 0x3848 29 = rbit (rsetf (rsetf (rxUnits m 0x3860 f.unitLen f.units rx) 0x3848 29 29 1)
    0x3848 24 16 (f.unitLen * f.units)) 0x3848 29 := rfl
  rw [h, SoftReset.rbit_rsetf_other _ _ _ _ _ _ (by decide), SoftReset.rbit_rsetf_bit _ _ _ (by decide)]
  rfl

/-- SPB.STATUS as a mode fault has cut a transfer (R837). -/
def faultCounted (m : Core) (f : SpiFrame) (bits : BitVec 9) (rx : List Word) : Core :=
  rsetf (rsetf (rxUnits m 0x3860 f.unitLen (min bits.toNat (f.unitLen * f.units) / f.unitLen) rx) 0x3848 28 28 1) 0x3848 24 16
    (min bits.toNat (f.unitLen * f.units))

/-- The machine after a mode fault, before its report. -/
def faulted (m : Core) (f : SpiFrame) (bits : BitVec 9) (rx : List Word) : Core :=
  let n := rsetf (rsetf (faultCounted m f bits rx) 0x3840 0 0 0) 0x3848 27 27 1
  { n with spi := { n.spi with spbFrame := none, spbSel := true, spbBlocked := true, miso := some [] } }

theorem modeFault_eq {m : Core} {f : SpiFrame} (bits : BitVec 9) (rx : List Word) (hm : rbit m 0x3840 0 = true)
    (hf : m.spi.spbFrame = some f) : modeFault m bits rx = reported (faulted m f bits rx) 4 162 := by
  unfold modeFault
  rw [if_neg (by rw [hm]; decide), hf]
  rfl

theorem faulted_only (m : Core) (f : SpiFrame) (bits : BitVec 9) (rx : List Word) :
    m.onlyParts [.regs, .spi] (faulted m f bits rx) := by
  have h1 : m.onlyParts [.regs, .spi] (faultCounted m f bits rx) :=
    onlyParts_trans (onlyParts_trans (onlyParts_mono (rxUnits_only _ _ _ _ _) (by decide)) (onlyParts_rset _ _ _ (by decide)))
      (onlyParts_rset _ _ _ (by decide))
  exact onlyParts_trans (onlyParts_trans (onlyParts_trans h1 (onlyParts_rset _ _ _ (by decide)))
    (onlyParts_rset _ _ _ (by decide))) (onlyParts_spi _ _ (by decide))

/-- What the registers show of a mode fault. -/
theorem faulted_shown (m : Core) (f : SpiFrame) (bits : BitVec 9) (rx : List Word) :
    rbit (faulted m f bits rx) 0x3840 0 = false ∧ rbit (faulted m f bits rx) 0x3848 27 = true
      ∧ rbit (faulted m f bits rx) 0x3848 28 = true
      ∧ rfld (faulted m f bits rx) 0x3848 24 16 = min bits.toNat (f.unitLen * f.units) % 512 := by
  have hrole : rget (faulted m f bits rx) 0x3840 = rget (rsetf (faultCounted m f bits rx) 0x3840 0 0 0) 0x3840 :=
    rget_rset_other _ _ (by decide)
  have hstat : rget (faulted m f bits rx) 0x3848 = putFld (rget (faultCounted m f bits rx) 0x3848) 27 27 1 :=
    (rget_rset_same _ _ _).trans (congrArg (fun w => putFld w 27 27 1) (rget_rset_other _ _ (by decide)))
  have hcount : rget (faultCounted m f bits rx) 0x3848
      = putFld (rget (rsetf (rxUnits m 0x3860 f.unitLen (min bits.toNat (f.unitLen * f.units) / f.unitLen) rx) 0x3848 28 28 1)
          0x3848) 24 16 (min bits.toNat (f.unitLen * f.units)) := rget_rset_same _ _ _
  refine ⟨?_, ?_, ?_, ?_⟩
  · rw [rbit, hrole]
    exact SoftReset.rbit_rsetf_bit _ _ _ (by decide)
  · rw [rbit, hstat, bit_putFld _ _ _ _ _ (by decide)]
    rfl
  · rw [rbit, hstat, bit_putFld _ _ _ _ _ (by decide), if_neg (by decide), hcount, bit_putFld _ _ _ _ _ (by decide),
      if_neg (by decide)]
    exact SoftReset.rbit_rsetf_bit _ _ _ (by decide)
  · rw [rfld, hstat, fld_putFld_other _ _ _ _ _ _ (by decide) (by decide), hcount, fld_putFld_same _ _ _ _ (by decide)]
    rfl

/-- What a write of SPA.CTL does beyond storing its fields. -/
def spaCtl (m : Core) (v : Word) : Core :=
  let n := if bit v 3 then { m with spi := { m.spi with held := none } } else m
  if bit v 0 then spaCall { n with spi := { n.spi with spaFrame := some (frameOf v (fld v 5 4)) } } else n

theorem action_spaCtl (old m : Core) (w : Who) (g : Option Msg) (v : Word) : writeAction old m w g 0x3810 v = spaCtl m v := rfl

/-- The hold as a write of SPA.CTL leaves it. -/
def holdKept (m : Core) (v : Word) : Core := if bit v 3 then { m with spi := { m.spi with held := none } } else m

theorem holdKept_state (m : Core) (v : Word) : m.onlyParts [.spi] (holdKept m v) ∧ (holdKept m v).spi.own = m.spi.own := by
  unfold holdKept
  split
  · exact ⟨onlyParts_spi _ _ (by decide), rfl⟩
  · exact ⟨onlyParts_refl _ _, rfl⟩

/-- A start of SPA with the frame that its word describes. -/
def spaQueued (m : Core) (v : Word) : Core :=
  { holdKept m v with spi := { (holdKept m v).spi with spaFrame := some (frameOf v (fld v 5 4)) } }

theorem spaCtl_start {m : Core} {v : Word} (h : bit v 0 = true) : spaCtl m v = spaCall (spaQueued m v) := if_pos h

theorem spaQueued_only (m : Core) (v : Word) : m.onlyParts [.spi] (spaQueued m v) :=
  onlyParts_trans (holdKept_state m v).1 (onlyParts_spi _ _ (by decide))

/-- A release of SPA: the hold ends, whatever else the word asks for (R817). -/
theorem spaCtl_release {m : Core} {v : Word} (h : bit v 3 = true) :
    (spaCtl m v).spi.held = none ∧ m.onlyParts [.spi] (spaCtl m v) := by
  have hk : holdKept m v = { m with spi := { m.spi with held := none } } := if_pos h
  have hfree : m.onlyParts [.spi] (holdKept m v) := (holdKept_state m v).1
  by_cases h0 : bit v 0 = true
  · have hheld : (spaQueued m v).spi.held = none := by rw [spaQueued, hk]
    obtain ⟨k, hc⟩ := spaCall_free hheld
    rw [spaCtl_start h0, hc]
    exact ⟨hheld, onlyParts_trans (spaQueued_only m v) (onlyParts_spi _ _ (by decide))⟩
  · have hc : spaCtl m v = holdKept m v := if_neg h0
    rw [hc]
    exact ⟨by rw [hk], hfree⟩

/-- What a write of SPB.CTL does beyond storing its fields. -/
def spbCtl (m : Core) (v : Word) : Core :=
  let n := if bit v 4 then rsetf m 0x3848 15 0 0 else m
  if bit v 0 then { n with spi := { n.spi with spbFrame := some (frameOf v (fld v 1 1)) } } else n

theorem action_spbCtl (old m : Core) (w : Who) (g : Option Msg) (v : Word) :
    writeAction old m w g 0x3844 v = spbCtl m v := rfl

theorem spbCtl_start {m : Core} {v : Word} (h : bit v 0 = true) :
    (spbCtl m v).spi.spbFrame = some (frameOf v (fld v 1 1)) ∧ m.onlyParts [.regs, .spi] (spbCtl m v)
      ∧ m.onlyRegs [0x3848] (spbCtl m v) := by
  have hcount : m.onlyParts [.regs, .spi] (if bit v 4 then rsetf m 0x3848 15 0 0 else m)
      ∧ m.onlyRegs [0x3848] (if bit v 4 then rsetf m 0x3848 15 0 0 else m) := by
    split
    · exact ⟨onlyParts_rset _ _ _ (by decide), onlyRegs_rset _ _ _ (by decide)⟩
    · exact ⟨onlyParts_refl _ _, onlyRegs_refl _ _⟩
  unfold spbCtl
  dsimp only
  rw [if_pos h]
  exact ⟨rfl, onlyParts_trans hcount.1 (onlyParts_spi _ _ (by decide)), onlyRegs_trans hcount.2 (onlyRegs_of_eq rfl)⟩

/-- The machine when a software frame has ended and no engine waits: SPA is free (R815). -/
def spaFreed (m : Core) (f : SpiFrame) (rx : List Word) : Core := rsetf (spaOwn (spaEnded m f rx) 0) 0x3814 0 0 1

theorem spaFreed_only (m : Core) (f : SpiFrame) (rx : List Word) : m.onlyParts [.regs, .spi] (spaFreed m f rx) :=
  onlyParts_trans (onlyParts_trans (spaEnded_only m f rx) (onlyParts_spi _ _ (by decide))) (onlyParts_rset _ _ _ (by decide))

theorem spaFreed_spi (m : Core) (f : SpiFrame) (rx : List Word) : (spaFreed m f rx).spi
    = { m.spi with own := 0, spaFrame := none, held := if f.hold then some f.sel else none } :=
  congrArg (fun x : Spi => { x with own := 0 }) (spaEnded_spi m f rx)

theorem rget_spaFreed (m : Core) (f : SpiFrame) (rx : List Word) {a : Nat} (ha : 0x3814 ≠ a) :
    rget (spaFreed m f rx) a = rget (rxUnits m 0x3820 f.unitLen f.units rx) a := rget_rset_other _ _ ha

theorem rbit_spaFreed (m : Core) (f : SpiFrame) (rx : List Word) : rbit (spaFreed m f rx) 0x3814 0 = true :=
  SoftReset.rbit_rsetf_bit _ _ _ (by decide)

theorem spaFrameDone_free {m : Core} {f : SpiFrame} (rx : List Word) (hf : m.spi.spaFrame = some f) (ho : m.spi.own = 3)
    (hj : spaJournal m = false) (hl : spaLoader m = false) : spaFrameDone m rx = reported (spaFreed m f rx) 1 160 := by
  have hend := spaEnded_only m f rx
  have hb : spaBoundary (spaEnded m f rx) = spaOwn (spaEnded m f rx) 0 :=
    spaBoundary_idle (congrArg Spi.spaFrame (spaEnded_spi m f rx)) ((spaJournal_congr (hend .jnl (by decide))).trans hj)
      ((spaLoader_congr (hend .boot (by decide))).trans hl)
  rw [spaFrameDone_eq rx hf ho, hb]
  rfl

/-- The machine when a software frame has ended and an engine has taken SPA (R818). -/
def spaTaken (m : Core) (f : SpiFrame) (rx : List Word) (k : Nat) : Core :=
  let n := spaEnded m f rx
  rsetf (spaOwn (rsetf { n with spi := { n.spi with held := none } } 0x3814 2 2 1) k) 0x3814 0 0 1

theorem spaFrameDone_engine {m : Core} {f : SpiFrame} (rx : List Word) (hf : m.spi.spaFrame = some f) (ho : m.spi.own = 3)
    (he : spaJournal m = true ∨ spaLoader m = true) (hh : f.hold = true) :
    spaFrameDone m rx = reported (spaTaken m f rx (if spaJournal m = true then 1 else 2)) 1 160 := by
  have hend := spaEnded_only m f rx
  have hheld : (spaEnded m f rx).spi.held = some f.sel := by rw [spaEnded_spi, hh]; rfl
  have hj : spaJournal (spaEnded m f rx) = spaJournal m := spaJournal_congr (hend .jnl (by decide))
  have hl : spaLoader (spaEnded m f rx) = spaLoader m := spaLoader_congr (hend .boot (by decide))
  have hb := spaBoundary_engine hheld (by rw [hj, hl]; exact he)
  rw [spaFrameDone_eq rx hf ho, hb, hj]
  rfl

theorem spaTaken_spi (m : Core) (f : SpiFrame) (rx : List Word) (k : Nat) :
    (spaTaken m f rx k).spi = { m.spi with spaFrame := none, held := none, own := k } :=
  congrArg (fun x : Spi => { x with held := none, own := k }) (spaEnded_spi m f rx)

theorem spaTaken_only (m : Core) (f : SpiFrame) (rx : List Word) (k : Nat) : m.onlyParts [.regs, .spi] (spaTaken m f rx k) :=
  onlyParts_trans (onlyParts_trans (onlyParts_trans (onlyParts_trans (spaEnded_only m f rx) (onlyParts_spi _ _ (by decide)))
    (onlyParts_rset _ _ _ (by decide))) (onlyParts_spi _ _ (by decide))) (onlyParts_rset _ _ _ (by decide))

theorem rbit_spaOwn (m : Core) (k a i : Nat) : rbit (spaOwn m k) a i = rbit m a i := rfl

theorem rbit_spaTaken (m : Core) (f : SpiFrame) (rx : List Word) (k : Nat) : rbit (spaTaken m f rx k) 0x3814 2 = true := by
  unfold spaTaken
  dsimp only
  rw [SoftReset.rbit_rsetf_other _ _ _ _ _ _ (by decide), rbit_spaOwn, SoftReset.rbit_rsetf_bit _ _ _ (by decide)]
  rfl

theorem data_not_report {base k : Nat} (hb : base = 0x3820 ∨ base = 0x3860) (hk : k < 8) : base + 4 * k ∉ reportRegs := by
  simp only [reportRegs, List.mem_cons, List.not_mem_nil, or_false]
  omega

/-- Settles O27: starts by `spaCtl` and `spbCtl`, ends by `spaEnded`, `spbEnded` and `faulted`, each with its report. -/
theorem serialPortsTransferAsMasters : Obligations.SerialPortsTransferAsMasters := by
  refine ⟨fun s a v h hon => ?_, fun s f rx hr hf hu ho he hh => ?_, fun s f rx hr hf hu ho hj hl => ?_, fun s a h => ?_,
    fun s a v h => ?_, fun s a v h hon => ?_, fun s f rx hr hf hu => ?_, fun s f bits rx hr hm hf => ?_⟩
  · have hst := storeWrite_only s.m 0x3810 v
    have hspi : (storeWrite s.m 0x3810 v).spi = s.m.spi := hst .spi (by decide)
    have hact : writeAction s.m (storeWrite s.m 0x3810 v) (lmbWho a) none 0x3810 v = spaCall (spaQueued (storeWrite s.m 0x3810 v) v) := by
      rw [action_spaCtl, spaCtl_start hon]
    have hq : s.m.onlyParts [.regs, .spi] (spaQueued (storeWrite s.m 0x3810 v) v) :=
      onlyParts_trans (onlyParts_mono hst (by decide)) (onlyParts_mono (spaQueued_only _ _) (by decide))
    have hown : (spaQueued (storeWrite s.m 0x3810 v) v).spi.own = s.m.spi.own :=
      (holdKept_state _ _).2.trans (congrArg Spi.own hspi)
    refine ⟨_, accepted_next h (not_throw _ (by decide)) hact, ?_, lmbOk_set _, fun hne => ?_, fun h0 hj hl => ?_, only_lmb
      (onlyParts_trans (onlyParts_mono hq (by decide)) (onlyParts_mono (spaCall_only _) (by decide))) (by decide), ?_⟩
    · exact (spaCall_frame _ :)
    · show (spaCall _).spi.own = _
      rw [spaCall, if_neg (by rw [hown]; exact hne), hown]
    · show (spaCall _).spi.own = _
      rw [spaCall, if_pos (hown.trans h0), spaBoundary_software rfl
        ((spaJournal_congr (hq .jnl (by decide))).trans hj) ((spaLoader_congr (hq .boot (by decide))).trans hl)]
      rfl
    · exact onlyRegs_lmb (onlyRegs_trans (onlyRegs_mono (storeWrite_regs _ _ _) (by decide)) (onlyRegs_trans
        (onlyRegs_of_only (spaQueued_only _ _) (by decide)) (onlyRegs_mono (spaCall_regs _) (by decide))))
  · have hspi := (reported_spi _ 1 160).trans (spaTaken_spi s.m f rx (if spaJournal s.m = true then 1 else 2))
    exact ⟨_, clocked_next (f := fun m => spaFrameDone m rx) hr (spaFrameDone_engine rx hf ho he hh),
      (congrArg Spi.spaFrame hspi :), (congrArg Spi.held hspi :),
      (SoftReset.rbit_of_onlyRegs (reported_regs _ 1 160) (by decide) 2).trans (rbit_spaTaken _ _ _ _),
      (congrArg Spi.own hspi :), raise_isPending _ _,
      only_next (onlyParts_trans (onlyParts_mono (spaTaken_only _ _ _ _) (by decide)) (onlyParts_mono (reported_only _ _ _) (by decide)))⟩
  · have hregs := reported_regs (spaFreed s.m f rx) 1 160
    refine ⟨_, clocked_next (f := fun m => spaFrameDone m rx) hr (spaFrameDone_free rx hf ho hj hl),
      (reported_spi _ 1 160).trans (spaFreed_spi _ _ _), fun k hk => ?_,
      (SoftReset.rbit_of_onlyRegs hregs (by decide) 0).trans (rbit_spaFreed _ _ _), raise_isPending _ _,
      only_next (onlyParts_trans (onlyParts_mono (spaFreed_only _ _ _) (by decide)) (onlyParts_mono (reported_only _ _ _) (by decide))),
      onlyRegs_trans (fun b hb => ?_) (onlyRegs_mono hregs (by intro x hx; simp [hx]))⟩
    · exact (hregs _ (data_not_report (.inl rfl) (Nat.lt_of_lt_of_le hk hu))).trans ((rget_spaFreed _ _ _ (by omega)).trans
        (rget_rxUnits_same s.m 0x3820 f.unitLen rx hk))
    · simp only [List.mem_cons, List.mem_append, not_or] at hb
      exact (rget_spaFreed _ _ _ (Ne.symm hb.1.1)).trans (rxUnits_regs s.m 0x3820 f.unitLen rx hu b hb.1.2)
  · have hst := storeWrite_only s.m 0x3810 (rget s.m 0x3810 ||| 8)
    have hrel : bit (rget s.m 0x3810 ||| 8) 3 = true := by
      rw [Observe.bit_or]
      exact Bool.or_true _
    obtain ⟨hheld, hparts⟩ := spaCtl_release (m := storeWrite s.m 0x3810 (rget s.m 0x3810 ||| 8)) hrel
    have hnext : clocked (fun m => lmbWrite a 0x3810 (rget m 0x3810 ||| 8) m) s
        = .next { s with m := setLmb (spaCtl (storeWrite s.m 0x3810 (rget s.m 0x3810 ||| 8)) (rget s.m 0x3810 ||| 8)) (accOk 0) } := by
      rw [clocked_next (f := fun m => lmbWrite a 0x3810 (rget m 0x3810 ||| 8) m) h.1 (lmbWrite_accepted h.2 (not_throw _ (by decide))),
        action_spaCtl]
    exact ⟨_, hnext, hheld, lmbOk_set _, only_lmb (onlyParts_trans (onlyParts_mono hst (by decide)) (onlyParts_mono hparts (by decide)))
      (by decide), onlyRegs_lmb (onlyRegs_trans (storeWrite_regs _ _ _) (onlyRegs_of_only hparts (by decide)))⟩
  · have hreg : regAt 0x3840 = some ⟨0x3840, 1, 0x4, [⟨23, 16, .rw, 3, .sw, some (3, 255)⟩, ⟨13, 8, .rw, 16, .sw, none⟩,
        ⟨5, 4, .rw, 0, .sw, none⟩, ⟨0, 0, .rw, 0, .sw, none⟩]⟩ := by decide +kernel
    refine ⟨_, accepted_next h (not_throw _ (by decide)) (action_plain (by decide)), ?_, lmbOk_set _,
      only_lmb (storeWrite_parts _ _ _ (by decide)) (by decide), onlyRegs_lmb (storeWrite_regs _ _ _)⟩
    exact store_rw hreg (f := ⟨0, 0, .rw, 0, .sw, none⟩) (by simp) (.inl rfl) (by decide) (by decide)
  · obtain ⟨hf, hparts, hregs⟩ := spbCtl_start (m := storeWrite s.m 0x3844 v) hon
    exact ⟨_, accepted_next h (not_throw _ (by decide)) (action_spbCtl _ _ _ _ v), hf, lmbOk_set _,
      only_lmb (onlyParts_trans (storeWrite_parts _ _ _ (by decide)) (onlyParts_mono hparts (by decide))) (by decide),
      onlyRegs_lmb (onlyRegs_trans (onlyRegs_mono (storeWrite_regs _ _ _) (by decide)) (onlyRegs_mono hregs (by decide)))⟩
  · have hregs := reported_regs (spbEnded s.m f rx) 2 161
    refine ⟨_, clocked_next (f := fun m => spbTransferDone m rx) hr (spbTransferDone_eq rx hf),
      (reported_spi _ 2 161).trans (spbEnded_spi _ _ _), fun k hk => ?_,
      (SoftReset.rbit_of_onlyRegs hregs (by decide) 29).trans (spbEnded_done _ _ _), raise_isPending _ _,
      only_next (onlyParts_trans (onlyParts_mono (spbEnded_only _ _ _) (by decide)) (onlyParts_mono (reported_only _ _ _) (by decide))),
      onlyRegs_trans (fun b hb => ?_) (onlyRegs_mono hregs (by intro x hx; simp [hx]))⟩
    · exact (hregs _ (data_not_report (.inr rfl) (Nat.lt_of_lt_of_le hk hu))).trans ((rget_spbEnded _ _ _ (by omega)).trans
        (rget_rxUnits_same s.m 0x3860 f.unitLen rx hk))
    · simp only [List.mem_cons, List.mem_append, not_or] at hb
      exact (rget_spbEnded _ _ _ (Ne.symm hb.1.1)).trans (rxUnits_regs s.m 0x3860 f.unitLen rx hu b hb.1.2)
  · obtain ⟨hrole, h27, h28, hbits⟩ := faulted_shown s.m f bits rx
    have hspi := reported_spi (faulted s.m f bits rx) 4 162
    have hregs := reported_regs (faulted s.m f bits rx) 4 162
    refine ⟨_, clocked_next (f := fun m => modeFault m bits rx) hr (modeFault_eq bits rx hm hf), ?_, ?_, ?_, ?_,
      (congrArg Spi.spbFrame hspi :), (congrArg Spi.spbBlocked hspi :), raise_isPending _ _,
      only_next (onlyParts_trans (onlyParts_mono (faulted_only _ _ _ _) (by decide)) (onlyParts_mono (reported_only _ _ _) (by decide)))⟩
    · exact (SoftReset.rbit_of_onlyRegs hregs (by decide) 0).trans hrole
    · exact (SoftReset.rbit_of_onlyRegs hregs (by decide) 27).trans h27
    · exact (SoftReset.rbit_of_onlyRegs hregs (by decide) 28).trans h28
    · exact (congrArg (fun x => fld x 24 16) (hregs 0x3848 (by decide))).trans hbits

/-! ### SPB as a slave (R820 to R829) -/

/-- A frame that is recognised and finds no access pending. -/
theorem spbAccess_served {m : Core} {req : Nat} {ready : Bool} {f : Core → Core} (hm : rbit m 0x3840 0 = false)
    (hb : m.spi.spbBlocked = false) (hw : m.spi.spbWait = false) :
    spbAccess m req ready f = spbDrive m req (spbAnswer (f m) ready) := by
  simp [spbAccess, spbFrame, hm, hb, hw]

/-- A result that stands is shifted out with status done (Table SPI-3). -/
theorem spbAnswer_done {m : Core} {r : AccRes} (hl : m.spi.spbLast = some r) (hw : m.spi.spbWait = false)
    (hok : r.ok = true) :
    spbAnswer m true = modSpi m fun x => { x with spbSel := true, spbStatus := 0b1001, spbData := r.data } := by
  simp [spbAnswer, hl, hw, spbResult, hok, spbRespond]

/-- SPB as it shifts out a result with status done. -/
def shifted (old m : Core) (req : Nat) (d : Word) : Core :=
  modSpi m fun x => { x with spbSel := true, spbStatus := 0b1001, spbData := d, miso := some (spbLine old req 0b1001 d) }

theorem spbDrive_done (old m : Core) (req : Nat) (d : Word) :
    spbDrive old req (modSpi m fun x => { x with spbSel := true, spbStatus := 0b1001, spbData := d }) = shifted old m req d := rfl

/-- An access that a slave frame makes is served with its result. -/
theorem spbAccess_done {m n : Core} {req : Nat} {f : Core → Core} {r : AccRes} (hm : rbit m 0x3840 0 = false)
    (hb : m.spi.spbBlocked = false) (hw : m.spi.spbWait = false) (hf : f m = n) (hl : n.spi.spbLast = some r)
    (hn : n.spi.spbWait = false) (hok : r.ok = true) : spbAccess m req true f = shifted m n req r.data := by
  rw [spbAccess_served hm hb hw, hf, spbAnswer_done hl hn hok, spbDrive_done]

/-- The machine after an accepted SPB write to a register without behaviour of its own. -/
def spbStored (m : Core) (a : Nat) (v : Word) : Core :=
  modSpi (storeWrite m a v) fun x => { x with spbLast := some (accOk 0) }

theorem regWrite_plain {m : Core} {w : Who} {a : Nat} {v : Word} (hc : writeCode m w a v = 0) (hp : plainAddr a = true) :
    regWrite m w none a v = (some (accOk 0), storeWrite m a v) := by
  have ht := Access.not_throw_of_plain v hp
  simp only [Bool.and_eq_false_iff, decide_eq_false_iff_not] at ht
  have hne : ¬ (a = 0x404 ∧ bit v 0 = true) := by
    rcases ht with h | h
    · exact fun hh => h hh.1
    · rw [h]
      exact fun hh => absurd hh.2 (by decide)
  simp [regWrite, hc, action_plain hp, hne]

theorem spbPut_plain {m : Core} {a : Nat} {v : Word} (hc : writeCode m (spbWho m) a v = 0) (hp : plainAddr a = true) :
    spbPut m a v false = spbStored m a v := by
  have hw : regWrite m { spbWho m with late := false } none a v = (some (accOk 0), storeWrite m a v) := regWrite_plain hc hp
  unfold spbPut
  rw [hw]
  simp [spbStored, modSpi]

theorem spbStored_only (m : Core) (a : Nat) (v : Word) : m.onlyParts [.regs, .spi] (spbStored m a v) :=
  onlyParts_trans (storeWrite_parts _ _ _ (by decide)) (onlyParts_spi _ _ (by decide))

theorem spbStored_spi (m : Core) (a : Nat) (v : Word) : (spbStored m a v).spi = { m.spi with spbLast := some (accOk 0) } := by
  have h : (storeWrite m a v).spi = m.spi := storeWrite_only m a v .spi (by decide)
  rw [← h]
  rfl

theorem shifted_only (old m : Core) (req : Nat) (d : Word) : m.onlyParts [.spi] (shifted old m req d) :=
  onlyParts_spi m _ (by decide)

/-- A read that is not rejected. -/
theorem regRead_accepted {m : Core} {w : Who} {a : Nat} (h : readCode m w a = 0) :
    regRead m w a = (accOk (readValue m w a).1, (readValue m w a).2) := by
  simp [regRead, h]

theorem readValue_only (m : Core) (w : Who) (a : Nat) : m.onlyParts [.hold, .timeHold] (readValue m w a).2 := by
  unfold readValue
  split
  · exact onlyParts_refl _ _
  · split
    · split
      · exact onlyParts_hold _ _ (by decide)
      · exact onlyParts_refl _ _
    · split
      · exact onlyParts_timeHold _ _ (by decide)
      · split
        · exact onlyParts_refl _ _
        · split
          · exact onlyParts_refl _ _
          · exact onlyParts_refl _ _

/-- One read over SPB: its result stands. -/
def spbFetch (a : Nat) (m : Core) : Core :=
  modSpi (regRead m (spbWho m) a).2 fun x => { x with spbLast := some (regRead m (spbWho m) a).1 }

/-- The machine after an SPB read that is not rejected. -/
def spbFetched (m : Core) (a : Nat) : Core :=
  modSpi (readValue m (spbWho m) a).2 fun x => { x with spbLast := some (accOk (readValue m (spbWho m) a).1) }

/-- SPB between frames. -/
def spbIdle (m : Core) : Core :=
  modSpi m fun x => { x with spbSel := false, spbBlocked := false, spbStatus := 0, spbData := 0, miso := none }

/-- A frame that was cut short is counted (R829). -/
def cutCounted (m : Core) : Core :=
  rsetf (tally .spi 2 1 (spbIdle m)) 0x3848 15 0 (min (rfld (tally .spi 2 1 (spbIdle m)) 0x3848 15 0 + 1) 0xFFFF)

theorem spbFrameEnd_whole {m : Core} (hm : rbit m 0x3840 0 = false) :
    spbFrameEnd m .whole = if spbSlave m then tally .spi 2 1 (spbIdle m) else spbIdle m := by
  unfold spbFrameEnd
  rw [if_neg (by rw [hm]; decide)]
  cases spbSlave m <;> rfl

theorem spbFrameEnd_cut {m : Core} (hm : rbit m 0x3840 0 = false) (hb : m.spi.spbBlocked = false) :
    spbFrameEnd m .truncated = raise (cutCounted m) 163 := by
  have hs : spbSlave m = true := by simp [spbSlave, hm, hb]
  unfold spbFrameEnd
  rw [if_neg (by rw [hm]; decide)]
  dsimp only
  rw [hs]
  rfl

theorem cutCounted_only (m : Core) : m.onlyParts (.spi :: Part.report) (cutCounted m) :=
  onlyParts_trans (onlyParts_trans (onlyParts_spi m _ (by decide)) (onlyParts_mono (tally_only .spi 2 1 _) (by decide)))
    (onlyParts_rset _ _ _ (by decide))

theorem cutCounted_regs (m : Core) : m.onlyRegs (0x3848 :: reportRegs) (cutCounted m) :=
  onlyRegs_trans (onlyRegs_trans (n := spbIdle m) (onlyRegs_of_eq rfl) (onlyRegs_mono (tally_regs .spi 2 1 _) (by decide)))
    (onlyRegs_rset _ _ _ (by decide))

theorem cutCounted_spi (m : Core) : (cutCounted m).spi = (spbIdle m).spi :=
  tally_only .spi 2 1 (spbIdle m) .spi (by decide)

theorem cutCounted_count (m : Core) : rfld (cutCounted m) 0x3848 15 0 = min (rfld m 0x3848 15 0 + 1) 0xFFFF := by
  have h : rfld (tally .spi 2 1 (spbIdle m)) 0x3848 15 0 = rfld m 0x3848 15 0 :=
    congrArg (fun w => fld w 15 0) (tally_regs .spi 2 1 (spbIdle m) 0x3848 (by decide))
  rw [rfld, cutCounted, rsetf, rget_rset_same, fld_putFld_same _ _ _ _ (by decide), h]
  exact Nat.mod_eq_of_lt (Nat.lt_of_le_of_lt (Nat.min_le_right _ _) (by decide))

/-- Settles O28: an access that is served shifts out its result by `spbAccess_done`; the end of a frame by `spbIdle` and
`cutCounted`. -/
theorem spbSlaveFramesAccessRegisters : Obligations.SpbSlaveFramesAccessRegisters := by
  refine ⟨fun s addr v r hr hm hb hw hc hreg hp => ?_, fun s addr hr hm hb hw hc => ?_, fun s r hr hm hb hw hl hok => ?_,
    fun s addr v1 v2 cycles r hr hm hb hw hcy hc1 hc2 hreg hp hne => ?_, fun s hr hm => ?_, fun s hr hm hb => ?_⟩
  · have hspi := spbStored_spi s.m addr.toNat v
    have hstep : spbAccess s.m 56 true (fun m => spbPut m addr.toNat v false)
        = shifted s.m (spbStored s.m addr.toNat v) 56 0 :=
      spbAccess_done hm hb hw (spbPut_plain hc hp) (congrArg Spi.spbLast hspi) ((congrArg Spi.spbWait hspi).trans hw) rfl
    refine ⟨_, clocked_next (f := fun m => spbAccess m 56 true fun m => spbPut m addr.toNat v false) hr hstep,
      storeWrite_get hreg, ?_, only_next (onlyParts_trans (spbStored_only _ _ _) (onlyParts_mono (shifted_only _ _ _ _) (by decide))),
      storeWrite_regs s.m addr.toNat v⟩
    exact congrArg (fun x : Spi => { x with spbSel := true, spbStatus := 0b1001, spbData := 0,
                                            miso := some (spbLine s.m 56 0b1001 0) }) hspi
  · have hval := readValue_only s.m (spbWho s.m) addr.toNat
    have hwait : (spbFetched s.m addr.toNat).spi.spbWait = false :=
      (congrArg Spi.spbWait (hval .spi (by decide) : (readValue s.m (spbWho s.m) addr.toNat).2.spi = s.m.spi)).trans hw
    have hstep : spbAccess s.m 56 true (spbFetch addr.toNat) = shifted s.m (spbFetched s.m addr.toNat) 56 (readValue s.m (spbWho s.m) addr.toNat).1 :=
      spbAccess_done hm hb hw (by rw [spbFetch, regRead_accepted hc]; rfl) rfl hwait rfl
    exact ⟨_, clocked_next (f := fun m => spbAccess m 56 true (spbFetch addr.toNat)) hr hstep, rfl, rfl, rfl, only_next (onlyParts_trans (onlyParts_mono hval (by decide))
      (onlyParts_trans (onlyParts_spi _ _ (by decide)) (onlyParts_mono (shifted_only _ _ _ _) (by decide))))⟩
  · have hstep : spbFrame s.m 56 (fun m => spbAnswer m true) = shifted s.m s.m 56 r.data := by
      have hans := spbAnswer_done hl hw hok
      simp only [spbFrame, hm, hb, hans, Bool.false_eq_true, if_false]
      rfl
    exact ⟨_, clocked_next (f := fun m => spbFrame m 56 fun m => spbAnswer m true) hr hstep, rfl, only_next (shifted_only _ _ _ _)⟩
  · rw [spbPut_plain hc1 hp] at hc2
    have hspi1 := spbStored_spi s.m addr.toNat v1
    have hspi2 := (spbStored_spi (spbStored s.m addr.toNat v1) addr.toNat v2).trans
      (congrArg (fun x : Spi => { x with spbLast := some (accOk 0) }) hspi1)
    have hlate : decide (400 < cycles) = false := decide_eq_false (by omega)
    have hpair : spbPair s.m addr.toNat v1 v2 (decide (400 < cycles))
        = spbStored (spbStored s.m addr.toNat v1) addr.toNat v2 := by
      have hlast : (spbStored s.m addr.toNat v1).spi.spbLast = some (accOk 0) := congrArg Spi.spbLast hspi1
      unfold spbPair
      dsimp only
      rw [hlate, spbPut_plain hc1 hp, hlast]
      exact (if_pos rfl).trans (spbPut_plain hc2 hp)
    have hstep : spbAccess s.m 88 true (fun m => spbPair m addr.toNat v1 v2 (decide (400 < cycles)))
        = shifted s.m (spbStored (spbStored s.m addr.toNat v1) addr.toNat v2) 88 0 :=
      spbAccess_done hm hb hw hpair (congrArg Spi.spbLast hspi2) ((congrArg Spi.spbWait hspi2).trans hw) rfl
    refine ⟨_, clocked_next (f := fun m => spbAccess m 88 true fun m => spbPair m addr.toNat v1 v2 (decide (400 < cycles))) hr hstep,
      ?_, rfl, rfl, only_next (onlyParts_trans (onlyParts_trans (spbStored_only _ _ _) (spbStored_only _ _ _))
        (onlyParts_mono (shifted_only _ _ _ _) (by decide))),
      onlyRegs_trans (storeWrite_regs s.m addr.toNat v1) (storeWrite_regs (spbStored s.m addr.toNat v1) addr.toNat v2)⟩
    have h1 : rget (spbStored s.m addr.toNat v1) addr.toNat = storeFields r (rget s.m addr.toNat) v1 := storeWrite_get hreg
    have h2 : rget (spbStored (spbStored s.m addr.toNat v1) addr.toNat v2) addr.toNat
        = storeFields r (rget (spbStored s.m addr.toNat v1) addr.toNat) v2 := storeWrite_get hreg
    exact h2.trans (by rw [h1])
  · have hidle : s.m.onlyParts (.spi :: Part.report) (spbIdle s.m) := onlyParts_spi _ _ (by decide)
    have ht := tally_only .spi 2 1 (spbIdle s.m)
    refine ⟨_, clocked_next (f := fun m => spbFrameEnd m .whole) hr (spbFrameEnd_whole hm), ?_, only_next ?_, ?_⟩
    · dsimp only
      split
      · exact ht .spi (by decide)
      · rfl
    · split
      · exact onlyParts_trans hidle (onlyParts_mono ht (by decide))
      · exact hidle
    · dsimp only
      split
      · exact onlyRegs_trans (n := spbIdle s.m) (onlyRegs_of_eq rfl) (tally_regs .spi 2 1 _)
      · exact onlyRegs_of_eq rfl
  · have hrep := raise_only (cutCounted s.m) 163
    have hregs := raise_regs (cutCounted s.m) 163
    have hspi : (raise (cutCounted s.m) 163).spi = (spbIdle s.m).spi := (hrep .spi (by decide)).trans (cutCounted_spi _)
    refine ⟨_, clocked_next (f := fun m => spbFrameEnd m .truncated) hr (spbFrameEnd_cut hm hb), ?_, ?_, raise_isPending _ _,
      only_next (onlyParts_trans (cutCounted_only _) (onlyParts_mono hrep (by decide))),
      onlyRegs_trans (cutCounted_regs _) (onlyRegs_mono hregs (by decide))⟩
    · refine hspi.trans ?_
      simp [spbIdle, modSpi, hb]
    · exact (congrArg (fun w => fld w 15 0) (hregs 0x3848 (by decide))).trans (cutCounted_count _)

end Sys2Proof.Serial
end

section
/-! PROOFS. The directory's start (spec/07_directory_deck.md) and the sensors (spec/18_registers_service.md), with the
statements about them. -/

namespace Sys2Proof.Board

open Sys2Proof.Machine Sys2Proof.Laws Sys2Proof.Windows Sys2Proof.Engine

/-! ### MBIST and the initialisation (R314, R317) -/

/-- MBIST has run. -/
def mbistEnded (m : Core) : Core := modDeck m fun d => { d with mbistRunning := false, mbistRan := true }

/-- A row has taken a spare of its array. -/
def spareTaken (m : Core) (r : DeckRow) : Core :=
  modDeck m fun d => { d with spares := tput 128 d.spares (spareKey r) (sparesLeft m r - 1), remapped := d.remapped ++ [r] }

/-- MBIST has failed: the block asserts FAULT_N. -/
def mbistBroken (m : Core) : Core := assertFault (modDeck m fun d => { d with mbistFail := true })

theorem mbistDone_nil {m : Core} (h : m.deck.mbistRunning = true) : mbistDone m [] = mbistEnded m := by
  simp [mbistDone, h, mbistEnded]

theorem mbistDone_spared {m : Core} {r : DeckRow} (h : m.deck.mbistRunning = true) (hs : 1 < sparesLeft m r) :
    mbistDone m [r] = spareTaken (mbistEnded m) r := by
  have hl : sparesLeft (mbistEnded m) r = sparesLeft m r := rfl
  have hu : useSpare (mbistEnded m) r = spareTaken (mbistEnded m) r := by
    unfold useSpare
    dsimp only
    rw [if_neg (by rw [hl]; omega)]
    rfl
  unfold mbistDone
  rw [if_neg (by rw [h]; decide)]
  show (if sparesLeft (mbistEnded m) r = 0 then _ else useSpare (mbistEnded m) r) = _
  rw [if_neg (by rw [hl]; omega), hu]

theorem mbistDone_failed {m : Core} {r : DeckRow} (h : m.deck.mbistRunning = true) (hf : m.deck.mbistFail = false)
    (hs : sparesLeft m r = 0) : mbistDone m [r] = raise (mbistBroken (mbistEnded m)) 56 := by
  have hl : sparesLeft (mbistEnded m) r = sparesLeft m r := rfl
  have hf' : (mbistEnded m).deck.mbistFail = false := hf
  unfold mbistDone
  rw [if_neg (by rw [h]; decide)]
  show (if sparesLeft (mbistEnded m) r = 0 then (if (mbistEnded m).deck.mbistFail then _ else _) else _) = _
  rw [if_pos (hl.trans hs), hf']
  rfl

/-- Settles O32: a row with a spare is `spareTaken`, one without `mbistBroken`. -/
theorem deckStartsUp : Obligations.DeckStartsUp := by
  refine ⟨fun s hr h => ?_, fun s r hr h hs => ?_, fun s r hr h hf hs => ?_, fun s hr h => ?_⟩
  · exact ⟨_, clocked_next (f := fun m => mbistDone m []) hr (mbistDone_nil h), rfl, only_next (onlyParts_deck s.m _ (by decide))⟩
  · refine ⟨_, clocked_next (f := fun m => mbistDone m [r]) hr (mbistDone_spared h hs), rfl, rfl, rfl, ?_, rfl,
      only_next (onlyParts_trans (onlyParts_deck s.m _ (by decide)) (onlyParts_deck _ _ (by decide)))⟩
    simp [sparesLeft, spareTaken, mbistEnded, modDeck]
  · have hrep := raise_only (mbistBroken (mbistEnded s.m)) 56
    have hdeck : (raise (mbistBroken (mbistEnded s.m)) 56).deck = (mbistBroken (mbistEnded s.m)).deck := hrep .deck (by decide)
    have hpins : (raise (mbistBroken (mbistEnded s.m)) 56).pins = (mbistBroken (mbistEnded s.m)).pins := hrep .pins (by decide)
    have hbroken : s.m.onlyParts (.deck :: .pins :: Part.report) (mbistBroken (mbistEnded s.m)) :=
      onlyParts_trans (onlyParts_trans (onlyParts_deck s.m _ (by decide)) (onlyParts_deck _ _ (by decide)))
        (onlyParts_pins _ _ (by decide))
    exact ⟨_, clocked_next (f := fun m => mbistDone m [r]) hr (mbistDone_failed h hf hs), congrArg Deck.mbistRan hdeck,
      congrArg Deck.mbistFail hdeck, congrArg Pins.faultN hpins, raise_isPending _ _,
      only_next (onlyParts_trans hbroken (onlyParts_mono hrep (by decide)))⟩
  · have hstep : initDone s.m = modDeck s.m fun d => { d with initDone := true } := by simp [initDone, h]
    exact ⟨_, clocked_next hr hstep, rfl, only_next (onlyParts_deck s.m _ (by decide))⟩

/-! ### Sensors (R914, R915, R963) -/

/-- A rail's sample and its limit bit. -/
def railShown (m : Core) (k : Nat) (v : BitVec 16) : Core :=
  rsetf (rsetf m (0x3C10 + 4 * k) 15 0 v.toNat) 0x3C2C k k (b1 (railOut k v.toNat))

theorem sampleRail_cases (m : Core) (k : Nat) (v : BitVec 16) : sampleRail m k v = railShown m k v
    ∨ sampleRail m k v = raise (rsetf (railShown m k v) 0x3C2C (16 + k) (16 + k) 1) 20 := by
  unfold sampleRail
  dsimp only
  split
  · exact .inr rfl
  · exact .inl rfl

theorem sampleRail_only (m : Core) (k : Nat) (v : BitVec 16) : m.onlyParts Part.report (sampleRail m k v) := by
  have hshown : m.onlyParts Part.report (railShown m k v) :=
    onlyParts_trans (onlyParts_rset _ _ _ (by decide)) (onlyParts_rset _ _ _ (by decide))
  rcases sampleRail_cases m k v with h | h <;> rw [h]
  · exact hshown
  · exact onlyParts_trans (onlyParts_trans hshown (onlyParts_rset _ _ _ (by decide))) (raise_only _ _)

theorem sampleRail_regs (m : Core) (k : Nat) (v : BitVec 16) :
    m.onlyRegs ((0x3C10 + 4 * k) :: 0x3C2C :: reportRegs) (sampleRail m k v) := by
  have hshown : m.onlyRegs ((0x3C10 + 4 * k) :: 0x3C2C :: reportRegs) (railShown m k v) :=
    onlyRegs_trans (onlyRegs_rset _ _ _ (by simp)) (onlyRegs_rset _ _ _ (by simp))
  rcases sampleRail_cases m k v with h | h <;> rw [h]
  · exact hshown
  · exact onlyRegs_trans (onlyRegs_trans hshown (onlyRegs_rset _ _ _ (by simp)))
      (onlyRegs_mono (raise_regs _ _) (by intro a ha; simp [ha]))

theorem sampleRail_pendingKept (m : Core) (k : Nat) (v : BitVec 16) : PendingKept m (sampleRail m k v) := by
  rcases sampleRail_cases m k v with h | h <;> rw [h]
  · exact fun _ hk => hk
  · exact fun j hj => raise_pendingKept (rsetf (railShown m k v) 0x3C2C (16 + k) (16 + k) 1) 20 j hj

/-- A rail's sample stands in its register. -/
theorem sampleRail_level (m : Core) {k : Nat} (hk : k < 7) (v : BitVec 16) :
    rfld (sampleRail m k v) (0x3C10 + 4 * k) 15 0 = v.toNat := by
  have hshown : rget (railShown m k v) (0x3C10 + 4 * k) = putFld (rget m (0x3C10 + 4 * k)) 15 0 v.toNat :=
    (rget_rset_other _ _ (by omega)).trans (rget_rset_same _ _ _)
  have hraised : rget (sampleRail m k v) (0x3C10 + 4 * k) = rget (railShown m k v) (0x3C10 + 4 * k) := by
    rcases sampleRail_cases m k v with h | h <;> rw [h]
    have hrep : 0x3C10 + 4 * k ∉ reportRegs := by
      simp only [reportRegs, List.mem_cons, List.not_mem_nil, or_false]
      omega
    exact (raise_regs _ 20 _ hrep).trans (rget_rset_other _ _ (by omega))
  rw [rfld, hraised, hshown, fld_putFld_same _ _ _ _ (by decide)]
  exact Nat.mod_eq_of_lt v.isLt

/-- A rail's limit bit. -/
theorem sampleRail_out (m : Core) {k : Nat} (hk : k < 7) (v : BitVec 16) :
    rbit (sampleRail m k v) 0x3C2C k = railOut k v.toNat := by
  have hshown : rbit (railShown m k v) 0x3C2C k = railOut k v.toNat := by
    rw [railShown, SoftReset.rbit_rsetf_bit _ _ _ (by omega)]
    cases railOut k v.toNat <;> rfl
  rcases sampleRail_cases m k v with h | h <;> rw [h]
  · exact hshown
  · rw [SoftReset.rbit_of_onlyRegs (raise_regs _ 20) (by decide), SoftReset.rbit_rsetf_other _ _ _ _ _ _ (by omega)]
    exact hshown

/-- Another rail's limit bit. -/
theorem sampleRail_other (m : Core) {k j : Nat} (hk : k < 7) (hj : j < 7) (hne : j ≠ k) (v : BitVec 16) :
    rbit (sampleRail m k v) 0x3C2C j = rbit m 0x3C2C j := by
  have hshown : rbit (railShown m k v) 0x3C2C j = rbit m 0x3C2C j := by
    rw [railShown, SoftReset.rbit_rsetf_other _ _ _ _ _ _ (by omega)]
    exact congrArg (fun w => bit w j) (rget_rset_other _ _ (by omega))
  rcases sampleRail_cases m k v with h | h <;> rw [h]
  · exact hshown
  · rw [SoftReset.rbit_of_onlyRegs (raise_regs _ 20) (by decide), SoftReset.rbit_rsetf_other _ _ _ _ _ _ (by omega)]
    exact hshown

/-- Rails sampled one after another. -/
def sampleRails (m : Core) (l : List (Nat × BitVec 16)) : Core := l.foldl (fun m x => sampleRail m x.1 x.2) m

/-- The registers that the samples of the rails change. -/
def railRegs : List Nat := 0x3C2C :: (List.range 7).map (fun k => 0x3C10 + 4 * k) ++ reportRegs

/-- What the rails' samples leave: each its level and its limit bit, and every other register but a report's. -/
theorem sampleRails_state (l : List (Nat × BitVec 16)) (m : Core) (hlt : ∀ x ∈ l, x.1 < 7) (hnd : (l.map Prod.fst).Nodup) :
    m.onlyParts Part.report (sampleRails m l) ∧ PendingKept m (sampleRails m l) ∧ m.onlyRegs railRegs (sampleRails m l)
      ∧ (∀ x ∈ l, rfld (sampleRails m l) (0x3C10 + 4 * x.1) 15 0 = x.2.toNat
          ∧ rbit (sampleRails m l) 0x3C2C x.1 = railOut x.1 x.2.toNat)
      ∧ ∀ k < 7, k ∉ l.map Prod.fst → rget (sampleRails m l) (0x3C10 + 4 * k) = rget m (0x3C10 + 4 * k)
          ∧ rbit (sampleRails m l) 0x3C2C k = rbit m 0x3C2C k := by
  induction l generalizing m with
  | nil => exact ⟨onlyParts_refl _ _, fun _ h => h, onlyRegs_refl _ _, fun _ h => (by cases h), fun _ _ _ => ⟨rfl, rfl⟩⟩
  | cons x l ih =>
    rw [List.map_cons, List.nodup_cons] at hnd
    have hx : x.1 < 7 := hlt x List.mem_cons_self
    obtain ⟨hp, hk, hr, hin, hout⟩ := ih (sampleRail m x.1 x.2) (fun y hy => hlt y (List.mem_cons_of_mem _ hy)) hnd.2
    have hone : m.onlyRegs railRegs (sampleRail m x.1 x.2) := by
      refine onlyRegs_mono (sampleRail_regs m x.1 x.2) fun a ha => ?_
      simp only [railRegs, List.mem_cons, List.mem_append, List.mem_map, List.mem_range] at ha ⊢
      rcases ha with rfl | rfl | ha
      · exact .inl (.inr ⟨x.1, hx, rfl⟩)
      · exact .inl (.inl rfl)
      · exact .inr ha
    refine ⟨onlyParts_trans (sampleRail_only _ _ _) hp, pendingKept_trans (sampleRail_pendingKept _ _ _) hk,
      onlyRegs_trans hone hr, fun y hy => ?_, fun k hk hne => ?_⟩
    · rcases List.mem_cons.1 hy with rfl | hy
      · obtain ⟨h1, h2⟩ := hout y.1 hx hnd.1
        exact ⟨(congrArg (fun w => fld w 15 0) h1).trans (sampleRail_level m hx y.2), h2.trans (sampleRail_out m hx y.2)⟩
      · exact hin y hy
    · rw [List.map_cons, List.mem_cons, not_or] at hne
      obtain ⟨h1, h2⟩ := hout k hk hne.2
      have hrep : 0x3C10 + 4 * k ∉ (0x3C10 + 4 * x.1) :: 0x3C2C :: reportRegs := by
        have := hne.1
        simp only [reportRegs, List.mem_cons, List.not_mem_nil, or_false]
        omega
      exact ⟨h1.trans (sampleRail_regs m x.1 x.2 _ hrep), h2.trans (sampleRail_other m hx hk hne.1 x.2)⟩

/-- The temperature as sampled, with the highest so far. -/
def tempShown (m : Core) (t : BitVec 16) : Core :=
  let n := rsetf m 0x3C04 15 0 t.toNat
  let peak : BitVec 16 := BitVec.ofNat 16 (rfld n 0x3C0C 31 16)
  modPins (if !n.pins.peakSeen || decide (peak.toInt < t.toInt) then rsetf n 0x3C0C 31 16 t.toNat else n)
    fun p => { p with peakSeen := true }

/-- Whether a temperature lies above the alert of CKP.THERM. -/
abbrev aboveAlert (m : Core) (t : BitVec 16) : Prop := (rfld m 0x3C08 7 0 : Int) * 8 < t.toInt

theorem sampleTemp_eq (m : Core) (t : BitVec 16) : sampleTemp m t
    = if aboveAlert (tempShown m t) t then
        if rbit (tempShown m t) 0x3C0C 0 then tempShown m t else raise (rsetf (tempShown m t) 0x3C0C 1 0 3) 21
      else if t.toInt < ((rfld (tempShown m t) 0x3C08 7 0 : Int) - (rfld (tempShown m t) 0x3C08 11 8 : Int)) * 8 then
        rsetf (tempShown m t) 0x3C0C 0 0 0
      else tempShown m t := rfl

/-- What a sample shows of the temperature; the alert's limits and mark are as they were. -/
theorem tempShown_state (m : Core) (t : BitVec 16) : m.onlyParts (.pins :: Part.report) (tempShown m t)
    ∧ rfld (tempShown m t) 0x3C04 15 0 = t.toNat ∧ rget (tempShown m t) 0x3C08 = rget m 0x3C08
    ∧ rbit (tempShown m t) 0x3C0C 0 = rbit m 0x3C0C 0 := by
  have hn : m.onlyParts (.pins :: Part.report) (rsetf m 0x3C04 15 0 t.toNat) := onlyParts_rset _ _ _ (by decide)
  have htemp : rfld (rsetf m 0x3C04 15 0 t.toNat) 0x3C04 15 0 = t.toNat := by
    rw [rfld, rsetf, rget_rset_same, fld_putFld_same _ _ _ _ (by decide)]
    exact Nat.mod_eq_of_lt t.isLt
  have hkeep (a : Nat) (ha : 0x3C04 ≠ a) : rget (rsetf m 0x3C04 15 0 t.toNat) a = rget m a := rget_rset_other _ _ ha
  unfold tempShown
  dsimp only
  generalize rsetf m 0x3C04 15 0 t.toNat = n at hn htemp hkeep
  split
  · refine ⟨onlyParts_trans (onlyParts_trans hn (onlyParts_rset _ _ _ (by decide))) (onlyParts_pins _ _ (by decide)), ?_, ?_, ?_⟩
    · exact (congrArg (fun w => fld w 15 0) (rget_rset_other n _ (by decide))).trans htemp
    · exact (rget_rset_other n _ (by decide)).trans (hkeep _ (by decide))
    · exact (SoftReset.rbit_rsetf_other n _ _ _ _ _ (by decide)).trans (congrArg (fun w => bit w 0) (hkeep _ (by decide)))
  · exact ⟨onlyParts_trans hn (onlyParts_pins _ _ (by decide)), htemp, hkeep _ (by decide),
      congrArg (fun w => bit w 0) (hkeep _ (by decide))⟩

/-- What the sample of the temperature leaves (R914). -/
theorem sampleTemp_state (m : Core) (t : BitVec 16) : m.onlyParts (.pins :: Part.report) (sampleTemp m t)
    ∧ rfld (sampleTemp m t) 0x3C04 15 0 = t.toNat
    ∧ (aboveAlert m t → rbit (sampleTemp m t) 0x3C0C 0 = true)
    ∧ (aboveAlert m t → rbit m 0x3C0C 0 = false → isPending (sampleTemp m t) 21 = true) := by
  obtain ⟨hp, ht, hlim, hmark⟩ := tempShown_state m t
  have hab : aboveAlert (tempShown m t) t ↔ aboveAlert m t := by rw [aboveAlert, aboveAlert, rfld, rfld, hlim]
  rw [sampleTemp_eq, if_congr hab rfl rfl]
  split
  · next ha =>
    split
    · next hset => exact ⟨hp, ht, fun _ => hset, fun _ hclear => absurd (hmark.symm.trans hset) (by rw [hclear]; decide)⟩
    · have hregs := raise_regs (rsetf (tempShown m t) 0x3C0C 1 0 3) 21
      refine ⟨onlyParts_trans (onlyParts_trans hp (onlyParts_rset _ _ _ (by decide))) (onlyParts_mono (raise_only _ _) (by decide)),
        ?_, fun _ => ?_, fun _ _ => raise_isPending _ _⟩
      · exact (congrArg (fun w => fld w 15 0) ((hregs _ (by decide)).trans (rget_rset_other _ _ (by decide)))).trans ht
      · refine (SoftReset.rbit_of_onlyRegs hregs (by decide) 0).trans ?_
        rw [rbit_rsetf _ _ _ _ _ _ _ (by decide)]
        rfl
  · next ha =>
    split
    · exact ⟨onlyParts_trans hp (onlyParts_rset _ _ _ (by decide)),
        (congrArg (fun w => fld w 15 0) (rget_rset_other _ _ (by decide))).trans ht, fun h => absurd h ha, fun h => absurd h ha⟩
    · exact ⟨hp, ht, fun h => absurd h ha, fun h => absurd h ha⟩

/-- Rail `k` stands in the list of the rails with its sample. -/
theorem mem_rails {mv : List (BitVec 16)} (h : mv.length = 7) (k : Fin 7) :
    (k.val, (mv[k.val]?).getD 0) ∈ (List.range 7).zip mv := by
  have hk : k.val < mv.length := by omega
  have hz : k.val < ((List.range 7).zip mv).length := by simp [h]
  have hget : ((List.range 7).zip mv)[k.val] = (k.val, (mv[k.val]?).getD 0) := by
    rw [List.getElem_zip, List.getElem_range, List.getElem?_eq_getElem hk]
    rfl
  exact hget ▸ List.getElem_mem hz

theorem sensorSample_eq {m : Core} (t : BitVec 16) (mv : List (BitVec 16)) (h : m.pins.refclkStopped = false) :
    sensorSample m t mv = sampleRails (sampleTemp m t) ((List.range 7).zip mv) := by
  rw [sensorSample, if_neg (by rw [h]; decide)]
  rfl

/-- What a sample of the sensors leaves: the temperature by `sampleTemp_state`, the rails after it by
`sampleRails_state`. -/
theorem sensorSample_state {m : Core} (t : BitVec 16) {mv : List (BitVec 16)} (h : m.pins.refclkStopped = false)
    (hlen : mv.length = 7) : rfld (sensorSample m t mv) 0x3C04 15 0 = t.toNat
      ∧ (∀ k : Fin 7, rfld (sensorSample m t mv) (0x3C10 + 4 * k.val) 15 0 = ((mv[k.val]?).getD 0).toNat
          ∧ rbit (sensorSample m t mv) 0x3C2C k.val = railOut k.val ((mv[k.val]?).getD 0).toNat)
      ∧ (aboveAlert m t → rbit (sensorSample m t mv) 0x3C0C 0 = true)
      ∧ (aboveAlert m t → rbit m 0x3C0C 0 = false → isPending (sensorSample m t mv) 21 = true)
      ∧ m.onlyParts (.pins :: Part.report) (sensorSample m t mv) := by
  have hfst : ((List.range 7).zip mv).map Prod.fst = List.range 7 := List.map_fst_zip (by simp [hlen])
  obtain ⟨hp, ht, hmark, hpend⟩ := sampleTemp_state m t
  obtain ⟨hp', hk, hr, hin, _⟩ := sampleRails_state ((List.range 7).zip mv) (sampleTemp m t)
    (fun x hx => List.mem_range.1 (hfst ▸ List.mem_map_of_mem hx)) (by rw [hfst]; exact List.nodup_range)
  have hrails : ∀ k : Fin 7, _ := fun k => hin _ (mem_rails hlen k)
  rw [sensorSample_eq t mv h]
  generalize sampleRails (sampleTemp m t) ((List.range 7).zip mv) = n at hp' hk hr hrails
  refine ⟨?_, hrails, fun ha => ?_, fun ha hc => hk _ (hpend ha hc),
    onlyParts_trans hp (onlyParts_mono hp' (by decide))⟩
  · exact (congrArg (fun w => fld w 15 0) (hr 0x3C04 (by decide))).trans ht
  · exact (SoftReset.rbit_of_onlyRegs hr (by decide) 0).trans (hmark ha)

/-- Settles O33: the sample's effect is `sensorSample_state`. -/
theorem sensorsAreSampled : Obligations.SensorsAreSampled := by
  intro s temp mv hw hstop hlen
  obtain ⟨ht, hrails, hmark, hpend, hp⟩ := sensorSample_state temp hstop hlen
  have hnext : awakened (fun m => sensorSample m temp mv) s = .next { s with m := sensorSample s.m temp mv } := by
    rw [awakened, if_pos hw]
  exact ⟨_, hnext, ht, hrails, hmark, hpend, only_next hp⟩

end Sys2Proof.Board
end

section
/-! PROOFS. The Kalpor image loader (spec/12_control_plane.md, R513, R514, R633 to R638, R808): the copies that it reads
and the records that it applies, with the statement about them. -/

namespace Sys2Proof.Image

open Sys2Proof.Machine Sys2Proof.Laws Sys2Proof.Windows Sys2Proof.Controls Sys2Proof.Events Sys2Proof.Engine Sys2Proof.Serial

/-! ### The end of a load -/

theorem journal_pendingKept (m : Core) (t s : Nat) (p : BitVec 128) : PendingKept m (journal m t s p) := journal_isPending m t s p

theorem bootRecord_only (m : Core) (sev : Nat) : m.onlyParts (.jnl :: Part.report) (bootRecord m sev) := journal_only _ _ _ _

theorem bootRecord_regs (m : Core) (sev : Nat) : m.onlyRegs journalRegs (bootRecord m sev) := journal_regs _ _ _ _

theorem bootRecord_pendingKept (m : Core) (sev : Nat) : PendingKept m (bootRecord m sev) := journal_pendingKept _ _ _ _

/-- The identity event raises source 24 and writes a record (R514). -/
theorem noIdentity_state (m : Core) : m.onlyParts (.jnl :: Part.report) (noIdentity m)
    ∧ m.onlyRegs journalRegs (noIdentity m) ∧ PendingKept m (noIdentity m) ∧ isPending (noIdentity m) 24 = true :=
  ⟨onlyParts_trans (onlyParts_mono (raise_only m 24) (by decide)) (journal_only _ _ _ _),
    onlyRegs_trans (onlyRegs_mono (raise_regs m 24) (by decide)) (journal_regs _ _ _ _),
    pendingKept_trans (raise_pendingKept m 24) (journal_pendingKept _ _ _ _),
    journal_pendingKept _ _ _ _ 24 (raise_isPending m 24)⟩

/-- What the end of a load leaves: the loader at rest, and nothing else but the identity event. -/
theorem loadEnd_state (m : Core) : m.onlyParts (.boot :: .jnl :: Part.report) (loadEnd m)
    ∧ m.onlyRegs journalRegs (loadEnd m) ∧ PendingKept m (loadEnd m)
    ∧ (loadEnd m).boot = { m.boot with loading := 0, applying := false, recs := [], planned := false, ended := true } := by
  unfold loadEnd
  dsimp only
  split
  · exact ⟨onlyParts_boot m _ (by decide), onlyRegs_of_eq rfl, fun _ h => h, rfl⟩
  · obtain ⟨hp, hr, hk, _⟩ := noIdentity_state m
    exact ⟨onlyParts_trans (onlyParts_mono hp (by decide)) (onlyParts_boot _ _ (by decide)), onlyRegs_trans hr (onlyRegs_of_eq rfl),
      hk, by rw [← show (noIdentity m).boot = m.boot from hp .boot (by decide)]; rfl⟩

/-- What a load that a failure ends leaves: `m'` shows the failure in GEN.BOOT_STATUS. -/
theorem failedEnd_state (m : Core) (sev : Nat) :
    m.onlyParts (.boot :: .jnl :: Part.report) (loadEnd (bootRecord (raise m 23) sev))
    ∧ m.onlyRegs journalRegs (loadEnd (bootRecord (raise m 23) sev))
    ∧ isPending (loadEnd (bootRecord (raise m 23) sev)) 23 = true
    ∧ (loadEnd (bootRecord (raise m 23) sev)).boot
      = { m.boot with loading := 0, applying := false, recs := [], planned := false, ended := true } := by
  obtain ⟨hp, hr, hk, hb⟩ := loadEnd_state (bootRecord (raise m 23) sev)
  have hrec : m.onlyParts (.jnl :: Part.report) (bootRecord (raise m 23) sev) :=
    onlyParts_trans (onlyParts_mono (raise_only m 23) (by decide)) (bootRecord_only _ _)
  refine ⟨onlyParts_trans (onlyParts_mono hrec (by decide)) hp,
    onlyRegs_trans (onlyRegs_trans (onlyRegs_mono (raise_regs m 23) (by decide)) (bootRecord_regs _ _)) hr,
    hk 23 (bootRecord_pendingKept _ _ 23 (raise_isPending m 23)), ?_⟩
  rw [hb, show (bootRecord (raise m 23) sev).boot = m.boot from hrec .boot (by decide)]

/-! ### Reading a copy (R633, R637, R638, R807, R808) -/

/-- A field of GEN.BOOT_STATUS as written. -/
theorem rfld_bootStatus {m n : Core} (hi lo v : Nat) (h : (rsetf m 0x40 hi lo v).onlyRegs (0x3814 :: journalRegs) n)
    (hh : hi < 32) : rfld n 0x40 hi lo = v % 2 ^ (hi + 1 - lo) := by
  rw [rfld, h 0x40 (by decide), rsetf, rget_rset_same, fld_putFld_same _ _ _ _ hh]

/-- The loader holds SPA once it has called for it. -/
theorem spaCall_loader {m : Core} (h : loaderReads m) (hl : m.boot.loading ≠ 0) : (spaCall m).spi.own = 2 := by
  obtain ⟨happ, ho | ⟨ho, hj⟩⟩ := h
  · rw [spaCall, if_neg (by rw [ho]; decide), ho]
  · have hload : spaLoader m = true := by simp [spaLoader, hl, happ]
    rw [spaCall, if_pos ho, spaBoundary, hj, hload]
    rfl

/-- The frame that brought the bytes after those already read is over. -/
def copyRead (m : Core) : Core := modBoot (spaCall m) fun b => { b with read := [], cut := false }

theorem spaCall_boot (m : Core) : (spaCall m).boot = m.boot := spaCall_only m .boot (by decide)

theorem copyRead_boot (m : Core) : (copyRead m).boot = { m.boot with read := [], cut := false } :=
  congrArg (fun b : Boot => { b with read := [], cut := false }) (spaCall_boot m)

theorem copyRead_only (m : Core) : m.onlyParts [.regs, .boot, .spi] (copyRead m) :=
  onlyParts_trans (onlyParts_mono (spaCall_only m) (by decide)) (onlyParts_boot _ _ (by decide))

theorem copyRead_regs (m : Core) : m.onlyRegs [0x3814] (copyRead m) := onlyRegs_trans (spaCall_regs m) (onlyRegs_of_eq rfl)

theorem readEnds_spaCall (m : Core) : readEnds (spaCall m) = readEnds m := by
  rw [readEnds, readEnds, spaJournal_congr (spaCall_jnl m), spaCall_boot]

theorem imageCopyRead_whole {m : Core} {bs : List Byte} (h : loaderReads m) (hl : m.boot.loading ≠ 0) (hw : readsWhole m bs) :
    imageCopyRead m bs = spaBoundary (imageJudge (copyRead m) (m.boot.read ++ bs)) := by
  have hends : ¬ (readEnds (spaCall m) && decide (32 < bs.length)) = true := by
    rw [readEnds_spaCall, Bool.and_eq_true, decide_eq_true_eq]
    rintro ⟨he, hlen⟩
    rcases hw with hw | hw
    · rw [hw] at he
      exact absurd he (by decide)
    · omega
  rw [imageCopyRead, if_neg (by simp [hl, h.1])]
  dsimp only
  rw [if_neg (by rw [spaCall_loader h hl]; decide), if_neg hends, spaCall_boot]
  rfl

/-- The loader when one segment of a copy has come. -/
def segmentRead (m : Core) (bs : List Byte) : Core :=
  modBoot (spaCall m) fun b => { b with read := b.read ++ bs.take 32, cut := false }

theorem imageCopyRead_segment {m : Core} {bs : List Byte} (h : loaderReads m) (hl : m.boot.loading ≠ 0) (he : readEnds m = true)
    (hlen : 32 < bs.length) : imageCopyRead m bs = spaBoundary (segmentRead m bs) := by
  rw [imageCopyRead, if_neg (by simp [hl, h.1])]
  dsimp only
  rw [if_neg (by rw [spaCall_loader h hl]; decide), if_pos (by rw [readEnds_spaCall, he]; simpa using hlen)]
  rfl

/-- At a frame boundary with the journal engine or the loader ready one of them takes SPA, and no hold is left. -/
theorem spaBoundary_taken {m : Core} (hl : spaLoader m = true) :
    (spaBoundary m).spi.own = (if spaJournal m = true then 1 else 2) ∧ (spaBoundary m).spi.held = none := by
  have hfree : (spaBreak m).spi.held = none := by
    unfold spaBreak
    split
    · next hn => exact Option.isNone_iff_eq_none.1 hn
    · rfl
  unfold spaBoundary
  split
  · exact ⟨rfl, hfree⟩
  · exact ⟨rfl, hfree⟩

/-- The loader when a copy has passed its checks. -/
def copyTaken (m : Core) (bs : List Byte) (rs : List ImgRec) : Core :=
  modBoot (rsetf m 0x40 31 30 m.boot.loading) fun b =>
    { b with applying := true, recs := rs, serial := BitVec.ofNat 32 (imgAt bs 12 4) }

theorem imageJudge_ok {m : Core} {bs : List Byte} {rs : List ImgRec} (h : imgCheck bs = .ok rs) :
    imageJudge m bs = copyTaken m bs rs := by
  rw [imageJudge]
  dsimp only
  rw [h]
  rfl

/-- The loader when copy A has failed a check. -/
def firstFailed (m : Core) (k : Nat) : Core :=
  modBoot (bootRecord (raise (rsetf m 0x40 23 20 k) 23) 2) fun b => { b with loading := 2 }

theorem imageJudge_first {m : Core} {bs : List Byte} {k : Nat} (h : imgCheck bs = .error k) (hl : m.boot.loading = 1) :
    imageJudge m bs = firstFailed m k := by
  rw [imageJudge]
  dsimp only
  rw [h]
  exact if_pos hl

theorem imageJudge_second {m : Core} {bs : List Byte} {k : Nat} (h : imgCheck bs = .error k) (hl : m.boot.loading = 2) :
    imageJudge m bs = loadEnd (bootRecord (raise (rsetf m 0x40 19 16 k) 23) 3) := by
  rw [imageJudge]
  dsimp only
  rw [h]
  exact if_neg (by rw [hl]; decide)

theorem firstFailed_state (m : Core) (k : Nat) : m.onlyParts (.boot :: .jnl :: Part.report) (firstFailed m k)
    ∧ (rsetf m 0x40 23 20 k).onlyRegs journalRegs (firstFailed m k) ∧ isPending (firstFailed m k) 23 = true
    ∧ (firstFailed m k).boot = { m.boot with loading := 2 } := by
  have hrec : m.onlyParts (.jnl :: Part.report) (bootRecord (raise (rsetf m 0x40 23 20 k) 23) 2) :=
    onlyParts_trans (onlyParts_trans (onlyParts_rset _ _ _ (by decide)) (onlyParts_mono (raise_only _ 23) (by decide)))
      (bootRecord_only _ _)
  refine ⟨onlyParts_trans (onlyParts_mono hrec (by decide)) (onlyParts_boot _ _ (by decide)),
    onlyRegs_trans (onlyRegs_trans (onlyRegs_mono (raise_regs _ 23) (by decide)) (bootRecord_regs _ _)) (onlyRegs_of_eq rfl),
    bootRecord_pendingKept _ _ 23 (raise_isPending _ 23), ?_⟩
  rw [← show (bootRecord (raise (rsetf m 0x40 23 20 k) 23) 2).boot = m.boot from hrec .boot (by decide)]
  rfl

/-! ### Applying the records (R513, R514, R634 to R636) -/

theorem popRec_only (m : Core) : m.onlyParts [.boot] (popRec m) := onlyParts_boot m _ (by decide)

theorem imageWrite_eq {m : Core} {a : BitVec 16} {v : Word} (h : nextRec m = some (.write a v))
    (hc : writeCode m bootWho a.toNat v = 0) (hp : plainAddr a.toNat = true) : imageWrite m = popRec (storeWrite m a.toNat v) := by
  rw [imageWrite, h]
  dsimp only
  rw [regWrite_plain hc hp]

theorem imagePoll_eq {m : Core} {ms : Nat} {a : BitVec 16} {k v : Word} (h : nextRec m = some (.poll ms a k v))
    (hc : readCode m bootWho a.toNat = 0) : imagePoll m = (if (readValue m bootWho a.toNat).1 &&& k = v then
      popRec (readValue m bootWho a.toNat).2 else (readValue m bootWho a.toNat).2) := by
  rw [imagePoll, h]
  dsimp only
  rw [regRead_accepted hc]
  rfl

theorem imagePollTimeout_eq {m : Core} {ms : Nat} {a : BitVec 16} {k v : Word} (h : nextRec m = some (.poll ms a k v)) :
    imagePollTimeout m = loadEnd (bootRecord (raise (rsetf m 0x40 29 29 1) 23) 2) := by
  rw [imagePollTimeout, h]

theorem imageEnd_eq {m : Core} (h : nextRec m = some .fin) :
    imageEnd m = loadEnd (bootRecord m (if rfld m 0x40 31 30 = 1 then 1 else 2)) := by
  rw [imageEnd, h]

/-- The machine without a standing copy of the sets, where the set written is the standby one. -/
def copySpoiled (m : Core) (set : Bool) : Core :=
  if set ≠ m.cfg.epoch then modCfg m fun c => { c with copyDone := false } else m

theorem setOf_copySpoiled (m : Core) (set e : Bool) : Machine.setOf (copySpoiled m set) e = Machine.setOf m e := by
  unfold copySpoiled
  split
  · cases e <;> rfl
  · rfl

theorem copySpoiled_only (m : Core) (set : Bool) : m.onlyParts [.cfg] (copySpoiled m set) := by
  unfold copySpoiled
  split
  · exact onlyParts_cfg m _ (by decide)
  · exact onlyParts_refl _ _

theorem tablePut_accepted {m : Core} {k i : Nat} {raw : List Word} {set : Bool}
    (h : tableCode m { seq := 0, write := true, set := set, table := k, index := i, words := raw } raw = 0) :
    tablePut k i raw m set = modSet (copySpoiled m set) set fun c => cfgPut c k i raw := by
  rw [tablePut]
  dsimp only
  rw [h]
  rfl

theorem imageTable_one {m : Core} {k i : Nat} {set : Bool} {raw : List Word} (h : nextRec m = some (.table k (b1 set) i [raw])) :
    imageTable m = popRec (tablePut k i raw m set) := by
  rw [imageTable, h]
  cases set <;> rfl

/-- The loader when a node plan has come. -/
def planCome (m : Core) : Core := modBoot (popRec m) fun b => { b with planned := true }

/-- The node identity as an entry of the plan gives it. -/
def identityGiven (m : Core) (n : NodeId) : Core := rsetf (rsetf (planCome m) 0x20 15 0 n.toNat) 0x20 31 31 1

theorem imagePlan_eq {m : Core} {es : List (BitVec 8 × BitVec 6 × NodeId)} (h : nextRec m = some (.plan es))
    (hw : m.boot.warm = false) : imagePlan m
      = match es.find? (fun e => decide (e.1 = m.pins.straps.chassis) && decide (e.2.1 = m.pins.straps.slot)) with
        | some e => identityGiven m e.2.2
        | none => noIdentity (planCome m) := by
  rw [imagePlan, h]
  exact if_neg (show ¬ m.boot.warm = true by rw [hw]; decide)

theorem identityGiven_state (m : Core) (n : NodeId) : nodeId (identityGiven m n) = n ∧ nodeValid (identityGiven m n) = true
    ∧ m.onlyParts [.regs, .boot] (identityGiven m n) ∧ m.onlyRegs [0x20] (identityGiven m n) := by
  have hfld : rfld (identityGiven m n) 0x20 15 0 = n.toNat := by
    rw [rfld, identityGiven, rsetf, rget_rset_same, fld_putFld_other _ _ _ _ _ _ (by decide) (by decide), rsetf, rget_rset_same,
      fld_putFld_same _ _ _ _ (by decide)]
    exact Nat.mod_eq_of_lt n.isLt
  refine ⟨?_, SoftReset.rbit_rsetf_bit _ _ _ (by decide), ?_, ?_⟩
  · rw [nodeId, hfld, BitVec.ofNat_toNat, BitVec.setWidth_eq]
  · exact onlyParts_trans (onlyParts_trans (onlyParts_boot m _ (by decide)) (onlyParts_rset _ _ _ (by decide)))
      (onlyParts_rset _ _ _ (by decide))
  · exact onlyRegs_trans (onlyRegs_trans (onlyRegs_of_eq rfl) (onlyRegs_rset _ _ _ (by decide))) (onlyRegs_rset _ _ _ (by decide))

/-- Settles O35: a copy by `imageCopyRead_whole` and `imageJudge_ok`, `_first` or `_second`, a segment by
`imageCopyRead_segment`, the records by the equation of each. -/
theorem imageIsCheckedAndApplied : Obligations.ImageIsCheckedAndApplied := by
  refine ⟨fun s bs rs hr h hw hl hc => ?_, fun s bs hr h hl he hlen => ?_, fun s bs k hr h hw hl hc => ?_,
    fun s bs k hr h hw hl hc => ?_, fun s a v r hr h hc hat hp => ?_, fun s ms a k v hr h hc => ?_, fun s ms a k v hr h => ?_,
    fun s k i set raw hr h hc => ?_, fun s es n hr h hw hf => ?_, fun s es hr h hw hf => ?_, fun s hr h => ?_⟩
  · have hload : s.m.boot.loading ≠ 0 := by omega
    have hstep : imageCopyRead s.m bs = spaBoundary (copyTaken (copyRead s.m) (s.m.boot.read ++ bs) rs) := by
      rw [imageCopyRead_whole h hload hw, imageJudge_ok hc]
    have hregs := spaBoundary_regs (copyTaken (copyRead s.m) (s.m.boot.read ++ bs) rs)
    have honly := spaBoundary_only (copyTaken (copyRead s.m) (s.m.boot.read ++ bs) rs)
    have hboot := honly .boot (by decide)
    have hcopy : (copyRead s.m).boot.loading = s.m.boot.loading := (congrArg Boot.loading (copyRead_boot s.m) :)
    refine ⟨_, clocked_next (f := fun m => imageCopyRead m bs) hr hstep, congrArg Boot.applying hboot, congrArg Boot.recs hboot,
      (congrArg Boot.loading hboot).trans hcopy, ?_, only_next ?_, ?_⟩
    · refine (rfld_bootStatus 31 30 _ (onlyRegs_trans (onlyRegs_of_eq rfl) (onlyRegs_mono hregs (by decide))) (by decide)).trans ?_
      rw [hcopy]
      exact Nat.mod_eq_of_lt (by omega)
    · exact onlyParts_trans (onlyParts_trans (onlyParts_trans (copyRead_only s.m) (onlyParts_rset _ _ _ (by decide)))
        (onlyParts_boot _ _ (by decide))) (onlyParts_mono honly (by decide))
    · exact onlyRegs_trans (onlyRegs_trans (onlyRegs_trans (onlyRegs_mono (copyRead_regs s.m) (by decide))
        (onlyRegs_rset _ _ _ (by decide))) (onlyRegs_of_eq rfl)) (onlyRegs_mono hregs (by decide))
  · have hboot : (segmentRead s.m bs).boot = { s.m.boot with read := s.m.boot.read ++ bs.take 32, cut := false } :=
      congrArg (fun b : Boot => { b with read := b.read ++ bs.take 32, cut := false }) (spaCall_boot s.m)
    have hj : spaJournal (segmentRead s.m bs) = spaJournal s.m := spaJournal_congr (spaCall_jnl s.m)
    obtain ⟨hown, hheld⟩ := spaBoundary_taken (m := segmentRead s.m bs) (by rw [spaLoader, hboot]; simp [hl, h.1])
    rw [hj] at hown
    exact ⟨_, clocked_next (f := fun m => imageCopyRead m bs) hr (imageCopyRead_segment h hl he hlen),
      (spaBoundary_only _ .boot (by decide)).trans hboot, hown, hheld,
      only_next (onlyParts_trans (onlyParts_trans (onlyParts_mono (spaCall_only s.m) (by decide)) (onlyParts_boot _ _ (by decide)))
        (onlyParts_mono (spaBoundary_only _) (by decide))),
      onlyRegs_trans (onlyRegs_trans (spaCall_regs s.m) (onlyRegs_of_eq rfl)) (spaBoundary_regs _)⟩
  · have hcopy := copyRead_boot s.m
    have hstep : imageCopyRead s.m bs = spaBoundary (firstFailed (copyRead s.m) k) := by
      rw [imageCopyRead_whole h (by omega) hw, imageJudge_first hc (by rw [hcopy]; exact hl)]
    obtain ⟨hp, hregs, hk, hb⟩ := firstFailed_state (copyRead s.m) k
    have hboot := (spaBoundary_only (firstFailed (copyRead s.m) k) .boot (by decide)).trans hb
    refine ⟨_, clocked_next (f := fun m => imageCopyRead m bs) hr hstep, congrArg Boot.loading hboot,
      (congrArg Boot.applying hboot).trans ((congrArg Boot.applying hcopy).trans h.1), ?_, ?_, only_next ?_⟩
    · exact rfld_bootStatus 23 20 k (onlyRegs_trans (onlyRegs_mono hregs (by decide))
        (onlyRegs_mono (spaBoundary_regs _) (by decide))) (by decide)
    · exact pendingKept_of_only (spaBoundary_only _) (by decide) 23 hk
    · exact onlyParts_trans (onlyParts_trans (onlyParts_mono (copyRead_only s.m) (by decide)) (onlyParts_mono hp (by decide)))
        (onlyParts_mono (spaBoundary_only _) (by decide))
  · have hcopy := copyRead_boot s.m
    have hstep : imageCopyRead s.m bs
        = spaBoundary (loadEnd (bootRecord (raise (rsetf (copyRead s.m) 0x40 19 16 k) 23) 3)) := by
      rw [imageCopyRead_whole h (by omega) hw, imageJudge_second hc (by rw [hcopy]; exact hl)]
    obtain ⟨hp, hregs, hk, hb⟩ := failedEnd_state (rsetf (copyRead s.m) 0x40 19 16 k) 3
    have hboot := (spaBoundary_only (loadEnd (bootRecord (raise (rsetf (copyRead s.m) 0x40 19 16 k) 23) 3)) .boot
      (by decide)).trans hb
    refine ⟨_, clocked_next (f := fun m => imageCopyRead m bs) hr hstep, congrArg Boot.loading hboot, congrArg Boot.ended hboot,
      ?_, ?_, only_next ?_⟩
    · exact rfld_bootStatus 19 16 k (onlyRegs_trans (onlyRegs_mono hregs (by decide))
        (onlyRegs_mono (spaBoundary_regs _) (by decide))) (by decide)
    · exact pendingKept_of_only (spaBoundary_only _) (by decide) 23 hk
    · exact onlyParts_trans (onlyParts_trans (onlyParts_trans (onlyParts_mono (copyRead_only s.m) (by decide))
        (onlyParts_rset _ _ _ (by decide))) (onlyParts_mono hp (by decide))) (onlyParts_mono (spaBoundary_only _) (by decide))
  · exact ⟨_, clocked_next hr (imageWrite_eq h hc hp), storeWrite_get hat,
      congrArg (fun b : Boot => { b with recs := b.recs.tail }) (storeWrite_only s.m a.toNat v .boot (by decide)),
      only_next (onlyParts_trans (onlyParts_mono (storeWrite_only s.m a.toNat v) (by decide)) (onlyParts_boot _ _ (by decide))),
      onlyRegs_trans (storeWrite_regs s.m a.toNat v) (onlyRegs_of_eq rfl)⟩
  · have hread := readValue_only s.m bootWho a.toNat
    have hboot := hread .boot (by decide)
    have hstep := imagePoll_eq h hc
    by_cases hv : (readValue s.m bootWho a.toNat).1 &&& k = v
    · rw [if_pos hv] at hstep
      rw [if_pos hv]
      exact ⟨_, clocked_next hr hstep, congrArg (fun b : Boot => b.recs.tail) hboot,
        only_next (onlyParts_trans (onlyParts_mono hread (by decide)) (onlyParts_boot _ _ (by decide)))⟩
    · rw [if_neg hv] at hstep
      rw [if_neg hv]
      exact ⟨_, clocked_next hr hstep, congrArg Boot.recs hboot, only_next (onlyParts_mono hread (by decide))⟩
  · obtain ⟨hp, hregs, hk, hb⟩ := failedEnd_state (rsetf s.m 0x40 29 29 1) 2
    exact ⟨_, clocked_next hr (imagePollTimeout_eq h),
      (SoftReset.rbit_of_onlyRegs hregs (by decide) 29).trans (SoftReset.rbit_rsetf_bit _ _ _ (by decide)), hk,
      congrArg Boot.ended hb, congrArg Boot.loading hb, congrArg Boot.applying hb, congrArg Boot.recs hb,
      only_next (onlyParts_trans (onlyParts_rset _ _ _ (by decide)) hp)⟩
  · have hstep : imageTable s.m = popRec (modSet (copySpoiled s.m set) set fun c => cfgPut c k i raw) := by
      rw [imageTable_one h, tablePut_accepted hc]
    exact ⟨_, clocked_next hr hstep, (setOf_modSet_same _ _ _).trans (congrArg (fun c => cfgPut c k i raw) (setOf_copySpoiled s.m set set)),
      (setOf_modSet_other _ _ _).trans (setOf_copySpoiled s.m set _),
      congrArg (fun b : Boot => { b with recs := b.recs.tail }) ((onlyParts_trans (copySpoiled_only s.m set) (modSet_only _ _ _)) .boot
        (by decide)),
      only_next (onlyParts_trans (onlyParts_mono (onlyParts_trans (copySpoiled_only s.m set) (modSet_only _ _ _)) (by decide))
        (onlyParts_boot _ _ (by decide)))⟩
  · have hstep : imagePlan s.m = identityGiven s.m n := by rw [imagePlan_eq h hw, hf]
    obtain ⟨hn, hv, hp, hregs⟩ := identityGiven_state s.m n
    exact ⟨_, clocked_next hr hstep, hn, hv, rfl, only_next hp, hregs⟩
  · have hstep : imagePlan s.m = noIdentity (planCome s.m) := by rw [imagePlan_eq h hw, hf]
    obtain ⟨hp, hregs, _, hk⟩ := noIdentity_state (planCome s.m)
    exact ⟨_, clocked_next hr hstep, hregs 0x20 (by decide), hk, hp .boot (by decide),
      only_next (onlyParts_trans (onlyParts_boot s.m _ (by decide)) (onlyParts_mono hp (by decide)))⟩
  · obtain ⟨hp, _, _, hb⟩ := loadEnd_state (bootRecord s.m (if rfld s.m 0x40 31 30 = 1 then 1 else 2))
    exact ⟨_, clocked_next hr (imageEnd_eq h), congrArg Boot.ended hb, congrArg Boot.loading hb, congrArg Boot.applying hb,
      congrArg Boot.recs hb, only_next (onlyParts_trans (onlyParts_mono (bootRecord_only _ _) (by decide)) hp)⟩

end Sys2Proof.Image
end

section
/-! PROOFS. The Olfer ports (spec/02_olfer_messages.md): how links start, and the flits that they carry, with the statements
about them. -/

namespace Sys2Proof.Ports

open Sys2Proof.Machine Sys2Proof.Laws Sys2Proof.Windows Sys2Proof.Sending Sys2Proof.Engine

/-! ### PHY training (R869, R951) -/

/-- A machine ready to start training whose port 0 is down and has since been written to run bifurcated. -/
def bifurcationWritten : Core := { Tests.base with regs := [(0x800, 0x100)], ports := [], boot := { ended := true } }

/-- The link of port 8 after a step. -/
def linkEight (o : Host.Outcome State Fault Refusal) : LinkState :=
  match o with
  | .next t => (port t.m 8).link
  | _ => .down

/-- Refutes O36: the first clause asks whether a port exists before the command. Port 0 is down, ran as an x8 port when it
last entered link training, and its bifurcate bit has been written since: as it enters training it takes the bit (R869),
its upper half exists from then on, and port 8 starts training in the same command. -/
theorem not_linksStartRecoverAndAreLost : ¬ Obligations.LinksStartRecoverAndAreLost := by
  intro h
  obtain ⟨hstart, -⟩ := h
  obtain ⟨t, ht, hport, -⟩ := hstart { m := bifurcationWritten } (by decide +kernel) (by decide +kernel) (by decide +kernel)
  have hmodel : linkEight (exec .phyTrainingStart { m := bifurcationWritten }) = .training := by decide +kernel
  have hno : portExists bifurcationWritten 8 = false := by decide +kernel
  have hdown : (port bifurcationWritten 8).link = .down := by decide +kernel
  have height : port t.m 8 = port bifurcationWritten 8 := (hport 8).trans (if_neg fun hc => absurd (hno.symm.trans hc.1) (by decide))
  rw [ht] at hmodel
  have hstated : (port t.m 8).link = .down := (congrArg Port.link height).trans hdown
  exact absurd (hstated.symm.trans hmodel) (by decide)

end Sys2Proof.Ports
end

section
/-! PROOFS. Flits sent, received and passed through (spec/02_olfer_messages.md, The flit, Link layer), with the statement
about them. -/

namespace Sys2Proof.Flits

open Sys2Proof.Machine Sys2Proof.Laws Sys2Proof.Windows Sys2Proof.Sending Sys2Proof.Engine

/-! ### The trailer (Table OLF-3) -/

theorem trailerBits_eq (t : Trailer) : trailerBits t = t.seq.toNat * 2 ^ 52 + t.ack.toNat * 2 ^ 40 + t.vcA.toNat * 2 ^ 36
    + t.cntA.toNat * 2 ^ 30 + t.vcB.toNat * 2 ^ 26 + t.cntB.toNat * 2 ^ 20 + t.tsValue.toNat * 2 ^ 4 + t.tsKind.toNat * 2 ^ 2
    + t.kind.toNat := by
  simp only [trailerBits, List.foldl_cons, List.foldl_nil]
  omega

/-- The fields of a trailer are read back from its bits. -/
theorem parseTrailer_trailerBits (t : Trailer) : trailerBits t < 2 ^ 64 ∧ parseTrailer (trailerBits t) = t := by
  have h (w : Nat) (x : BitVec w) : x = BitVec.ofNat w x.toNat := by simp
  obtain ⟨seq, ack, vcA, cntA, vcB, cntB, tsValue, tsKind, kind⟩ := t
  have h1 := seq.isLt
  have h2 := ack.isLt
  have h3 := vcA.isLt
  have h4 := cntA.isLt
  have h5 := vcB.isLt
  have h6 := cntB.isLt
  have h7 := tsValue.isLt
  have h8 := tsKind.isLt
  have h9 := kind.isLt
  rw [trailerBits_eq]
  refine ⟨by dsimp only; omega, ?_⟩
  simp only [parseTrailer, Nat.shiftRight_eq_div_pow]
  congr 1
  · rw [h _ seq]; congr 1; simp only [BitVec.toNat_ofNat]; omega
  · rw [h _ ack]; congr 1; simp only [BitVec.toNat_ofNat]; omega
  · rw [h _ vcA]; congr 1; simp only [BitVec.toNat_ofNat]; omega
  · rw [h _ cntA]; congr 1; simp only [BitVec.toNat_ofNat]; omega
  · rw [h _ vcB]; congr 1; simp only [BitVec.toNat_ofNat]; omega
  · rw [h _ cntB]; congr 1; simp only [BitVec.toNat_ofNat]; omega
  · rw [h _ tsValue]; congr 1; simp only [BitVec.toNat_ofNat]; omega
  · rw [h _ tsKind]; congr 1; simp only [BitVec.toNat_ofNat]; omega
  · rw [h _ kind]; congr 1; simp only [BitVec.toNat_ofNat]; omega

theorem toNat_ofNat_mod {w : Nat} (x : Nat) (h : 64 ≤ w) : (BitVec.ofNat w x).toNat % 2 ^ 64 = x % 2 ^ 64 := by
  rw [BitVec.toNat_ofNat, Nat.mod_mod_of_dvd _ (Nat.pow_dvd_pow 2 h)]

/-- The trailer of a flit is the one that it was built with. -/
theorem flitTrailer_packFlit (area : Nat) (t : Trailer) : flitTrailer (packFlit area t) = t := by
  obtain ⟨hlt, hparse⟩ := parseTrailer_trailerBits t
  have hlow : (packFlit area t).toNat % 2 ^ 64 = trailerBits t := by
    rw [packFlit, toNat_ofNat_mod _ (by decide)]
    generalize flitCrc area (trailerBits t) = c
    omega
  rw [flitTrailer, hlow, hparse]

/-! ### Building and sending a flit (R53, R57 to R59, R90) -/

/-- The link layer's numbers and replay buffer are as they were. -/
def SeqKept (q r : Port) : Prop := r.nextTx = q.nextTx ∧ r.nextRx = q.nextRx ∧ r.replayBuf = q.replayBuf

theorem seqKept_refl (q : Port) : SeqKept q q := ⟨rfl, rfl, rfl⟩

theorem seqKept_trans {q r s : Port} (h : SeqKept q r) (g : SeqKept r s) : SeqKept q s :=
  ⟨g.1.trans h.1, g.2.1.trans h.2.1, g.2.2.trans h.2.2⟩

theorem grantMsg_seqKept (b : Build) (v : Nat) : SeqKept b.q (grantMsg b v).q := by
  unfold grantMsg
  dsimp only
  split
  · exact seqKept_refl _
  · split
    · exact seqKept_refl _
    · split
      · exact seqKept_refl _
      · split
        · exact seqKept_refl _
        · exact ⟨rfl, rfl, rfl⟩

theorem grants_seqKept (picks : List (Fin 12)) (b : Build) : SeqKept b.q (picks.foldl (fun b v => grantMsg b v.val) b).q := by
  induction picks generalizing b with
  | nil => exact seqKept_refl _
  | cons v r ih => exact seqKept_trans (grantMsg_seqKept b v.val) (ih _)

theorem placeReturn_seqKept (q : Port) : SeqKept q (placeReturn q).1 := by
  unfold placeReturn
  split
  · exact seqKept_refl _
  · exact ⟨rfl, rfl, rfl⟩

/-- The port once the flit of `bits` has left it. -/
def flitSent (q : Port) (bits : BitVec 2048) : Port :=
  { q with
    nextTx := q.nextTx + 1, replayBuf := q.replayBuf ++ [⟨q.nextTx, bits⟩], wire := [bits], replay := false
    echoDue := none, sampleDue := q.sampleDue && q.echoDue.isSome }

/-- The events that a sent flit counts. -/
def sentCounted (m : Core) (p : Nat) (b : Build) : Core :=
  let m := tally .olf (16 + p) 1 m
  let m := if b.msgs.isEmpty then m else tally .olf (112 + p) b.slots (tally .olf (32 + p) 1 m)
  if b.starved = 0 then m else tally .xbr (32 + p) 1 (tally .olf (144 + p) 1 m)

theorem sentCounted_only (m : Core) (p : Nat) (b : Build) : m.onlyParts Part.report (sentCounted m p b) := by
  have h (c : Prop) [Decidable c] (n k : Core) (hn : m.onlyParts Part.report n) (hk : n.onlyParts Part.report k) :
      m.onlyParts Part.report (if c then n else k) := by
    split
    · exact hn
    · exact onlyParts_trans hn hk
  have h1 := tally_only .olf (16 + p) 1 m
  have h2 := h (b.msgs.isEmpty = true) _ (tally .olf (112 + p) b.slots (tally .olf (32 + p) 1 (tally .olf (16 + p) 1 m))) h1
    (onlyParts_trans (tally_only _ _ _ _) (tally_only _ _ _ _))
  exact h (b.starved = 0) _ _ h2 (onlyParts_trans (tally_only _ _ _ _) (tally_only _ _ _ _))

theorem carries_iff {l : LinkState} (h : l = .starting ∨ l = .complete) : (!(l = .starting || l = .complete)) = false := by
  rcases h with rfl | rfl <;> rfl

/-- A sequenced flit: the port as the grants and the credit returns leave it, and the flit's bits, which carry the next
seq and the current ack. -/
theorem flitSend_sent {m : Core} {p : Nat} (picks : List (Fin 12))
    (hl : (port m p).link = .starting ∨ (port m p).link = .complete) (hh : linkHeld m p = false)
    (hr : (port m p).recovery = false) (hg : (port m p).gotStart = true) (hb : (port m p).replayBuf.length < 256) :
    ∃ q bits b, SeqKept (port m p) q ∧ (flitTrailer bits).seq = q.nextTx ∧ (flitTrailer bits).ack = q.nextRx - 1
      ∧ flitSend m p picks = sentCounted (setPort m p (flitSent q bits)) p b := by
  have hbuilt := grants_seqKept picks { q := port m p }
  unfold flitSend
  dsimp only
  rw [if_neg (by simp [carries_iff hl, hh, hr]), if_neg (by simp [hg]), if_neg (by omega)]
  generalize picks.foldl (fun b v => grantMsg b v.val) { q := port m p } = b at hbuilt ⊢
  have hreturned : SeqKept b.q
      (if (placeReturn b.q).2.1 = 15 then ((placeReturn b.q).1, 15, 0) else placeReturn (placeReturn b.q).1).1 := by
    split
    · exact placeReturn_seqKept _
    · exact seqKept_trans (placeReturn_seqKept _) (placeReturn_seqKept _)
  generalize (if (placeReturn b.q).2.1 = 15 then ((placeReturn b.q).1, 15, 0) else placeReturn (placeReturn b.q).1) = r2
    at hreturned ⊢
  exact ⟨r2.1, _, b, seqKept_trans hbuilt hreturned, by rw [flitTrailer_packFlit], by rw [flitTrailer_packFlit]; rfl, rfl⟩

theorem flitSend_start {m : Core} {p : Nat} (picks : List (Fin 12))
    (hl : (port m p).link = .starting ∨ (port m p).link = .complete) (hh : linkHeld m p = false)
    (hr : (port m p).recovery = false) (hg : (port m p).gotStart = false) :
    flitSend m p picks = setPort m p { port m p with wire := [packFlit 0 { seq := 0, ack := 0, kind := 2 }] } := by
  unfold flitSend
  dsimp only
  rw [if_neg (by simp [carries_iff hl, hh, hr]), if_pos (by simp [hg])]

theorem otherPorts_setPort (m : Core) (p : Nat) (q : Port) : otherPorts p m (setPort m p q) :=
  fun k hk => (port_setPort m p k q).trans (if_neg (Ne.symm hk))

theorem port_setPort_same (m : Core) (p : Nat) (q : Port) : port (setPort m p q) p = q :=
  (port_setPort m p p q).trans (if_pos rfl)

theorem setPort_ports (m : Core) (p : Nat) (q : Port) : m.onlyParts [.ports] (setPort m p q) := onlyParts_ports m _ (by decide)

theorem port_of_only {ps : List Part} {m n : Core} (h : m.onlyParts ps n) (hp : Part.ports ∉ ps) (p : Nat) :
    port n p = port m p := by rw [port, port, show n.ports = m.ports from h .ports hp]

/-! ### Receiving a flit (R59, R60, R88, R93) -/

/-- What the parts of a received flit leave at its port beside what they speak of: the link layer's numbers, its replay
buffer, the messages received and the slots accepted and returned; and of the machine its identity and its preparation
for a throw. -/
structure Taken (p : Nat) (m n : Core) : Prop where
  nextRx : (port n p).nextRx = (port m p).nextRx
  replayBuf : (port n p).replayBuf = (port m p).replayBuf
  rxq : (port n p).rxq = (port m p).rxq
  sacc : ∀ v, (vcb (port n p) v).sacc = (vcb (port m p) v).sacc
  cret : ∀ v, (vcb (port n p) v).cret = (vcb (port m p) v).cret
  node : nodeId n = nodeId m
  prepared : n.cfg.prepared = m.cfg.prepared

theorem taken_refl (p : Nat) (m : Core) : Taken p m m := ⟨rfl, rfl, rfl, fun _ => rfl, fun _ => rfl, rfl, rfl⟩

theorem taken_trans {p : Nat} {m n k : Core} (h : Taken p m n) (g : Taken p n k) : Taken p m k :=
  ⟨g.nextRx.trans h.nextRx, g.replayBuf.trans h.replayBuf, g.rxq.trans h.rxq, fun v => (g.sacc v).trans (h.sacc v),
    fun v => (g.cret v).trans (h.cret v), g.node.trans h.node, g.prepared.trans h.prepared⟩

/-- A step that only sends messages and reports. -/
theorem taken_of_joined {p : Nat} {as : List Nat} {m n : Core} (h : joined m n) (hr : m.onlyRegs as n) (ha : 0x20 ∉ as)
    (hc : n.cfg.prepared = m.cfg.prepared) : Taken p m n := by
  obtain ⟨l, hl⟩ := h p
  exact ⟨by rw [hl], by rw [hl], by rw [hl], fun v => by rw [hl]; rfl, fun v => by rw [hl]; rfl, nodeId_congr hr ha, hc⟩

theorem taken_of_only {p : Nat} {as : List Nat} {ps : List Part} {m n : Core} (h : m.onlyParts ps n) (hp : Part.ports ∉ ps)
    (hc : Part.cfg ∉ ps) (hr : m.onlyRegs as n) (ha : 0x20 ∉ as) : Taken p m n :=
  taken_of_joined (joined_of_only h hp) hr ha (congrArg Cfg.prepared (h .cfg hc :))

theorem taken_of_same {p : Nat} {m n : Core} (hp : n.ports = m.ports) (hr : n.regs = m.regs) (hc : n.cfg.prepared = m.cfg.prepared) :
    Taken p m n := by
  have h : port n p = port m p := by rw [port, port, hp]
  exact ⟨by rw [h], by rw [h], by rw [h], fun _ => by rw [h], fun _ => by rw [h],
    nodeId_congr (as := []) (onlyRegs_of_eq hr) (by decide), hc⟩

theorem raise_taken (p : Nat) (m : Core) (k : Nat) : Taken p m (raise m k) :=
  taken_of_only (raise_only m k) (by decide) (by decide) (raise_regs m k) (by decide)

theorem tally_taken (p : Nat) (b : Blk) (e n : Nat) (m : Core) : Taken p m (tally b e n m) :=
  taken_of_only (tally_only b e n m) (by decide) (by decide) (tally_regs b e n m) (by decide)

/-- A port change that keeps the numbers, the replay buffer, the messages received and the slots accepted and returned. -/
theorem taken_setPort {p : Nat} (m : Core) {q : Port} (h1 : q.nextRx = (port m p).nextRx)
    (h2 : q.replayBuf = (port m p).replayBuf) (h3 : q.rxq = (port m p).rxq)
    (h4 : ∀ v, (vcb q v).sacc = (vcb (port m p) v).sacc ∧ (vcb q v).cret = (vcb (port m p) v).cret) : Taken p m (setPort m p q) := by
  have hp := port_setPort_same m p q
  exact ⟨by rw [hp, h1], by rw [hp, h2], by rw [hp, h3], fun v => by rw [hp, (h4 v).1], fun v => by rw [hp, (h4 v).2], rfl, rfl⟩

theorem linkRecord_taken (p k b sev c v w : Nat) (m : Core) :
    Taken p m (journalLink (linkEvent m k b) sev k c v w) := by
  have hset : Taken p m (rsetf m (0x8C0 + 4 * k) b b 1) :=
    taken_of_only (ps := [.regs]) (onlyParts_rset _ _ _ (by decide)) (by decide) (by decide)
      (as := [0x8C0 + 4 * k]) (onlyRegs_rset _ _ _ (by simp)) (by simp; omega)
  have hjournal (n : Core) (a b : Nat) (x : BitVec 128) : Taken p n (journal n a b x) :=
    taken_of_only (journal_only n a b x) (by decide) (by decide) (journal_regs n a b x) (by decide)
  exact taken_trans (taken_trans hset (raise_taken p _ _)) (hjournal _ _ _ _)

theorem takeCredit_taken (m : Core) (p : Nat) (vc : BitVec 4) (cnt : BitVec 6) : Taken p m (takeCredit m p vc cnt) := by
  unfold takeCredit
  dsimp only
  split
  · exact taken_refl p m
  · split
    · exact linkRecord_taken p p 4 2 3 _ _ m
    · refine taken_setPort m rfl rfl rfl fun v => ?_
      by_cases hv : vc.toNat = v
      · subst hv
        simp [vcb, setVcb]
      · simp [vcb, setVcb, hv]

theorem setOffset_taken (p : Nat) (m : Core) (o : Int) : Taken p m (setOffset m o) := by
  unfold setOffset
  dsimp only
  split
  · refine taken_trans ?_ (raise_taken p _ 84)
    exact taken_of_same rfl rfl rfl
  · exact taken_of_same rfl rfl rfl

theorem newOffset_taken (k p : Nat) (m : Core) : Taken k m (newOffset m p) := by
  unfold newOffset
  split
  · exact taken_refl k m
  · split
    · dsimp only
      split
      · refine taken_trans ?_ (tally_taken k .fab 7 1 _)
        refine taken_trans ?_ (setOffset_taken k _ 0)
        exact taken_of_same rfl rfl rfl
      · exact setOffset_taken k m _
    · exact taken_refl k m

theorem takeStamp_taken (m : Core) (p : Nat) (t : Trailer) (stamp : BitVec 16) : Taken p m (takeStamp m p t stamp) := by
  unfold takeStamp
  dsimp only
  split
  · refine taken_trans ?_ (newOffset_taken p p _)
    exact taken_setPort m rfl rfl rfl fun _ => ⟨rfl, rfl⟩
  · split
    · refine taken_trans ?_ (newOffset_taken p p _)
      exact taken_setPort m rfl rfl rfl fun _ => ⟨rfl, rfl⟩
    · exact taken_refl p m

theorem sendReport_taken (p : Nat) (m : Core) (n : NodeId) (tag : BitVec 12) (b : Bool) : Taken p m (sendReport m n tag b) := by
  unfold sendReport
  split
  · exact taken_of_joined (send_joined _ _ _ _ _) (sendMgt_regs _ _) (by decide)
      (congrArg Cfg.prepared (sendMgt_only _ _ .cfg (by decide)))
  · exact taken_refl p m

theorem reportRestored_taken (p k : Nat) (m : Core) : Taken p m (reportRestored m k) := by
  unfold reportRestored
  have hone (n : Core) (x : NodeId) : Taken p n (sendReport (nextTag n) x n.fab.mtag true) :=
    taken_trans (n := nextTag n) (taken_of_same rfl rfl rfl) (sendReport_taken p _ _ _ _)
  generalize attached m k = l
  induction l generalizing m with
  | nil => exact taken_refl p m
  | cons x r ih => exact taken_trans (hone m x) (ih _)

theorem tryComplete_taken (p : Nat) (m : Core) : Taken p m (tryComplete m p) := by
  have hset : Taken p m (setPort m p { port m p with link := .complete, everLost := false }) :=
    taken_setPort m rfl rfl rfl fun _ => ⟨rfl, rfl⟩
  have hlisten (n : Core) : Taken p n (modCfg (if n.cfg.startedWarm then n else
      { n with fab := { n.fab with listening := decide (n.fab.sm = .listener) && !n.fab.termValid } })
      fun c => { c with startedWarm := true, startedCold := true }) := by
    split
    · exact taken_of_same rfl rfl rfl
    · exact taken_of_same rfl rfl rfl
  unfold tryComplete
  dsimp only
  split
  · split
    · exact taken_trans (taken_trans hset (hlisten _)) (reportRestored_taken p p _)
    · exact taken_trans hset (hlisten _)
  · exact taken_refl p m

/-- A received ack touches the replay buffer and its counts alone, and what it leaves there depends on the buffer alone. -/
theorem takeAck_state (q : Port) (n : BitVec 12) (a : BitVec 12) :
    let r := takeAck { q with nextRx := n, rxZero := true } a
    r.nextRx = n ∧ r.replayBuf = (takeAck q a).replayBuf ∧ r.rxq = q.rxq ∧ r.vcs = q.vcs := by
  dsimp only
  unfold takeAck
  dsimp only
  split
  · exact ⟨rfl, rfl, rfl, rfl⟩
  · exact ⟨rfl, rfl, rfl, rfl⟩

/-- The machine when a sequenced flit has been accepted, its messages not yet taken. -/
def flitAccepted (m : Core) (p : Nat) (f : Flit) : Core :=
  let t := flitTrailer f.bits
  let q := port m p
  let m := tally .olf (48 + p) 1 (setPort m p (takeAck { q with nextRx := q.nextRx + 1, rxZero := true } t.ack))
  let m : Core := if f.sameCycle then m else { m with trk := { m.trk with core := m.trk.core + 1 } }
  tryComplete (takeStamp (takeCredit (takeCredit m p t.vcA t.cntA) p t.vcB t.cntB) p t f.stamp) p

/-- The messages of an accepted flit are taken. -/
def messagesTaken (m : Core) (p : Nat) (f : Flit) : Core :=
  let r := parseArea (flitArea f.bits)
  let m := r.1.foldl (takeMsg p) m
  if r.2 then journalLink (tally .olf (176 + p) 1 (linkEvent m p 2)) 2 p 4 (flitTrailer f.bits).seq.toNat 0 else m

theorem flitReceive_accepted {m : Core} {p : Nat} {f : Flit} (hl : (port m p).link = .starting ∨ (port m p).link = .complete)
    (hh : linkHeld m p = false) (hr : (port m p).recovery = false) (hg : (port m p).gotStart = true) (hf : f.fecOk = true)
    (hc : flitCrcOk f.bits = true) (hk : (flitTrailer f.bits).kind = 0 ∨ (flitTrailer f.bits).kind = 1)
    (hs : (flitTrailer f.bits).seq = (port m p).nextRx) : flitReceive m p f
      = if (flitTrailer f.bits).kind = 1 then flitAccepted m p f else messagesTaken (flitAccepted m p f) p f := by
  have h2 : (flitTrailer f.bits).kind ≠ 2 := by rcases hk with hk | hk <;> rw [hk] <;> decide
  have h3 : (flitTrailer f.bits).kind ≠ 3 := by rcases hk with hk | hk <;> rw [hk] <;> decide
  have hloop : ((port m p).loop && decide ((port m p).link = .training) && !linkHeld m p) = false := by
    rcases hl with hl | hl <;> simp [hl]
  unfold flitReceive
  dsimp only
  rw [if_neg (by rw [hloop]; decide), if_neg (by simp [carries_iff hl, hh, hr]), if_neg (by simp [hf, hc]), if_neg h2,
    if_neg (by simpa [hg, hs] using h3)]
  rfl

/-- What acceptance leaves: the expected seq moved on, what the ack freed, and the messages and slots as they were. -/
theorem flitAccepted_state (m : Core) (p : Nat) (f : Flit) : let n := flitAccepted m p f
    (port n p).nextRx = (port m p).nextRx + 1
    ∧ (port n p).replayBuf = (takeAck (port m p) (flitTrailer f.bits).ack).replayBuf ∧ (port n p).rxq = (port m p).rxq
    ∧ (∀ v, (vcb (port n p) v).sacc = (vcb (port m p) v).sacc) ∧ (∀ v, (vcb (port n p) v).cret = (vcb (port m p) v).cret)
    ∧ nodeId n = nodeId m ∧ n.cfg.prepared = m.cfg.prepared := by
  obtain ⟨h1, h2, h3, h4⟩ := takeAck_state (port m p) ((port m p).nextRx + 1) (flitTrailer f.bits).ack
  have hcycle (n : Core) : Taken p n (if f.sameCycle then n else { n with trk := { n.trk with core := n.trk.core + 1 } }) := by
    split
    · exact taken_refl p n
    · exact taken_of_same rfl rfl rfl
  have hrest : Taken p (setPort m p (takeAck { port m p with nextRx := (port m p).nextRx + 1, rxZero := true }
      (flitTrailer f.bits).ack)) (flitAccepted m p f) :=
    taken_trans (taken_trans (taken_trans (taken_trans (taken_trans (tally_taken p _ _ _ _) (hcycle _))
      (takeCredit_taken _ _ _ _)) (takeCredit_taken _ _ _ _)) (takeStamp_taken _ _ _ _)) (tryComplete_taken p _)
  have hp := port_setPort_same m p (takeAck { port m p with nextRx := (port m p).nextRx + 1, rxZero := true }
    (flitTrailer f.bits).ack)
  have hvc (v : Nat) : vcb (takeAck { port m p with nextRx := (port m p).nextRx + 1, rxZero := true } (flitTrailer f.bits).ack) v
      = vcb (port m p) v := by rw [vcb, h4, vcb]
  exact ⟨by rw [hrest.nextRx, hp, h1], by rw [hrest.replayBuf, hp, h2], by rw [hrest.rxq, hp, h3],
    fun v => by rw [hrest.sacc, hp, hvc], fun v => by rw [hrest.cret, hp, hvc], hrest.node, hrest.prepared⟩

/-- A message for another node waits for the crossbar, its slots accepted. -/
theorem takeMsg_queued {m : Core} {p : Nat} {x : Msg} (hc : (vcb (port m p) (vcOf x)).sacc + slotsOf x ≤ (vcb (port m p) (vcOf x)).cret)
    (hp : m.cfg.prepared = false) (h0 : x.hop ≠ 0) (hb : x.broadcast = false) (hd : x.dest ≠ nodeId m) :
    (port (takeMsg p m x) p).nextRx = (port m p).nextRx
    ∧ (port (takeMsg p m x) p).rxq = (port m p).rxq ++ [⟨vcOf x, x, (vcb (port m p) (vcOf x)).sacc + slotsOf x⟩]
    ∧ (vcb (port (takeMsg p m x) p) (vcOf x)).sacc = (vcb (port m p) (vcOf x)).sacc + slotsOf x := by
  generalize hq : setVcb (port m p) (vcOf x) { vcb (port m p) (vcOf x) with
    sacc := (vcb (port m p) (vcOf x)).sacc + slotsOf x, o := (vcb (port m p) (vcOf x)).o + slotsOf x } = q
  have hcount := tally_only .olf (128 + p) (slotsOf x) (setPort m p q)
  have hflip : flips (tally .olf (128 + p) (slotsOf x) (setPort m p q)) x = false := by
    rw [flips, show (tally .olf (128 + p) (slotsOf x) (setPort m p q)).cfg = m.cfg from hcount .cfg (by decide), hp]
    rfl
  have hnode : nodeId (tally .olf (128 + p) (slotsOf x) (setPort m p q)) = nodeId m :=
    nodeId_congr (m := setPort m p q) (tally_regs _ _ _ _) (by decide)
  have hport : port (tally .olf (128 + p) (slotsOf x) (setPort m p q)) p = q :=
    (port_of_only hcount (by decide) p).trans (port_setPort_same m p q)
  have hbook : (vcb q (vcOf x)).sacc = (vcb (port m p) (vcOf x)).sacc + slotsOf x := by
    rw [← hq]
    simp [vcb, setVcb]
  have hstep : takeMsg p m x = setPort (tally .olf (128 + p) (slotsOf x) (setPort m p q)) p
      { q with rxq := q.rxq ++ [⟨vcOf x, x, (vcb q (vcOf x)).sacc⟩] } := by
    unfold takeMsg
    dsimp only
    rw [if_neg (by omega), hq, hflip, if_neg Bool.false_ne_true, if_neg h0, hb, if_neg Bool.false_ne_true, hnode, if_neg hd, hport]
  rw [hstep, port_setPort_same]
  exact ⟨by rw [← hq]; rfl, by rw [hbook, ← hq]; rfl, hbook⟩

/-! ### Flits that are not accepted (R54, R59, R88) -/

/-- A flit in error or out of sequence changes nothing but a count. -/
theorem flitReceive_discarded {m : Core} {p : Nat} {f : Flit} (hl : (port m p).loop = false)
    (h : f.fecOk = false ∨ flitCrcOk f.bits = false ∨ ((flitTrailer f.bits).kind ≠ 2 ∧ (flitTrailer f.bits).seq ≠ (port m p).nextRx)) :
    flitReceive m p f = m ∨ flitReceive m p f = tally .olf (64 + p) 1 m := by
  unfold flitReceive
  dsimp only
  rw [if_neg (by simp [hl])]
  split
  · exact .inl rfl
  · split
    · exact .inr rfl
    · next he =>
      rcases h with h | h | ⟨hk, hs⟩
      · exact absurd (by simp [h]) he
      · exact absurd (by simp [h]) he
      · rw [if_neg hk, if_pos (by simp [hs])]
        exact .inr rfl

theorem flitReceive_loop {m : Core} {p : Nat} {f : Flit} (h : (port m p).loop = true) (hl : (port m p).link = .training)
    (hh : linkHeld m p = false) : flitReceive m p f = setPort m p { port m p with wire := [f.bits] } := by
  unfold flitReceive
  exact if_pos (by simp [h, hl, hh])

/-! ### Passing a message through (R30, R79, R252) -/

/-- Routes depend on the ports only through their links and their configurations. -/
theorem routeOf_of_links {m n : Core} (hc : n.cfg = m.cfg)
    (hp : ∀ q, (port n q).link = (port m q).link ∧ (port n q).act = (port m q).act) (e : Bool) (d : NodeId) :
    routeOf n e d = routeOf m e d := by
  have hnamed : namedPort n e d = namedPort m e d := by simp only [namedPort, Machine.setOf, hc]
  have hruns (p : Nat) : runsX4 n p = runsX4 m p := by rw [runsX4, runsX4, (hp p).2]
  have hstarted (p : Nat) : started n p = started m p := by rw [started, started, (hp p).1]
  simp only [routeOf, hnamed, hruns, hstarted]

/-- A message that leaves the buffer of its virtual channel: the messages that stay there, and the slots freed. -/
def taken (m : Core) (p v n : Nat) (rest : List RxMsg) : Core := freeSlots (setPort m p { port m p with rxq := rest }) p v n

theorem taken_state (m : Core) (p v n : Nat) (rest : List RxMsg) : m.onlyParts [.ports] (taken m p v n rest)
    ∧ (port (taken m p v n rest) p).rxq = rest
    ∧ ∀ q, (port (taken m p v n rest) q).link = (port m q).link ∧ (port (taken m p v n rest) q).act = (port m q).act := by
  have hset (k : Core) (x : Port) (hx : x.link = (port k p).link ∧ x.act = (port k p).act) (q : Nat) :
      (port (setPort k p x) q).link = (port k q).link ∧ (port (setPort k p x) q).act = (port k q).act := by
    rw [port_setPort]
    split
    · next h => exact h ▸ hx
    · exact ⟨rfl, rfl⟩
  have hfirst := hset m { port m p with rxq := rest } ⟨rfl, rfl⟩
  have hsame := port_setPort_same m p { port m p with rxq := rest }
  unfold taken freeSlots
  dsimp only
  split
  · exact ⟨setPort_ports _ _ _, by rw [hsame], hfirst⟩
  · refine ⟨onlyParts_trans (setPort_ports m p { port m p with rxq := rest }) (setPort_ports _ _ _), ?_, fun q => ?_⟩
    · rw [port_setPort_same]
      show (port (setPort m p { port m p with rxq := rest }) p).rxq = rest
      rw [hsame]
    · obtain ⟨h1, h2⟩ := hset (setPort m p { port m p with rxq := rest })
        (setVcb (port (setPort m p { port m p with rxq := rest }) p) v _) ⟨rfl, rfl⟩ q
      exact ⟨h1.trans (hfirst q).1, h2.trans (hfirst q).2⟩

/-- The two counts of a message that is steered. -/
def steerCounted (m : Core) (x : Msg) : Core := tally .xbr (16 + clsCode (clsOf x.op)) 1 (tally .xbr 1 1 m)

theorem steerCounted_state (m : Core) (x : Msg) : m.onlyParts Part.report (steerCounted m x) ∧ m.onlyRegs reportRegs (steerCounted m x) :=
  ⟨onlyParts_trans (tally_only .xbr 1 1 m) (tally_only _ _ _ _), onlyRegs_trans (tally_regs .xbr 1 1 m) (tally_regs _ _ _ _)⟩

theorem steer_routed {m : Core} {p o : Nat} {x : Msg} (hh : 1 < x.hop.toNat) (hr : routeOf m (epochFor m x.epoch) x.dest = some o) :
    steer m p x = enqueue (steerCounted m x) o p none { x with hop := x.hop - 1 } := by
  have hcount := (steerCounted_state m x).1
  have hcfg : (steerCounted m x).cfg = m.cfg := hcount .cfg (by decide)
  have hroute : routeOf (steerCounted m x) (epochFor (steerCounted m x) x.epoch) x.dest = some o := by
    rw [routeOf_congr hcfg (hcount .ports (by decide)), epochFor, hcfg]
    exact hr
  unfold steer
  dsimp only
  rw [if_neg (by omega)]
  change (match routeOf (steerCounted m x) (epochFor (steerCounted m x) x.epoch) x.dest with | some o => _ | none => _) = _
  rw [hroute]
  rfl

theorem passThrough_eq {m : Core} {p v : Nat} {r : RxMsg} {rest : List RxMsg}
    (h : takeFirst (fun y => decide (y.vc = v)) (port m p).rxq = some (r, rest)) (hw : wbkAhead m p v r.at_ = false) :
    passThrough m p v = steer (taken m p v (slotsOf r.msg) rest) p r.msg := by
  unfold passThrough
  dsimp only
  rw [h]
  dsimp only
  rw [hw]
  rfl

/-- A message that joins a port's queue stands in it, with its dateline flag as the port sets it. -/
theorem enqueue_mem (m : Core) (p src : Nat) (o : Option Nat) (x : Msg) : ∃ y ∈ (port (enqueue m p src o x) p).txq,
    y.src = src ∧ y.owner = o ∧ ∃ d, y.msg = { x with dateline := d } := by
  obtain ⟨d, h⟩ := enqueue_port m p src o x
  rw [h]
  exact ⟨_, List.mem_append_right _ (List.mem_singleton.2 rfl), rfl, rfl, d, rfl⟩

/-- A message with a route stands in the queue of its port. -/
theorem send_mem {m : Core} {src : Nat} {o : Option Nat} {e : Bool} {x : Msg} {p : Nat} (hd : x.dest ≠ nodeId m)
    (hr : routeOf m e x.dest = some p) : ∃ y ∈ (port (send m src o e x) p).txq,
      y.src = src ∧ y.owner = o ∧ ∃ d, y.msg = { stamped m x with dateline := d } := by
  rw [send_routed hd hr]
  exact enqueue_mem _ _ _ _ _

/-! ### Reports sent again (R564) -/

/-- The surprise report about a node. -/
def lostReport (m : Core) (n : NodeId) (tag : BitVec 12) : Msg :=
  { op := .ucp, dest := m.fab.master, tag := tag, status := 1, aux := n, epoch := m.cfg.epoch }

theorem sendReport_routed {m : Core} {n : NodeId} {tag : BitVec 12} {p : Nat} (ht : m.fab.termValid = true)
    (hm : m.fab.master ≠ nodeId m) (hr : routeOf m m.cfg.epoch m.fab.master = some p) :
    (∃ y ∈ (port (sendReport m n tag false) p).txq, y.msg.op = .ucp ∧ y.msg.dest = m.fab.master ∧ y.msg.tag = tag
      ∧ y.msg.status = 1 ∧ y.msg.aux = n)
    ∧ m.onlyParts (.ports :: Part.report) (sendReport m n tag false) ∧ m.onlyRegs reportRegs (sendReport m n tag false) := by
  have hstep : sendReport m n tag false = send m 17 none m.cfg.epoch (lostReport m n tag) := if_pos ht
  rw [hstep]
  refine ⟨?_, ?_, ?_⟩
  · obtain ⟨y, hy, -, -, d, hmsg⟩ := send_mem (src := 17) (o := none) (x := lostReport m n tag) hm hr
    exact ⟨y, hy, by rw [hmsg]; rfl, by rw [hmsg]; rfl, by rw [hmsg]; rfl, by rw [hmsg]; rfl, by rw [hmsg]; rfl⟩
  · rw [send_routed (x := lostReport m n tag) hm hr]
    exact onlyParts_trans (onlyParts_mono (tally_only _ _ _ _) (by decide)) (onlyParts_mono (enqueue_only _ _ _ _ _) (by decide))
  · rw [send_routed (x := lostReport m n tag) hm hr]
    exact onlyRegs_trans (tally_regs _ _ _ _) (onlyRegs_of_only (enqueue_only _ _ _ _ _) (by decide))

/-- Settles O37: sending by `flitSend_sent`, receiving by `flitReceive_accepted` with `flitAccepted_state` and
`takeMsg_queued`, the crossbar by `passThrough_eq` and `steer_routed`. -/
theorem flitsAreSentAndReceived : Obligations.FlitsAreSentAndReceived := by
  refine ⟨fun s p picks hr hl hh hrec hg => ?_, fun s p picks hr hl hh hrec hg hb => ?_, fun s p f hr h hl hh => ?_,
    fun s p f hr hl h => ?_, fun s p f hr hl hh hrec hg hf hc hk hs => ?_,
    fun s p f x hr hl hh hrec hg hf hc hk hs hx h0 hb hd hprep hcred => ?_, fun s p vc r rest o hr h hhop hw hroute => ?_,
    fun s n tag p hr h ht hm hroute => ?_⟩
  · exact ⟨_, clocked_next (f := fun m => flitSend m p.val picks) hr (flitSend_start picks hl hh hrec hg),
      port_setPort_same _ _ _, otherPorts_setPort _ _ _, only_next (setPort_ports _ _ _)⟩
  · obtain ⟨q, bits, b, ⟨h1, h2, h3⟩, hseq, hack, hstep⟩ := flitSend_sent picks hl hh hrec hg hb
    have hcount := sentCounted_only (setPort s.m p.val (flitSent q bits)) p.val b
    have hport (k : Nat) := port_of_only hcount (by decide) k
    have hp := (hport p.val).trans (port_setPort_same s.m p.val (flitSent q bits))
    refine ⟨_, bits, clocked_next (f := fun m => flitSend m p.val picks) hr hstep, congrArg Port.wire hp, hseq.trans h1,
      hack.trans (by rw [h2]), (congrArg Port.nextTx hp).trans (by rw [← h1]; rfl),
      (congrArg Port.replayBuf hp).trans (by rw [← h1, ← h3]; rfl),
      fun k hk => (hport k).trans (otherPorts_setPort s.m p.val _ k hk),
      only_next (onlyParts_trans (onlyParts_mono (setPort_ports _ _ _) (by decide)) (onlyParts_mono hcount (by decide)))⟩
  · exact ⟨_, clocked_next (f := fun m => flitReceive m p.val f) hr (flitReceive_loop h hl hh),
      port_setPort_same _ _ _, otherPorts_setPort _ _ _, only_next (setPort_ports _ _ _)⟩
  · rcases flitReceive_discarded hl h with hstep | hstep
    · exact ⟨_, clocked_next (f := fun m => flitReceive m p.val f) hr hstep, only_next (onlyParts_refl _ _), onlyRegs_refl _ _⟩
    · exact ⟨_, clocked_next (f := fun m => flitReceive m p.val f) hr hstep, only_next (tally_only _ _ _ _), tally_regs _ _ _ _⟩
  · have hstep := flitReceive_accepted hl hh hrec hg hf hc (.inr hk) hs
    rw [if_pos hk] at hstep
    obtain ⟨h1, h2, -⟩ := flitAccepted_state s.m p.val f
    exact ⟨_, clocked_next (f := fun m => flitReceive m p.val f) hr hstep, h1, h2, rfl, rfl⟩
  · have hstep := flitReceive_accepted hl hh hrec hg hf hc (.inl hk) hs
    have hmsgs : messagesTaken (flitAccepted s.m p.val f) p.val f = takeMsg p.val (flitAccepted s.m p.val f) x := by
      rw [messagesTaken, hx]
      rfl
    rw [if_neg (by rw [hk]; decide), hmsgs] at hstep
    obtain ⟨h1, -, h3, h4, h5, h6, h7⟩ := flitAccepted_state s.m p.val f
    obtain ⟨g1, g2, g3⟩ := takeMsg_queued (m := flitAccepted s.m p.val f) (p := p.val) (x := x) (by rw [h4, h5]; exact hcred)
      (h7.trans hprep) h0 hb (by rw [h6]; exact hd)
    exact ⟨_, clocked_next (f := fun m => flitReceive m p.val f) hr hstep, g1.trans h1, g2.trans (by rw [h3, h4]),
      g3.trans (by rw [h4]), rfl, rfl⟩
  · obtain ⟨hparts, hrxq, hlinks⟩ := taken_state s.m p.val vc.val (slotsOf r.msg) rest
    have hcfg : (taken s.m p.val vc.val (slotsOf r.msg) rest).cfg = s.m.cfg := hparts .cfg (by decide)
    obtain ⟨hcount, hregs⟩ := steerCounted_state (taken s.m p.val vc.val (slotsOf r.msg) rest) r.msg
    have hstep : passThrough s.m p.val vc.val = enqueue (steerCounted (taken s.m p.val vc.val (slotsOf r.msg) rest) r.msg) o p.val
        none { r.msg with hop := r.msg.hop - 1 } := by
      rw [passThrough_eq h hw, steer_routed hhop]
      rw [routeOf_of_links hcfg hlinks, epochFor, hcfg]
      exact hroute
    obtain ⟨y, hy, hsrc, hown, d, hmsg⟩ := enqueue_mem (steerCounted (taken s.m p.val vc.val (slotsOf r.msg) rest) r.msg) o p.val none
      { r.msg with hop := r.msg.hop - 1 }
    obtain ⟨l, hl⟩ := enqueue_joined (steerCounted (taken s.m p.val vc.val (slotsOf r.msg) rest) r.msg) o p.val none
      { r.msg with hop := r.msg.hop - 1 } p.val
    refine ⟨_, clocked_next (f := fun m => passThrough m p.val vc.val) hr hstep, ?_, ?_, only_next ?_, ?_⟩
    · exact (congrArg Port.rxq hl).trans ((congrArg Port.rxq (port_of_only hcount (by decide) p.val)).trans hrxq)
    · exact ⟨y, hy, hsrc, hown, by rw [hmsg], by rw [hmsg], by rw [hmsg], by rw [hmsg], by rw [hmsg], by rw [hmsg], by rw [hmsg]⟩
    · exact onlyParts_trans (onlyParts_trans (onlyParts_mono hparts (by decide)) (onlyParts_mono hcount (by decide)))
        (onlyParts_mono (enqueue_only _ _ _ _ _) (by decide))
    · exact onlyRegs_trans (onlyRegs_trans (onlyRegs_of_only hparts (by decide)) hregs)
        (onlyRegs_of_only (enqueue_only _ _ _ _ _) (by decide))
  · have hstep : s.m.fab2.reports.foldl (fun m r => if r.1 = n then sendReport m r.1 r.2 false else m) s.m
        = sendReport s.m n tag false := by rw [h, List.foldl_cons, List.foldl_nil, if_pos rfl]
    obtain ⟨hmsg, honly, hregs⟩ := sendReport_routed (n := n) (tag := tag) ht hm hroute
    have hnext : execUcpResend n s = .next { s with m := sendReport s.m n tag false } := by
      unfold execUcpResend
      rw [clocked, if_pos hr, hstep]
    exact ⟨_, hnext, hmsg, only_next honly, hregs⟩

end Sys2Proof.Flits
end

section
/-! PROOFS. What one DRAM read and one DRAM write leave (Machine/Channel.lean, spec/09_memory_groom.md): rules that the
proofs about memory share. -/

namespace Sys2Proof.DramAccess

open Sys2Proof.Machine Sys2Proof.Laws Sys2Proof.Windows Sys2Proof.Engine

/-! ### Addresses of a channel depend on MEM.CFG alone -/

theorem chanBits_congr {m n : Core} (h : rget n 0x1800 = rget m 0x1800) : chanBits n = chanBits m := by
  rw [chanBits, chanBits, channels, channels, rfld, rfld, h]

theorem coords_congr {m n : Core} (h : rget n 0x1800 = rget m 0x1800) (lla : Nat) : coords n lla = coords m lla := by
  unfold coords rfld
  rw [chanBits_congr h, h]

theorem llaAt_congr {m n : Core} (h : rget n 0x1800 = rget m 0x1800) (r : RowId) (c : Nat) : llaAt n r c = llaAt m r c := by
  unfold llaAt rfld
  rw [chanBits_congr h, h]

theorem chanOf_congr {m n : Core} (h : rget n 0x1800 = rget m 0x1800) (lla : Nat) : chanOf n lla = chanOf m lla := by
  rw [chanOf, chanOf, coords_congr h]

/-- At most eight channels are populated. -/
theorem chanOf_lt (m : Core) (lla : Nat) : chanOf m lla < 8 := by
  have hc : chanBits m ≤ 3 := by
    unfold chanBits
    split <;> decide
  have hpow : 2 ^ chanBits m ≤ 2 ^ 3 := Nat.pow_le_pow_right (by decide) hc
  have hpos : 0 < 2 ^ chanBits m := Nat.two_pow_pos _
  have hx : chanOf m lla < 2 ^ chanBits m := Nat.xor_lt_two_pow (Nat.mod_lt _ hpos) (Nat.mod_lt _ hpos)
  omega

theorem chFailed_congr {m n : Core} (h : n.mem.failed = m.mem.failed) (ch : Nat) : chFailed n ch = chFailed m ch := by
  rw [chFailed, chFailed, h]

theorem inBuffer_congr {m n : Core} (h : n.mem.repair = m.mem.repair) (lla : Nat) : inBuffer n lla = inBuffer m lla := by
  rw [inBuffer, inBuffer, h]

theorem inBuffer_none {m : Core} (h : m.mem.repair = none) (lla : Nat) : inBuffer m lla = none := by rw [inBuffer, h]; rfl

/-! ### The channel's queue -/

/-- Two machines whose memory differs in the write queues and the runs of failed commands alone. -/
def QueueMoved (m n : Core) : Prop := ∃ w d c, n.mem = { m.mem with wq := w, wdrain := d, caFails := c }

theorem queueMoved_of_eq {m n : Core} (h : n.mem = m.mem) : QueueMoved m n := ⟨_, _, _, h⟩

theorem queueMoved_trans {m n o : Core} (h : QueueMoved m n) (g : QueueMoved n o) : QueueMoved m o := by
  obtain ⟨_, _, _, hn⟩ := h
  obtain ⟨w, d, c, ho⟩ := g
  exact ⟨w, d, c, by rw [ho, hn]⟩

theorem queueMoved_failed {m n : Core} (h : QueueMoved m n) : n.mem.failed = m.mem.failed := by
  obtain ⟨_, _, _, hn⟩ := h
  rw [hn]

theorem queueMoved_repair {m n : Core} (h : QueueMoved m n) : n.mem.repair = m.mem.repair := by
  obtain ⟨_, _, _, hn⟩ := h
  rw [hn]

theorem setWq_moved (m : Core) (ch : Nat) (q : List Nat) : QueueMoved m (setWq m ch q) := ⟨_, _, _, rfl⟩

theorem wqDrain_moved (m : Core) (ch n : Nat) : QueueMoved m (wqDrain m ch n) := by
  unfold wqDrain
  split
  · exact queueMoved_of_eq rfl
  · dsimp only
    split
    · exact queueMoved_trans (queueMoved_of_eq (tally_only _ _ _ m .mem (by decide))) (setWq_moved _ _ _)
    · exact setWq_moved _ _ _

theorem wqAhead_moved (m : Core) (ch : Nat) : QueueMoved m (wqAhead m ch) := by
  unfold wqAhead
  split
  · exact wqDrain_moved _ _ _
  · exact queueMoved_of_eq rfl

theorem wqAhead_regs (m : Core) (ch : Nat) : m.onlyRegs reportRegs (wqAhead m ch) := by
  unfold wqAhead wqDrain
  split
  · split
    · exact onlyRegs_refl _ _
    · exact onlyRegs_trans (tally_regs _ _ _ m) (onlyRegs_of_eq rfl)
  · exact onlyRegs_refl _ _

/-- The queue that a read of a channel finds once the writes ahead of it have drained. -/
theorem writeQueue_wqAhead (m : Core) (ch : Nat) : writeQueue (wqAhead m ch) ch
    = if tget false m.mem.wdrain ch then (writeQueue m ch).drop ((writeQueue m ch).length - 16) else writeQueue m ch := by
  have hset (n : Core) (q : List Nat) : writeQueue (setWq n ch q) ch = q := by simp [writeQueue, setWq, modMem]
  unfold wqAhead
  split
  · unfold wqDrain
    split
    · next he => rw [List.isEmpty_iff.1 he, List.drop_nil]
    · refine (hset _ _).trans ?_
      exact congrArg (fun x : Mem => (tget [] x.wq ch).drop ((writeQueue m ch).length - 16))
        (tally_only _ _ _ m .mem (by decide))
  · rfl

/-! ### One read -/

/-- The machine as a read of channel `ch` finds it: the read is counted, and the writes ahead of it have drained. -/
def readBegun (m : Core) (ch : Nat) : Core := wqAhead (tally .mem (8 + ch) 1 m) ch

theorem readBegun_state (m : Core) (ch : Nat) : m.onlyParts (.mem :: Part.report) (readBegun m ch)
    ∧ m.onlyRegs reportRegs (readBegun m ch) ∧ QueueMoved m (readBegun m ch) :=
  ⟨onlyParts_trans (onlyParts_mono (tally_only _ _ _ _) (by decide)) (wqAhead_only _ _),
    onlyRegs_trans (tally_regs _ _ _ _) (wqAhead_regs _ _),
    queueMoved_trans (queueMoved_of_eq (tally_only _ _ _ m .mem (by decide))) (wqAhead_moved _ _)⟩

/-- The machine when a read has ended a run of failed commands (R474). -/
def runEnded (m : Core) (ch : Nat) : Core := modMem m fun x => { x with caFails := tput 0 x.caFails ch 0 }

/-- The machine when a read has met a correctable error. -/
def errorCounted (m : Core) (l : LineAddr) (r : RowId) (dev : Nat) : Core :=
  rowError (tally .mem (48 + r.ch) 1 (errLog (rinc m (0x180C + 4 * r.ch) 1) l r 1 dev)) r

/-- The machine when a read has met an uncorrectable error. -/
def errorReported (m : Core) (l : LineAddr) (r : RowId) (dev : Nat) : Core :=
  journalMem (raise (tally .mem (56 + r.ch) 1 (errLog (rinc m 0x182C 1) l r 2 dev)) 50) 3 0 r.ch l.toNat dev

theorem dramRead_eq (d : Dram) (m : Core) (l : LineAddr) (lla : Nat) (rf : ReadFault) : dramRead d m l lla rf
    = let r := (coords m lla).1
      let n := readBegun m r.ch
      if chFailed n r.ch then ((freeLine n).1, true, false, (freeLine n).2)
      else match inBuffer n lla with
        | some x => (x.1, x.2, false, n)
        | none =>
          if (writeQueue n r.ch).contains lla then (readLine d lla, isPoisoned d lla, false, n)
          else if isPoisoned d lla then
            (readLine d lla, true, false, tally .mem (64 + r.ch) 1 (rinc (runEnded n r.ch) 0x1830 1))
          else match rf with
            | .clean => (readLine d lla, false, false, runEnded n r.ch)
            | .correctable dev => (readLine d lla, false, false, errorCounted (runEnded n r.ch) l r dev.val)
            | .uncorrectable dev =>
              ((freeLine (errorReported (runEnded n r.ch) l r dev.val)).1, true, true,
                (freeLine (errorReported (runEnded n r.ch) l r dev.val)).2) := rfl

/-- The registers that a read of channel `ch` changes. -/
def readRegs (ch : Nat) : List Nat := (0x180C + 4 * ch) :: 0x1830 :: 0x182C :: 0x1834 :: 0x1838 :: journalRegs

/-- Two machines whose memory differs in what a read leaves: the queues, the runs of failed commands, the repeat tables and
the repairs. -/
def ReadNoted (m n : Core) : Prop := ∃ w d c rows rep q,
  n.mem = { m.mem with wq := w, wdrain := d, caFails := c, rows := rows, repair := rep, repairQ := q }

theorem readNoted_of_eq {m n : Core} (h : n.mem = m.mem) : ReadNoted m n := ⟨_, _, _, _, _, _, h⟩

theorem readNoted_of_moved {m n : Core} (h : QueueMoved m n) : ReadNoted m n := by
  obtain ⟨w, d, c, hn⟩ := h
  exact ⟨w, d, c, _, _, _, hn⟩

theorem readNoted_trans {m n o : Core} (h : ReadNoted m n) (g : ReadNoted n o) : ReadNoted m o := by
  obtain ⟨_, _, _, _, _, _, hn⟩ := h
  obtain ⟨w, d, c, r, p, q, ho⟩ := g
  exact ⟨w, d, c, r, p, q, by rw [ho, hn]⟩

theorem runEnded_moved (m : Core) (ch : Nat) : QueueMoved m (runEnded m ch) := ⟨_, _, _, rfl⟩

theorem runEnded_only (m : Core) (ch : Nat) : m.onlyParts [.mem] (runEnded m ch) := onlyParts_mem m _ (by decide)

theorem journalMem_only (m : Core) (a b c d e : Nat) : m.onlyParts (.jnl :: Part.report) (journalMem m a b c d e) := journal_only _ _ _ _

theorem memSpares_state (m : Core) (r : RowId) : m.onlyParts (.jnl :: Part.report) (memSpares m r)
    ∧ m.onlyRegs journalRegs (memSpares m r) ∧ isPending (memSpares m r) 53 = true :=
  ⟨onlyParts_trans (onlyParts_mono (raise_only m 53) (by decide)) (journalMem_only _ _ _ _ _ _),
    onlyRegs_trans (onlyRegs_mono (raise_regs m 53) (by decide)) (journal_regs _ _ _ _),
    journal_isPending _ _ _ _ 53 (raise_isPending m 53)⟩

theorem repairStart_state (m : Core) (r : RowId) (hard : Bool) : m.onlyParts [.mem] (repairStart m r hard)
    ∧ ReadNoted m (repairStart m r hard) := by
  unfold repairStart
  split
  · exact ⟨onlyParts_mem m _ (by decide), _, _, _, _, _, _, rfl⟩
  · exact ⟨onlyParts_mem m _ (by decide), _, _, _, _, _, _, rfl⟩

theorem rowError_state (m : Core) (r : RowId) : m.onlyParts (.mem :: .jnl :: Part.report) (rowError m r)
    ∧ m.onlyRegs journalRegs (rowError m r) ∧ ReadNoted m (rowError m r) := by
  unfold rowError
  dsimp only
  generalize (List.filter _ _ ++ _ : List (RowId × Nat)) = t
  have hp : m.onlyParts [.mem] (modMem m fun x => { x with rows := tput [] x.rows r.ch (t.drop (t.length - 32)) }) :=
    onlyParts_mem m _ (by decide)
  have hn : ReadNoted m (modMem m fun x => { x with rows := tput [] x.rows r.ch (t.drop (t.length - 32)) }) :=
    ⟨_, _, _, _, _, _, rfl⟩
  generalize modMem m (fun x => { x with rows := tput [] x.rows r.ch (t.drop (t.length - 32)) }) = n at hp hn ⊢
  have hr : m.onlyRegs journalRegs n := onlyRegs_of_only hp (by decide)
  split
  · exact ⟨onlyParts_mono hp (by decide), hr, hn⟩
  · split
    · split
      · obtain ⟨h1, h2, -⟩ := memSpares_state n r
        exact ⟨onlyParts_trans (onlyParts_mono hp (by decide)) (onlyParts_mono h1 (by decide)), onlyRegs_trans hr h2,
          readNoted_trans hn (readNoted_of_eq (h1 .mem (by decide)))⟩
      · exact ⟨onlyParts_mono hp (by decide), hr, hn⟩
    · obtain ⟨h1, h2⟩ := repairStart_state n r false
      exact ⟨onlyParts_trans (onlyParts_mono hp (by decide)) (onlyParts_mono h1 (by decide)),
        onlyRegs_trans hr (onlyRegs_of_only h1 (by decide)), readNoted_trans hn h2⟩

theorem errLog_state (m : Core) (l : LineAddr) (r : RowId) (k dev : Nat) : m.onlyParts [.regs] (errLog m l r k dev)
    ∧ m.onlyRegs [0x1834, 0x1838] (errLog m l r k dev) :=
  ⟨onlyParts_trans (onlyParts_rset _ _ _ (by decide)) (onlyParts_rset _ _ _ (by decide)),
    onlyRegs_trans (onlyRegs_rset _ _ _ (by decide)) (onlyRegs_rset _ _ _ (by decide))⟩

theorem journal_readRegs {m n : Core} (ch : Nat) (h : m.onlyRegs journalRegs n) : m.onlyRegs (readRegs ch) n :=
  onlyRegs_mono h fun a ha => by simp [readRegs, ha]

theorem report_readRegs {m n : Core} (ch : Nat) (h : m.onlyRegs reportRegs n) : m.onlyRegs (readRegs ch) n :=
  journal_readRegs ch (onlyRegs_mono h fun _ ha => List.mem_cons_of_mem _ ha)

theorem errorCounted_state (m : Core) (l : LineAddr) (r : RowId) (dev : Nat) :
    m.onlyParts (.mem :: .jnl :: Part.report) (errorCounted m l r dev) ∧ m.onlyRegs (readRegs r.ch) (errorCounted m l r dev)
    ∧ ReadNoted m (errorCounted m l r dev) := by
  obtain ⟨h1, h2⟩ := errLog_state (rinc m (0x180C + 4 * r.ch) 1) l r 1 dev
  obtain ⟨g1, g2, g3⟩ := rowError_state (tally .mem (48 + r.ch) 1 (errLog (rinc m (0x180C + 4 * r.ch) 1) l r 1 dev)) r
  have hc : m.onlyParts Part.report (tally .mem (48 + r.ch) 1 (errLog (rinc m (0x180C + 4 * r.ch) 1) l r 1 dev)) :=
    onlyParts_trans (onlyParts_trans (onlyParts_rset _ _ _ (by decide)) (onlyParts_mono h1 (by decide))) (tally_only _ _ _ _)
  refine ⟨onlyParts_trans (onlyParts_mono hc (by decide)) g1, ?_, readNoted_trans (readNoted_of_eq (hc .mem (by decide))) g3⟩
  exact onlyRegs_trans (onlyRegs_trans (onlyRegs_trans (onlyRegs_rset _ _ _ (by simp [readRegs]))
    (onlyRegs_mono h2 (by simp [readRegs]))) (report_readRegs _ (tally_regs _ _ _ _))) (journal_readRegs _ g2)

theorem errorReported_state (m : Core) (l : LineAddr) (r : RowId) (dev : Nat) :
    m.onlyParts (.jnl :: Part.report) (errorReported m l r dev) ∧ m.onlyRegs (readRegs r.ch) (errorReported m l r dev) := by
  obtain ⟨h1, h2⟩ := errLog_state (rinc m 0x182C 1) l r 2 dev
  refine ⟨onlyParts_trans (onlyParts_mono (onlyParts_trans (onlyParts_trans (onlyParts_trans (onlyParts_rset _ _ _ (by decide))
    (onlyParts_mono h1 (by decide))) (tally_only _ _ _ _)) (raise_only _ _)) (by decide)) (journalMem_only _ _ _ _ _ _), ?_⟩
  exact onlyRegs_trans (onlyRegs_trans (onlyRegs_trans (onlyRegs_trans (onlyRegs_rset _ _ _ (by simp [readRegs]))
    (onlyRegs_mono h2 (by simp [readRegs]))) (report_readRegs _ (tally_regs _ _ _ _)))
    (report_readRegs _ (raise_regs _ _))) (journal_readRegs _ (journal_regs _ _ _ _))

/-- What any read leaves beside its answer. -/
theorem dramRead_state (d : Dram) (m : Core) (l : LineAddr) (lla : Nat) (rf : ReadFault) :
    m.onlyParts (.mem :: .jnl :: .free :: Part.report) (dramRead d m l lla rf).2.2.2
    ∧ m.onlyRegs (readRegs (chanOf m lla)) (dramRead d m l lla rf).2.2.2 ∧ ReadNoted m (dramRead d m l lla rf).2.2.2 := by
  obtain ⟨hp, hr, hq⟩ := readBegun_state m (chanOf m lla)
  have hp' : m.onlyParts (.mem :: .jnl :: .free :: Part.report) (readBegun m (chanOf m lla)) := onlyParts_mono hp (by decide)
  have hr' := report_readRegs (chanOf m lla) hr
  have hq' := readNoted_of_moved hq
  rw [dramRead_eq]
  dsimp only
  rw [show (coords m lla).1.ch = chanOf m lla from rfl]
  generalize readBegun m (chanOf m lla) = n at hp' hr' hq'
  have hn : n.onlyParts (.mem :: .jnl :: .free :: Part.report) (runEnded n (chanOf m lla)) :=
    onlyParts_mono (runEnded_only _ _) (by decide)
  have hm := readNoted_trans hq' (readNoted_of_moved (runEnded_moved n (chanOf m lla)))
  have hfree (k : Core) : k.onlyParts (.mem :: .jnl :: .free :: Part.report) (freeLine k).2 := onlyParts_free _ _ (by decide)
  split
  · exact ⟨onlyParts_trans hp' (hfree n), hr', hq'⟩
  · split
    · exact ⟨hp', hr', hq'⟩
    · split
      · exact ⟨hp', hr', hq'⟩
      · split
        · have hc : (runEnded n (chanOf m lla)).onlyParts Part.report
              (tally .mem (64 + chanOf m lla) 1 (rinc (runEnded n (chanOf m lla)) 0x1830 1)) :=
            onlyParts_trans (onlyParts_rset _ _ _ (by decide)) (tally_only _ _ _ _)
          refine ⟨onlyParts_trans (onlyParts_trans hp' hn) (onlyParts_mono hc (by decide)), ?_,
            readNoted_trans hm (readNoted_of_eq (hc .mem (by decide)))⟩
          exact onlyRegs_trans hr' (onlyRegs_trans (onlyRegs_rset (runEnded n (chanOf m lla)) _ _ (by simp [readRegs]))
            (report_readRegs _ (tally_regs _ _ _ _)))
        · split
          · exact ⟨onlyParts_trans hp' hn, hr', hm⟩
          · next dev =>
            obtain ⟨h1, h2, h3⟩ := errorCounted_state (runEnded n (chanOf m lla)) l (coords m lla).1 dev.val
            exact ⟨onlyParts_trans (onlyParts_trans hp' hn) (onlyParts_mono h1 (by decide)), onlyRegs_trans hr' h2,
              readNoted_trans hm h3⟩
          · next dev =>
            obtain ⟨h1, h2⟩ := errorReported_state (runEnded n (chanOf m lla)) l (coords m lla).1 dev.val
            exact ⟨onlyParts_trans (onlyParts_trans (onlyParts_trans hp' hn) (onlyParts_mono h1 (by decide))) (hfree _),
              onlyRegs_trans hr' h2, readNoted_trans hm (readNoted_of_eq (h1 .mem (by decide)))⟩

/-- A read without an error of a channel that works changes memory and what a report changes alone. -/
theorem dramRead_clean_only {d : Dram} {m : Core} {lla : Nat} (l : LineAddr) (h : chFailed m (chanOf m lla) = false) :
    m.onlyParts (.mem :: Part.report) (dramRead d m l lla .clean).2.2.2
    ∧ m.onlyRegs (0x1830 :: reportRegs) (dramRead d m l lla .clean).2.2.2 ∧ QueueMoved m (dramRead d m l lla .clean).2.2.2 := by
  obtain ⟨hp, hr, hq⟩ := readBegun_state m (chanOf m lla)
  have hf : chFailed (readBegun m (chanOf m lla)) (chanOf m lla) = false := (chFailed_congr (queueMoved_failed hq) _).trans h
  have hr' : m.onlyRegs (0x1830 :: reportRegs) (readBegun m (chanOf m lla)) := onlyRegs_mono hr (by decide)
  rw [dramRead_eq]
  dsimp only
  rw [show (coords m lla).1.ch = chanOf m lla from rfl, hf, if_neg Bool.false_ne_true]
  generalize readBegun m (chanOf m lla) = n at hp hr' hq
  have hrun : m.onlyParts (.mem :: Part.report) (runEnded n (chanOf m lla)) :=
    onlyParts_trans hp (onlyParts_mono (runEnded_only _ _) (by decide))
  have hq' := queueMoved_trans hq (runEnded_moved n (chanOf m lla))
  split
  · exact ⟨hp, hr', hq⟩
  · split
    · exact ⟨hp, hr', hq⟩
    · split
      · have hc : (runEnded n (chanOf m lla)).onlyParts Part.report
            (tally .mem (64 + chanOf m lla) 1 (rinc (runEnded n (chanOf m lla)) 0x1830 1)) :=
          onlyParts_trans (onlyParts_rset _ _ _ (by decide)) (tally_only _ _ _ _)
        exact ⟨onlyParts_trans hrun (onlyParts_mono hc (by decide)),
          onlyRegs_trans hr' (onlyRegs_trans (onlyRegs_rset (runEnded n (chanOf m lla)) _ _ (by decide))
            (onlyRegs_mono (tally_regs _ _ _ _) (by decide))),
          queueMoved_trans hq' (queueMoved_of_eq (hc .mem (by decide)))⟩
      · exact ⟨hrun, hr', hq'⟩

/-- A read without an error, of a line that no repair holds, gives the line and its poison flag. -/
theorem dramRead_clean_data {d : Dram} {m : Core} {lla : Nat} (l : LineAddr) (h : chFailed m (chanOf m lla) = false)
    (hb : inBuffer m lla = none) : (dramRead d m l lla .clean).1 = readLine d lla
      ∧ (dramRead d m l lla .clean).2.1 = isPoisoned d lla ∧ (dramRead d m l lla .clean).2.2.1 = false := by
  obtain ⟨-, -, hq⟩ := readBegun_state m (chanOf m lla)
  have hf : chFailed (readBegun m (chanOf m lla)) (chanOf m lla) = false := (chFailed_congr (queueMoved_failed hq) _).trans h
  have hn : inBuffer (readBegun m (chanOf m lla)) lla = none := (inBuffer_congr (queueMoved_repair hq) _).trans hb
  rw [dramRead_eq]
  dsimp only
  rw [show (coords m lla).1.ch = chanOf m lla from rfl, hf, if_neg Bool.false_ne_true, hn]
  dsimp only
  split
  · exact ⟨rfl, rfl, rfl⟩
  · split
    · next hp => exact ⟨rfl, hp.symm, rfl⟩
    · next hp => exact ⟨rfl, (Bool.eq_false_iff.2 hp).symm, rfl⟩

/-! ### One write -/

/-- A write to a channel that works, of a line that no repair holds, enters the queue and shows in the content. -/
theorem dramWrite_direct {d : Dram} {m : Core} {lla : Nat} (x : LineData) (p : Bool) (h : chFailed m (chanOf m lla) = false)
    (hr : m.mem.repair = none) : dramWrite d m lla x p
      = (writeLine d lla x p, wqPush (tally .mem (16 + chanOf m lla) 1 m) (chanOf m lla) lla) := by
  have ht : (tally .mem (16 + chanOf m lla) 1 m).mem = m.mem := tally_only _ _ _ m .mem (by decide)
  rw [dramWrite, chFailed_congr (congrArg Mem.failed ht) _, h, if_neg Bool.false_ne_true, ht, hr]

/-- The machine when a write has entered its channel's queue. -/
def written (m : Core) (lla : Nat) : Core := wqPush (tally .mem (16 + chanOf m lla) 1 m) (chanOf m lla) lla

theorem written_state (m : Core) (lla : Nat) : m.onlyParts (.mem :: Part.report) (written m lla)
    ∧ m.onlyRegs reportRegs (written m lla) ∧ QueueMoved m (written m lla) :=
  ⟨onlyParts_trans (onlyParts_mono (tally_only _ _ _ _) (by decide)) (onlyParts_mono (wqPush_only _ _ _) (by decide)),
    onlyRegs_trans (tally_regs _ _ _ _) (onlyRegs_of_eq rfl),
    queueMoved_trans (queueMoved_of_eq (tally_only _ _ _ m .mem (by decide))) (setWq_moved _ _ _)⟩

end Sys2Proof.DramAccess
end

section
/-! PROOFS. The memory channels, post-package repair and the groom (spec/09_memory_groom.md), with the statements about
them. -/

namespace Sys2Proof.Channels

open Sys2Proof.Machine Sys2Proof.Laws Sys2Proof.Windows Sys2Proof.Engine Sys2Proof.Arriving Sys2Proof.DramAccess

/-! ### Training and failing (R432, R436, R444, R466, R474, R477) -/

/-- Memory that is ready, the groom's first pass before it. -/
def trained (m : Core) : Core :=
  modMem m fun x => { x with training := false, ready := true, everReady := true, cfgFrozen := true
                             groomPos := [], groomSkip := [], groomFin := [], groomLate := [] }

theorem trainDone_all {m : Core} (h : m.mem.training = true) : trainDone m [] = trained m := by
  rw [trainDone, h]
  rfl

/-- Memory whose channel `ch` has not trained. -/
def trainFailed (m : Core) (ch : Nat) : Core :=
  modMem m fun x => { x with training := false, trainFail := x.trainFail ||| (1#8 <<< ch) }

theorem trainDone_failed {m : Core} {ch : Fin 8} (code : BitVec 8) (h : m.mem.training = true) (hc : ch.val < channels m) :
    trainDone m [(ch, code)] = journalMem (raise (trainFailed m ch.val) 52) 3 2 ch.val 0 code.toNat := by
  rw [trainDone, h, if_neg (by decide)]
  dsimp only
  rw [List.filter_cons_of_pos (by simpa using hc)]
  rfl

/-- A channel that was working is marked failed: FAULT_N is asserted, source 51 raised. -/
theorem channelFail_state {m : Core} {ch : Nat} (hch : ch < 8) (h : chFailed m ch = false) :
    (channelFail m ch).mem = { m.mem with failed := m.mem.failed ||| (1#8 <<< ch) } ∧ chFailed (channelFail m ch) ch = true
    ∧ isPending (channelFail m ch) 51 = true ∧ (channelFail m ch).pins.faultN = true
    ∧ m.onlyParts (.mem :: .pins :: .jnl :: Part.report) (channelFail m ch) := by
  have hstep : channelFail m ch = journalMem (raise (assertFault (modMem m fun x => { x with failed := x.failed ||| (1#8 <<< ch) })) 51)
      4 1 ch 0 0 := by
    rw [channelFail, h]
    rfl
  have hrep : (assertFault (modMem m fun x => { x with failed := x.failed ||| (1#8 <<< ch) })).onlyParts (.jnl :: Part.report)
      (channelFail m ch) := by
    rw [hstep]
    exact onlyParts_trans (onlyParts_mono (raise_only _ 51) (by decide)) (journalMem_only _ _ _ _ _ _)
  have hmem : (channelFail m ch).mem = { m.mem with failed := m.mem.failed ||| (1#8 <<< ch) } := hrep .mem (by decide)
  refine ⟨hmem, ?_, ?_, congrArg Pins.faultN (hrep .pins (by decide)), ?_⟩
  · rw [chFailed, hmem]
    simp [bit, hch]
  · rw [hstep]
    exact journal_isPending _ _ _ _ 51 (raise_isPending _ 51)
  · exact onlyParts_trans (onlyParts_trans (onlyParts_mem m _ (by decide)) (onlyParts_pins _ _ (by decide)))
      (onlyParts_mono hrep (by decide))

/-- A failed command that ends no run. -/
theorem ddrAlert_few {m : Core} {ch : Nat} (h : tget 0 m.mem.caFails ch < 3) : ddrAlert m ch
    = modMem m fun x => { x with caFails := tput 0 x.caFails ch (tget 0 m.mem.caFails ch + 1) } := by
  rw [ddrAlert]
  exact if_neg (by omega)

theorem ddrAlert_fourth {m : Core} {ch : Nat} (h : 3 ≤ tget 0 m.mem.caFails ch) :
    ddrAlert m ch = channelFail (runEnded m ch) ch := by
  rw [ddrAlert]
  exact if_pos (by omega)

/-- Settles O49: training by `trainDone_all` and `trainDone_failed`, a failed channel by `channelFail_state`. -/
theorem channelsTrainAndFail : Obligations.ChannelsTrainAndFail := by
  refine ⟨fun s hr h => ?_, fun s ch code hr h hc => ?_, fun s ch hr => ?_, fun s ch hr h => ?_, fun s ch hr h => ?_⟩
  · exact ⟨_, clocked_next (f := fun m => trainDone m []) hr (trainDone_all h), rfl, only_next (onlyParts_mem s.m _ (by decide))⟩
  · have hrep : (trainFailed s.m ch.val).onlyParts (.jnl :: Part.report)
        (journalMem (raise (trainFailed s.m ch.val) 52) 3 2 ch.val 0 code.toNat) :=
      onlyParts_trans (onlyParts_mono (raise_only _ 52) (by decide)) (journalMem_only _ _ _ _ _ _)
    exact ⟨_, clocked_next (f := fun m => trainDone m [(ch, code)]) hr (trainDone_failed code h hc), hrep .mem (by decide),
      journal_isPending _ _ _ _ 52 (raise_isPending _ 52),
      only_next (onlyParts_trans (onlyParts_mem s.m _ (by decide)) (onlyParts_mono hrep (by decide)))⟩
  · have hcount := tally_only .mem (40 + ch.val) 1 (runEnded s.m ch.val)
    have hstep : refresh s.m ch.val = tally .mem (40 + ch.val) 1 (runEnded s.m ch.val) := rfl
    exact ⟨_, clocked_next (f := fun m => refresh m ch.val) hr hstep, hcount .mem (by decide),
      only_next (onlyParts_trans (onlyParts_mono (runEnded_only _ _) (by decide)) (onlyParts_mono hcount (by decide))),
      onlyRegs_trans (onlyRegs_of_eq rfl) (tally_regs _ _ _ (runEnded s.m ch.val))⟩
  · by_cases hn : tget 0 s.m.mem.caFails ch.val < 3
    · exact ⟨_, clocked_next (f := fun m => ddrAlert m ch.val) hr (ddrAlert_few hn),
        fun _ => ⟨rfl, only_next (onlyParts_mem s.m _ (by decide))⟩, fun h3 => absurd hn (by omega)⟩
    · obtain ⟨-, h1, h2, h3, h4⟩ := channelFail_state (m := runEnded s.m ch.val) ch.isLt h
      exact ⟨_, clocked_next (f := fun m => ddrAlert m ch.val) hr (ddrAlert_fourth (by omega)), fun hlt => absurd hlt hn,
        fun _ => ⟨h1, h2, h3, only_next (onlyParts_trans (onlyParts_mono (runEnded_only s.m ch.val) (by decide)) h4)⟩⟩
  · obtain ⟨h0, h1, h2, h3, h4⟩ := channelFail_state (m := s.m) ch.isLt h
    exact ⟨_, clocked_next (f := fun m => channelFail m ch.val) hr rfl, congrArg Mem.failed h0, h1, h2, h3, only_next h4⟩

/-! ### Post-package repair (R453 to R458) -/

/-- One column of a row is copied to the repair buffer. -/
def columnCopied (faults : List (Fin 128 × ReadFault)) (d : Dram) (r : RowId) (a : Tab (LineData × Bool) × Core) (c : Nat) :
    Tab (LineData × Bool) × Core :=
  let lla := llaAt a.2 r c
  let v := dramRead d a.2 (lineAt a.2 lla) lla (((faults.find? fun b => decide (b.1.val = c)).map (·.2)).getD .clean)
  (tset a.1 lla (v.1, v.2.1), v.2.2.2)

/-- The buffer and the machine when a row's columns have been copied. -/
def rowCopied (faults : List (Fin 128 × ReadFault)) (d : Dram) (r : RowId) (m : Core) : Tab (LineData × Bool) × Core :=
  (List.range 128).foldl (columnCopied faults d r) ([], m)

theorem pprCopyDone_eq {m : Core} {r : Repair} (faults : List (Fin 128 × ReadFault)) (d : Dram) (hh : isHome m = true)
    (hr : m.mem.repair = some r) (hard : r.hard = false) (hp : r.phase = 0) : pprCopyDone faults d m
      = modMem (rowCopied faults d r.row m).2 fun x =>
          { x with repair := some { r with phase := 1, buf := (rowCopied faults d r.row m).1 } } := by
  rw [pprCopyDone, hr]
  exact if_neg (by simp [hard, hp, hh])

theorem rowCopied_only (faults : List (Fin 128 × ReadFault)) (d : Dram) (r : RowId) (m : Core) :
    m.onlyParts (.mem :: .jnl :: .free :: Part.report) (rowCopied faults d r m).2 := by
  have h (l : List Nat) (a : Tab (LineData × Bool) × Core) :
      a.2.onlyParts (.mem :: .jnl :: .free :: Part.report) (l.foldl (columnCopied faults d r) a).2 := by
    induction l generalizing a with
    | nil => exact onlyParts_refl _ _
    | cons c l ih => exact onlyParts_trans (dramRead_state _ _ _ _ _).1 (ih _)
  exact h (List.range 128) ([], m)

/-- What the copy of a row without faults has come to: the machine's reads, and a buffer each of whose lines is as DRAM
has it. -/
structure Copied (d : Dram) (m : Core) (a : Tab (LineData × Bool) × Core) : Prop where
  only : m.onlyParts (.mem :: Part.report) a.2
  cfg : rget a.2 0x1800 = rget m 0x1800
  moved : QueueMoved m a.2
  lines : ∀ k v, tfind a.1 k = some v → v = (readLine d k, isPoisoned d k)

theorem columnCopied_copied {d : Dram} {m : Core} {a : Tab (LineData × Bool) × Core} (r : RowId) (c : Nat) (h : Copied d m a)
    (hf : m.mem.failed = 0) (hb : ∀ k, inBuffer m k = none) : Copied d m (columnCopied [] d r a c)
      ∧ (tfind (columnCopied [] d r a c).1 (llaAt m r c)).isSome = true := by
  have hfail : chFailed a.2 (chanOf a.2 (llaAt a.2 r c)) = false := by
    rw [chFailed, queueMoved_failed h.moved, hf]
    simp [bit]
  have hbuf : inBuffer a.2 (llaAt a.2 r c) = none := (inBuffer_congr (queueMoved_repair h.moved) _).trans (hb _)
  obtain ⟨h1, h2, h3⟩ := dramRead_clean_only (d := d) (lineAt a.2 (llaAt a.2 r c)) hfail
  obtain ⟨g1, g2, -⟩ := dramRead_clean_data (d := d) (lineAt a.2 (llaAt a.2 r c)) hfail hbuf
  have hstep : columnCopied [] d r a c = (tset a.1 (llaAt a.2 r c) (readLine d (llaAt a.2 r c), isPoisoned d (llaAt a.2 r c)),
      (dramRead d a.2 (lineAt a.2 (llaAt a.2 r c)) (llaAt a.2 r c) .clean).2.2.2) := by
    rw [← g1, ← g2]
    rfl
  rw [hstep]
  refine ⟨⟨onlyParts_trans h.only h1, (h2 0x1800 (by decide)).trans h.cfg, queueMoved_trans h.moved h3, fun k v hk => ?_⟩, ?_⟩
  · rw [tfind_tset] at hk
    split at hk
    · next he =>
      subst he
      exact (Option.some.inj hk).symm
    · exact h.lines k v hk
  · rw [tfind_tset, llaAt_congr h.cfg, if_pos rfl]
    rfl

/-- A line stays in the buffer. -/
theorem columnCopied_keeps (faults : List (Fin 128 × ReadFault)) (d : Dram) (r : RowId) (a : Tab (LineData × Bool) × Core) (c k : Nat)
    (h : (tfind a.1 k).isSome = true) : (tfind (columnCopied faults d r a c).1 k).isSome = true := by
  unfold columnCopied
  dsimp only
  rw [tfind_tset]
  split
  · rfl
  · exact h

theorem columnsCopied {d : Dram} {m : Core} (r : RowId) (hf : m.mem.failed = 0) (hb : ∀ k, inBuffer m k = none) (l : List Nat)
    {a : Tab (LineData × Bool) × Core} (h : Copied d m a) : Copied d m (l.foldl (columnCopied [] d r) a)
      ∧ (∀ k, (tfind a.1 k).isSome = true → (tfind (l.foldl (columnCopied [] d r) a).1 k).isSome = true)
      ∧ ∀ c ∈ l, (tfind (l.foldl (columnCopied [] d r) a).1 (llaAt m r c)).isSome = true := by
  induction l generalizing a with
  | nil => exact ⟨h, fun _ hk => hk, fun _ hc => (by cases hc)⟩
  | cons c l ih =>
    obtain ⟨hone, hin⟩ := columnCopied_copied r c h hf hb
    obtain ⟨h1, h2, h3⟩ := ih hone
    refine ⟨h1, fun k hk => h2 k (columnCopied_keeps _ _ _ _ _ _ hk), fun b hc => ?_⟩
    rcases List.mem_cons.1 hc with rfl | hc
    · exact h2 _ hin
    · exact h3 b hc

/-- A row without faults, none of whose lines a repair holds yet, is copied as DRAM has it. -/
theorem rowCopied_clean {d : Dram} {m : Core} (r : RowId) (hf : m.mem.failed = 0) (hb : ∀ k, inBuffer m k = none) :
    m.onlyParts (.mem :: Part.report) (rowCopied [] d r m).2
      ∧ ∀ c < 128, tfind (rowCopied [] d r m).1 (llaAt m r c)
          = some (readLine d (llaAt m r c), isPoisoned d (llaAt m r c)) := by
  obtain ⟨h, -, hin⟩ := columnsCopied (d := d) r hf hb (List.range 128) (a := ([], m))
    ⟨onlyParts_refl _ _, rfl, queueMoved_of_eq rfl, fun k v hk => (by cases hk)⟩
  refine ⟨h.only, fun c hc => ?_⟩
  obtain ⟨v, hv⟩ := Option.isSome_iff_exists.1 (hin c (List.mem_range.2 hc))
  exact hv.trans (congrArg some (h.lines _ v hv))

theorem spprWaitEnd_eq {d : Dram} {m : Core} {r : Repair} (hh : isHome m = true) (hr : m.mem.repair = some r) (hard : r.hard = false)
    (hp : r.phase = 1) : spprWaitEnd d m = (bufferBack m d r, modMem m fun x => { x with repair := some { r with phase := 2 } }) := by
  rw [spprWaitEnd, hr]
  exact if_neg (by simp [hard, hp, hh])

theorem bufferBack_eq {m : Core} {r : Repair} (d : Dram) (h : chFailed m r.row.ch = false) :
    bufferBack m d r = r.buf.foldl (fun d x => writeLine d x.1 x.2.1 x.2.2) d := by
  rw [bufferBack, h, if_neg Bool.false_ne_true]

/-- A repair's record stands in the PPR window, and no repair runs. -/
def repairEnded (m : Core) (r : Repair) (refused : Bool) : Core :=
  modMem m fun x => { x with
    repair := none
    ppr := tset x.ppr x.pprNext { hard := r.hard, refused := refused, row := r.row }
    pprNext := (x.pprNext + 1) % 64 }

/-- The row is counted as repaired in its bank group, and its errors forgotten. -/
def rowRepaired (m : Core) (r : Repair) : Core :=
  modMem m fun x => { x with
    rows := tput [] x.rows r.row.ch ((tget [] x.rows r.row.ch).filter fun y => decide (y.1 ≠ r.row))
    repaired := if r.hard then x.repaired else
      tput 0 x.repaired (groupKey r.row) (tget 0 x.repaired (groupKey r.row) + 1) }

/-- A soft repair that completes. -/
def softDone (m : Core) (r : Repair) : Core := journalMem (rowRepaired (repairEnded m r false) r) 3 3 r.row.ch r.row.row 0

theorem softDone_state (m : Core) (r : Repair) : m.onlyParts (.mem :: .jnl :: Part.report) (softDone m r)
    ∧ (softDone m r).mem = (rowRepaired (repairEnded m r false) r).mem := by
  have hj := journalMem_only (rowRepaired (repairEnded m r false) r) 3 3 r.row.ch r.row.row 0
  exact ⟨onlyParts_trans (onlyParts_trans (onlyParts_mem m _ (by decide)) (onlyParts_mem _ _ (by decide))) (onlyParts_mono hj (by decide)),
    hj .mem (by decide)⟩

theorem pprDone_soft {d : Dram} {m : Core} {r : Repair} (hh : isHome m = true) (hr : m.mem.repair = some r) (hard : r.hard = false)
    (hp : r.phase = 2) : pprDone false d m = (bufferBack m d r, repairNext (softDone m r) (softDone m r).mem.repairQ) := by
  rw [pprDone, hr]
  dsimp only
  rw [if_neg (by simp [hp, hh]), if_neg (by simp [hard])]
  rfl

/-- A repair that is refused. -/
def refusedDone (m : Core) (r : Repair) : Core := journalMem (memSpares (repairEnded m r true) r.row) 3 3 r.row.ch r.row.row 1

theorem refusedDone_state (m : Core) (r : Repair) : m.onlyParts (.mem :: .jnl :: Part.report) (refusedDone m r)
    ∧ (refusedDone m r).mem = (repairEnded m r true).mem ∧ isPending (refusedDone m r) 53 = true := by
  obtain ⟨h1, -, h3⟩ := memSpares_state (repairEnded m r true) r.row
  have hj := onlyParts_trans h1 (journalMem_only (memSpares (repairEnded m r true) r.row) 3 3 r.row.ch r.row.row 1)
  exact ⟨onlyParts_trans (onlyParts_mem m _ (by decide)) (onlyParts_mono hj (by decide)), hj .mem (by decide),
    journal_isPending _ _ _ _ 53 h3⟩

theorem pprDone_refused {d : Dram} {m : Core} {r : Repair} (hh : isHome m = true) (hr : m.mem.repair = some r) (hard : r.hard = true) :
    pprDone true d m = (bufferBack m d r, repairNext (refusedDone m r) (refusedDone m r).mem.repairQ) := by
  rw [pprDone, hr]
  dsimp only
  rw [if_neg (by simp [hard, hh]), if_neg (by simp)]
  rfl

/-! ### The groom (R463 to R469) -/

theorem chanLines_congr {m n : Core} (h : rget n 0x1800 = rget m 0x1800) : chanLines n = chanLines m := by
  unfold chanLines capacity channels rfld
  rw [h]

/-- The machine when the groom of a channel has gone on to its next line. -/
def groomMoved (m : Core) (ch : Nat) : Core :=
  modMem m fun x => { x with groomPos := tput 0 x.groomPos ch (tget 0 m.mem.groomPos ch + 1) }

theorem groomMoved_only (m : Core) (ch : Nat) : m.onlyParts [.mem] (groomMoved m ch) := onlyParts_mem m _ (by decide)

theorem groomMoved_pos (m : Core) (ch : Nat) : tget 0 (groomMoved m ch).mem.groomPos ch = tget 0 m.mem.groomPos ch + 1 := by
  simp [groomMoved, modMem]

/-- A visit of the channel's next line, in its turn. -/
def lineVisited (rf : ReadFault) (ch : Nat) (d : Dram) (m : Core) : Core :=
  let lla := chanLine m ch (tget 0 m.mem.groomPos ch)
  let n := groomMoved m ch
  if groomSkips n (lineAt n lla) lla then groomLater n ch lla false else groomLine rf ch lla false d n

theorem groomRead_next {d : Dram} {m : Core} {ch : Nat} (rf : ReadFault) (hm : m.mem.ready = true) (hh : isHome m = true)
    (hc : ch < channels m) (hf : chFailed m ch = false) (hn : tget 0 m.mem.groomPos ch < chanLines m) :
    groomRead ch rf d m = groomPassEnd (lineVisited rf ch d m) ch := by
  rw [groomRead, if_neg (by simp [hm, hh, hf, hc])]
  exact if_pos hn

theorem groomRead_end {d : Dram} {m : Core} {ch : Nat} (rf : ReadFault) (hm : m.mem.ready = true) (hh : isHome m = true)
    (hc : ch < channels m) (hf : chFailed m ch = false) (hn : chanLines m ≤ tget 0 m.mem.groomPos ch)
    (hs : tget [] m.mem.groomSkip ch = []) : groomRead ch rf d m = groomPassEnd m ch := by
  rw [groomRead, if_neg (by simp [hm, hh, hf, hc])]
  dsimp only
  rw [if_neg (by omega), hs]

/-- A pass with lines to visit, or with a repair arrival on its way, goes on. -/
theorem groomPassEnd_open {m : Core} {ch : Nat} (h : tget 0 m.mem.groomPos ch < chanLines m ∨ groomOut m ch = true) :
    groomPassEnd m ch = m := by
  refine if_neg ?_
  rcases h with h | h
  · simp [Nat.not_le.2 h]
  · simp [h]

/-- The machine when the pass of a channel's groom has ended. -/
def passEnded (m : Core) (ch : Nat) : Core :=
  modMem m fun x => { x with groomPos := tput 0 x.groomPos ch 0
                             groomFin := tput false x.groomFin ch (!tget false m.mem.groomLate ch || tget false x.groomFin ch)
                             groomLate := tput false x.groomLate ch false }

theorem groomPassEnd_done {m : Core} {ch : Nat} (hn : chanLines m ≤ tget 0 m.mem.groomPos ch)
    (hs : tget [] m.mem.groomSkip ch = []) (ho : groomOut m ch = false) : groomPassEnd m ch
      = rsetf (passEnded m ch) 0x1848 15 0 (min (rfld (passEnded m ch) 0x1848 15 0 + 1) 65535) :=
  if_pos (by simp [hn, hs, ho])

/-- The groom reads a line, and counts the read. -/
def lineRead (rf : ReadFault) (ch lla : Nat) (d : Dram) (m : Core) : Core :=
  (dramRead d (tally .mem (72 + ch) 1 m) (lineAt m lla) lla rf).2.2.2

theorem groomLine_eq (rf : ReadFault) (ch lla : Nat) (again : Bool) (d : Dram) (m : Core) : groomLine rf ch lla again d m
    = if readSees d m lla rf ≠ .clean then
        arriveLocal (lineRead rf ch lla d m) (.groom ch lla again) { op := .fls, line := lineAt m lla }
      else lineRead rf ch lla d m := by
  unfold groomLine
  dsimp only
  by_cases h : readSees d m lla rf = .clean
  · rw [if_neg (by simp [h]), if_neg (by simp [h])]
    rfl
  · rw [if_pos (by simp [h]), if_pos (by simp [h])]
    rfl

theorem readSees_clean (d : Dram) (m : Core) (lla : Nat) : readSees d m lla .clean = .clean := by
  unfold readSees
  dsimp only
  split <;> rfl

/-- What a read meets depends on the channels' queues, the repair and the failed channels alone. -/
theorem readSees_congr {m n : Core} (hc : rget n 0x1800 = rget m 0x1800) (hf : n.mem.failed = m.mem.failed)
    (hr : n.mem.repair = m.mem.repair) (hq : n.mem.wq = m.mem.wq) (hw : n.mem.wdrain = m.mem.wdrain) (d : Dram) (lla : Nat)
    (rf : ReadFault) : readSees d n lla rf = readSees d m lla rf := by
  have hqueue (ch : Nat) : writeQueue (wqAhead n ch) ch = writeQueue (wqAhead m ch) ch := by
    rw [writeQueue_wqAhead, writeQueue_wqAhead, writeQueue, writeQueue, hq, hw]
  unfold readSees
  dsimp only
  rw [chanOf_congr hc, chFailed_congr hf, inBuffer_congr hr, hqueue]

theorem lineRead_state (rf : ReadFault) (ch lla : Nat) (d : Dram) (m : Core) :
    m.onlyParts (.mem :: .jnl :: .free :: Part.report) (lineRead rf ch lla d m)
    ∧ m.onlyRegs (readRegs (chanOf (tally .mem (72 + ch) 1 m) lla)) (lineRead rf ch lla d m) ∧ ReadNoted m (lineRead rf ch lla d m) := by
  obtain ⟨h1, h2, h3⟩ := dramRead_state d (tally .mem (72 + ch) 1 m) (lineAt m lla) lla rf
  have ht := tally_only .mem (72 + ch) 1 m
  exact ⟨onlyParts_trans (onlyParts_mono ht (by decide)) h1, onlyRegs_trans (report_readRegs _ (tally_regs _ _ _ _)) h2,
    readNoted_trans (readNoted_of_eq (ht .mem (by decide))) h3⟩

theorem readNoted_groomPos {m n : Core} (h : ReadNoted m n) : n.mem.groomPos = m.mem.groomPos := by
  obtain ⟨_, _, _, _, _, _, hn⟩ := h
  rw [hn]

theorem arriveLocal_only (m : Core) (j : Job) (x : Msg) : m.onlyParts [.ports, .trk] (arriveLocal m j x) := arrive_only _ _

/-- What a local engine submits stands among the arrivals. -/
theorem mem_arriveLocal (m : Core) (j : Job) (x : Msg) :
    ∃ a ∈ (arriveLocal m j x).trk.arrivals, a.job = j ∧ a.port = 16 ∧ a.msg.line = x.line := by
  obtain ⟨w, hw⟩ := mem_arrive m
    { port := 16, cyc := m.trk.core, job := j, msg := { x with epoch := m.cfg.epoch, src := nodeId m } } (.inl rfl)
  exact ⟨_, hw, rfl, rfl, rfl⟩

/-- An arrival of a groom's repair keeps its pass open. -/
theorem groomOut_of_mem {m : Core} {a : Arrival} {ch lla : Nat} {again : Bool} (h : a ∈ m.trk.arrivals)
    (hj : a.job = .groom ch lla again) : groomOut m ch = true := by
  unfold groomOut
  dsimp only
  rw [Bool.or_eq_true]
  exact .inl (List.any_eq_true.2 ⟨a, h, by rw [hj]; simp⟩)

/-- MEM.CFG is none of the registers that a read of a channel changes. -/
theorem memCfg_kept {m n : Core} {ch : Nat} (h : m.onlyRegs (readRegs ch) n) : rget n 0x1800 = rget m 0x1800 :=
  h 0x1800 (by simp [readRegs, journalRegs, reportRegs]; omega)

/-- The correctable error of a line that no earlier syndrome answers. -/
theorem readSees_correctable {d : Dram} {m : Core} {lla : Nat} {dev : Fin 10} (h : readSees d m lla (.correctable dev) = .correctable dev) :
    chFailed m (chanOf m lla) = false ∧ inBuffer m lla = none
      ∧ (writeQueue (wqAhead m (chanOf m lla)) (chanOf m lla)).contains lla = false ∧ isPoisoned d lla = false := by
  unfold readSees at h
  dsimp only at h
  split at h
  · cases h
  · next hc =>
    simp only [Bool.or_eq_true, not_or, Bool.not_eq_true, Option.isSome_eq_false_iff, Option.isNone_iff_eq_none] at hc
    exact ⟨hc.1.1.1, hc.1.1.2, hc.1.2, hc.2⟩

/-- With the repair threshold 0 a row's error is noted alone. -/
theorem rowError_off {m : Core} (r : RowId) (h : rfld m 0x183C 3 0 = 0) : m.onlyParts [.mem] (rowError m r)
    ∧ (rowError m r).mem.failed = m.mem.failed ∧ (rowError m r).mem.repair = m.mem.repair := by
  unfold rowError
  dsimp only
  generalize (List.filter _ _ ++ _ : List (RowId × Nat)) = t
  rw [if_pos (by
    rw [show rfld (modMem m fun x => { x with rows := tput [] x.rows r.ch (t.drop (t.length - 32)) }) 0x183C 3 0 = 0 from h]
    rfl)]
  exact ⟨onlyParts_mem m _ (by decide), rfl, rfl⟩

/-- A read that meets a correctable error alone: the line, and the error counted. -/
theorem dramRead_correctable {d : Dram} {m : Core} {lla : Nat} {dev : Fin 10} (l : LineAddr)
    (h : readSees d m lla (.correctable dev) = .correctable dev) (hth : rfld m 0x183C 3 0 = 0) :
    let g := dramRead d m l lla (.correctable dev)
    g.1 = readLine d lla ∧ g.2.2.1 = false ∧ m.onlyParts (.mem :: Part.report) g.2.2.2
      ∧ g.2.2.2.mem.failed = m.mem.failed ∧ g.2.2.2.mem.repair = m.mem.repair := by
  obtain ⟨hf, hb, hq, hp⟩ := readSees_correctable h
  obtain ⟨h1, h2, h3⟩ := readBegun_state m (chanOf m lla)
  have hmem : (tally .mem (8 + chanOf m lla) 1 m).mem = m.mem := tally_only _ _ _ m .mem (by decide)
  have hf' : chFailed (readBegun m (chanOf m lla)) (chanOf m lla) = false := (chFailed_congr (queueMoved_failed h3) _).trans hf
  have hb' : inBuffer (readBegun m (chanOf m lla)) lla = none := (inBuffer_congr (queueMoved_repair h3) _).trans hb
  have hq' : (writeQueue (readBegun m (chanOf m lla)) (chanOf m lla)).contains lla = false := by
    rw [writeQueue_wqAhead] at hq
    rw [readBegun, writeQueue_wqAhead, writeQueue, hmem]
    exact hq
  have hstep : dramRead d m l lla (.correctable dev) = (readLine d lla, false, false,
      errorCounted (runEnded (readBegun m (chanOf m lla)) (chanOf m lla)) l (coords m lla).1 dev.val) := by
    rw [dramRead_eq]
    dsimp only
    rw [show (coords m lla).1.ch = chanOf m lla from rfl, hf', if_neg Bool.false_ne_true, hb']
    dsimp only
    rw [hq', if_neg Bool.false_ne_true, hp, if_neg Bool.false_ne_true]
  dsimp only
  rw [hstep]
  dsimp only
  generalize readBegun m (chanOf m lla) = n at h1 h2 h3
  obtain ⟨g1, g2⟩ := errLog_state (rinc (runEnded n (chanOf m lla)) (0x180C + 4 * (coords m lla).1.ch) 1) l (coords m lla).1 1 dev.val
  have hcount : (runEnded n (chanOf m lla)).onlyParts Part.report (tally .mem (48 + (coords m lla).1.ch) 1
      (errLog (rinc (runEnded n (chanOf m lla)) (0x180C + 4 * (coords m lla).1.ch) 1) l (coords m lla).1 1 dev.val)) :=
    onlyParts_trans (onlyParts_trans (onlyParts_rset _ _ _ (by decide)) (onlyParts_mono g1 (by decide))) (tally_only _ _ _ _)
  have hch : (coords m lla).1.ch < 8 := chanOf_lt m lla
  have hkeep : rget (tally .mem (48 + (coords m lla).1.ch) 1
      (errLog (rinc (runEnded n (chanOf m lla)) (0x180C + 4 * (coords m lla).1.ch) 1) l (coords m lla).1 1 dev.val)) 0x183C
      = rget m 0x183C := by
    rw [tally_regs _ _ _ _ 0x183C (by decide), g2 0x183C (by decide), rinc, rget_rset_other _ _ (by omega)]
    exact h2 0x183C (by decide)
  obtain ⟨e1, e2, e3⟩ := rowError_off (coords m lla).1 (by rw [rfld, hkeep]; exact hth)
  have hmem' : (tally .mem (48 + (coords m lla).1.ch) 1 (errLog (rinc (runEnded n (chanOf m lla)) (0x180C + 4 * (coords m lla).1.ch) 1)
      l (coords m lla).1 1 dev.val)).mem = (runEnded n (chanOf m lla)).mem := hcount .mem (by decide)
  refine ⟨rfl, rfl, ?_, ?_, ?_⟩
  · exact onlyParts_trans (onlyParts_trans (onlyParts_trans h1 (onlyParts_mono (runEnded_only _ _) (by decide)))
      (onlyParts_mono hcount (by decide))) (onlyParts_mono e1 (by decide))
  · rw [errorCounted, e2, hmem']
    exact queueMoved_failed (queueMoved_trans h3 (runEnded_moved _ _))
  · rw [errorCounted, e3, hmem']
    exact queueMoved_repair (queueMoved_trans h3 (runEnded_moved _ _))

theorem homeState_congr {m n : Core} (hd : n.deck = m.deck) (hr : rget n 0x1000 = rget m 0x1000) (l : LineAddr) :
    homeState n l = homeState m l := by
  have hfind : dirFind n true l = dirFind m true l := by
    unfold dirFind waysOf dirEnt split rfld
    rw [hd, hr]
  rw [homeState, homeState, hfind]
  unfold dirEnt
  rw [hd]

/-! ### Groom repairs (R467, R468) -/

theorem hte_setHte_same (m : Core) (h : Nat) (x : Hte) : hte (setHte m h x) h = some x := by
  rw [hte, setHte, tfind_tset, if_pos rfl]

/-- A transaction that ends waits for its completion. -/
theorem endHte_state {m : Core} {h : Nat} {x : Hte} (hx : hte m h = some x) : m.onlyParts [.trk] (endHte m h)
    ∧ hte (endHte m h) h = some { x with done := true, wait := .none, cont := .idle } := by
  have hstep : endHte m h = setHte m h { x with done := true, wait := .none, cont := .idle } := by
    rw [endHte, modHte, hx]
  rw [hstep]
  exact ⟨onlyParts_trk m _ (by decide), hte_setHte_same _ _ _⟩

/-- The groom's repair of a line that nothing holds, listed nowhere, with a correctable error: its line is written again. -/
theorem groomAct_rewrites {d : Dram} {m : Core} {l : LineAddr} {lla : Nat} {dev : Fin 10} (ch : Nat) (again : Bool)
    (ha : alcKey m l = none) (hu : (m.atm.units.any fun u => u.2.any fun o => decide (o.line = l)) = false)
    (hr : m.mem.repair = none) (hs : readSees d m lla (.correctable dev) = .correctable dev) (hb : mbOf m l = [])
    (hi : homeState m l = .i) (hth : rfld m 0x183C 3 0 = 0) : ∃ n, m.onlyParts (.mem :: Part.report) n
      ∧ groomAct l ch lla again (.correctable dev) d m = (writeLine d lla (readLine d lla) false, n) := by
  obtain ⟨g1, g2, g3, g4, g5⟩ := dramRead_correctable (d := d) l hs hth
  obtain ⟨-, hregs, -⟩ := dramRead_state d m l lla (.correctable dev)
  have hcfg := memCfg_kept hregs
  have hsplit : rget (dramRead d m l lla (.correctable dev)).2.2.2 0x1000 = rget m 0x1000 :=
    hregs 0x1000 (by simp [readRegs, journalRegs, reportRegs]; omega)
  have hmb : mbOf (dramRead d m l lla (.correctable dev)).2.2.2 l = [] := by
    rw [mbOf, show (dramRead d m l lla (.correctable dev)).2.2.2.ca = m.ca from g3 .ca (by decide)]
    exact hb
  have hhome : homeState (dramRead d m l lla (.correctable dev)).2.2.2 l = .i :=
    (homeState_congr (g3 .deck (by decide)) hsplit l).trans hi
  have hf : chFailed (dramRead d m l lla (.correctable dev)).2.2.2 (chanOf (dramRead d m l lla (.correctable dev)).2.2.2 lla) = false := by
    rw [chanOf_congr hcfg, chFailed_congr g4]
    exact (readSees_correctable hs).1
  obtain ⟨w1, -, -⟩ := written_state (dramRead d m l lla (.correctable dev)).2.2.2 lla
  refine ⟨_, onlyParts_trans g3 w1, ?_⟩
  rw [groomAct, if_neg (by simp [ha, hu, hr])]
  dsimp only
  rw [hmb, if_neg (by decide), hs, if_neg (by simp), hhome, if_neg (by decide), g2, if_pos (by decide), g1,
    dramWrite_direct _ _ hf (g5.trans hr)]
  rfl

theorem groomRepair_eq {d : Dram} {m : Core} {h ch lla : Nat} {again : Bool} {x : Hte} (rf : ReadFault) (hx : hte m h = some x)
    (hk : x.kind = .active) (hw : x.wait = .decision) (hj : x.job = .groom ch lla again) (ht : wqTakes m lla = true) :
    groomRepair h rf d m = ((groomAct x.msg.line ch lla again rf d m).1, endHte (groomAct x.msg.line ch lla again rf d m).2 h) := by
  rw [groomRepair, hx]
  dsimp only
  rw [hj]
  exact if_pos (by simp [hk, hw, ht])

/-- The machine when a period has ended before its pass. -/
def periodOverrun (m : Core) (ch : Nat) : Core :=
  rsetf (modMem m fun x => { x with groomLate := tput false x.groomLate ch true }) 0x1848 31 31 1

theorem groomPeriodEnd_eq {m : Core} {ch : Nat} (hm : m.mem.ready = true) (hh : isHome m = true) (hc : ch < channels m)
    (hf : chFailed m ch = false) : groomPeriodEnd m ch = if tget false m.mem.groomFin ch = true then
      modMem m fun x => { x with groomFin := tput false x.groomFin ch false } else raise (periodOverrun m ch) 54 := by
  rw [groomPeriodEnd, if_neg (by simp [hm, hh, hf, hc])]
  rfl

theorem clockedRead_next {f : Dram → Core → Core} {s : State} {n : Core} (hr : running s.m = true) (h : f s.dram s.m = n) :
    clockedRead f s = .next { s with m := n } := by
  rw [clockedRead, if_pos hr, h]

theorem clockedDram_next {f : Dram → Core → Dram × Core} {s : State} {d : Dram} {n : Core} (hr : running s.m = true)
    (h : f s.dram s.m = (d, n)) : clockedDram f s = .next { s with dram := d, m := n } := by
  rw [clockedDram, if_pos hr, h]

/-- Settles O50: a row's copy by `rowCopied_only` and `rowCopied_clean`, a repair's end by `softDone_state` and
`refusedDone_state`, the groom by `groomRead_next`, `groomRead_end` and `groomAct_rewrites`. -/
theorem repairAndGroomRun : Obligations.RepairAndGroomRun := by
  refine ⟨fun s r faults hr hh h hard hp => ?_, fun s r hr hh h hard hp hbuf hf => ?_, fun s r hr hh h hard hp hf => ?_,
    fun s r hr hh h hard hp hf hq => ?_, fun s r hr hh h hard hbuf hq => ?_, fun s r n q hr hh h hard hp hq => ?_,
    fun s ch hr hm hh hc hf hn hf' hrep => ?_, fun s ch lla rf hr hm hh hc hf hn hlla hskip hsee => ?_,
    fun s ch hr hm hh hc hf hn hs ho => ?_, fun s h x ch lla again dev hr hx hk hw hj ht ha hu hrep hs hb hi hth => ?_,
    fun s ch hr hm hh hc hf => ?_⟩
  · exact ⟨_, _, clockedRead_next hr (pprCopyDone_eq faults s.dram hh h hard hp), rfl,
      only_next (onlyParts_trans (rowCopied_only _ _ _ _) (onlyParts_mem _ _ (by decide)))⟩
  · have hnone (k : Nat) : inBuffer s.m k = none := by
      rw [inBuffer, h]
      simp [hbuf, tfind]
    obtain ⟨h1, h2⟩ := rowCopied_clean (d := s.dram) r.row hf hnone
    exact ⟨_, _, clockedRead_next hr (pprCopyDone_eq [] s.dram hh h hard hp), rfl, h2,
      only_next (onlyParts_trans h1 (onlyParts_mem _ _ (by decide)))⟩
  · have hstep := spprWaitEnd_eq (d := s.dram) hh h hard hp
    rw [bufferBack_eq s.dram hf] at hstep
    exact ⟨_, clockedDram_next hr hstep, rfl, rfl, rfl, onlyParts_mem s.m _ (by decide)⟩
  · have hstep := pprDone_soft (d := s.dram) hh h hard hp
    obtain ⟨h1, h2⟩ := softDone_state s.m r
    rw [bufferBack_eq s.dram hf, show (softDone s.m r).mem.repairQ = [] from (congrArg Mem.repairQ h2).trans hq, repairNext] at hstep
    refine ⟨_, clockedDram_next hr hstep, congrArg Mem.repair h2, ?_, congrArg Mem.pprNext h2, ?_, rfl, rfl,
      onlyParts_trans h1 (onlyParts_mem _ _ (by decide))⟩
    · refine (congrArg (fun x : Mem => tfind x.ppr s.m.mem.pprNext) h2).trans ?_
      simp [rowRepaired, repairEnded, modMem, tfind_tset, hard]
    · refine (congrArg (fun x : Mem => tget 0 x.repaired (groupKey r.row)) h2).trans ?_
      simp [rowRepaired, repairEnded, modMem, hard]
  · have hstep := pprDone_refused (d := s.dram) hh h hard
    obtain ⟨h1, h2, h3⟩ := refusedDone_state s.m r
    have hback : bufferBack s.m s.dram r = s.dram := by
      rw [bufferBack, hbuf]
      split
      · rfl
      · rfl
    rw [hback, show (refusedDone s.m r).mem.repairQ = [] from (congrArg Mem.repairQ h2).trans hq, repairNext] at hstep
    refine ⟨_, clockedDram_next hr hstep, congrArg Mem.repair h2, ?_, h3, only_next (onlyParts_trans h1 (onlyParts_mem _ _ (by decide)))⟩
    refine (congrArg (fun x : Mem => tfind x.ppr s.m.mem.pprNext) h2).trans ?_
    simp [repairEnded, modMem, tfind_tset, hard]
  · have hstep := pprDone_soft (d := s.dram) hh h hard hp
    obtain ⟨h1, h2⟩ := softDone_state s.m r
    rw [show (softDone s.m r).mem.repairQ = (n, true) :: q from (congrArg Mem.repairQ h2).trans hq, repairNext] at hstep
    exact ⟨_, clockedDram_next hr hstep, rfl, rfl, rfl, onlyParts_trans h1 (onlyParts_mem _ _ (by decide))⟩
  · have hstep := groomRead_next (d := s.dram) .clean hm hh hc hf (by omega)
    have hpos := groomMoved_pos s.m ch.val
    have hmoved := groomMoved_only s.m ch.val
    have hvisit : (groomMoved s.m ch.val).onlyParts (.mem :: Part.report) (lineVisited .clean ch.val s.dram s.m)
        ∧ (lineVisited .clean ch.val s.dram s.m).mem.groomPos = (groomMoved s.m ch.val).mem.groomPos
        ∧ rget (lineVisited .clean ch.val s.dram s.m) 0x1800 = rget s.m 0x1800 := by
      unfold lineVisited
      dsimp only
      split
      · exact ⟨onlyParts_mem _ _ (by decide), rfl, rfl⟩
      · rw [groomLine_eq, readSees_clean, if_neg (by simp)]
        have ht := tally_only .mem (72 + ch.val) 1 (groomMoved s.m ch.val)
        have hmem : (tally .mem (72 + ch.val) 1 (groomMoved s.m ch.val)).mem = (groomMoved s.m ch.val).mem := ht .mem (by decide)
        have hcfg : rget (tally .mem (72 + ch.val) 1 (groomMoved s.m ch.val)) 0x1800 = rget s.m 0x1800 :=
          tally_regs _ _ _ (groomMoved s.m ch.val) 0x1800 (by decide)
        obtain ⟨g1, g2, g3⟩ := dramRead_clean_only (d := s.dram) (m := tally .mem (72 + ch.val) 1 (groomMoved s.m ch.val))
          (lla := chanLine s.m ch.val (tget 0 s.m.mem.groomPos ch.val))
          (lineAt (groomMoved s.m ch.val) (chanLine s.m ch.val (tget 0 s.m.mem.groomPos ch.val))) (by
            rw [chanOf_congr hcfg]
            exact (chFailed_congr (congrArg Mem.failed hmem) _).trans hf')
        obtain ⟨_, _, _, g3⟩ := g3
        refine ⟨onlyParts_trans (onlyParts_mono ht (by decide)) g1, ?_, (g2 0x1800 (by decide)).trans hcfg⟩
        exact (congrArg Mem.groomPos g3 :).trans (congrArg Mem.groomPos hmem :)
    obtain ⟨h1, h2, h3⟩ := hvisit
    have hopen : groomPassEnd (lineVisited .clean ch.val s.dram s.m) ch.val = lineVisited .clean ch.val s.dram s.m :=
      groomPassEnd_open (.inl (by rw [chanLines_congr h3, h2, hpos]; exact hn))
    rw [hopen] at hstep
    have hall := onlyParts_trans (onlyParts_mono hmoved (by decide)) h1
    exact ⟨_, clockedRead_next hr hstep, (congrArg (fun t => tget 0 t ch.val) h2).trans hpos, hall .trk (by decide), only_next hall⟩
  · have hstep := groomRead_next (d := s.dram) rf hm hh hc hf hn
    have hvisit : lineVisited rf ch.val s.dram s.m = arriveLocal (lineRead rf ch.val lla s.dram (groomMoved s.m ch.val))
        (.groom ch.val lla false) { op := .fls, line := lineAt s.m lla } := by
      have h1 : groomSkips (groomMoved s.m ch.val) (lineAt (groomMoved s.m ch.val) lla) lla = false := hskip
      have h2 : readSees s.dram (groomMoved s.m ch.val) lla rf ≠ .clean :=
        (readSees_congr (m := s.m) (n := groomMoved s.m ch.val) rfl rfl rfl rfl rfl s.dram lla rf).trans_ne hsee
      unfold lineVisited
      dsimp only
      rw [← hlla, h1, if_neg Bool.false_ne_true, groomLine_eq, if_pos h2]
      rfl
    obtain ⟨g1, -, g3⟩ := lineRead_state rf ch.val lla s.dram (groomMoved s.m ch.val)
    have harr := arriveLocal_only (lineRead rf ch.val lla s.dram (groomMoved s.m ch.val)) (.groom ch.val lla false)
      { op := .fls, line := lineAt s.m lla }
    obtain ⟨a, hmem, hjob, hport, hline⟩ := mem_arriveLocal (lineRead rf ch.val lla s.dram (groomMoved s.m ch.val))
      (.groom ch.val lla false) { op := .fls, line := lineAt s.m lla }
    rw [hvisit, groomPassEnd_open (.inr (groomOut_of_mem hmem hjob))] at hstep
    refine ⟨_, clockedRead_next hr hstep, ?_, ⟨a, hmem, hjob, hport, hline⟩, only_next ?_⟩
    · refine (congrArg (fun x : Mem => tget 0 x.groomPos ch.val) (harr .mem (by decide))).trans ?_
      exact (congrArg (fun t => tget 0 t ch.val) (readNoted_groomPos g3)).trans (groomMoved_pos s.m ch.val)
    · exact onlyParts_trans (onlyParts_trans (onlyParts_mono (groomMoved_only s.m ch.val) (by decide)) (onlyParts_mono g1 (by decide)))
        (onlyParts_mono harr (by decide))
  · have hstep := (groomRead_end (d := s.dram) .clean hm hh hc hf hn hs).trans (groomPassEnd_done hn hs ho)
    refine ⟨_, clockedRead_next hr hstep, ?_, ?_, only_next ?_, ?_⟩
    · show tget 0 (tput 0 s.m.mem.groomPos ch.val 0) ch.val = 0
      rw [tget_tput, if_pos rfl]
    · rw [rfld, rsetf, rget_rset_same, fld_putFld_same _ _ _ _ (by decide)]
      exact Nat.mod_eq_of_lt (by omega)
    · exact onlyParts_trans (onlyParts_mem s.m _ (by decide)) (onlyParts_rset _ _ _ (by decide))
    · exact onlyRegs_trans (onlyRegs_of_eq (n := passEnded s.m ch.val) rfl) (onlyRegs_rset _ _ _ (by decide))
  · obtain ⟨n, hp, hact⟩ := groomAct_rewrites ch again ha hu hrep hs hb hi hth
    have hstep := groomRepair_eq (d := s.dram) (.correctable dev) hx hk hw hj ht
    rw [hact] at hstep
    have hx' : hte n h.val = some x := (congrArg (fun t : Tracker => tfind t.htes h.val) (hp .trk (by decide))).trans hx
    obtain ⟨h1, h2⟩ := endHte_state hx'
    exact ⟨_, _, clockedDram_next hr hstep, h2, rfl, rfl, rfl, onlyParts_trans (onlyParts_mono hp (by decide)) (onlyParts_mono h1 (by decide))⟩
  · have hstep := groomPeriodEnd_eq hm hh hc hf
    by_cases hfin : tget false s.m.mem.groomFin ch.val = true
    · rw [if_pos hfin] at hstep
      refine ⟨_, clocked_next (f := fun m => groomPeriodEnd m ch.val) hr hstep, fun _ => ⟨?_, only_next (onlyParts_mem s.m _ (by decide))⟩,
        fun hno => absurd (hno.symm.trans hfin) (by decide)⟩
      show tget false (tput false s.m.mem.groomFin ch.val false) ch.val = false
      rw [tget_tput, if_pos rfl]
    · rw [if_neg hfin] at hstep
      have hrep := raise_only (periodOverrun s.m ch.val) 54
      refine ⟨_, clocked_next (f := fun m => groomPeriodEnd m ch.val) hr hstep, fun hyes => absurd hyes hfin,
        fun _ => ⟨?_, ?_, raise_isPending _ _, only_next ?_⟩⟩
      · refine (congrArg (fun x : Mem => tget false x.groomLate ch.val) (hrep .mem (by decide))).trans ?_
        show tget false (tput false s.m.mem.groomLate ch.val true) ch.val = true
        rw [tget_tput, if_pos rfl]
      · exact (SoftReset.rbit_of_onlyRegs (raise_regs _ 54) (by decide) 31).trans (SoftReset.rbit_rsetf_bit _ _ _ (by decide))
      · exact onlyParts_trans (onlyParts_trans (onlyParts_mem s.m _ (by decide)) (onlyParts_rset _ _ _ (by decide)))
          (onlyParts_mono hrep (by decide))

end Sys2Proof.Channels
end

section
/-! PROOFS. Transactions (Machine/Home.lean, Machine/Flow.lean): the rules of an HTE's fields, of the messages that a
transaction sends, and of how an HTE goes on. -/

namespace Sys2Proof.Transactions

open Sys2Proof.Machine Sys2Proof.Laws Sys2Proof.Sending Sys2Proof.Flits Sys2Proof.Channels

/-! ### The fields of an HTE -/

theorem tset_tset {α : Type} (t : Tab α) (k : Nat) (v w : α) : tset (tset t k v) k w = tset t k w := by
  induction t with
  | nil => simp [tset]
  | cons a r ih =>
    obtain ⟨j, u⟩ := a
    by_cases h1 : k < j
    · simp [tset, h1]
    · by_cases h2 : k = j
      · simp [tset, h2]
      · simp [tset, h1, h2, ih]

theorem hte_setHte (m : Core) (h g : Nat) (x : Hte) : hte (setHte m h x) g = if h = g then some x else hte m g := by
  rw [hte, setHte, tfind_tset]
  rfl

theorem setHte_setHte (m : Core) (h : Nat) (x y : Hte) : setHte (setHte m h x) h y = setHte m h y := by
  rw [setHte, setHte, setHte, tset_tset]

theorem setHte_only (m : Core) (h : Nat) (x : Hte) : m.onlyParts [.trk] (setHte m h x) := onlyParts_trk m _ (by decide)

theorem hte_congr {m n : Core} (h : n.trk.htes = m.trk.htes) (g : Nat) : hte n g = hte m g := by rw [hte, hte, h]

theorem hte_of_only {ps : List Part} {m n : Core} (h : m.onlyParts ps n) (hp : Part.trk ∉ ps) (g : Nat) : hte n g = hte m g :=
  hte_congr (congrArg Tracker.htes (h .trk hp)) g

section
variable {m : Core} {h : Nat} {x : Hte} (hx : hte m h = some x)
include hx

theorem modHte_eq (f : Hte → Hte) : modHte m h f = setHte m h (f x) := by rw [modHte, hx]

theorem await_eq (a : Await) : await m h a = setHte m h { x with awaits := x.awaits ++ [a] } := modHte_eq hx _

theorem unawait_eq (a : Await) : unawait m h a = setHte m h { x with awaits := x.awaits.erase a } := modHte_eq hx _

theorem andThen_eq (c : Cont) : andThen m h c = setHte m h { x with wait := .none, cont := c } := modHte_eq hx _

theorem waitFor_eq (w : Wait) : waitFor m h w = setHte m h { x with wait := w } := modHte_eq hx _

theorem setFin_eq (k : Option Nat) (d : DirEnt) : setFin m h k d = setHte m h { x with key := k, fin := some d } := modHte_eq hx _

theorem gotData_eq (d : LineData) (p : Bool) :
    gotData m h d p = setHte m h { x with buf := d, bufPoison := p, haveBuf := true } := modHte_eq hx _

theorem endHte_eq : endHte m h = setHte m h { x with done := true, wait := .none, cont := .idle } := modHte_eq hx _

end

theorem modHte_only (m : Core) (h : Nat) (f : Hte → Hte) : m.onlyParts [.trk] (modHte m h f) := by
  unfold modHte
  split
  · exact setHte_only _ _ _
  · exact onlyParts_refl _ _

/-! ### Tables of HTEs that read the same -/

/-- Only the list of HTEs may have been written anew, each with what it held. -/
def SameHtes (m n : Core) : Prop := ∃ ts, n = { m with trk := { m.trk with htes := ts } } ∧ ∀ g, tfind ts g = hte m g

theorem sameHtes_refl (m : Core) : SameHtes m m := ⟨_, rfl, fun _ => rfl⟩

theorem sameHtes_hte {m n : Core} (h : SameHtes m n) (g : Nat) : hte n g = hte m g := by
  obtain ⟨ts, rfl, ht⟩ := h
  exact ht g

theorem sameHtes_trans {m n k : Core} (h : SameHtes m n) (g : SameHtes n k) : SameHtes m k := by
  obtain ⟨ts, rfl, ht⟩ := h
  obtain ⟨us, rfl, hu⟩ := g
  exact ⟨us, rfl, fun i => (hu i).trans (ht i)⟩

theorem sameHtes_setHte {m : Core} {h : Nat} {x : Hte} (hx : hte m h = some x) : SameHtes m (setHte m h x) := by
  refine ⟨_, rfl, fun g => (hte_setHte m h g x).trans ?_⟩
  split
  · next e => rw [← e, hx]
  · rfl

theorem sameHtes_only {m n : Core} (h : SameHtes m n) : m.onlyParts [.trk] n := by
  obtain ⟨ts, rfl, -⟩ := h
  exact onlyParts_trk m _ (by decide)

/-! ### Messages of a transaction -/

/-- The message `r` is `g` as Jalair originates it, with the dateline flag as its port sets it. -/
def AsSent (m : Core) (g r : Msg) : Prop := ∃ d, r = { stamped m g with dateline := d }

theorem hteSends_mono {m : Core} {p h : Nat} {f g : Msg → Prop} (hs : hteSends m p h f) (hf : ∀ r, f r → g r) :
    hteSends m p h g := by
  obtain ⟨y, hy, ho, hm⟩ := hs
  exact ⟨y, hy, ho, hf _ hm⟩

theorem hteSends_joined {m n : Core} {p h : Nat} {f : Msg → Prop} (hs : hteSends m p h f) (hj : joined m n) :
    hteSends n p h f := by
  obtain ⟨y, hy, ho, hm⟩ := hs
  exact ⟨y, mem_txq_of_joined hj hy, ho, hm⟩

theorem hteSends_of_only {ps : List Part} {m n : Core} {p h : Nat} {f : Msg → Prop} (hs : hteSends m p h f)
    (hn : m.onlyParts ps n) (hp : Part.ports ∉ ps) : hteSends n p h f := hteSends_joined hs (joined_of_only hn hp)

/-- A message with a route changes the port queues and what a report changes alone. -/
theorem send_routed_state {m : Core} {h : Nat} {e : Bool} {g : Msg} {p : Nat} (hd : g.dest ≠ nodeId m)
    (hr : routeOf m e g.dest = some p) : m.onlyParts (.ports :: Part.report) (send m 16 (some h) e g)
      ∧ m.onlyRegs reportRegs (send m 16 (some h) e g) ∧ hteSends (send m 16 (some h) e g) p h (AsSent m g) := by
  have ht := tally_only .xbr 3 1 m
  refine ⟨?_, ?_, ?_⟩
  · rw [send_routed hd hr]
    exact onlyParts_trans (onlyParts_mono ht (by decide)) (onlyParts_mono (enqueue_only _ _ _ _ _) (by decide))
  · rw [send_routed hd hr]
    exact onlyRegs_trans (tally_regs _ _ _ _) (onlyRegs_of_only (enqueue_only _ _ _ _ _) (by decide))
  · obtain ⟨y, hy, -, ho, hm⟩ := send_mem (src := 16) (o := some h) hd hr
    exact ⟨y, hy, ho, hm⟩

theorem sendH_state {m : Core} {h p : Nat} {x : Hte} {g : Msg} (hd : g.dest ≠ nodeId m)
    (hr : routeOf m x.epoch g.dest = some p) : m.onlyParts (.ports :: Part.report) (sendH m h x g)
      ∧ m.onlyRegs reportRegs (sendH m h x g) ∧ hteSends (sendH m h x g) p h (AsSent m { g with epoch := x.epoch }) :=
  send_routed_state (g := { g with epoch := x.epoch }) hd hr

/-- The message that ends a request stands at its port, and the HTE has ended. -/
theorem sendEnd_state {m : Core} {h p : Nat} {x y : Hte} {g : Msg} (hy : hte m h = some y) (hd : g.dest ≠ nodeId m)
    (hr : routeOf m x.epoch g.dest = some p) : m.onlyParts (.trk :: .ports :: Part.report) (sendEnd m h x g)
      ∧ m.onlyRegs reportRegs (sendEnd m h x g)
      ∧ hte (sendEnd m h x g) h = some { y with ended := true, done := true, wait := .none, cont := .idle }
      ∧ hteSends (sendEnd m h x g) p h (AsSent m { g with epoch := x.epoch }) := by
  obtain ⟨h1, h2, h3⟩ := sendH_state (h := h) hd hr
  have hy' : hte (sendH m h x g) h = some y := (hte_of_only h1 (by decide) h).trans hy
  rw [sendEnd, modHte_eq hy']
  exact ⟨onlyParts_trans (onlyParts_mono h1 (by decide)) (onlyParts_mono (setHte_only _ _ _) (by decide)),
    onlyRegs_trans h2 (onlyRegs_of_eq rfl), hte_setHte_same _ _ _, hteSends_of_only h3 (setHte_only _ _ _) (by decide)⟩

/-- What decides where a message goes is as it was: the node's ID, the configuration and the ports. -/
theorem route_kept {ps : List Part} {as : List Nat} {m n : Core} (h : m.onlyParts ps n) (hp : Part.ports ∉ ps)
    (hc : Part.cfg ∉ ps) (hr : m.onlyRegs as n) (ha : 0x20 ∉ as) :
    nodeId n = nodeId m ∧ ∀ e d, routeOf n e d = routeOf m e d :=
  ⟨nodeId_congr hr ha, routeOf_congr (h .cfg hc) (h .ports hp)⟩

/-! ### How an HTE goes on -/

/-- The HTE goes no further by itself. -/
def Halted (x : Hte) : Prop := x.awaits ≠ [] ∨ x.wait ≠ .none ∨ x.done = true ∨ x.cont = .idle

theorem advance_halted {m : Core} {h : Nat} {x : Hte} (e : Env) (n : Nat) (hx : hte m h = some x) (hh : Halted x) :
    advance e n m h = m := by
  cases n with
  | zero => rfl
  | succ n =>
    rw [advance, hx]
    refine if_neg ?_
    obtain h1 | h1 | h1 | h1 := hh <;> simp [h1]

theorem advance_step {m : Core} {h : Nat} {x : Hte} (e : Env) (n : Nat) (hx : hte m h = some x) (ha : x.awaits = [])
    (hw : x.wait = .none) (hd : x.done = false) (hc : x.cont ≠ .idle) (hk : x.kind = .active) :
    advance e (n + 1) m h = advance e n (runCont m h x e) h := by
  rw [advance, hx]
  exact if_pos (by simp [ha, hw, hd, hc, hk])

theorem flushCmps_none {m : Core} {h : Nat} {x : Hte} (hx : hte m h = some x) (hc : x.cmps = []) :
    SameHtes m (flushCmps m h) := by
  have hsame : ({ x with cmps := [] } : Hte) = x := by rw [← hc]
  rw [flushCmps, hx]
  dsimp only
  split
  · exact sameHtes_refl _
  · rw [hc, List.foldl_nil, modHte_eq hx, hsame]
    exact sameHtes_setHte hx

/-- An HTE that goes no further is as it was. -/
theorem go_halted {m : Core} {h : Nat} {x : Hte} (e : Env) (hx : hte m h = some x) (hc : x.cmps = []) (hh : Halted x)
    (hk : x.kind = .active) : SameHtes m (go m h e) := by
  have h1 := flushCmps_none hx hc
  have hx1 := (sameHtes_hte h1 h).trans hx
  have hstep : goHolder m h e = flushCmps (flushCmps m h) h := by rw [goHolder, advance_halted e 8 hx1 hh]
  have h2 : SameHtes m (goHolder m h e) := hstep ▸ sameHtes_trans h1 (flushCmps_none hx1 hc)
  have hgo : go m h e = goHolder m h e := by
    rw [go, (sameHtes_hte h2 h).trans hx]
    exact if_neg (by simp [hk])
  exact hgo ▸ h2

/-- An HTE that awaits nothing more runs its continuation; where it then goes no further, that is all. -/
theorem go_once {m : Core} {h : Nat} {x : Hte} (e : Env) (hx : hte m h = some x) (hc : x.cmps = []) (ha : x.awaits = [])
    (hw : x.wait = .none) (hd : x.done = false) (hi : x.cont ≠ .idle) (hk : x.kind = .active) :
    ∃ n, SameHtes m n ∧ ∀ y, hte (runCont n h x e) h = some y → y.cmps = [] → Halted y → y.kind = .active →
      SameHtes (runCont n h x e) (go m h e) := by
  have h1 := flushCmps_none hx hc
  have hx1 := (sameHtes_hte h1 h).trans hx
  refine ⟨flushCmps m h, h1, fun y hy hyc hyh hyk => ?_⟩
  have hstep : goHolder m h e = flushCmps (runCont (flushCmps m h) h x e) h := by
    rw [goHolder, advance_step e 7 hx1 ha hw hd hi hk, advance_halted e 7 hy hyh]
  have h2 := flushCmps_none hy hyc
  rw [← hstep] at h2
  have hgo : go m h e = goHolder m h e := by
    rw [go, (sameHtes_hte h2 h).trans hy]
    exact if_neg (by simp [hyk])
  exact hgo ▸ h2

end Sys2Proof.Transactions
end

section
/-! PROOFS. Memory-side atomics (spec/05_atomics.md, spec/09_memory_groom.md), with the statement about them. -/

namespace Sys2Proof.Units

open Sys2Proof.Machine Sys2Proof.Laws Sys2Proof.Windows Sys2Proof.Sending Sys2Proof.Flits Sys2Proof.DramAccess Sys2Proof.Channels
  Sys2Proof.Transactions

/-! ### What an HTE sends when it goes on -/

/-- An HTE whose continuation ends its request sends the message and ends. -/
theorem go_sends {m : Core} {h p : Nat} {x : Hte} {e : Env} {g : Msg} (hx : hte m h = some x) (hc : x.cmps = [])
    (ha : x.awaits = []) (hw : x.wait = .none) (hd : x.done = false) (hi : x.cont ≠ .idle) (hk : x.kind = .active)
    (hrun : ∀ n, hte n h = some x → runCont n h x e = sendEnd n h x g) (hn : g.dest ≠ nodeId m)
    (hr : routeOf m x.epoch g.dest = some p) :
    hte (go m h e) h = some { x with ended := true, done := true, wait := .none, cont := .idle }
    ∧ m.onlyParts (.trk :: .ports :: Part.report) (go m h e) ∧ m.onlyRegs reportRegs (go m h e)
    ∧ hteSends (go m h e) p h (AsSent m { g with epoch := x.epoch }) := by
  obtain ⟨n, hmn, hgo⟩ := go_once e hx hc ha hw hd hi hk
  have hxn := (sameHtes_hte hmn h).trans hx
  obtain ⟨ts, rfl, -⟩ := hmn
  obtain ⟨h1, h2, h3, h4⟩ := sendEnd_state (x := x) (g := g) hxn hn hr
  rw [hrun _ hxn] at hgo
  have hlast := hgo _ h3 hc (Or.inr (Or.inr (Or.inl rfl))) hk
  have hlast' := sameHtes_only hlast
  refine ⟨(sameHtes_hte hlast h).trans h3, ?_, ?_, ?_⟩
  · exact onlyParts_trans (onlyParts_trans (onlyParts_trk m _ (by decide)) h1) (onlyParts_mono hlast' (by decide))
  · exact onlyRegs_trans (onlyRegs_trans (onlyRegs_of_eq rfl) h2) (onlyRegs_of_only hlast' (by decide))
  · exact hteSends_of_only h4 hlast' (by decide)

/-! ### A unit's queue (R222 to R224) -/

theorem hlcLookup_clean (m : Core) (l : LineAddr) : (hlcLookup m l .clean).2 = m := by
  unfold hlcLookup
  split
  · rfl
  · dsimp only
    split <;> rfl

theorem tagOnly_clean : tagOnly .clean = .clean := rfl

theorem hlcInval_clean_only (m : Core) (l : LineAddr) : m.onlyParts [.ca] (hlcInval m l .clean) := by
  unfold hlcInval
  split
  · rw [tagOnly_clean, hlcLookup_clean]
    exact onlyParts_ca m _ (by decide)
  · rw [tagOnly_clean, hlcLookup_clean]
    exact onlyParts_refl _ _

/-- No copy of the line stays, and a read in flight keeps none. -/
def copiesGone (m : Core) (l : LineAddr) : Core := markStale (sidingInval (hlcInval m l .clean) l) l

theorem copiesGone_only (m : Core) (l : LineAddr) : m.onlyParts [.ca] (copiesGone m l) :=
  onlyParts_trans (onlyParts_trans (hlcInval_clean_only m l) (onlyParts_ca _ _ (by decide))) (onlyParts_ca _ _ (by decide))

theorem llaOf_congr {m n : Core} (h : n.cfg = m.cfg) (e : Bool) (l : LineAddr) : llaOf n e l = llaOf m e l := by
  simp only [llaOf, rangeOf, Machine.setOf, h]

/-- The operation that an atomic leaves in its unit's queue. -/
def unitOp (m : Core) (h : Nat) (x : Hte) : UnitOp :=
  { hte := h, line := x.msg.line, lla := llaOf m x.epoch x.msg.line, msg := x.msg, order := m.ca.mbSeq }

/-- The machine with an operation at the end of a unit's queue. -/
def queued (m : Core) (ch : Nat) (o : UnitOp) : Core :=
  modAtm (nextOrder m) fun a => { a with units := tput [] a.units ch (tget [] a.units ch ++ [o]) }

theorem unitEnter_eq {m : Core} {h : Nat} {x : Hte} (ch : Nat) (hx : hte m h = some x) : unitEnter m h x.msg.line x ch
    = setHte (queued (copiesGone m x.msg.line) ch (unitOp m h x)) h { x with awaits := x.awaits ++ [.unit], wait := .none } := by
  have hcopies := copiesGone_only m x.msg.line
  have hop : unitOp m h x
      = { unitOp m h x with lla := llaOf (nextOrder (copiesGone m x.msg.line)) x.epoch x.msg.line } := by
    rw [llaOf_congr (m := m) (n := nextOrder (copiesGone m x.msg.line)) (hcopies .cfg (by decide))]
    rfl
  have hx' : hte (queued (copiesGone m x.msg.line) ch (unitOp m h x)) h = some x :=
    (hte_congr (congrArg Tracker.htes (hcopies .trk (by decide))) h).trans hx
  have hstep : unitEnter m h x.msg.line x ch
      = waitFor (await (queued (copiesGone m x.msg.line) ch (unitOp m h x)) h .unit) h .none := by
    rw [hop]
    rfl
  rw [hstep, await_eq hx', waitFor_eq (hte_setHte_same _ _ _), setHte_setHte]

theorem unitGrant_eq {m : Core} {h ch : Nat} {x : Hte} (hm : m.trk.htes = [(h, x)]) (hw : x.wait = .unitQueue ch)
    (hl : (tget [] m.atm.units ch).length < 16) : unitGrant m ch = unitEnter m h x.msg.line x ch := by
  rw [unitGrant, hm, List.foldl_cons, List.foldl_nil, if_pos hw]
  exact if_neg (by omega)

/-! ### A unit's read and its result (R225, R245, R459) -/

/-- An operation whose read has returned. -/
def opRead (o : UnitOp) (d : LineData) (p ue : Bool) : UnitOp := { o with started := true, old := d, poison := p, ue := ue }

/-- The machine with a unit's queue replaced. -/
def setUnit (m : Core) (ch : Nat) (q : List UnitOp) : Core := modAtm m fun a => { a with units := tput [] a.units ch q }

theorem tget_setUnit (m : Core) (ch : Nat) (q : List UnitOp) : tget [] (setUnit m ch q).atm.units ch = q := by
  rw [setUnit, modAtm, tget_tput, if_pos rfl]

theorem setUnit_only (m : Core) (ch : Nat) (q : List UnitOp) : m.onlyParts [.atm] (setUnit m ch q) := onlyParts_atm m _ (by decide)

/-- A unit's read of its line. -/
def lineRead (d : Dram) (m : Core) (ch : Nat) (o : UnitOp) : LineData × Bool × Bool × Core :=
  dramRead d (tally .mem (88 + ch) 1 m) o.line o.lla .clean

theorem unitStart_eq {d : Dram} {m : Core} {ch : Nat} {o : UnitOp} {q : List UnitOp} (hq : tget [] m.atm.units ch = o :: q)
    (hs : o.started = false) (hready : unitReady m (o :: q) o = true) (hh : isHome m = true) :
    unitStart ch .clean d m = setUnit (lineRead d m ch o).2.2.2 ch
      (opRead o (lineRead d m ch o).1 (lineRead d m ch o).2.1 (lineRead d m ch o).2.2.1 :: q) := by
  have hfind : (o :: q).find? (fun p => !p.started) = some o := List.find?_cons_of_pos (by simp [hs])
  rw [unitStart, hq]
  dsimp only
  rw [hfind]
  dsimp only
  rw [if_neg (by simp [hready, hh]), firstUnstarted, hs]
  rfl

theorem lineRead_state {d : Dram} {m : Core} {o : UnitOp} (ch : Nat) (hf : chFailed m (chanOf m o.lla) = false)
    (hr : m.mem.repair = none) : (lineRead d m ch o).1 = readLine d o.lla ∧ (lineRead d m ch o).2.1 = isPoisoned d o.lla
      ∧ (lineRead d m ch o).2.2.1 = false ∧ m.onlyParts (.mem :: Part.report) (lineRead d m ch o).2.2.2 := by
  have ht := tally_only .mem (88 + ch) 1 m
  have hcfg : rget (tally .mem (88 + ch) 1 m) 0x1800 = rget m 0x1800 := tally_regs .mem (88 + ch) 1 m 0x1800 (by decide)
  have hmem : (tally .mem (88 + ch) 1 m).mem = m.mem := ht .mem (by decide)
  have hf' : chFailed (tally .mem (88 + ch) 1 m) (chanOf (tally .mem (88 + ch) 1 m) o.lla) = false := by
    rw [chanOf_congr hcfg, chFailed_congr (congrArg Mem.failed hmem), hf]
  obtain ⟨h1, h2, h3⟩ := dramRead_clean_data (d := d) o.line hf' (inBuffer_none (by rw [hmem, hr]) o.lla)
  exact ⟨h1, h2, h3, onlyParts_trans (onlyParts_mono ht (by decide)) (dramRead_clean_only o.line hf').1⟩

/-- The result of an operation whose line was read without error enters the write queue. -/
theorem unitResult_eq {d : Dram} {m : Core} {ch : Nat} {o : UnitOp} {q : List UnitOp} (hq : tget [] m.atm.units ch = o :: q)
    (hs : o.started = true) (hue : o.ue = false) (hp : o.poison = false) (hh : isHome m = true) (hw : wqTakes m o.lla = true)
    (hf : chFailed m (chanOf m o.lla) = false) (hr : m.mem.repair = none) : unitResult ch d m
      = (writeLine d o.lla (atmLine o.msg o.old) false,
          if o.dropped then written (setUnit m ch q) o.lla
          else go (unawait (gotData (written (setUnit m ch q) o.lla) o.hte o.old false) o.hte .unit) o.hte Env.clean) := by
  have hf' : chFailed (setUnit m ch q) (chanOf (setUnit m ch q) o.lla) = false := by
    rw [chanOf_congr (m := m) (n := setUnit m ch q) rfl, chFailed_congr (m := m) (n := setUnit m ch q) rfl, hf]
  have hwrite := dramWrite_direct (d := d) (atmLine o.msg o.old) false hf' hr
  rw [unitResult, hq, takeFirst, if_pos hs]
  dsimp only
  rw [if_neg (by simp [hh, hw]), hue, hp, if_neg Bool.false_ne_true, if_neg Bool.false_ne_true]
  change (if o.dropped = true then dramWrite d (setUnit m ch q) o.lla (atmLine o.msg o.old) false else _) = _
  have hwrite' : dramWrite d (modAtm m fun a => { a with units := tput [] a.units ch q }) o.lla (atmLine o.msg o.old) false
      = (writeLine d o.lla (atmLine o.msg o.old) false, written (setUnit m ch q) o.lla) := hwrite
  rw [hwrite, hwrite']
  split <;> rfl

theorem written_setUnit (m : Core) (ch : Nat) (q : List UnitOp) (lla : Nat) :
    m.onlyParts (.atm :: .mem :: Part.report) (written (setUnit m ch q) lla)
    ∧ m.onlyRegs reportRegs (written (setUnit m ch q) lla) ∧ tget [] (written (setUnit m ch q) lla).atm.units ch = q := by
  obtain ⟨h1, h2, -⟩ := written_state (setUnit m ch q) lla
  refine ⟨onlyParts_trans (onlyParts_mono (setUnit_only m ch q) (by decide)) (onlyParts_mono h1 (by decide)),
    onlyRegs_trans (onlyRegs_of_eq rfl) h2, ?_⟩
  rw [show (written (setUnit m ch q) lla).atm = (setUnit m ch q).atm from h1 .atm (by decide)]
  exact tget_setUnit m ch q

/-- The answer to an atomic that a unit has run (R211). -/
def atomicAnswer (x : Hte) (h : Nat) (d : LineData) (p : Bool) : Msg :=
  { toReq x h .dsh with data := atmResult x.msg d, poison := p, status := 1 }

theorem homeAnswer_atUnit {m : Core} {h : Nat} {x : Hte} (hx : hte m h = some x) (ho : x.msg.op = .atm) (hu : x.atUnit = true) :
    homeAnswer m h = sendEnd m h x (atomicAnswer x h x.buf x.bufPoison) := by
  rw [homeAnswer, hx]
  dsimp only
  rw [ho]
  exact if_pos hu

/-! ### The predictor's decay (R234) -/

theorem tfind_map_range {α : Type} (f : Nat → α) (n i : Nat) (p : α → Bool) :
    tfind (((List.range n).map fun j => (j, f j)).filter fun x => p x.2) i = if i < n ∧ p (f i) = true then some (f i) else none := by
  induction n with
  | zero => simp [tfind]
  | succ n ih =>
    have happ (a b : Tab α) : tfind (a ++ b) i = (tfind a i).or (tfind b i) := by
      induction a with
      | nil => rfl
      | cons c r ihr =>
        obtain ⟨k, v⟩ := c
        by_cases hk : k = i <;> simp [tfind, hk, ihr]
    rw [List.range_succ, List.map_append, List.filter_append, happ, ih]
    by_cases hp : p (f n) = true
    · by_cases hi : i < n
      · by_cases hpi : p (f i) = true
        · simp [hi, hpi, Nat.lt_succ_of_lt hi]
        · have hne : n ≠ i := by omega
          simp [hi, hpi, tfind, hne, hp]
      · by_cases hn : n = i
        · subst hn
          simp [tfind, hp]
        · have : ¬ i < n + 1 := by omega
          simp [hi, this, tfind, hn, hp]
    · by_cases hn : n = i
      · subst hn
        simp [hp, tfind]
      · have : (i < n + 1) ↔ (i < n) := by omega
        simp [hp, this, tfind]

theorem predCtr_decayPass {m : Core} (h : rfld m 0x1C00 15 0 ≠ 0) {i : Nat} (hi : i < 1024) :
    predCtr (decayPass m) i = predCtr m i - 1 := by
  have hfind := tfind_map_range (fun j => tget 1 m.atm.pred j - 1) 1024 i (fun v => decide (v ≠ 1))
  rw [predCtr, decayPass, if_neg h, modAtm, tget, hfind]
  by_cases hv : tget 1 m.atm.pred i - 1 = 1
  · simp [hi, hv, predCtr]
  · simp [hi, hv, predCtr]

theorem decayPass_state {m : Core} (h : rfld m 0x1C00 15 0 ≠ 0) : (decayPass m).atm.recent = m.atm.recent
    ∧ (decayPass m).atm.units = m.atm.units ∧ m.onlyParts [.atm] (decayPass m) := by
  rw [decayPass, if_neg h]
  generalize List.range 1024 = l
  exact ⟨rfl, rfl, onlyParts_atm m _ (by decide)⟩

/-- Settles O46: the queue by `unitEnter_eq`, the read by `lineRead_state`, the result by `unitResult_eq` and `go_sends`,
the decay by `predCtr_decayPass`. -/
theorem memorySideAtomicsRun : Obligations.MemorySideAtomicsRun := by
  refine ⟨fun s ch h x hr hm hw hl => ?_, fun s ch o q hr hq hs hready hh hf hrep hpois => ?_,
    fun s ch o q hr hq hs hue hp hdrop hh hw hf hrep => ?_,
    fun s ch o q x p hr hq hs hue hp hdrop hh hw hf hrep hx hk hc hop ha hwait hcont hat hd hn hroute => ?_, fun s hr h => ?_⟩
  · have hx : hte s.m h = some x := by rw [hte, hm, tfind, if_pos rfl]
    have hcopies := copiesGone_only s.m x.msg.line
    refine ⟨_, clocked_next (f := fun m => unitGrant m ch.val) hr ((unitGrant_eq hm hw hl).trans (unitEnter_eq _ hx)), ?_,
      hte_setHte_same _ _ _, only_next ?_⟩
    · change tget [] (queued (copiesGone s.m x.msg.line) ch.val (unitOp s.m h x)).atm.units ch.val = _
      rw [queued, modAtm, tget_tput, if_pos rfl]
      change tget [] (copiesGone s.m x.msg.line).atm.units ch.val ++ _ = _
      rw [hcopies .atm (by decide)]
      rfl
    · exact onlyParts_trans (onlyParts_trans (onlyParts_mono hcopies (by decide)) (onlyParts_trans (onlyParts_ca _ _ (by decide))
        (onlyParts_atm _ _ (by decide)))) (onlyParts_mono (setHte_only _ _ _) (by decide))
  · obtain ⟨h1, h2, h3, h4⟩ := lineRead_state (d := s.dram) ch.val hf hrep
    refine ⟨_, clockedRead_next (f := unitStart ch.val .clean) hr (unitStart_eq hq hs hready hh), ?_, only_next ?_⟩
    · change tget [] (setUnit _ _ _).atm.units ch.val = _
      rw [tget_setUnit, h1, h2, h3, hpois]
      rfl
    · exact onlyParts_trans (onlyParts_mono h4 (by decide)) (onlyParts_mono (setUnit_only _ _ _) (by decide))
  · obtain ⟨h1, h2, h3⟩ := written_setUnit s.m ch.val q o.lla
    have hstep := unitResult_eq (d := s.dram) hq hs hue hp hh hw hf hrep
    rw [if_pos hdrop] at hstep
    exact ⟨_, clockedDram_next (f := unitResult ch.val) hr hstep, h3, rfl, rfl, h1⟩
  · obtain ⟨h1, h2, h3⟩ := written_setUnit s.m ch.val q o.lla
    have hstep := unitResult_eq (d := s.dram) hq hs hue hp hh hw hf hrep
    rw [if_neg (by simp [hdrop])] at hstep
    generalize written (setUnit s.m ch.val q) o.lla = n at h1 h2 h3 hstep
    have hxn : hte n o.hte = some x := (hte_of_only h1 (by decide) _).trans hx
    rw [gotData_eq hxn, unawait_eq (hte_setHte_same _ _ _), setHte_setHte, ha] at hstep
    obtain ⟨hnode, hroutes⟩ := route_kept h1 (by decide) (by decide) h2 (by decide)
    obtain ⟨g1, g2, g3, g4⟩ := go_sends (m := setHte n o.hte { x with buf := o.old, bufPoison := false, haveBuf := true, awaits := [] })
      (e := Env.clean) (p := p) (g := atomicAnswer x o.hte o.old false) (hte_setHte_same _ _ _) hc rfl hwait hd (by simp [hcont]) hk
      (fun k hk => by
        rw [runCont]
        simp only [hcont]
        rw [homeAnswer_atUnit hk hop hat]
        rfl)
      (by rw [show nodeId (setHte n o.hte _) = nodeId n from rfl, hnode]; exact hn)
      (by rw [show routeOf (setHte n o.hte _) = routeOf n from rfl, hroutes]; exact hroute)
    have hset := setHte_only n o.hte { x with buf := o.old, bufPoison := false, haveBuf := true, awaits := [] }
    refine ⟨_, _, clockedDram_next (f := unitResult ch.val) hr hstep, ?_, rfl, rfl, g1, rfl, rfl, ?_, ?_⟩
    · exact (congrArg (fun a : Atomics => tget [] a.units ch.val) (g2 .atm (by decide) :)).trans h3
    · refine hteSends_mono g4 fun r hr => ?_
      obtain ⟨d, rfl⟩ := hr
      exact ⟨rfl, rfl, rfl, rfl, rfl, rfl⟩
    · exact onlyParts_trans (onlyParts_trans (onlyParts_mono h1 (by decide)) (onlyParts_mono hset (by decide)))
        (onlyParts_mono g2 (by decide))
  · obtain ⟨h1, h2, h3⟩ := decayPass_state h
    exact ⟨_, clocked_next (f := decayPass) hr rfl, fun i hi => predCtr_decayPass h hi, h1, h2, only_next h3⟩

end Sys2Proof.Units
end

section
/-! PROOFS. Fault-free reads of the directory (spec/07_directory_deck.md), and the way to a transaction's decision
(Machine/Requests.lean). -/

namespace Sys2Proof.Lookups

open Sys2Proof.Machine Sys2Proof.Laws Sys2Proof.Sending Sys2Proof.Channels Sys2Proof.Transactions

/-! ### The directory reads the same while its Deck and DIR.SPLIT are as they were -/

section
variable {m n : Core} (hd : n.deck = m.deck)
include hd

theorem dirEnt_congr (k : Nat) : dirEnt n k = dirEnt m k := by rw [dirEnt, dirEnt, hd]

theorem retired_congr (set : Nat) : retired n set = retired m set := by rw [retired, retired, retiredCopies, retiredCopies, hd]

theorem dirFind_congr (hr : rget n 0x1000 = rget m 0x1000) (home : Bool) (l : LineAddr) : dirFind n home l = dirFind m home l := by
  unfold dirFind waysOf dirEnt split rfld
  rw [hd, hr]

end

/-! ### Reads without a fault -/

theorem inWays_clean (ways : List Nat) : inWays ways Env.clean = [] := rfl

theorem deckRead_clean (m : Core) (ways : List Nat) (set : Nat) (mirror : Bool) : deckRead m ways set mirror Env.clean = m := by
  rw [deckRead, inWays_clean, List.foldl_nil]
  split
  · rfl
  · exact if_pos rfl

theorem recoverable_none (m : Core) (h set : Nat) : recoverable m h set [] = none := by
  rw [recoverable, List.findSome?_eq_none_iff]
  intro w _
  rfl

theorem lookupRead_clean (m : Core) (home : Bool) (l : LineAddr) : lookupRead m home l Env.clean = m := deckRead_clean _ _ _ _

theorem lookupRecover_clean (m : Core) (home : Bool) (h : Nat) (l : LineAddr) : lookupRecover m home h l Env.clean = none :=
  recoverable_none _ _ _

theorem badLines_clean (m : Core) (set : Nat) : badLines m set Env.clean = [] := by
  rw [badLines, List.filterMap_eq_nil_iff]
  intro w _
  exact congrArg (Option.map _) (recoverable_none m 4096 set)

/-! ### The way to a decision -/

/-- An HTE whose decision is being made. -/
def deciding (x : Hte) : Hte := { x with wait := .none }

theorem modHte_deciding {m : Core} {h : Nat} {x : Hte} (hx : hte m h = some x) :
    modHte m h (fun y => { y with wait := .none }) = setHte m h (deciding x) := modHte_eq hx _

theorem decideIf_eq {m : Core} {h : Nat} {x : Hte} {p : Core → Hte → Bool} (e : Env) (hx : hte m h = some x) (hk : x.kind = .active)
    (hw : x.wait = .decision) (hp : p m x = true) : decideIf p h e m = decideHte m h e := by
  rw [decideIf, hx]
  exact if_pos (by simp [hk, hw, hp])

theorem decideHte_walk {m : Core} {h n : Nat} {x : Hte} (e : Env) (hx : hte m h = some x) (hj : x.job = .walk n) :
    decideHte m h e = go (walkDecide (setHte m h (deciding x)) h e) h e := by
  rw [decideHte, hx]
  dsimp only
  rw [modHte_deciding hx]
  simp only [hj]

theorem decideHte_home {m : Core} {h : Nat} {x : Hte} (e : Env) (hx : hte m h = some x) (hj : x.job = .external)
    (hs : homeServes m x.epoch x.msg.line x.slot = true) (hc : clsOf x.msg.op ≠ .wbk) :
    decideHte m h e = go (decideReq (setHte m h (deciding x)) h e) h e := by
  have hs' : homeServes (setHte m h (deciding x)) x.epoch x.msg.line x.slot = true := hs
  rw [decideHte, hx]
  dsimp only
  rw [modHte_deciding hx]
  simp only [hj]
  rw [hs', if_pos rfl, if_neg (by simp [hc])]

theorem decideHte_homeWb {m : Core} {h : Nat} {x : Hte} (e : Env) (hx : hte m h = some x) (hj : x.job = .external)
    (hs : homeServes m x.epoch x.msg.line x.slot = true) (hc : clsOf x.msg.op = .wbk) :
    decideHte m h e = go (homeWb (setHte m h (deciding x)) h e) h e := by
  have hs' : homeServes (setHte m h (deciding x)) x.epoch x.msg.line x.slot = true := hs
  rw [decideHte, hx]
  dsimp only
  rw [modHte_deciding hx]
  simp only [hj]
  rw [hs', if_pos rfl, if_pos (by simp [hc])]

theorem decideHte_jct {m : Core} {h : Nat} {x : Hte} (e : Env) (hx : hte m h = some x) (hj : x.job = .external)
    (hs : homeServes m x.epoch x.msg.line x.slot = false) (hc : clsOf x.msg.op ≠ .wbk) :
    decideHte m h e = go (jctDecide (setHte m h (deciding x)) h e) h e := by
  have hs' : homeServes (setHte m h (deciding x)) x.epoch x.msg.line x.slot = false := hs
  rw [decideHte, hx]
  dsimp only
  rw [modHte_deciding hx]
  simp only [hj]
  rw [hs', if_neg Bool.false_ne_true, if_neg (by simp [hc])]

theorem decideHte_jctWb {m : Core} {h : Nat} {x : Hte} (e : Env) (hx : hte m h = some x) (hj : x.job = .external)
    (hs : homeServes m x.epoch x.msg.line x.slot = false) (hc : clsOf x.msg.op = .wbk) :
    decideHte m h e = go (jctWb (setHte m h (deciding x)) h e) h e := by
  have hs' : homeServes (setHte m h (deciding x)) x.epoch x.msg.line x.slot = false := hs
  rw [decideHte, hx]
  dsimp only
  rw [modHte_deciding hx]
  simp only [hj]
  rw [hs', if_neg Bool.false_ne_true, if_pos (by simp [hc])]

/-! ### A transaction that has nothing more to send -/

/-- An HTE that awaits nothing and finishes has ended. -/
theorem go_finish {m : Core} {h : Nat} {x : Hte} (e : Env) (hx : hte m h = some x) (hc : x.cmps = []) (ha : x.awaits = [])
    (hw : x.wait = .none) (hf : x.cont = .finish) (hk : x.kind = .active) : m.onlyParts [.trk] (go m h e)
      ∧ hte (go m h e) h = some { x with done := true, cont := if x.done then .finish else .idle } := by
  by_cases hd : x.done = true
  · have hsame : ({ x with done := true, cont := if x.done then .finish else .idle } : Hte) = x := by
      rw [hd, if_pos rfl, ← hf, ← hd]
    have hgo := go_halted e hx hc (Or.inr (Or.inr (Or.inl hd))) hk
    rw [hsame]
    exact ⟨sameHtes_only hgo, (sameHtes_hte hgo h).trans hx⟩
  · rw [Bool.not_eq_true] at hd
    obtain ⟨n, hmn, hgo⟩ := go_once e hx hc ha hw hd (by simp [hf]) hk
    have hxn := (sameHtes_hte hmn h).trans hx
    have hrun : runCont n h x e = setHte n h { x with done := true, wait := .none, cont := .idle } := by
      rw [runCont]
      simp only [hf]
      exact endHte_eq hxn
    rw [hrun] at hgo
    have hlast := hgo _ (hte_setHte_same _ _ _) hc (Or.inr (Or.inr (Or.inl rfl))) hk
    refine ⟨onlyParts_trans (onlyParts_trans (sameHtes_only hmn) (setHte_only _ _ _)) (sameHtes_only hlast), ?_⟩
    rw [sameHtes_hte hlast, hte_setHte_same, hd, ← hw]
    rfl

end Sys2Proof.Lookups
end

section
/-! PROOFS. The directory's engines (spec/07_directory_deck.md), with the statement about them. -/

namespace Sys2Proof.Engines

open Sys2Proof.Machine Sys2Proof.Laws Sys2Proof.Windows Sys2Proof.Controls Sys2Proof.Channels Sys2Proof.Arriving
  Sys2Proof.Transactions Sys2Proof.Lookups

/-! ### The mirror, the groom and the buckets (R310, R313, R327, R464) -/

/-- The posted write of a mirror tag made. -/
def tagMirrored (m : Core) (y k : Nat) (tag : BitVec 24) (r : List (Nat × BitVec 24)) : Core :=
  modDeck m fun d => { d with mirror := tput 0 d.mirror k tag, posted := tput [] d.posted y r }

theorem mirrorWrite_eq {m : Core} {y k : Nat} {tag : BitVec 24} {r : List (Nat × BitVec 24)}
    (h : tget [] m.deck.posted y = (k, tag) :: r) : mirrorWrite m y = tagMirrored m y k tag r := by
  rw [mirrorWrite, tagMirrored, modDeck, modDeck, h]

theorem groomWays_clean (m : Core) (set : Nat) (ways : List Nat) : groomWays m set ways Env.clean = m := by
  have henv : ({ Env.clean with deck := inWays ways Env.clean } : Env) = Env.clean := rfl
  rw [groomWays]
  split
  · rfl
  · dsimp only
    rw [henv, deckRead_clean, badLines_clean, ite_self]

theorem groomHlc_clean (m : Core) (set : Nat) : groomHlc m set Env.clean = m := by
  rw [groomHlc]
  split
  · rfl
  · split <;> rfl

/-- A set visited in the groom's pass. -/
def setVisited (m : Core) (set : Nat) : Core :=
  modDeck m fun d => { d with groomSeen := set :: d.groomSeen
                              groomSkip := d.groomSkip ++ (groomHeld m set).map fun w => 16 * set + w }

theorem groomSet_clean (m : Core) (set : Nat) : groomSet m set Env.clean = setVisited m set := by
  rw [groomSet]
  rw [groomWays_clean, groomHlc_clean, ite_self]
  rfl

/-- The entries of a set that wait for the end of the pass are visited no more. -/
def setAgain (m : Core) (set : Nat) : Core :=
  modDeck m fun d => { d with groomSkip := d.groomSkip.filter fun k => !decide (k / 16 = set) }

/-- The groom's visit of a set at the end of its pass. -/
theorem deckGroomVisit_again {m : Core} {set : Nat} (hi : m.deck.initDone = true) (hn : 262144 ≤ m.deck.groomSeen.length)
    (hs : m.deck.groomSkip ≠ []) : (setAgain m set).onlyParts [.trk] (deckGroomVisit m set Env.clean) := by
  rw [deckGroomVisit, hi, if_neg (by simp), if_neg (by omega), if_neg hs]
  dsimp only
  split
  · next hnone =>
    have hkept : m.deck.groomSkip.filter (fun k => !decide (k / 16 = set)) = m.deck.groomSkip := by
      refine List.filter_eq_self.2 fun k hk => ?_
      have := List.filter_eq_nil_iff.1 (List.map_eq_nil_iff.1 hnone) k hk
      simpa using this
    have hsame : setAgain m set = m := by rw [setAgain, modDeck, hkept]
    rw [hsame]
    exact onlyParts_refl _ _
  · rw [groomWays_clean]
    refine onlyParts_foldl _ (fun n w => ?_) _ _
    split
    · exact countRule_only _ _
    · exact onlyParts_refl _ _

theorem bucketLeak_one {m : Core} {b v : Nat} (h : m.deck.buckets = [(b, v)]) : tget 0 (bucketLeak m).deck.buckets b = v - 1 := by
  rw [bucketLeak, modDeck]
  dsimp only
  rw [h]
  by_cases hv : v - 1 = 0
  · simp [hv, tget, tfind]
  · simp [hv, tget, tfind]

/-! ### The walk's visits (R319, R320, R323) -/

/-- The walk stands at the next set, one set less in the window of each order. -/
def walkMoved (m : Core) (set : Nat) : Core :=
  modDeck m fun d => { d with
    pos := (set + 1) % 262144
    orders := d.orders.map fun o => if o.left = 0 then o else { o with left := o.left - 1, need := d.walkSerial } }

theorem walkVisit_retired {m : Core} (ho : m.deck.orders ≠ []) (hr : retired m m.deck.pos = true) (hl : m.deck.walkOut.length < 64) :
    walkVisit m Env.clean = walkMoved m m.deck.pos := by
  rw [walkVisit]
  dsimp only
  rw [deckRead_clean, if_pos hr, if_pos hr, if_neg (by simp [ho]; omega)]
  rfl

theorem range16_filter (w : Fin 16) : (List.range 16).filter (fun v => decide (v = w.val)) = [w.val] := by
  revert w
  decide

theorem walkHits_one {m : Core} {set : Nat} {w : Fin 16} (hh : m.trk.htes = [])
    (hc : ∀ v : Fin 16, concerns m (dirEnt m (16 * set + v.val)) = decide (v = w)) : walkHits m set = [w.val] := by
  rw [← range16_filter w, walkHits]
  refine List.filter_congr fun v hv => ?_
  have hv16 : v < 16 := List.mem_range.1 hv
  have hfree (l : LineAddr) : lineHeld m l = false := by rw [lineHeld, hh]; rfl
  dsimp only
  rw [hc ⟨v, hv16⟩, hfree, Bool.and_false, Bool.or_false]
  simp [Fin.ext_iff]

/-- A visit that finds one entry that an order concerns. -/
theorem walkVisit_one {m : Core} {w : Fin 16} (ho : m.deck.orders ≠ []) (hr : retired m m.deck.pos = false)
    (hl : m.deck.walkOut.length < 64) (hw : walkHits m m.deck.pos = [w.val]) : walkVisit m Env.clean
      = walkMoved (walkSubmit .walk m (lineOf m.deck.pos (dirEnt m (16 * m.deck.pos + w.val)).tag)) m.deck.pos := by
  have hkeep : ([w.val].filter fun w => !(Env.clean.deck.any fun f => decide (f.1.val = w)
      && (needsRecovery m (16 * m.deck.pos + w) f.2).isSome)) = [w.val] := rfl
  have hnr : ¬ retired m m.deck.pos = true := by simp [hr]
  rw [walkVisit]
  dsimp only
  rw [deckRead_clean, if_neg hnr, if_neg hnr, badLines_clean, hw, hkeep, if_neg (by simp [ho]; omega)]
  rfl

/-- An arrival of the walk is outstanding under the next serial number. -/
def walkNumbered (m : Core) : Core :=
  modDeck m fun d => { d with walkSerial := m.deck.walkSerial + 1, walkOut := d.walkOut ++ [m.deck.walkSerial] }

theorem walkSubmit_state (j : Nat → Job) (m : Core) (l : LineAddr) : (walkSubmit j m l).deck = (walkNumbered m).deck
    ∧ m.onlyParts [.deck, .ports, .trk] (walkSubmit j m l)
    ∧ ∃ a ∈ (walkSubmit j m l).trk.arrivals, a.job = j m.deck.walkSerial ∧ a.port = 16 ∧ a.msg.line = l := by
  have harr := arriveLocal_only (walkNumbered m) (j m.deck.walkSerial) { op := .fls, line := l }
  exact ⟨harr .deck (by decide),
    onlyParts_trans (onlyParts_deck m _ (by decide)) (onlyParts_mono harr (by decide)),
    mem_arriveLocal (walkNumbered m) (j m.deck.walkSerial) { op := .fls, line := l }⟩

/-! ### Walk arrivals (R321) -/

theorem sinRound_none {m : Core} {h : Nat} (l : LineAddr) : sinRound m h l 0 = m := by
  have hslots : slotsIn 0 = [] := by simp [slotsIn]
  rw [sinRound]
  split
  · rfl
  · rw [hslots, List.foldl_nil]

/-- The entry that remains of a shared one whose lost slots are removed. -/
def slotsRemoved (d : DirEnt) (v : BitVec 256) (ep : Bool) : DirEnt :=
  if d.vec &&& ~~~v = 0 then {} else { d with vec := d.vec &&& ~~~v, epoch := ep }

/-- A walk arrival that leaves entry `d` in way `k` and has nothing more to do. -/
def leaving (x : Hte) (k : Nat) (d : DirEnt) : Hte := { x with key := some k, fin := some d, wait := .none, cont := .finish }

theorem walkAct_lost {m : Core} {h k : Nat} {x : Hte} {d : DirEnt} (hx : hte m h = some x) (he : hasEntry m x.msg.line k d)
    (hs : d.st = .s) (hl : orderedIn m .lost d.vec ≠ 0) (hc : orderedIn m .clear d.vec = 0) : walkAct m h
      = setHte m h (leaving x k (slotsRemoved d (orderedIn m .lost d.vec) x.epoch)) := by
  obtain ⟨hfind, hent⟩ := he
  have hord (n : WalkKind) (y : Hte) : orderedIn (setHte m h y) n d.vec = orderedIn m n d.vec := rfl
  have hclear : orderedIn m .clear d.vec &&& ~~~orderedIn m .lost d.vec = 0 := by simp [hc]
  have hor : orderedIn m .lost d.vec ||| 0 = orderedIn m .lost d.vec := by simp
  rw [walkAct, hx]
  dsimp only
  rw [hfind]
  dsimp only
  rw [hent, modHte_eq hx, hs]
  dsimp only
  rw [hord, hord, hclear, hor, if_neg hl, setFin_eq (hte_setHte_same _ _ _), setHte_setHte, sinRound_none,
    andThen_eq (hte_setHte_same _ _ _), setHte_setHte]
  simp [slotsRemoved, leaving, hs]

theorem walkDecide_lost {m : Core} {h k : Nat} {x : Hte} {d : DirEnt} (hx : hte m h = some x) (he : hasEntry m x.msg.line k d)
    (hr : retired m (dirSet x.msg.line) = false) (hs : d.st = .s) (hl : orderedIn m .lost d.vec ≠ 0)
    (hc : orderedIn m .clear d.vec = 0) : walkDecide m h Env.clean
      = setHte (tally .dir 6 1 m) h (leaving x k (slotsRemoved d (orderedIn m .lost d.vec) x.epoch)) := by
  have ht := tally_only .dir 6 1 m
  have hdeck : (tally .dir 6 1 m).deck = m.deck := ht .deck (by decide)
  have hx' : hte (tally .dir 6 1 m) h = some x := (hte_of_only ht (by decide) h).trans hx
  have hord (n : WalkKind) : orderedIn (tally .dir 6 1 m) n d.vec = orderedIn m n d.vec := by rw [orderedIn, orderedIn, hdeck]
  have he' : hasEntry (tally .dir 6 1 m) x.msg.line k d :=
    ⟨(dirFind_congr hdeck (tally_regs _ _ _ m _ (by decide)) _ _).trans he.1, (dirEnt_congr hdeck k).trans he.2⟩
  have hact := walkAct_lost hx' he' hs (by rwa [hord]) (by rwa [hord])
  rw [hord] at hact
  rw [walkDecide, hx]
  dsimp only
  rw [deckRead_clean, retired_congr hdeck, hr, if_neg Bool.false_ne_true, inWays_clean, recoverable_none]
  exact hact

/-! ### The end of an order, and row sparing (R323, R331, R333) -/

/-- The done bit and the slot of a cleared order. -/
def orderDone (m : Core) (slot : Nat) : Core :=
  rsetf (rsetf (modDeck m fun d => { d with orders := [] }) 0x1010 30 30 1) 0x1010 23 16 slot

theorem walkOrderDone_clear {m : Core} {slot : Nat}
    (ho : m.deck.orders = [{ kind := .clear, slot := slot, left := 0, need := m.deck.walkSerial }]) (hw : m.deck.walkOut = []) :
    walkOrderDone m = raise (orderDone m slot) 55 := by
  rw [walkOrderDone, ho, hw, takeFirst, if_pos (by simp)]
  rfl

theorem orderDone_state (m : Core) (slot : Nat) : m.onlyParts [.deck, .regs] (orderDone m slot)
    ∧ rbit (orderDone m slot) 0x1010 30 = true ∧ rfld (orderDone m slot) 0x1010 23 16 = slot % 256 := by
  refine ⟨onlyParts_trans (onlyParts_deck m _ (by decide)) (onlyParts_trans (onlyParts_rset _ _ _ (by decide))
    (onlyParts_rset _ _ _ (by decide))), ?_, ?_⟩
  · rw [orderDone, rbit_rsetf _ _ _ _ _ _ _ (by decide), if_pos rfl, if_neg (by decide), rbit_rsetf _ _ _ _ _ _ _ (by decide)]
    rfl
  · rw [orderDone, rfld, rsetf, rget_rset_same, fld_putFld_same _ _ _ _ (by decide)]
    rfl

/-- A copy has ended: no row is copied, and the repeat table forgets the row. -/
def copyEnded (m : Core) (r : DeckRow) : Core :=
  modDeck m fun d => { d with copying := none, rows := d.rows.filter fun x => decide (x.1 ≠ r) }

/-- A copy that succeeded is journaled. -/
def copyNoted (m : Core) (r : DeckRow) : Core :=
  journal (copyEnded m r) 0x22 3 (payload [(8, 5), (24, r.set.toNat), (8, 0), (8, b1 r.mirror), (16, 0)])

theorem copyNoted_only (m : Core) (r : DeckRow) : (copyEnded m r).onlyParts (.jnl :: Part.report) (copyNoted m r) := journal_only _ _ _ _

/-- A copied row is mapped to a spare, one of several left. -/
theorem spareCopyDone_remapped {m : Core} {r : DeckRow} (hc : m.deck.copying = some r) (hq : m.deck.spareQ = [])
    (hl : 1 < sparesLeft m r) : spareCopyDone m false
      = modDeck (copyNoted m r) fun d => { d with
          spares := tput 128 d.spares (spareKey r) (sparesLeft m r - 1), remapped := d.remapped ++ [r], spareQ := [] } := by
  have hdeck : (copyNoted m r).deck = (copyEnded m r).deck := copyNoted_only m r .deck (by decide)
  have hleft : sparesLeft (copyNoted m r) r = sparesLeft m r := by rw [sparesLeft, hdeck]; rfl
  have huse : useSpare (copyNoted m r) r = modDeck (copyNoted m r) fun d => { d with
      spares := tput 128 d.spares (spareKey r) (sparesLeft m r - 1), remapped := d.remapped ++ [r] } := by
    rw [useSpare, hleft]
    exact if_neg (by omega)
  rw [spareCopyDone, hc]
  dsimp only
  rw [if_neg Bool.false_ne_true]
  change spareNext (useSpare (copyNoted m r) r) (useSpare (copyNoted m r) r).deck.spareQ = _
  rw [huse]
  change spareNext _ (copyNoted m r).deck.spareQ = _
  rw [hdeck]
  change spareNext _ m.deck.spareQ = _
  rw [hq]
  rfl

/-- A copy that an uncorrectable word ended is reported. -/
def copyAbandoned (m : Core) (r : DeckRow) : Core := raise (rsetf (copyEnded m r) 0x1034 1 1 1) 46

theorem copyAbandoned_state (m : Core) (r : DeckRow) : (copyAbandoned m r).deck = (copyEnded m r).deck
    ∧ m.onlyParts (.deck :: Part.report) (copyAbandoned m r) ∧ rbit (copyAbandoned m r) 0x1034 1 = true
    ∧ isPending (copyAbandoned m r) 46 = true := by
  have hraise := raise_only (rsetf (copyEnded m r) 0x1034 1 1 1) 46
  refine ⟨hraise .deck (by decide), ?_, ?_, raise_isPending _ 46⟩
  · exact onlyParts_trans (onlyParts_trans (onlyParts_deck m _ (by decide)) (onlyParts_rset _ _ _ (by decide)))
      (onlyParts_mono hraise (by decide))
  · rw [copyAbandoned, rbit, raise_regs _ _ _ (by decide), ← rbit, rbit_rsetf _ _ _ _ _ _ _ (by decide)]
    rfl

theorem spareCopyDone_abandoned {m : Core} {r : DeckRow} (hc : m.deck.copying = some r) :
    spareCopyDone m true = spareNext (copyAbandoned m r) m.deck.spareQ := by
  have hdeck := (copyAbandoned_state m r).1
  rw [spareCopyDone, hc]
  dsimp only
  rw [if_pos rfl]
  change spareNext (copyAbandoned m r) (copyAbandoned m r).deck.spareQ = _
  rw [hdeck]
  rfl

/-- Settles O47: the walk's visits by `walkVisit_retired` and `walkVisit_one`, its arrivals by `walkDecide_lost`, the
groom by `groomSet_clean` and `deckGroomVisit_again`, sparing by `spareCopyDone_remapped` and `spareCopyDone_abandoned`. -/
theorem directoryEnginesRun : Obligations.DirectoryEnginesRun := by
  refine ⟨fun s y k tag r hr h => ?_, fun s set hr hi hl hn => ?_, fun s set hr hi hl hn => ?_, fun s set hr hi hl hn => ?_,
    fun s hr ho hret hl => ?_, fun s w hr ho hret hl hh hc => ?_, fun s h x n k d hr hx hk hw hj he hs hl hc ha hcm hret => ?_,
    fun s slot hr ho hw => ?_, fun s b v hr h => ?_, fun s r hr hc hq hl => ?_, fun s r hr hc hq => ?_,
    fun s r n q hr hc hq hret hl => ?_⟩
  · refine ⟨_, clocked_next (f := fun m => mirrorWrite m y.val) hr (mirrorWrite_eq h), ?_, ?_, rfl,
      only_next (onlyParts_deck s.m _ (by decide))⟩
    · exact (tget_tput _ _ _ _ _).trans (if_pos rfl)
    · exact (tget_tput _ _ _ _ _).trans (if_pos rfl)
  · have hstep : deckGroomVisit s.m set.toNat Env.clean = setVisited s.m set.toNat := by
      rw [deckGroomVisit, hi, if_neg (by simp), if_pos hl, if_neg (by simp [hn]), groomSet_clean]
    exact ⟨_, clocked_next (f := fun m => deckGroomVisit m set.toNat Env.clean) hr hstep, rfl,
      only_next (onlyParts_deck s.m _ (by decide))⟩
  · have hstep : deckGroomVisit s.m set.toNat Env.clean = s.m := by
      rw [deckGroomVisit, hi, if_neg (by simp), if_pos hl, if_pos (by simp [hn])]
    exact clocked_next (f := fun m => deckGroomVisit m set.toNat Env.clean) hr hstep
  · have hagain := deckGroomVisit_again (set := set.toNat) hi hl hn
    exact ⟨_, clocked_next (f := fun m => deckGroomVisit m set.toNat Env.clean) hr rfl, hagain .deck (by decide),
      only_next (onlyParts_trans (onlyParts_deck s.m _ (by decide)) (onlyParts_mono hagain (by decide)))⟩
  · exact ⟨_, clocked_next (f := fun m => walkVisit m Env.clean) hr (walkVisit_retired ho hret hl), rfl, rfl,
      only_next (onlyParts_deck s.m _ (by decide))⟩
  · obtain ⟨h1, h2, a, ha, hjob⟩ := walkSubmit_state .walk s.m
      (lineOf s.m.deck.pos (dirEnt s.m (16 * s.m.deck.pos + w.val)).tag)
    refine ⟨_, clocked_next (f := fun m => walkVisit m Env.clean) hr (walkVisit_one ho hret hl (walkHits_one hh hc)), rfl, ?_, ?_, ?_,
      ⟨a, ha, hjob⟩, only_next (onlyParts_trans (onlyParts_mono h2 (by decide)) (onlyParts_deck _ _ (by decide)))⟩
    · exact (congrArg Deck.walkOut h1 :)
    · exact (congrArg Deck.walkSerial h1 :)
    · exact (congrArg Deck.ents h1 :)
  · have hx' : hte (setHte s.m h.val (deciding x)) h.val = some (deciding x) := hte_setHte_same _ _ _
    have hact := walkDecide_lost (m := setHte s.m h.val (deciding x)) hx' he hret hs hl hc
    have hdec : decideIf (fun _ x => match x.job with
        | .walk _ => true
        | .recover _ _ => true
        | _ => false) h.val Env.clean s.m = go (walkDecide (setHte s.m h.val (deciding x)) h.val Env.clean) h.val Env.clean :=
      (decideIf_eq _ hx hk hw (by rw [hj])).trans (decideHte_walk _ hx hj)
    rw [hact] at hdec
    have ht := tally_only .dir 6 1 (setHte s.m h.val (deciding x))
    obtain ⟨g1, g2⟩ := go_finish (x := leaving (deciding x) k (slotsRemoved d (orderedIn s.m .lost d.vec) x.epoch)) Env.clean
      (hte_setHte_same (tally .dir 6 1 (setHte s.m h.val (deciding x))) h.val _) hcm ha rfl rfl hk
    refine ⟨_, _, clocked_next (f := decideIf _ h.val Env.clean) hr hdec, g2, rfl, rfl, rfl, only_next ?_⟩
    exact onlyParts_trans (onlyParts_trans (onlyParts_mono (setHte_only _ _ _) (by decide)) (onlyParts_trans
      (onlyParts_mono ht (by decide)) (onlyParts_mono (setHte_only _ _ _) (by decide)))) (onlyParts_mono g1 (by decide))
  · obtain ⟨h1, h2, h3⟩ := orderDone_state s.m slot
    have hraise := raise_only (orderDone s.m slot) 55
    have hreg : rget (raise (orderDone s.m slot) 55) 0x1010 = rget (orderDone s.m slot) 0x1010 := raise_regs _ _ _ (by decide)
    refine ⟨_, clocked_next (f := walkOrderDone) hr (walkOrderDone_clear ho hw), ?_, ?_, ?_, raise_isPending _ 55,
      only_next (onlyParts_trans (onlyParts_mono h1 (by decide)) (onlyParts_mono hraise (by decide)))⟩
    · exact (congrArg Deck.orders (hraise .deck (by decide)) :)
    · exact (congrArg (fun w => bit w 30) hreg).trans h2
    · exact (congrArg (fun w => fld w 23 16) hreg).trans h3
  · exact ⟨_, clocked_next (f := bucketLeak) hr rfl, bucketLeak_one h, only_next (onlyParts_deck s.m _ (by decide))⟩
  · have hnoted := copyNoted_only s.m r
    have hdeck : (copyNoted s.m r).deck = (copyEnded s.m r).deck := hnoted .deck (by decide)
    refine ⟨_, clocked_next (f := fun m => spareCopyDone m false) hr (spareCopyDone_remapped hc hq hl), ?_, ?_, ?_, only_next ?_⟩
    · exact (congrArg Deck.copying hdeck :)
    · exact (congrArg (fun d : Deck => d.remapped ++ [r]) hdeck :)
    · exact (tget_tput _ _ _ _ _).trans (if_pos rfl)
    · exact onlyParts_trans (onlyParts_trans (onlyParts_deck s.m _ (by decide)) (onlyParts_mono hnoted (by decide)))
        (onlyParts_deck _ _ (by decide))
  · obtain ⟨h1, h2, h3, h4⟩ := copyAbandoned_state s.m r
    have hstep : spareCopyDone s.m true = modDeck (copyAbandoned s.m r) fun d => { d with spareQ := [] } := by
      rw [spareCopyDone_abandoned hc, hq]
      rfl
    exact ⟨_, clocked_next (f := fun m => spareCopyDone m true) hr hstep, (congrArg Deck.copying h1 :), (congrArg Deck.remapped h1 :),
      h3, h4, only_next (onlyParts_trans h2 (onlyParts_deck _ _ (by decide)))⟩
  · obtain ⟨h1, h2, h3, h4⟩ := copyAbandoned_state s.m r
    have hret' : retired (copyAbandoned s.m r) n.set.toNat = false := (retired_congr (m := copyEnded s.m r) h1 _).trans hret
    have hleft : sparesLeft (copyAbandoned s.m r) n = sparesLeft s.m n := by rw [sparesLeft, h1]; rfl
    have hstep : spareCopyDone s.m true = modDeck (copyAbandoned s.m r) fun d => { d with copying := some n, spareQ := q } := by
      rw [spareCopyDone_abandoned hc, hq, spareNext, hret', hleft]
      exact if_neg (by simp; omega)
    exact ⟨_, clocked_next (f := fun m => spareCopyDone m true) hr hstep, rfl, rfl, (congrArg Deck.remapped h1 :),
      only_next (onlyParts_trans h2 (onlyParts_deck _ _ (by decide)))⟩

end Sys2Proof.Engines
end

section
/-! PROOFS. `CFG` messages (spec/12_control_plane.md), with the statement about them. -/

namespace Sys2Proof.CfgMessages

open Sys2Proof.Machine Sys2Proof.Laws Sys2Proof.Windows Sys2Proof.Sending Sys2Proof.Flits Sys2Proof.Engine Sys2Proof.Serial Sys2Proof.Transactions

/-! ### Routes while slots are freed, and the replies of the management side -/

/-- Only the books of virtual channels may have changed: no link has, and no port's act. -/
def LinksKept (m n : Core) : Prop := ∀ q, (port n q).link = (port m q).link ∧ (port n q).act = (port m q).act

theorem linksKept_refl (m : Core) : LinksKept m m := fun _ => ⟨rfl, rfl⟩

theorem freeSlots_linksKept (m : Core) (p v n : Nat) : LinksKept m (freeSlots m p v n) := by
  unfold freeSlots
  split
  · exact linksKept_refl m
  · intro q
    dsimp only
    rw [port_setPort]
    split
    · next h => exact h ▸ ⟨rfl, rfl⟩
    · exact ⟨rfl, rfl⟩

theorem released_linksKept (m : Core) (i : InMsg) : LinksKept m (released m i) := by
  unfold released
  dsimp only
  split
  · exact linksKept_refl m
  · exact freeSlots_linksKept _ _ _ _

theorem released_routes (m : Core) (i : InMsg) (e : Bool) (d : NodeId) : routeOf (released m i) e d = routeOf m e d :=
  routeOf_of_links (released_only m i .cfg (by decide)) (released_linksKept m i) e d

theorem epochFor_congr {m n : Core} (h : n.cfg = m.cfg) (e : Bool) : epochFor n e = epochFor m e := by rw [epochFor, epochFor, h]

/-- A reply with a route changes the port queues and what a report changes alone. -/
theorem sendReply_state {m : Core} {g : Msg} {p : Nat} (hd : g.dest ≠ nodeId m) (hr : routeOf m (epochFor m g.epoch) g.dest = some p) :
    m.onlyParts (.ports :: Part.report) (sendReply m g) ∧ m.onlyRegs reportRegs (sendReply m g)
      ∧ mgtSends (sendReply m g) p (AsSent m g) := by
  have ht := tally_only .xbr 3 1 m
  rw [sendReply]
  refine ⟨?_, ?_, ?_⟩
  · rw [send_routed hd hr]
    exact onlyParts_trans (onlyParts_mono ht (by decide)) (onlyParts_mono (enqueue_only _ _ _ _ _) (by decide))
  · rw [send_routed hd hr]
    exact onlyRegs_trans (tally_regs _ _ _ _) (onlyRegs_of_only (enqueue_only _ _ _ _ _) (by decide))
  · obtain ⟨y, hy, -, ho, hm⟩ := send_mem (src := 17) (o := none) hd hr
    exact ⟨y, hy, ho, hm⟩

theorem mgtSends_mono {m : Core} {p : Nat} {f g : Msg → Prop} (hs : mgtSends m p f) (hf : ∀ r, f r → g r) : mgtSends m p g := by
  obtain ⟨y, hy, ho, hm⟩ := hs
  exact ⟨y, hy, ho, hf _ hm⟩

/-! ### The queue (R590, R646) -/

/-- The message has left its buffer, the inbox empty. -/
def left (m : Core) (i : InMsg) : Core := leaveVc { m with inbox := [] } i

theorem left_state (m : Core) (i : InMsg) : m.onlyParts [.inbox, .ports] (left m i) ∧ (left m i).inbox = []
    ∧ LinksKept m (left m i) := by
  have h0 : m.onlyParts [.inbox, .ports] { m with inbox := [] } := onlyParts_inbox _ _ (by decide)
  unfold left leaveVc
  split
  · have hfree := freeSlots_only { m with inbox := [] } i.port i.vc (slotsOf i.msg)
    exact ⟨onlyParts_trans h0 (onlyParts_mono hfree (by decide)), (hfree .inbox (by decide) :), freeSlots_linksKept _ _ _ _⟩
  · exact ⟨h0, rfl, linksKept_refl m⟩

theorem cfgAdmit_judged {m n : Core} {i : InMsg} {l : List InMsg} (hi : m.inbox = [i])
    (h : cfgJudge [] [i] { m with inbox := [] } = (l, n)) : cfgAdmit m = { n with inbox := l ++ n.inbox } := by
  rw [cfgAdmit, hi, h]

section
variable {m : Core} {i : InMsg} (ho : i.msg.op = .cfg)
include ho

theorem cfgJudge_denied (ha : cfgAllowed m i.msg.src = false) :
    cfgJudge [] [i] m = ([], sendErr (leaveVc m i) i.msg errDenied) := by
  rw [cfgJudge, if_neg (by simp [ho]), if_pos (by simp [ha]), cfgJudge]

theorem cfgJudge_entered (ha : cfgAllowed m i.msg.src = true) (hl : m.cfgq.length < 16) :
    cfgJudge [] [i] m = ([], { leaveVc m i with cfgq := m.cfgq ++ [⟨i.port, i.msg⟩] }) := by
  rw [cfgJudge, if_neg (by simp [ho]), if_neg (by simp [ha]), if_pos hl, cfgJudge]

theorem cfgJudge_full (ha : cfgAllowed m i.msg.src = true) (hl : 16 ≤ m.cfgq.length) : cfgJudge [] [i] m = ([i], m) := by
  rw [cfgJudge, if_neg (by simp [ho]), if_neg (by simp [ha]), if_neg (by omega), cfgJudge]

end

/-- The queue with one `CFG` more. -/
def enqueued (m : Core) (i : InMsg) : Core := { left m i with cfgq := m.cfgq ++ [⟨i.port, i.msg⟩] }

theorem cfgAdmit_none {m : Core} (hi : m.inbox = []) : cfgAdmit m = m := by
  have hsame : ({ m with inbox := [] } : Core) = m := by rw [← hi]
  rw [cfgAdmit, hi, cfgJudge, hsame]
  change ({ m with inbox := [] ++ m.inbox } : Core) = m
  rw [hi]
  exact hsame

/-! ### The access (R591, R596) -/

/-- The head of the queue has left it. -/
def headTaken (m : Core) (q : List CfgAcc) : Core := { m with cfgq := q }

theorem headTaken_only (m : Core) (q : List CfgAcc) : m.onlyParts [.cfgq] (headTaken m q) := onlyParts_cfgq m _ (by decide)

theorem readCode_headTaken (m : Core) (q : List CfgAcc) (w : Who) (a : Nat) : readCode (headTaken m q) w a = readCode m w a := rfl

theorem readValue_headTaken (m : Core) (q : List CfgAcc) (w : Who) (a : Nat) :
    (readValue (headTaken m q) w a).1 = (readValue m w a).1 := by
  have hval : regValue (headTaken m q) a = regValue m a := rfl
  have hwin (i : WinId) (k : Nat) : winResult (headTaken m q) i k = winResult m i k := rfl
  have hreset : inSoftReset (headTaken m q) a = inSoftReset m a := rfl
  unfold readValue
  rw [hreset, hval]
  simp only [hwin]
  split
  · rfl
  · split
    · split <;> rfl
    · split
      · rfl
      · split
        · rfl
        · split <;> rfl

/-- The checks of a plain write do not see the queue. -/
theorem writeCode_headTaken (m : Core) (q : List CfgAcc) (w : Who) {a : Nat} (v : Word) (hp : plainAddr a = true) :
    writeCode (headTaken m q) w a v = writeCode m w a v := by
  have hmay : mayWrite (headTaken m q) w a = mayWrite m w a := rfl
  have hreset : inSoftReset (headTaken m q) a = inSoftReset m a := rfl
  have hro (r : RegDesc) : writeReadOnly (headTaken m q) w a r = writeReadOnly m w a r := rfl
  have hwin (i : WinId) : winPend (headTaken m q) i v = winPend m i v := rfl
  have hstate : wrongState (headTaken m q) w a v = wrongState m w a v := rfl
  have hbusy : unitBusy (headTaken m q) a v = unitBusy m a v := rfl
  have hbad (r : RegDesc) : reservedBad (headTaken m q) a r v = reservedBad m a r v := rfl
  have hrule : ruleBad (headTaken m q) a v = ruleBad m a v := rfl
  have hlock : rbit (headTaken m q) 0x2C 0 = rbit m 0x2C 0 := rfl
  have hkey : (serviceKey (headTaken m q) w.mid w.node v w.late).2 = (serviceKey m w.mid w.node v w.late).2 := by
    have hd : (headTaken m q).dmt = m.dmt := rfl
    have hs : (headTaken m q).stmp = m.stmp := rfl
    simp only [serviceKey, hd, hs, apply_ite Prod.snd]
  have hedit : a ≠ 0x2030 := fun h => by rw [h] at hp; exact absurd hp (by decide)
  have hout : outcomeCode (headTaken m q) a v = outcomeCode m a v := by
    rw [outcomeCode, outcomeCode, if_neg hedit, if_neg hedit]
  simp only [writeCode, hmay, hreset, hro, hwin, hstate, hbusy, hbad, hrule, hlock, hkey, hout]
  rfl

/-- The answer to a read. -/
def readAnswer (x : Msg) (v : Word) : Msg :=
  { op := .cmp, dest := x.src, tag := x.tag, line := x.line, epoch := x.epoch, status := 1, data := bePut v.toNat 0 4 }

theorem cfgPerform_read {m : Core} {a : CfgAcc} {q : List CfgAcc} (hq : m.cfgq = a :: q) (hs : a.msg.status = 0)
    (hw : cfgWaits m = false) (hc : readCode m (cfgWho a.msg) a.msg.aux.toNat = 0) : cfgPerform false m
      = sendReply (readValue (headTaken m q) (cfgWho a.msg) a.msg.aux.toNat).2
          (readAnswer a.msg (readValue m (cfgWho a.msg) a.msg.aux.toNat).1) := by
  rw [← readValue_headTaken m q, cfgPerform, hq]
  dsimp only
  rw [hs, hw, if_neg (by decide), if_neg (by decide)]
  change cfgAnswer (regRead (headTaken m q) _ _).2 _ (regRead (headTaken m q) _ _).1 = _
  rw [regRead_accepted (by rwa [readCode_headTaken]), cfgAnswer, if_neg (by simp [accOk]), hs, if_pos rfl]
  rfl

theorem regWrite_message {m : Core} {w : Who} {a : Nat} {v : Word} (g : Option Msg) (hc : writeCode m w a v = 0)
    (hp : plainAddr a = true) : regWrite m w g a v = (some (accOk 0), storeWrite m a v) := by
  have ht := Access.not_throw_of_plain v hp
  rw [regWrite, hc]
  rw [if_neg (by simp), action_plain hp, if_neg (by simpa using ht)]

/-- The answer to a write. -/
def writeAnswer (x : Msg) : Msg := { op := .cmp, dest := x.src, tag := x.tag, line := x.line, epoch := x.epoch }

theorem cfgPerform_write {m : Core} {a : CfgAcc} {q : List CfgAcc} (hq : m.cfgq = a :: q) (hs : a.msg.status = 2)
    (hw : cfgWaits m = false) (hc : writeCode m (cfgWho a.msg) a.msg.aux.toNat (BitVec.ofNat 32 (beAt a.msg.data 0 4)) = 0)
    (hp : plainAddr a.msg.aux.toNat = true) : cfgPerform true m
      = sendReply (storeWrite (headTaken m q) a.msg.aux.toNat (BitVec.ofNat 32 (beAt a.msg.data 0 4))) (writeAnswer a.msg) := by
  have hfab : (storeWrite (headTaken m q) a.msg.aux.toNat (BitVec.ofNat 32 (beAt a.msg.data 0 4))).fab2 = m.fab2 :=
    storeWrite_only (headTaken m q) _ _ .fab2 (by decide)
  have hwrite := regWrite_message (w := cfgWho a.msg) (some a.msg) ((writeCode_headTaken m q _ _ hp).trans hc) hp
  rw [headTaken] at hwrite hfab
  rw [cfgPerform, hq]
  dsimp only
  rw [hs, hw, if_neg (by decide), if_pos rfl, hwrite]
  dsimp only
  rw [hfab, if_neg (by simp), cfgAnswer, if_neg (by simp [accOk]), hs, if_neg (by decide)]
  rfl

/-- Settles O54: the queue by `cfgAdmit_denied`, `cfgAdmit_entered` and `cfgAdmit_full`, the accesses by `cfgPerform_read`
and `cfgPerform_write`. -/
theorem cfgMessagesAccessRegisters : Obligations.CfgMessagesAccessRegisters := by
  refine ⟨fun s g p hr hi ho ha hd hroute => ?_, fun s i hr hi ho ha => ?_, fun s a q p hr hi hq hs hw hc hd hroute => ?_,
    fun s a q p r hr hi hq hs hw hc hat hp hrep hd hroute => ?_⟩
  · obtain ⟨i, hi', rfl⟩ := List.map_eq_singleton_iff.1 hi
    obtain ⟨h1, h2, h3⟩ := left_state s.m i
    have hregs : (left s.m i).regs = s.m.regs := h1 .regs (by decide)
    have hcfg : (left s.m i).cfg = s.m.cfg := h1 .cfg (by decide)
    obtain ⟨g1, g2, g3⟩ := sendReply_state (m := left s.m i) (p := p)
      (g := { op := .err, dest := i.msg.src, tag := i.msg.tag, line := i.msg.line, epoch := i.msg.epoch
              status := BitVec.ofNat 8 errDenied })
      (by rwa [nodeId_congr (m := s.m) (onlyRegs_of_eq (as := []) hregs) (by decide)])
      (by rwa [epochFor_congr hcfg, routeOf_of_links hcfg h3])
    refine ⟨_, clocked_next (f := cfgAdmit) hr (cfgAdmit_judged hi' (cfgJudge_denied ho ha)), ?_, ?_, ?_, only_next ?_⟩
    · exact (g1 .inbox (by decide)).trans h2
    · exact (g1 .cfgq (by decide)).trans (h1 .cfgq (by decide))
    · exact mgtSends_mono g3 fun r ⟨d, hr⟩ => by rw [hr]; exact ⟨rfl, rfl, rfl, rfl⟩
    · exact onlyParts_trans (onlyParts_mono h1 (by decide)) (onlyParts_mono g1 (by decide))
  · obtain ⟨h1, h2, -⟩ := left_state s.m i
    by_cases hl : s.m.cfgq.length < 16
    · exact ⟨_, clocked_next (f := cfgAdmit) hr (cfgAdmit_judged (n := enqueued s.m i) hi (cfgJudge_entered ho ha hl)), fun _ => ⟨h2, rfl⟩, fun h16 => absurd hl (by omega),
        only_next (onlyParts_trans (onlyParts_mono h1 (by decide)) (onlyParts_cfgq _ _ (by decide)))⟩
    · exact ⟨_, clocked_next (f := cfgAdmit) hr (cfgAdmit_judged hi (cfgJudge_full (m := { s.m with inbox := [] }) ho ha (by simpa using hl))), fun h16 => absurd h16 hl, fun _ => ⟨rfl, rfl⟩,
        only_next (onlyParts_inbox s.m _ (by decide))⟩
  · have hread := readValue_only (headTaken s.m q) (cfgWho a.msg) a.msg.aux.toNat
    have honly : s.m.onlyParts [.cfgq, .hold, .timeHold] (readValue (headTaken s.m q) (cfgWho a.msg) a.msg.aux.toNat).2 :=
      onlyParts_trans (onlyParts_mono (headTaken_only s.m q) (by decide)) (onlyParts_mono hread (by decide))
    have hstep : cfgPerform false (cfgAdmit s.m) = _ := (congrArg _ (cfgAdmit_none hi)).trans (cfgPerform_read hq hs hw hc)
    have hcfgq : (readValue (headTaken s.m q) (cfgWho a.msg) a.msg.aux.toNat).2.cfgq = q := hread .cfgq (by decide)
    generalize (readValue (headTaken s.m q) (cfgWho a.msg) a.msg.aux.toNat).2 = n at honly hstep hcfgq
    have hcfg : n.cfg = s.m.cfg := honly .cfg (by decide)
    obtain ⟨g1, g2, g3⟩ := sendReply_state (m := n) (p := p) (g := readAnswer a.msg (readValue s.m (cfgWho a.msg) a.msg.aux.toNat).1)
      (by rw [nodeId_congr (m := s.m) (onlyRegs_of_only (as := []) honly (by decide)) (by decide)]; exact hd)
      (by rw [epochFor_congr hcfg, routeOf_congr hcfg (honly .ports (by decide))]; exact hroute)
    exact ⟨_, clocked_next (f := fun m => cfgPerform false (cfgAdmit m)) hr hstep, (g1 .cfgq (by decide)).trans hcfgq,
      mgtSends_mono g3 fun r ⟨d, hr⟩ => by rw [hr]; exact ⟨rfl, rfl, rfl, rfl, rfl⟩,
      only_next (onlyParts_trans (onlyParts_mono honly (by decide)) (onlyParts_mono g1 (by decide)))⟩
  · have hstep : cfgPerform true (cfgAdmit s.m) = _ := (congrArg _ (cfgAdmit_none hi)).trans (cfgPerform_write hq hs hw hc hp)
    have hstored := storeWrite_only (headTaken s.m q) a.msg.aux.toNat (BitVec.ofNat 32 (beAt a.msg.data 0 4))
    have honly : s.m.onlyParts [.cfgq, .regs] (storeWrite (headTaken s.m q) a.msg.aux.toNat (BitVec.ofNat 32 (beAt a.msg.data 0 4))) :=
      onlyParts_trans (onlyParts_mono (headTaken_only s.m q) (by decide)) (onlyParts_mono hstored (by decide))
    have hregs : s.m.onlyRegs [a.msg.aux.toNat] (storeWrite (headTaken s.m q) a.msg.aux.toNat (BitVec.ofNat 32 (beAt a.msg.data 0 4))) :=
      storeWrite_regs _ _ _
    have hget : rget (storeWrite (headTaken s.m q) a.msg.aux.toNat (BitVec.ofNat 32 (beAt a.msg.data 0 4))) a.msg.aux.toNat
        = storeFields r (rget s.m a.msg.aux.toNat) (BitVec.ofNat 32 (beAt a.msg.data 0 4)) := storeWrite_get hat
    have hcfgq : (storeWrite (headTaken s.m q) a.msg.aux.toNat (BitVec.ofNat 32 (beAt a.msg.data 0 4))).cfgq = q :=
      hstored .cfgq (by decide)
    have hid : 0x20 ∉ [a.msg.aux.toNat] := fun h => by
      rw [← List.mem_singleton.1 h] at hp
      exact absurd hp (by decide)
    generalize storeWrite (headTaken s.m q) a.msg.aux.toNat (BitVec.ofNat 32 (beAt a.msg.data 0 4)) = n at honly hregs hget hcfgq hstep
    have hcfg : n.cfg = s.m.cfg := honly .cfg (by decide)
    obtain ⟨g1, g2, g3⟩ := sendReply_state (m := n) (p := p) (g := writeAnswer a.msg)
      (by rw [nodeId_congr hregs hid]; exact hd)
      (by rw [epochFor_congr hcfg, routeOf_congr hcfg (honly .ports (by decide))]; exact hroute)
    exact ⟨_, clocked_next (f := fun m => cfgPerform true (cfgAdmit m)) hr hstep, (g1 .cfgq (by decide)).trans hcfgq,
      (g2 _ hrep).trans hget, mgtSends_mono g3 fun r ⟨d, hr⟩ => by rw [hr]; exact ⟨rfl, rfl, rfl, rfl⟩,
      only_next (onlyParts_trans (onlyParts_mono honly (by decide)) (onlyParts_mono g1 (by decide)))⟩

end Sys2Proof.CfgMessages
end

section
/-! PROOFS. The election of the station master (spec/11_bringup_coupling.md), with the statement about it. -/

namespace Sys2Proof.Election

open Sys2Proof.Machine Sys2Proof.Laws Sys2Proof.Windows Sys2Proof.Sending Sys2Proof.Engine Sys2Proof.Image Sys2Proof.Flits
  Sys2Proof.Transactions Sys2Proof.CfgMessages

/-! ### Broadcasts (R84) -/

theorem started_of_joined {m n : Core} (h : joined m n) (p : Nat) : started n p = started m p := by
  obtain ⟨l, hl⟩ := h p
  rw [started, started, hl]

/-- The step of a flood at one port. -/
def floodOne (except src : Nat) (x : Msg) (m : Core) (p : Nat) : Core :=
  if started m p && decide (p ≠ except) then enqueue m p src none x else m

theorem floodOne_state (except src : Nat) (x : Msg) (m : Core) (p : Nat) : m.onlyParts [.ports] (floodOne except src x m p)
    ∧ joined m (floodOne except src x m p) := by
  unfold floodOne
  split
  · exact ⟨enqueue_only _ _ _ _ _, enqueue_joined _ _ _ _ _⟩
  · exact ⟨onlyParts_refl _ _, joined_refl _⟩

/-- A broadcast stands at every port that it is flooded on. -/
theorem floodAll_mem {except src p : Nat} {x : Msg} (hne : p ≠ except) (l : List Nat) (m : Core) (hp : p ∈ l)
    (hs : started m p = true) : mgtSends (l.foldl (floodOne except src x) m) p fun r => ∃ d, r = { x with dateline := d } := by
  induction l generalizing m with
  | nil => exact absurd hp (List.not_mem_nil)
  | cons q l ih =>
    rw [List.foldl_cons]
    by_cases hq : p = q
    · subst hq
      have hstep : floodOne except src x m p = enqueue m p src none x := if_pos (by simp [hs, hne])
      obtain ⟨y, hy, -, ho, hm⟩ := enqueue_mem m p src none x
      rw [hstep]
      exact ⟨y, mem_txq_of_joined (joined_foldl _ (fun n k => (floodOne_state except src x n k).2) l _) hy, ho, hm⟩
    · exact ih _ ((List.mem_cons.1 hp).resolve_left hq) ((started_of_joined (floodOne_state except src x m q).2 p).trans hs)

/-- A broadcast as Jalair originates it. -/
def asBroadcast (m : Core) (g : Msg) : Msg :=
  { g with src := nodeId m, hop := BitVec.ofNat 8 (rfld m 0x840 7 0), broadcast := true, dest := 0, epoch := m.cfg.epoch }

theorem originateBcast_state (m : Core) (g : Msg) : m.onlyParts (.ports :: Part.report) (originateBcast m g)
    ∧ joined m (originateBcast m g) ∧ PendingKept m (originateBcast m g)
    ∧ ∀ p : PortIx, started m p.val = true →
        mgtSends (originateBcast m g) p.val fun r => ∃ d, r = { asBroadcast m g with dateline := d } := by
  have ht := tally_only .xbr 3 1 m
  have hflood : originateBcast m g = (List.range 16).foldl (floodOne 99 17 (asBroadcast m g)) (tally .xbr 3 1 m) := rfl
  have hports := onlyParts_foldl (floodOne 99 17 (asBroadcast m g)) (fun n p => (floodOne_state 99 17 _ n p).1) (List.range 16)
    (tally .xbr 3 1 m)
  rw [hflood]
  refine ⟨onlyParts_trans (onlyParts_mono ht (by decide)) (onlyParts_mono hports (by decide)),
    joined_trans (joined_of_only ht (by decide)) (joined_foldl _ (fun n p => (floodOne_state 99 17 _ n p).2) _ _),
    pendingKept_trans (tally_pendingKept _ _ _ _) (pendingKept_of_only hports (by decide)), fun p hs => ?_⟩
  exact floodAll_mem (by omega) _ _ (List.mem_range.2 p.isLt) ((started_of_joined (joined_of_only ht (by decide)) _).trans hs)

/-! ### Claims and beacons (R517, R521, R524) -/

/-- The next claim or beacon takes the next sequence number. -/
def numbered (m : Core) : Core := modFab m fun f => { f with seq := f.seq + 1 }

theorem numbered_only (m : Core) : m.onlyParts [.fab] (numbered m) := onlyParts_fab m _ (by decide)

/-- A claim. -/
def claimMsg (m : Core) : Msg :=
  { op := .clm, tag := m.fab.seq, status := smPrio m, aux := claimAux m, data := bePut Config.serial.toNat 0 8 }

/-- A beacon. -/
def beaconMsg (m : Core) : Msg :=
  { op := .sma, tag := m.fab.seq, status := smPrio m, aux := m.fab.term
    data := bePut Config.serial.toNat 0 8 ||| bePut m.time.toNat 8 8 }

theorem sendClaim_eq (m : Core) : sendClaim m = originateBcast (numbered m) (claimMsg (numbered m)) := rfl

theorem sendBeacon_eq (m : Core) : sendBeacon m = originateBcast (numbered m) (beaconMsg (numbered m)) := rfl

/-- What a claim does, and what it carries. -/
theorem sendClaim_state (m : Core) : m.onlyParts (.fab :: .ports :: Part.report) (sendClaim m)
    ∧ (sendClaim m).fab = { m.fab with seq := m.fab.seq + 1 } ∧ ∀ p : PortIx, started m p.val = true →
        mgtSends (sendClaim m) p.val fun g => g.op = .clm ∧ g.tag = m.fab.seq + 1 ∧ g.status = smPrio m ∧ g.aux = claimAux m
          ∧ g.broadcast = true ∧ g.src = nodeId m := by
  obtain ⟨h1, -, -, h4⟩ := originateBcast_state (numbered m) (claimMsg (numbered m))
  rw [sendClaim_eq]
  refine ⟨onlyParts_trans (onlyParts_mono (numbered_only m) (by decide)) (onlyParts_mono h1 (by decide)), h1 .fab (by decide), fun p hs => ?_⟩
  refine mgtSends_mono (h4 p hs) fun r hr => ?_
  obtain ⟨d, rfl⟩ := hr
  exact ⟨rfl, rfl, rfl, rfl, rfl, rfl⟩

theorem sendBeacon_state (m : Core) : m.onlyParts (.fab :: .ports :: Part.report) (sendBeacon m)
    ∧ (sendBeacon m).fab = { m.fab with seq := m.fab.seq + 1 } ∧ PendingKept m (sendBeacon m)
    ∧ ∀ p : PortIx, started m p.val = true →
        mgtSends (sendBeacon m) p.val fun g => g.op = .sma ∧ g.tag = m.fab.seq + 1 ∧ g.aux = m.fab.term ∧ g.status = smPrio m
          ∧ g.broadcast = true ∧ g.src = nodeId m := by
  obtain ⟨h1, -, h3, h4⟩ := originateBcast_state (numbered m) (beaconMsg (numbered m))
  rw [sendBeacon_eq]
  refine ⟨onlyParts_trans (onlyParts_mono (numbered_only m) (by decide)) (onlyParts_mono h1 (by decide)), h1 .fab (by decide),
    pendingKept_trans (pendingKept_of_only (numbered_only m) (by decide)) h3, fun p hs => ?_⟩
  refine mgtSends_mono (h4 p hs) fun r hr => ?_
  obtain ⟨d, rfl⟩ := hr
  exact ⟨rfl, rfl, rfl, rfl, rfl, rfl⟩

/-! ### What the admission engine leaves alone -/

/-- The master stays master of its term, pending sources stay pending, and messages only join the queues of ports. -/
structure MasterKept (m n : Core) : Prop where
  sm : n.fab.sm = m.fab.sm
  valid : n.fab.termValid = m.fab.termValid
  term : n.fab.term = m.fab.term
  master : n.fab.master = m.fab.master
  pending : PendingKept m n
  queues : joined m n

theorem masterKept_refl (m : Core) : MasterKept m m := ⟨rfl, rfl, rfl, rfl, fun _ h => h, joined_refl m⟩

theorem masterKept_trans {m n o : Core} (h : MasterKept m n) (g : MasterKept n o) : MasterKept m o :=
  ⟨g.sm.trans h.sm, g.valid.trans h.valid, g.term.trans h.term, g.master.trans h.master, pendingKept_trans h.pending g.pending,
    joined_trans h.queues g.queues⟩

theorem masterKept_of {m n : Core} (hf : n.fab = m.fab) (hp : PendingKept m n) (hj : joined m n) : MasterKept m n :=
  ⟨by rw [hf], by rw [hf], by rw [hf], by rw [hf], hp, hj⟩

theorem masterKept_of_only {ps : List Part} {m n : Core} (h : m.onlyParts ps n) (hf : Part.fab ∉ ps) (he : Part.eic ∉ ps)
    (hp : Part.ports ∉ ps) : MasterKept m n :=
  masterKept_of (h .fab hf) (pendingKept_of_only h he) (joined_of_only h hp)

theorem masterKept_modFab {m : Core} {f : Fab → Fab} (h : (f m.fab).sm = m.fab.sm ∧ (f m.fab).termValid = m.fab.termValid
    ∧ (f m.fab).term = m.fab.term ∧ (f m.fab).master = m.fab.master) : MasterKept m (modFab m f) := by
  have hfab : m.onlyParts [.fab] (modFab m f) := onlyParts_fab m _ (by decide)
  obtain ⟨h1, h2, h3, h4⟩ := h
  exact ⟨h1, h2, h3, h4, pendingKept_of_only hfab (by decide), joined_of_only hfab (by decide)⟩

theorem masterKept_modFab2 (m : Core) (f : Fab2 → Fab2) : MasterKept m (modFab2 m f) :=
  masterKept_of_only (onlyParts_fab2 m _ (List.mem_singleton.2 rfl)) (by decide) (by decide) (by decide)

theorem masterKept_nextTag (m : Core) : MasterKept m (nextTag m) := masterKept_modFab (f := fun x => { x with mtag := x.mtag + 1 }) ⟨rfl, rfl, rfl, rfl⟩

theorem masterKept_tally (b : Blk) (e n : Nat) (m : Core) : MasterKept m (tally b e n m) :=
  masterKept_of (tally_only b e n m .fab (by decide)) (tally_pendingKept _ _ _ _) (joined_of_only (tally_only b e n m) (by decide))

theorem masterKept_raise (m : Core) (n : Nat) : MasterKept m (raise m n) :=
  masterKept_of (raise_only m n .fab (by decide)) (raise_pendingKept _ _) (joined_of_only (raise_only m n) (by decide))

theorem masterKept_journal (m : Core) (t s : Nat) (p : BitVec 128) : MasterKept m (journal m t s p) :=
  masterKept_of (journal_only m t s p .fab (by decide)) (journal_pendingKept _ _ _ _) (joined_of_only (journal_only m t s p) (by decide))

theorem masterKept_send (m : Core) (src : Nat) (o : Option Nat) (e : Bool) (x : Msg) : MasterKept m (send m src o e x) :=
  masterKept_of (send_only m src o e x .fab (by decide)) (send_pendingKept _ _ _ _ _) (send_joined _ _ _ _ _)

theorem masterKept_foldl {α : Type} (f : Core → α → Core) (h : ∀ (m : Core) x, MasterKept m (f m x)) (l : List α) (m : Core) :
    MasterKept m (l.foldl f m) := by
  induction l generalizing m with
  | nil => exact masterKept_refl m
  | cons x r ih => exact masterKept_trans (h m x) (ih _)

theorem walkOrder_only (m : Core) (k : WalkKind) (s : Nat) : m.onlyParts [.deck] (walkOrder m k s) := by
  unfold walkOrder
  split
  · exact onlyParts_refl _ _
  · exact onlyParts_deck m _ (by decide)

theorem setSlot_only (m : Core) (s : Nat) (x : SlotEnt) : m.onlyParts [.cfg] (setSlot m s x) :=
  onlyParts_trans (modSet_only _ _ _) (modSet_only _ _ _)

/-- A slot edit that makes no slot LOST leaves the master alone. -/
theorem masterKept_slotEdit (m : Core) (s : Nat) {op : Nat} (f : SlotEnt) (ho : op ≠ 3) : MasterKept m (slotEdit m s op f).2 := by
  have hset (x : SlotEnt) : MasterKept m (setSlot m s x) := masterKept_of_only (setSlot_only m s x) (by decide) (by decide) (by decide)
  have hwalk (n : Core) : MasterKept n (walkOrder n .clear s) := masterKept_of_only (walkOrder_only n _ _) (by decide) (by decide) (by decide)
  unfold slotEdit
  dsimp only
  split
  · exact masterKept_trans (hset _) (masterKept_tally _ _ _ _)
  · split <;> exact masterKept_refl m
  · exact masterKept_refl m
  · split
    · exact masterKept_trans (masterKept_trans (hset _) (hwalk _)) (masterKept_tally _ _ _ _)
    · exact masterKept_refl m
  · exact absurd rfl ho
  · exact absurd rfl ho
  · exact masterKept_refl m

theorem masterKept_sendEdit (m : Core) (j : EditJob) : MasterKept m (sendEdit m j) := masterKept_send _ _ _ _ _

theorem masterKept_cplAnswer (m : Core) (r : CplReq) (code : Nat) : MasterKept m (cplAnswer m r code) := by
  have h0 : MasterKept m (modFab m fun f => { f with admitting := none }) := masterKept_modFab ⟨rfl, rfl, rfl, rfl⟩
  unfold cplAnswer
  dsimp only
  split
  · split
    · exact masterKept_trans h0 (masterKept_modFab ⟨rfl, rfl, rfl, rfl⟩)
    · exact masterKept_trans h0 (masterKept_trans (masterKept_modFab (f := fun f => { f with cplState := 3, cplCode := BitVec.ofNat 8 code })
        ⟨rfl, rfl, rfl, rfl⟩) (masterKept_trans (masterKept_raise _ _) (masterKept_journal _ _ _ _)))
  · split
    · exact masterKept_trans h0 (masterKept_send _ _ _ _ _)
    · exact masterKept_trans h0 (masterKept_send _ _ _ _ _)

theorem masterKept_admitted (m : Core) (r : CplReq) : MasterKept m (admitted m r) :=
  masterKept_trans (masterKept_trans (masterKept_modFab ⟨rfl, rfl, rfl, rfl⟩) (masterKept_tally _ _ _ _)) (masterKept_cplAnswer _ _ _)

theorem masterKept_refused (m : Core) (r : CplReq) (done : List EditJob) (code : Nat) : MasterKept m (refused m r done code) := by
  refine masterKept_trans (masterKept_foldl _ (fun n j => ?_) done m)
    (masterKept_trans (masterKept_trans (masterKept_tally _ _ _ _) (masterKept_journal _ _ _ _)) (masterKept_cplAnswer _ _ _))
  split
  · exact masterKept_slotEdit _ _ _ (by decide)
  · exact masterKept_trans (masterKept_trans (masterKept_nextTag n) (masterKept_modFab2 _ _)) (masterKept_sendEdit _ _)

theorem masterKept_runAdmit (r : CplReq) (todo done : List EditJob) (m : Core) : MasterKept m (runAdmit m r done todo) := by
  induction todo generalizing m done with
  | nil => exact masterKept_admitted m r
  | cons j rest ih =>
    unfold runAdmit
    split
    · have hedit := masterKept_slotEdit m j.slot (op := 1) (editEnt j) (by decide)
      split
      · next c n h =>
        rw [h] at hedit
        exact masterKept_trans hedit (masterKept_refused _ _ _ _)
      · next b n h =>
        rw [h] at hedit
        exact masterKept_trans hedit (ih _ _)
    · exact masterKept_trans (masterKept_trans (masterKept_nextTag m) (masterKept_modFab ⟨rfl, rfl, rfl, rfl⟩)) (masterKept_sendEdit _ _)

theorem masterKept_admitOne (m : Core) (r : CplReq) : MasterKept m (admitOne m r) := by
  unfold admitOne
  split
  · exact masterKept_refused _ _ _ _
  · dsimp only
    split
    · split
      · exact masterKept_cplAnswer _ _ _
      · exact masterKept_refused _ _ _ _
    · split
      · exact masterKept_refused _ _ _ _
      · split
        · exact masterKept_admitted _ _
        · exact masterKept_runAdmit _ _ _ _

theorem masterKept_pump (n : Nat) (m : Core) : MasterKept m (pump m n) := by
  induction n generalizing m with
  | zero => exact masterKept_refl m
  | succ n ih =>
    unfold pump
    split
    · exact masterKept_refl m
    · split
      · exact masterKept_refl m
      · exact masterKept_trans (masterKept_trans (masterKept_modFab ⟨rfl, rfl, rfl, rfl⟩) (masterKept_admitOne _ _)) (ih _)

/-- A `CPL` waits for its answer under a new tag. -/
def awaitsCpl (m : Core) (r : Bool) : Core :=
  modFab (nextTag m) fun f => { f with cplState := 1, cplTag := m.fab.mtag, cplRejoin := r }

theorem sendCpl_state (m : Core) (r : Bool) :
    m.onlyParts (.fab :: sendParts) (sendCpl m r) ∧ (sendCpl m r).fab.parent = m.fab.parent ∧ MasterKept m (sendCpl m r) := by
  have hf : m.onlyParts [.fab] (awaitsCpl m r) := onlyParts_fab m _ (by decide)
  have hs : (awaitsCpl m r).onlyParts sendParts (sendCpl m r) := sendMgt_only _ _
  have hfab : (sendCpl m r).fab = (awaitsCpl m r).fab := hs .fab (by decide)
  have hk : MasterKept m (awaitsCpl m r) := masterKept_trans (masterKept_nextTag m) (masterKept_modFab ⟨rfl, rfl, rfl, rfl⟩)
  exact ⟨onlyParts_trans (onlyParts_mono hf (by decide)) (onlyParts_mono hs (by decide)), by rw [hfab]; rfl,
    masterKept_trans hk (masterKept_send _ _ _ _ _)⟩

/-! ### The steps of the election -/

theorem smPrio_congr {as : List Nat} {m n : Core} (h : m.onlyRegs as n) (ha : 0x2000 ∉ as) : smPrio n = smPrio m := by
  rw [smPrio, smPrio, rfld, rfld, h 0x2000 ha]

theorem mgtSends_joined {m n : Core} {p : Nat} {f : Msg → Prop} (h : joined m n) (hs : mgtSends m p f) : mgtSends n p f := by
  obtain ⟨y, hy, ho, hm⟩ := hs
  exact ⟨y, mem_txq_of_joined h hy, ho, hm⟩

/-- The claim of a machine whose fabric management alone has changed. -/
theorem sendClaim_of_fab {m n : Core} (h : m.onlyParts [.fab] n) :
    m.onlyParts (.fab :: .ports :: Part.report) (sendClaim n) ∧ (sendClaim n).fab = { n.fab with seq := n.fab.seq + 1 }
      ∧ ∀ p : PortIx, started m p.val = true → mgtSends (sendClaim n) p.val fun g => g.op = .clm ∧ g.tag = n.fab.seq + 1
          ∧ g.status = smPrio m ∧ g.aux = claimAux n ∧ g.broadcast = true ∧ g.src = nodeId m := by
  obtain ⟨h1, h2, h3⟩ := sendClaim_state n
  have hr : m.onlyRegs [] n := onlyRegs_of_only h (by decide)
  refine ⟨onlyParts_trans (onlyParts_mono h (by decide)) (onlyParts_mono h1 (by decide)), h2, fun p hs => ?_⟩
  rw [← smPrio_congr hr (by decide), ← nodeId_congr hr (by decide)]
  exact h3 p ((started_of_joined (joined_of_only h (by decide)) _).trans hs)

theorem hearTerm_only (m : Core) (t : BitVec 16) : m.onlyParts [.fab] (hearTerm m t) := by
  unfold hearTerm
  split
  · exact onlyParts_fab m _ (by decide)
  · split
    · exact onlyParts_fab m _ (by decide)
    · exact onlyParts_refl _ _

/-- Hearing a term changes no other part of the election. -/
theorem hearTerm_fab (m : Core) (t : BitVec 16) : ∃ u, (hearTerm m t).fab = { m.fab with heardTerm := u } := by
  unfold hearTerm
  split
  · exact ⟨_, rfl⟩
  · split
    · exact ⟨_, rfl⟩
    · exact ⟨m.fab.heardTerm, rfl⟩

/-- A claim that ranks above stops a candidate (R522). -/
theorem clm_above {m : Core} {g : Msg} (hd : dupSerial m g = false) (hc : m.fab.sm = .candidate)
    (ha : claimAbove (g.status, serialOf g) (smPrio m, Config.serial) = true) :
    m.onlyParts [.fab] (clm m g) ∧ (clm m g).fab.sm = .candidate ∧ (clm m g).fab.stopped = true := by
  have hheard : ∃ n, (if g.aux = 0 then m else hearTerm m g.aux) = n ∧ m.onlyParts [.fab] n ∧ n.fab.sm = .candidate := by
    obtain ⟨u, hu⟩ := hearTerm_fab m g.aux
    by_cases h0 : g.aux = 0
    · exact ⟨m, if_pos h0, onlyParts_refl _ _, hc⟩
    · exact ⟨hearTerm m g.aux, if_neg h0, hearTerm_only _ _, by rw [hu]; exact hc⟩
  obtain ⟨n, hn, ho, hs⟩ := hheard
  have hclm : clm m g = modFab n fun f => { f with stopped := true } := by
    unfold clm
    rw [hd, hn]
    dsimp only
    rw [if_neg Bool.false_ne_true, smPrio_congr (m := m) (as := []) (onlyRegs_of_only ho (by decide)) (by decide), ha, hs]
    rfl
  rw [hclm]
  exact ⟨onlyParts_trans ho (onlyParts_fab n _ (by decide)), hs, rfl⟩

/-- A new term changes the configuration alone where no node is prepared. -/
theorem termThrow_only {m : Core} (h : m.cfg.prepared = false) : m.onlyParts [.cfg] (termThrow m) := by
  unfold termThrow
  rw [h, if_neg Bool.false_ne_true]
  dsimp only
  split
  · exact onlyParts_cfg m _ (by decide)
  · exact onlyParts_refl _ _

theorem termThrow_idle {m : Core} (h : m.cfg.prepared = false) (hc : m.cfg.check = .idle) : termThrow m = m := by
  unfold termThrow
  rw [h, if_neg Bool.false_ne_true]
  dsimp only
  rw [hc]

/-- The fabric management of a candidate that becomes master of the next term. -/
def mastered (m : Core) : Core :=
  modFab m fun f => { f with
    sm := .master, stopped := false, claimTerm := none, termValid := true, term := m.fab.heardTerm.getD 0 + 1, master := nodeId m
    masterPrio := smPrio m, masterSerial := Config.serial, heardTerm := some (m.fab.heardTerm.getD 0 + 1), parent := none
    roster := [], admitting := none
    queue := [{ node := nodeId m, port := 16, tag := 0, rejoin := decide (m.fab.cplState = 2), plate := ownPlate m, epoch := m.cfg.epoch }]
    cplState := if decide (m.fab.cplState = 2) then 2 else 1 }

/-- The master's engines start empty. -/
def cleared (m : Core) : Core :=
  modFab2 m fun f => { f with down := [], leaving := [], lostJobs := [], lostLate := [], thrPhase := 0, thrNum := 0, thrWait := [] }

theorem becomeMaster_eq (m : Core) :
    becomeMaster m = pumpAll (sendBeacon (raise (cleared (termThrow (mastered m))) 81)) := rfl

/-- The candidate that settles is master of the next term (R523, R524). -/
theorem becomeMaster_state {m : Core} (h : m.cfg.prepared = false) :
    (becomeMaster m).fab.sm = .master ∧ (becomeMaster m).fab.termValid = true
      ∧ (becomeMaster m).fab.term = m.fab.heardTerm.getD 0 + 1 ∧ (becomeMaster m).fab.master = nodeId m
      ∧ isPending (becomeMaster m) 81 = true ∧ ∀ p : PortIx, started m p.val = true → mgtSends (becomeMaster m) p.val fun g =>
          g.op = .sma ∧ g.aux = m.fab.heardTerm.getD 0 + 1 ∧ g.status = smPrio m ∧ g.broadcast = true := by
  have h0 : m.onlyParts [.fab] (mastered m) := onlyParts_fab m _ (by decide)
  have h1 : (mastered m).onlyParts [.cfg] (termThrow (mastered m)) := termThrow_only h
  have h2 : (termThrow (mastered m)).onlyParts [.fab2] (cleared (termThrow (mastered m))) := onlyParts_fab2 _ _ (by decide)
  have h3 := raise_only (cleared (termThrow (mastered m))) 81
  have hparts : m.onlyParts ([.fab, .cfg, .fab2] ++ Part.report) (raise (cleared (termThrow (mastered m))) 81) :=
    onlyParts_trans (onlyParts_trans (onlyParts_mono h0 (by decide)) (onlyParts_mono h1 (by decide)))
      (onlyParts_trans (onlyParts_mono h2 (by decide)) (onlyParts_mono h3 (by decide)))
  have hregs : m.onlyRegs reportRegs (raise (cleared (termThrow (mastered m))) 81) := fun a ha =>
    (raise_regs _ 81 a ha).trans (onlyRegs_of_only (as := []) (onlyParts_trans (onlyParts_mono h0 (by decide))
      (onlyParts_trans (onlyParts_mono h1 (by decide)) (onlyParts_mono h2 (by decide))) : m.onlyParts [.fab, .cfg, .fab2] _)
      (by decide) a (List.not_mem_nil))
  have hfab : (raise (cleared (termThrow (mastered m))) 81).fab = (mastered m).fab := (h3 .fab (by decide)).trans
    ((h2 .fab (by decide)).trans (h1 .fab (by decide)))
  have hp : isPending (raise (cleared (termThrow (mastered m))) 81) 81 = true := raise_isPending _ _
  rw [becomeMaster_eq]
  generalize raise (cleared (termThrow (mastered m))) 81 = n at hparts hregs hfab hp
  obtain ⟨-, g2, g3, g4⟩ := sendBeacon_state n
  have hk : MasterKept (sendBeacon n) (pumpAll (sendBeacon n)) := masterKept_pump _ _
  refine ⟨by rw [hk.sm, g2, hfab]; rfl, by rw [hk.valid, g2, hfab]; rfl, by rw [hk.term, g2, hfab]; rfl,
    by rw [hk.master, g2, hfab]; rfl, hk.pending _ (g3 _ hp), fun p hs => mgtSends_joined hk.queues (mgtSends_mono (g4 p
      ((started_of_joined (joined_of_only hparts (by decide)) _).trans hs)) fun r ⟨h1, _, h3, h4, h5, _⟩ => ?_)⟩
  exact ⟨h1, by rw [h3, hfab]; rfl, by rw [h4, smPrio_congr hregs (by decide)], h5⟩

/-- The fabric management of a follower of a new term. -/
def followed (m : Core) (i : InMsg) (t : BitVec 64) : Core :=
  modFab { m with time := t, pmc := { m.pmc with stepped := true } } fun f => { f with
    termValid := true, term := i.msg.aux, master := i.msg.src, masterPrio := i.msg.status, masterSerial := serialOf i.msg
    parent := if i.port < 16 then some i.port else none }

/-- A follower of a new term couples, where a warm reset does not leave it to software (R528, R544). -/
def coupled (m : Core) : Core :=
  if m.fab.cplState = 2 then sendCpl m true else if !m.fab.afterWarm then sendCpl m false else m

theorem coupled_state (m : Core) :
    m.onlyParts (.fab :: sendParts) (coupled m) ∧ (coupled m).fab.parent = m.fab.parent ∧ MasterKept m (coupled m) := by
  unfold coupled
  split
  · exact sendCpl_state m true
  · split
    · exact sendCpl_state m false
    · exact ⟨onlyParts_refl _ _, rfl, masterKept_refl m⟩

/-- A listener that steps down. -/
def listens (m : Core) : Core :=
  modFab m fun f => { f with sm := .listener, stopped := false, listening := false, claimTerm := none }

theorem stepDown_listener {m : Core} (h : m.fab.sm = .listener) : stepDown m = listens m := by
  unfold stepDown
  rw [if_pos (by rw [h]; decide)]
  rfl

/-- What a follower does once the step of its time is recorded. -/
def takesTerm (n : Core) (i : InMsg) (t : BitVec 64) : Core :=
  let m := raise (tally .fab 7 1 (followed n i t)) 81
  if m.fab.cplState = 2 then sendCpl m true
  else if !m.fab.afterWarm then sendCpl m false
  else m

theorem takesTerm_eq (n : Core) (i : InMsg) (t : BitVec 64) :
    takesTerm n i t = coupled (raise (tally .fab 7 1 (followed n i t)) 81) := by
  unfold takesTerm
  dsimp only
  generalize raise (tally .fab 7 1 (followed n i t)) 81 = o
  rfl

theorem newTerm_eq (m : Core) (i : InMsg) : newTerm m i = takesTerm (journal (termThrow (stepDown m)) 0x13 2
    (payload [(8, 4), (60, (termThrow (stepDown m)).time.toNat), (60, (BitVec.ofNat 64 (beAt i.msg.data 8 8)).toNat)]))
    i (BitVec.ofNat 64 (beAt i.msg.data 8 8)) := by
  unfold newTerm
  dsimp only
  generalize termThrow (stepDown m) = n
  generalize BitVec.ofNat 64 (beAt i.msg.data 8 8) = t
  generalize journal n 19 2 (payload [(8, 4), (60, n.time.toNat), (60, t.toNat)]) = o
  rfl

theorem followed_only (m : Core) (i : InMsg) (t : BitVec 64) : m.onlyParts [.time, .pmc, .fab] (followed m i t) := by
  have h1 : m.onlyParts [.time, .pmc, .fab] { m with time := t } := onlyParts_time m t (by decide)
  have h2 : Core.onlyParts [.time, .pmc, .fab] { m with time := t } { m with time := t, pmc := { m.pmc with stepped := true } } :=
    onlyParts_pmc { m with time := t } _ (by decide)
  exact onlyParts_trans (onlyParts_trans h1 h2) (onlyParts_fab _ _ (by decide))

/-- A follower of a new term raises source 81. -/
def reported (m : Core) : Core := raise (tally .fab 7 1 m) 81

theorem reported_only (m : Core) : m.onlyParts Part.report (reported m) :=
  onlyParts_trans (tally_only .fab 7 1 m) (raise_only _ 81)

/-- What a followed beacon of a new term leaves (R525). -/
theorem takesTerm_state {n : Core} {i : InMsg} {t : BitVec 64} (hs : n.fab.sm = .listener) (hi : i.port < 16) :
    (takesTerm n i t).fab.sm = .listener ∧ (takesTerm n i t).fab.termValid = true ∧ (takesTerm n i t).fab.term = i.msg.aux
      ∧ (takesTerm n i t).fab.master = i.msg.src ∧ (takesTerm n i t).fab.parent = some i.port ∧ (takesTerm n i t).time = t
      ∧ isPending (takesTerm n i t) 81 = true ∧ n.onlyParts (.time :: .fab :: sendParts) (takesTerm n i t) := by
  have heq : takesTerm n i t = coupled (reported (followed n i t)) := takesTerm_eq n i t
  have h1 := followed_only n i t
  have h2 := reported_only (followed n i t)
  have hp : isPending (reported (followed n i t)) 81 = true := raise_isPending _ _
  have hf : (reported (followed n i t)).fab = (followed n i t).fab := h2 .fab (by decide)
  have ht : (reported (followed n i t)).time = t := h2 .time (by decide)
  have hall : n.onlyParts (.time :: .fab :: sendParts) (reported (followed n i t)) :=
    onlyParts_trans (onlyParts_mono h1 (by decide)) (onlyParts_mono h2 (by decide))
  rw [heq]
  generalize reported (followed n i t) = o at hp hf ht hall
  obtain ⟨g1, g2, g3⟩ := coupled_state o
  refine ⟨by rw [g3.sm, hf]; exact hs, by rw [g3.valid, hf]; rfl, by rw [g3.term, hf]; rfl, by rw [g3.master, hf]; rfl, ?_,
    (g1 .time (by decide)).trans ht, g3.pending _ hp, onlyParts_trans hall (onlyParts_mono g1 (by decide))⟩
  rw [g2, hf]
  exact if_pos hi

/-- A listener that no throw concerns follows a new term after the record of the step. -/
theorem newTerm_listener {m : Core} {i : InMsg} (hs : m.fab.sm = .listener) (hp : m.cfg.prepared = false)
    (hc : m.cfg.check = .idle) : ∃ n, newTerm m i = takesTerm n i (BitVec.ofNat 64 (beAt i.msg.data 8 8)) ∧ n.fab.sm = .listener
      ∧ m.onlyParts (.fab :: .jnl :: Part.report) n := by
  have hstep : termThrow (stepDown m) = listens m := by
    rw [stepDown_listener hs]
    exact termThrow_idle hp hc
  have h0 : m.onlyParts [.fab] (listens m) := onlyParts_fab m _ (by decide)
  have hl : (listens m).fab.sm = .listener := rfl
  refine ⟨_, newTerm_eq m i, ?_⟩
  rw [hstep]
  generalize payload [(8, 4), (60, (listens m).time.toNat), (60, (BitVec.ofNat 64 (beAt i.msg.data 8 8)).toNat)] = pl
  generalize listens m = n at h0 hl
  have h1 := journal_only n 0x13 2 pl
  exact ⟨by rw [h1 .fab (by decide)]; exact hl, onlyParts_trans (onlyParts_mono h0 (by decide)) (onlyParts_mono h1 (by decide))⟩

/-- A beacon of another node is of a new term where none is valid (R525). -/
theorem sma_new {m : Core} {i : InMsg} (hd : dupSerial m i.msg = false) (hsrc : i.msg.src ≠ nodeId m)
    (hv : m.fab.termValid = false) : sma m i = tally .fab 6 1 (newTerm (hearTerm m i.msg.aux) i) := by
  obtain ⟨u, hu⟩ := hearTerm_fab m i.msg.aux
  have hv' : (hearTerm m i.msg.aux).fab.termValid = false := by rw [hu]; exact hv
  unfold sma
  dsimp only
  rw [hd, if_neg Bool.false_ne_true, if_neg hsrc, hv']
  simp only [Bool.false_and, Bool.false_eq_true, if_false, Bool.not_false, Bool.true_or, if_true]

theorem takeOldest_single {m : Core} {i : InMsg} {op : Op} {p : Msg → Bool} (hi : m.inbox = [i]) (ho : i.msg.op = op)
    (hp : p i.msg = true) : takeOldest m op p = some (i, released m i) := by
  have hf : m.inbox.find? (fun i => decide (i.msg.op = op)) = some i := by simp [hi, ho]
  rw [takeOldest, hf]
  dsimp only
  rw [if_pos hp]
  exact takeInbox_single hi (decide_eq_true ho)

theorem onMsg_single {m : Core} {i : InMsg} {op : Op} {p : Msg → Bool} {f : Core → InMsg → Core} (hi : m.inbox = [i])
    (ho : i.msg.op = op) (hp : p i.msg = true) : onMsg op p f m = f (released m i) i := by
  rw [onMsg, takeOldest_single hi ho hp]

theorem execClm_single {s : State} {i : InMsg} (hr : running s.m = true) (hi : s.m.inbox = [i]) (ho : i.msg.op = .clm) :
    exec .clm s = .next { s with m := clm (released s.m i) i.msg } :=
  clocked_next (f := onMsg .clm (fun _ => true) fun m i => clm m i.msg) hr (onMsg_single hi ho rfl)

/-- What becomes a candidate, and how (R520 to R522, R527). -/
theorem claims_state {s : State} {c : Instr} (hr : running s.m = true) (hprio : smPrio s.m ≠ 0)
    (hc : (c = .listenEnd ∧ s.m.fab.listening = true ∧ s.m.fab.sm = .listener ∧ s.m.fab.termValid = false)
      ∨ (c = .claimWaitTimeout ∧ s.m.fab.sm = .candidate ∧ s.m.fab.stopped = true)
      ∨ (c = .claimResend ∧ s.m.fab.sm = .candidate ∧ s.m.fab.stopped = false)
      ∨ (c = .beaconLoss ∧ s.m.fab.sm = .listener ∧ s.m.fab.termValid = true)) :
    ∃ n, exec c s = .next { s with m := sendClaim n } ∧ s.m.onlyParts [.fab] n ∧ n.fab.sm = .candidate ∧ n.fab.stopped = false
      ∧ n.fab.seq = s.m.fab.seq ∧ claimAux n = if c = .beaconLoss then s.m.fab.term else claimAux s.m := by
  rcases hc with ⟨rfl, hl, hs, hv⟩ | ⟨rfl, hs, hst⟩ | ⟨rfl, hs, hst⟩ | ⟨rfl, hs, hv⟩
  · exact ⟨_, clocked_next hr (if_pos (by simpa [hl, hs, hv] using hprio)), onlyParts_fab s.m _ (by decide), rfl, rfl, rfl,
      (if_neg (by simp)).symm⟩
  · exact ⟨_, clocked_next hr (if_pos (by simp [hs, hst])), onlyParts_fab s.m _ (by decide), rfl, rfl, rfl,
      (if_neg (by simp)).symm⟩
  · exact ⟨_, clocked_next hr (if_pos (by simp [hs, hst])), onlyParts_refl _ _, hs, hst, rfl, (if_neg (by simp)).symm⟩
  · exact ⟨modFab (modFab s.m fun f => { f with claimTerm := some f.term }) fun f =>
        { f with sm := .candidate, stopped := false, listening := false },
      clocked_next hr (if_pos (by simpa [hs, hv] using hprio)), onlyParts_fab s.m _ (by decide), rfl, rfl, rfl, (if_pos rfl).symm⟩

/-- Settles O51: the claims, the beacons and the terms, each engine's step by its own lemma; the admission engine that runs
after a settled election leaves the master alone. -/
theorem stationMasterIsElected : Obligations.StationMasterIsElected := by
  refine ⟨fun s c hr hprio hc => ?_, fun s g hr hi ho hd hs ha => ?_, fun s hr hs hst hp => ?_, fun s hr hs => ?_,
    fun s i hr hi ho hport hd hsrc hv hs hp hc => ?_⟩
  · obtain ⟨n, hstep, hn, hsm, hst, hseq, haux⟩ := claims_state hr hprio hc
    obtain ⟨h1, h2, h3⟩ := sendClaim_of_fab hn
    rw [← hseq, ← haux]
    generalize sendClaim n = o at hstep h1 h2 h3
    refine ⟨{ s with m := o }, hstep, ?_, ?_, ?_, fun p hp => ?_, only_next h1⟩
    · rw [h2]; exact hsm
    · rw [h2]; exact hst
    · rw [h2]
    · exact h3 p hp
  · obtain ⟨i, hi', rfl⟩ := List.map_eq_singleton_iff.1 hi
    have h0 := released_only s.m i
    have hregs : s.m.onlyRegs [] (released s.m i) := onlyRegs_of_only h0 (by decide)
    obtain ⟨h1, h2, h3⟩ := clm_above (m := released s.m i) (g := i.msg)
      (by rw [dupSerial, nodeId_congr hregs (by decide)]; exact hd) (by rw [h0 .fab (by decide)]; exact hs)
      (by rw [smPrio_congr hregs (by decide)]; exact ha)
    exact ⟨_, execClm_single hr hi' ho, (h1 .inbox (by decide)).trans (released_inbox _ _), h2, h3,
      only_next (onlyParts_trans (onlyParts_mono h0 (by decide)) (onlyParts_mono h1 (by decide)))⟩
  · obtain ⟨h1, h2, h3, h4, h5, h6⟩ := becomeMaster_state hp
    have hgoes : (s.m.fab.sm = .candidate && !s.m.fab.stopped) = true := by simp [hs, hst]
    have hstep : exec .settleEnd s = .next { s with m := becomeMaster s.m } :=
      clocked_next (f := fun m => if m.fab.sm = .candidate && !m.fab.stopped then becomeMaster m else m) hr (if_pos hgoes)
    generalize becomeMaster s.m = n at hstep h1 h2 h3 h4 h5 h6
    exact ⟨_, hstep, h1, h2, h3, h4, h5, h6, rfl, rfl⟩
  · obtain ⟨h1, h2, -, h4⟩ := sendBeacon_state s.m
    have hstep : exec .beacon s = .next { s with m := sendBeacon s.m } :=
      clocked_next (f := fun m => if m.fab.sm = .master then sendBeacon m else m) hr (if_pos hs)
    generalize sendBeacon s.m = n at hstep h1 h2 h4
    exact ⟨_, hstep, h2, h4, only_next h1⟩
  · have h0 := released_only s.m i
    have hregs : s.m.onlyRegs [] (released s.m i) := onlyRegs_of_only h0 (by decide)
    have hfab0 : (released s.m i).fab = s.m.fab := h0 .fab (by decide)
    have hsma := sma_new (m := released s.m i) (i := i) (by rw [dupSerial, nodeId_congr hregs (by decide)]; exact hd)
      (by rw [nodeId_congr hregs (by decide)]; exact hsrc) (by rw [hfab0]; exact hv)
    obtain ⟨u, hu⟩ := hearTerm_fab (released s.m i) i.msg.aux
    have hh := hearTerm_only (released s.m i) i.msg.aux
    have hcfg : (hearTerm (released s.m i) i.msg.aux).cfg = s.m.cfg := (hh .cfg (by decide)).trans (h0 .cfg (by decide))
    obtain ⟨n, hnew, hn, honly⟩ := newTerm_listener (m := hearTerm (released s.m i) i.msg.aux) (i := i)
      (by rw [hu, hfab0]; exact hs) (by rw [hcfg]; exact hp) (by rw [hcfg]; exact hc)
    have hpre : s.m.onlyParts (.inbox :: .fab :: .ports :: .time :: .jnl :: Part.report) n :=
      onlyParts_trans (onlyParts_mono h0 (by decide)) (onlyParts_trans (onlyParts_mono hh (by decide)) (onlyParts_mono honly (by decide)))
    obtain ⟨g1, g2, g3, g4, g5, g6, g7, g8⟩ := takesTerm_state (t := BitVec.ofNat 64 (beAt i.msg.data 8 8)) hn hport
    have hall := onlyParts_trans hpre (onlyParts_mono g8 (by decide))
    rw [hnew] at hsma
    generalize takesTerm n i (BitVec.ofNat 64 (beAt i.msg.data 8 8)) = o at hsma g1 g2 g3 g4 g5 g6 g7 hall
    have ht := tally_only .fab 6 1 o
    have hk := masterKept_tally .fab 6 1 o
    have hstep := clocked_next (f := onMsg .sma (fun _ => true) sma) hr ((onMsg_single hi ho rfl).trans hsma)
    exact ⟨_, hstep, hk.sm.trans g1, hk.valid.trans g2, hk.term.trans g3,
      hk.master.trans g4, (congrArg Fab.parent (ht .fab (by decide))).trans g5, (ht .time (by decide)).trans g6, hk.pending _ g7,
      only_next (onlyParts_trans hall (onlyParts_mono ht (by decide)))⟩

end Sys2Proof.Election
end

section
/-! PROOFS. Fabric-wide throws (spec/11_bringup_coupling.md, spec/12_control_plane.md): the master's side, the node's side,
and the statement about them. -/

namespace Sys2Proof.FabricThrows

open Sys2Proof.Machine Sys2Proof.Laws Sys2Proof.Windows Sys2Proof.Sending Sys2Proof.Engine Sys2Proof.Flits
  Sys2Proof.Transactions Sys2Proof.CfgMessages Sys2Proof.Election

/-! ### Messages of the management engines -/

/-- A message of the management engines that has a route joins the queue of its port. -/
theorem send_mgt {m : Core} {src p : Nat} {e : Bool} {x : Msg} (hd : x.dest ≠ nodeId m) (hr : routeOf m e x.dest = some p) :
    m.onlyParts (.ports :: Part.report) (send m src none e x) ∧ mgtSends (send m src none e x) p (AsSent m x) := by
  have ht := tally_only .xbr 3 1 m
  rw [send_routed hd hr]
  obtain ⟨y, hy, -, ho, hm⟩ := enqueue_mem (tally .xbr 3 1 m) p src none (stamped m x)
  exact ⟨onlyParts_trans (onlyParts_mono ht (by decide)) (onlyParts_mono (enqueue_only _ _ _ _ _) (by decide)),
    y, hy, ho, hm⟩

/-- A reply to another node that is no request and no `CFG` delivers nothing to its sender. -/
theorem send_inbox {m : Core} {src : Nat} {o : Option Nat} {e : Bool} {x : Msg} (hd : x.dest ≠ nodeId m)
    (hc : clsOf x.op ≠ .req) (hop : x.op ≠ .cfg) : (send m src o e x).inbox = m.inbox := by
  have ht := tally_only .xbr 3 1 m
  have hn : nodeId (tally .xbr 3 1 m) = nodeId m := nodeId_congr (tally_regs .xbr 3 1 m) (by decide)
  unfold send
  dsimp only
  rw [hn, if_neg hd]
  split
  · exact (enqueue_only _ _ _ _ _ .inbox (by decide)).trans (ht .inbox (by decide))
  · rw [if_neg (by simp [hc, hop])]
    exact (journalDrop_only _ _ _ .inbox (by decide)).trans ((tally_only _ _ _ _ .inbox (by decide)).trans (ht .inbox (by decide)))

/-- Routes depend on the configuration sets and on the ports. -/
theorem routeOf_of_sets {m n : Core} (h0 : n.cfg.set0 = m.cfg.set0) (h1 : n.cfg.set1 = m.cfg.set1) (hp : n.ports = m.ports)
    (e : Bool) (d : NodeId) : routeOf n e d = routeOf m e d := by
  have hset : Machine.setOf n e = Machine.setOf m e := by rw [Machine.setOf, Machine.setOf, h0, h1]
  have hnamed : namedPort n e d = namedPort m e d := by rw [namedPort, namedPort, hset]
  have hport (q : Nat) : port n q = port m q := by rw [port, port, hp]
  have hruns (q : Nat) : runsX4 n q = runsX4 m q := by rw [runsX4, runsX4, hport]
  have hstarted (q : Nat) : started n q = started m q := by rw [started, started, hport]
  simp only [routeOf, hnamed, hruns, hstarted]

/-! ### The master's side (R540, R541) -/

/-- The step of a throw's messages at one node. -/
def sendThrTo (ph : Nat) (e : Bool) (m : Core) (n : NodeId) : Core :=
  send (nextTag m) 17 none m.cfg.epoch { op := .thr, dest := n, tag := m.fab.mtag, status := BitVec.ofNat 8 ph
                                         aux := m.fab2.thrNum, epoch := e }

theorem sendThr_eq (m : Core) (ph : Nat) (ns : List NodeId) :
    sendThr m ph ns = ns.foldl (sendThrTo ph (if ph = 2 then !m.cfg.epoch else m.cfg.epoch)) m := rfl

theorem sendThrTo_only (ph : Nat) (e : Bool) (m : Core) (n : NodeId) :
    m.onlyParts (.fab :: sendParts) (sendThrTo ph e m n) ∧ (sendThrTo ph e m n).fab.queue = m.fab.queue := by
  have h0 : m.onlyParts [.fab] (nextTag m) := onlyParts_fab m _ (by decide)
  have h1 : (nextTag m).onlyParts sendParts (sendThrTo ph e m n) := send_only _ _ _ _ _
  have hfab : (sendThrTo ph e m n).fab = (nextTag m).fab := h1 .fab (by decide)
  exact ⟨onlyParts_trans (onlyParts_mono h0 (by decide)) (onlyParts_mono h1 (by decide)), by rw [hfab]; rfl⟩

theorem sendThr_only (m : Core) (ph : Nat) (ns : List NodeId) :
    m.onlyParts (.fab :: sendParts) (sendThr m ph ns) ∧ (sendThr m ph ns).fab.queue = m.fab.queue := by
  rw [sendThr_eq]
  refine ⟨onlyParts_foldl _ (fun n k => (sendThrTo_only ph _ n k).1) _ _, ?_⟩
  generalize (if ph = 2 then !m.cfg.epoch else m.cfg.epoch) = e
  induction ns generalizing m with
  | nil => rfl
  | cons n r ih => exact (ih _).trans (sendThrTo_only ph e m n).2

/-- A throw's message to the one node of the roster. -/
theorem sendThr_one {m : Core} {ph p : Nat} {n : NodeId} (hd : n ≠ nodeId m) (hr : routeOf m m.cfg.epoch n = some p) :
    m.onlyParts (.fab :: .ports :: Part.report) (sendThr m ph [n]) ∧ mgtSends (sendThr m ph [n]) p fun g =>
      g.op = .thr ∧ g.dest = n ∧ g.status = BitVec.ofNat 8 ph ∧ g.aux = m.fab2.thrNum
        ∧ g.epoch = if ph = 2 then !m.cfg.epoch else m.cfg.epoch := by
  have h0 : m.onlyParts [.fab] (nextTag m) := onlyParts_fab m _ (by decide)
  obtain ⟨h1, h2⟩ := send_mgt (m := nextTag m) (src := 17) (p := p) (e := m.cfg.epoch)
    (x := { op := .thr, dest := n, tag := m.fab.mtag, status := BitVec.ofNat 8 ph, aux := m.fab2.thrNum
            epoch := if ph = 2 then !m.cfg.epoch else m.cfg.epoch }) hd hr
  refine ⟨onlyParts_trans (onlyParts_mono h0 (by decide)) (onlyParts_mono h1 (by decide)), mgtSends_mono h2 fun r hr => ?_⟩
  obtain ⟨d, rfl⟩ := hr
  exact ⟨rfl, rfl, rfl, rfl, rfl⟩

/-- A throw of a roster `ns` begins. -/
def begun (m : Core) : Core :=
  modFab2 m fun f => { f with thrPhase := 1, thrNum := f.thrNum + 1, thrWait := rosterNodes m, thrBad := false, thrCode := 0, thrNode := 0 }

theorem throwNext_waiting {m : Core} {n : NodeId} {r : List NodeId} (h : m.fab2.thrWait = n :: r) : throwNext m = m := by
  unfold throwNext
  rw [h]
  rfl

theorem throwBegin_eq (m : Core) : throwBegin m = throwNext (sendThr (begun m) 1 (rosterNodes m)) := rfl

/-- The throw of a roster of one node begins (R540). -/
theorem throwBegin_one {m : Core} {n : NodeId} {p : Nat} (hn : rosterNodes m = [n]) (hd : n ≠ nodeId m)
    (hr : routeOf m m.cfg.epoch n = some p) :
    m.onlyParts (.fab :: .fab2 :: .ports :: Part.report) (throwBegin m) ∧ (throwBegin m).fab2.thrPhase = 1
      ∧ (throwBegin m).fab2.thrNum = m.fab2.thrNum + 1 ∧ (throwBegin m).fab2.thrWait = [n]
      ∧ mgtSends (throwBegin m) p fun g => g.op = .thr ∧ g.dest = n ∧ g.status = 1 ∧ g.aux = m.fab2.thrNum + 1
          ∧ g.epoch = m.cfg.epoch := by
  have h0 : m.onlyParts [.fab2] (begun m) := onlyParts_fab2 m _ (by decide)
  obtain ⟨h1, h2⟩ := sendThr_one (m := begun m) (ph := 1) (n := n) (p := p) hd hr
  have hfab2 : (sendThr (begun m) 1 [n]).fab2 = (begun m).fab2 := h1 .fab2 (by decide)
  have hwait : (begun m).fab2.thrWait = [n] := hn
  have heq : throwBegin m = sendThr (begun m) 1 [n] := by
    rw [throwBegin_eq, hn]
    exact throwNext_waiting (by rw [hfab2, hwait])
  rw [heq]
  exact ⟨onlyParts_trans (onlyParts_mono h0 (by decide)) (onlyParts_mono h1 (by decide)), by rw [hfab2]; rfl,
    by rw [hfab2]; rfl, by rw [hfab2, hwait], h2⟩

/-- The awaited nodes after an answer. -/
def answered (m : Core) (n : NodeId) : Core := modFab2 m fun f => { f with thrWait := f.thrWait.erase n }

/-- The flip is under way. -/
def flipping (m : Core) : Core := modFab2 m fun f => { f with thrPhase := 2, thrWait := rosterNodes m }

theorem throwNext_ready {m : Core} {n : NodeId} (hw : m.fab2.thrWait = []) (hp : m.fab2.thrPhase = 1)
    (hb : m.fab2.thrBad = false) (hn : rosterNodes m = [n]) : throwNext m = sendThr (flipping m) 2 [n] := by
  unfold throwNext flipping
  rw [hw, hp, hb, hn]
  rfl

theorem tha_ready {m : Core} {g : Msg} (hp : m.fab2.thrPhase = 1) (ha : g.aux = m.fab2.thrNum) (hw : m.fab2.thrWait = [g.src])
    (hs : g.status = 0) : tha m g = throwNext (answered m g.src) := by
  have hruns : (!throwRuns m || decide (g.aux ≠ m.fab2.thrNum) || !m.fab2.thrWait.contains g.src) = false := by
    simp [throwRuns, hp, ha, hw]
  unfold tha
  rw [if_neg (by rw [hruns]; exact Bool.false_ne_true)]
  dsimp only
  rw [if_pos hs]
  rfl

/-- Once every node is ready the master flips (R540). -/
theorem tha_flips {m : Core} {g : Msg} {p : Nat} (hp : m.fab2.thrPhase = 1) (hb : m.fab2.thrBad = false)
    (ha : g.aux = m.fab2.thrNum) (hw : m.fab2.thrWait = [g.src]) (hs : g.status = 0) (hn : rosterNodes m = [g.src])
    (hd : g.src ≠ nodeId m) (hr : routeOf m m.cfg.epoch g.src = some p) :
    m.onlyParts (.fab :: .fab2 :: .ports :: Part.report) (tha m g) ∧ (tha m g).fab2.thrPhase = 2
      ∧ (tha m g).fab2.thrWait = [g.src] ∧ mgtSends (tha m g) p fun r => r.op = .thr ∧ r.dest = g.src ∧ r.status = 2
          ∧ r.aux = m.fab2.thrNum ∧ r.epoch = !m.cfg.epoch := by
  have h0 : m.onlyParts [.fab2] (flipping (answered m g.src)) :=
    onlyParts_trans (onlyParts_fab2 m _ (by decide)) (onlyParts_fab2 _ _ (by decide))
  obtain ⟨h1, h2⟩ := sendThr_one (m := flipping (answered m g.src)) (ph := 2) (n := g.src) (p := p) hd hr
  have hfab2 : (sendThr (flipping (answered m g.src)) 2 [g.src]).fab2 = (flipping (answered m g.src)).fab2 := h1 .fab2 (by decide)
  have hwait : (answered m g.src).fab2.thrWait = [] := by
    show m.fab2.thrWait.erase g.src = []
    rw [hw]
    simp
  rw [tha_ready hp ha hw hs, throwNext_ready (m := answered m g.src) hwait hp hb hn]
  exact ⟨onlyParts_trans (onlyParts_mono h0 (by decide)) (onlyParts_mono h1 (by decide)), by rw [hfab2]; rfl,
    by rw [hfab2]; exact hn, h2⟩

/-- The admission engine waits while a throw runs (R577). -/
theorem pumpAll_runs {m : Core} (h : throwRuns m = true) : pumpAll m = m := by
  unfold pumpAll pump
  rw [h]
  exact if_pos (by simp)

theorem pumpAll_empty {m : Core} (h : m.fab.queue = []) : pumpAll m = m := by
  unfold pumpAll pump
  split
  · rfl
  · rw [h]

/-- A silent node ends a throw in its first phase (R540). -/
theorem throwTimeout_aborts {m : Core} {n : NodeId} {r : List NodeId} (hp : m.fab2.thrPhase = 1) (hw : m.fab2.thrWait = n :: r) :
    (throwTimeout m).fab2.thrPhase = 4 ∧ (throwTimeout m).fab2.thrWait = [] ∧ (throwTimeout m).fab2.thrBad = true
      ∧ (m.fab2.thrCode = 0 → (throwTimeout m).fab2.thrCode = 0xFF ∧ (throwTimeout m).fab2.thrNode = n)
      ∧ isPending (throwTimeout m) 130 = true ∧ (throwTimeout m).fab.queue = m.fab.queue := by
  have heq : throwTimeout m = throwAbort (throwNote m n 0xFF) := by
    unfold throwTimeout
    rw [hp, hw]
    rfl
  obtain ⟨h1, h2⟩ := sendThr_only (modFab2 (throwNote m n 0xFF) fun f => { f with thrPhase := 4, thrWait := [] }) 3
    (rosterNodes (throwNote m n 0xFF))
  have hraise := raise_only (sendThr (modFab2 (throwNote m n 0xFF) fun f => { f with thrPhase := 4, thrWait := [] }) 3
    (rosterNodes (throwNote m n 0xFF))) 130
  have hpend : isPending (throwAbort (throwNote m n 0xFF)) 130 = true := raise_isPending _ _
  have hfab2 : (throwAbort (throwNote m n 0xFF)).fab2
      = { (throwNote m n 0xFF).fab2 with thrPhase := 4, thrWait := [] } :=
    (hraise .fab2 (by decide)).trans (h1 .fab2 (by decide))
  have hqueue : (throwAbort (throwNote m n 0xFF)).fab.queue = m.fab.queue :=
    (congrArg Fab.queue (hraise .fab (by decide))).trans h2
  rw [heq, hfab2]
  exact ⟨rfl, rfl, rfl, fun hc => ⟨if_pos hc, if_pos hc⟩, hpend, hqueue⟩

/-! ### The node's side (R538, R626 to R631) -/

/-- A step of a throw takes its number. -/
def numberedThrow (m : Core) (g : Msg) : Core := modCfg (tally .fab 8 1 m) fun c => { c with throwNum := g.aux }

theorem numberedThrow_state (m : Core) (g : Msg) : m.onlyParts (.cfg :: Part.report) (numberedThrow m g)
    ∧ (numberedThrow m g).cfg = { m.cfg with throwNum := g.aux } ∧ nodeId (numberedThrow m g) = nodeId m := by
  have ht := tally_only .fab 8 1 m
  have hcfg : (tally .fab 8 1 m).cfg = m.cfg := ht .cfg (by decide)
  refine ⟨onlyParts_trans (onlyParts_mono ht (by decide)) (onlyParts_cfg _ _ (by decide)), ?_,
    nodeId_congr (m := m) (tally_regs .fab 8 1 m) (by decide)⟩
  show { (tally .fab 8 1 m).cfg with throwNum := g.aux } = _
  rw [hcfg]

/-- The master's step of a throw reaches its function (R626). -/
theorem onThr_master {m : Core} {i : InMsg} {ph : Nat} {f : Core → Msg → Core} (hi : m.inbox = [i]) (ho : i.msg.op = .thr)
    (hs : i.msg.status.toNat = ph) (hv : m.fab.termValid = true) (hm : i.msg.src = m.fab.master) :
    onThr ph f m = f (numberedThrow (released m i) i.msg) i.msg := by
  have hfab : (released m i).fab = m.fab := released_only m i .fab (by decide)
  unfold onThr
  rw [takeOldest_single hi ho (decide_eq_true hs)]
  dsimp only
  rw [hfab, hv, hm]
  simp only [Bool.not_true, ne_eq, not_true_eq_false, decide_false, Bool.or_false, Bool.false_eq_true, if_false]
  rfl

/-- The acknowledged epoch. -/
def acked (m : Core) (e : Bool) (code : Nat) : Core := if code = 0 then modCfg m fun c => { c with ackEpoch := some e } else m

/-- The answer to a throw's step. -/
def thaMsg (x : Msg) (code : Nat) : Msg :=
  { op := .tha, dest := x.src, tag := x.tag, epoch := x.epoch, status := BitVec.ofNat 8 code, aux := x.aux }

theorem sendTha_eq (m : Core) (x : Msg) (code : Nat) : sendTha m x code = sendReply (acked m x.epoch code) (thaMsg x code) := rfl

theorem acked_state (m : Core) (e : Bool) (code : Nat) : m.onlyParts [.cfg] (acked m e code)
    ∧ (acked m e code).cfg = { m.cfg with ackEpoch := if code = 0 then some e else m.cfg.ackEpoch } := by
  unfold acked
  split
  · exact ⟨onlyParts_cfg _ _ (by decide), rfl⟩
  · exact ⟨onlyParts_refl _ _, rfl⟩

/-- The answer leaves the configuration as acknowledged, and its own inbox alone. -/
theorem sendTha_state (m : Core) (x : Msg) (code : Nat) :
    (sendTha m x code).cfg = { m.cfg with ackEpoch := if code = 0 then some x.epoch else m.cfg.ackEpoch }
      ∧ (x.src ≠ nodeId m → (sendTha m x code).inbox = m.inbox) := by
  obtain ⟨h1, h2⟩ := acked_state m x.epoch code
  rw [sendTha_eq]
  refine ⟨(sendReply_only _ _ .cfg (by decide)).trans h2, fun hd => ?_⟩
  refine (send_inbox ?_ (by decide : clsOf Op.tha ≠ .req) (by decide : Op.tha ≠ .cfg)).trans (h1 .inbox (by decide))
  rw [nodeId_congr (m := m) (onlyRegs_of_only (as := []) h1 (by decide)) (by decide)]
  exact hd

/-- A standby set is checked. -/
theorem thrPrepare_checks {m : Core} {x : Msg} (hd : m.cfg.drain = false) (hc : m.cfg.check = .idle) :
    thrPrepare m x = modCfg m fun c => { c with check := .prepare x.src x.tag x.aux x.epoch false } := by
  unfold thrPrepare
  rw [hd, hc]
  exact if_neg (by simp)

/-- The node is prepared where the check passed. -/
def prepared (m : Core) : Core :=
  recordCheck (modCfg m fun c => { c with check := .idle, prepared := (throwCheck m).isNone && !false }) (throwCheck m)

theorem recordCheck_state (m : Core) (r : Option CheckFail) : m.onlyParts [.regs] (recordCheck m r)
    ∧ m.onlyRegs [0x40C] (recordCheck m r) := by
  unfold recordCheck
  split
  · exact ⟨onlyParts_rset _ _ _ (by decide), onlyRegs_rset _ _ _ (by decide)⟩
  · exact ⟨onlyParts_rset _ _ _ (by decide), onlyRegs_rset _ _ _ (by decide)⟩

theorem prepared_state (m : Core) : m.onlyParts [.cfg, .regs] (prepared m) ∧ m.onlyRegs [0x40C] (prepared m)
    ∧ (prepared m).cfg = { m.cfg with check := .idle, prepared := (throwCheck m).isNone } := by
  obtain ⟨h1, h2⟩ := recordCheck_state (modCfg m fun c => { c with check := .idle, prepared := (throwCheck m).isNone && !false })
    (throwCheck m)
  refine ⟨onlyParts_trans (onlyParts_cfg m _ (by decide)) (onlyParts_mono h1 (by decide)), h2, (h1 .cfg (by decide)).trans ?_⟩
  simp only [modCfg, Bool.not_false, Bool.and_true]

theorem prepareDone_eq {m : Core} {src : NodeId} {tag : BitVec 12} {num : BitVec 16} {e : Bool}
    (h : m.cfg.check = .prepare src tag num e false) :
    prepareDone m = sendTha (prepared m) { op := .thr, src := src, tag := tag, aux := num, epoch := e }
      (if (throwCheck m).isNone then 0 else 8) := by
  unfold prepareDone
  rw [h]
  rfl

/-- The check of a prepared throw ends (R627). -/
theorem prepareDone_state {m : Core} {src : NodeId} {tag : BitVec 12} {num : BitVec 16} {e : Bool} {p : Nat}
    (h : m.cfg.check = .prepare src tag num e false) (hd : src ≠ nodeId m) (hr : routeOf m (epochFor m e) src = some p) :
    (prepareDone m).cfg.check = .idle ∧ (prepareDone m).cfg.prepared = (throwCheck m).isNone
      ∧ (prepareDone m).cfg.ackEpoch = (if (throwCheck m).isNone = true then some e else m.cfg.ackEpoch)
      ∧ mgtSends (prepareDone m) p (fun r => r.op = .tha ∧ r.dest = src ∧ r.tag = tag ∧ r.aux = num ∧ r.epoch = e
          ∧ r.status = (if (throwCheck m).isNone = true then 0 else 8))
      ∧ m.onlyParts (.cfg :: .ports :: Part.report) (prepareDone m) ∧ m.onlyRegs (0x40C :: reportRegs) (prepareDone m) := by
  obtain ⟨h1, h2, h3⟩ := prepared_state m
  rw [prepareDone_eq h, sendTha_eq]
  obtain ⟨h4, h5⟩ := acked_state (prepared m) e (if (throwCheck m).isNone = true then 0 else 8)
  have hn : nodeId (acked (prepared m) e (if (throwCheck m).isNone = true then 0 else 8)) = nodeId m :=
    (nodeId_congr (as := []) (onlyRegs_of_only h4 (by decide)) (by decide)).trans (nodeId_congr h2 (by decide))
  have hports : (acked (prepared m) e (if (throwCheck m).isNone = true then 0 else 8)).ports = m.ports :=
    (h4 .ports (by decide)).trans (h1 .ports (by decide))
  have hregs : m.onlyRegs [0x40C] (acked (prepared m) e (if (throwCheck m).isNone = true then 0 else 8)) :=
    onlyRegs_trans h2 (onlyRegs_of_only h4 (by decide))
  have hparts : m.onlyParts [.cfg, .regs] (acked (prepared m) e (if (throwCheck m).isNone = true then 0 else 8)) :=
    onlyParts_trans h1 (onlyParts_mono h4 (by decide))
  rw [h3] at h5
  generalize acked (prepared m) e (if (throwCheck m).isNone = true then 0 else 8) = n at h5 hn hports hregs hparts
  have hroute : routeOf n (epochFor n e) src = some p := by
    rw [routeOf_of_sets (by rw [h5]) (by rw [h5]) hports]
    have he : epochFor n e = epochFor m e := by simp only [epochFor, h5]
    rw [he]
    exact hr
  obtain ⟨g1, g2, g3⟩ := sendReply_state (m := n) (p := p)
    (g := thaMsg { op := .thr, src := src, tag := tag, aux := num, epoch := e } (if (throwCheck m).isNone = true then 0 else 8))
    (by rw [hn]; exact hd) hroute
  have hcfg := g1 .cfg (by decide)
  generalize sendReply n _ = o at g1 g2 g3 hcfg
  refine ⟨?_, ?_, ?_, mgtSends_mono g3 fun r hr => ?_, onlyParts_trans (onlyParts_mono hparts (by decide)) (onlyParts_mono g1 (by decide)),
    onlyRegs_trans (onlyRegs_mono hregs (by decide)) (onlyRegs_mono g2 (by decide))⟩
  · exact congrArg Cfg.check (hcfg.trans h5)
  · exact congrArg Cfg.prepared (hcfg.trans h5)
  · refine (congrArg Cfg.ackEpoch (hcfg.trans h5)).trans ?_
    cases (throwCheck m).isNone <;> rfl
  · obtain ⟨d, rfl⟩ := hr
    refine ⟨rfl, rfl, rfl, rfl, rfl, ?_⟩
    show BitVec.ofNat 8 _ = _
    cases (throwCheck m).isNone <;> rfl

theorem thrFlip_prepared {m : Core} {x : Msg} (he : x.epoch ≠ m.cfg.epoch) (hp : m.cfg.prepared = true) :
    thrFlip m x = sendTha (flip m) x 0 := by
  unfold thrFlip
  rw [if_neg he, hp, if_pos rfl]

/-- A running check of a throw no longer prepares the node (R631, R974). -/
def unprepared (m : Core) : Core :=
  match (modCfg m fun c => { c with prepared := false }).cfg.check with
  | .prepare s t n e _ => modCfg (modCfg m fun c => { c with prepared := false }) fun c => { c with check := .prepare s t n e true }
  | _ => modCfg m fun c => { c with prepared := false }

theorem thrAbort_eq (m : Core) (x : Msg) : thrAbort m x = sendTha (unprepared m) x 0 := rfl

theorem unprepared_state (m : Core) : m.onlyParts [.cfg] (unprepared m) ∧ (unprepared m).cfg.prepared = false
    ∧ (unprepared m).cfg.epoch = m.cfg.epoch ∧ ∀ a b c e d, (unprepared m).cfg.check = .prepare a b c e d → d = true := by
  unfold unprepared
  split
  · next s t n e d hc =>
    refine ⟨onlyParts_cfg m _ (by decide), rfl, rfl, fun a b c e d h => ?_⟩
    have h' : ThrowCheck.prepare s t n _ true = .prepare a b c e d := h
    injection h' with _ _ _ _ h5
    exact h5.symm
  · next hne =>
    exact ⟨onlyParts_cfg m _ (by decide), rfl, rfl, fun a b c e d h => absurd h (hne a b c e d)⟩

/-- Settles O52: the master's steps and the node's, each by the lemma about it. -/
theorem fabricWideThrowsRun : Obligations.FabricWideThrowsRun := by
  refine ⟨fun s a n k p h hros hd hroute => ?_, fun s g p hr hi ho hp hb ha hw hs hros hd hroute => ?_,
    fun s n r hr hq hp hw => ?_, fun s g hr hi ho hs hv hm hdr hc => ?_, fun s src tag num e p hr hc hd hroute => ?_,
    fun s g hr hi ho hs hv hm hp he => ?_, fun s g hr hi ho hs hv hm => ?_⟩
  · have h0 := storeWrite_only s.m 0x2020 1
    have hcfg : (storeWrite s.m 0x2020 1).cfg = s.m.cfg := h0 .cfg (by decide)
    have hfab2 : (storeWrite s.m 0x2020 1).fab2 = s.m.fab2 := h0 .fab2 (by decide)
    have hn : rosterNodes (storeWrite s.m 0x2020 1) = [BitVec.ofNat 16 n] := by
      rw [rosterNodes, h0 .fab (by decide), hros]
      rfl
    obtain ⟨h1, h2, h3, h4, h5⟩ := throwBegin_one (m := storeWrite s.m 0x2020 1) hn
      (by rw [nodeId_congr (storeWrite_regs s.m 0x2020 1) (by decide)]; exact hd)
      (by rw [hcfg, routeOf_congr hcfg (h0 .ports (by decide))]; exact hroute)
    have hact : writeAction s.m (storeWrite s.m 0x2020 1) (lmbWho a) none 0x2020 1 = throwBegin (storeWrite s.m 0x2020 1) := rfl
    have hstep : exec (.fabricThrowStart a) s = _ := accepted_next h rfl hact
    rw [hfab2] at h3 h5
    rw [hcfg] at h5
    have hall : s.m.onlyParts (.lmb :: .fab :: .fab2 :: .ports :: Part.report) (throwBegin (storeWrite s.m 0x2020 1)) :=
      onlyParts_trans (onlyParts_mono h0 (by decide)) (onlyParts_mono h1 (by decide))
    generalize throwBegin (storeWrite s.m 0x2020 1) = o at hstep h2 h3 h4 h5 hall
    exact ⟨_, hstep, h2, h3, h4, lmbOk_set _, h5, only_lmb hall (by decide)⟩
  · obtain ⟨i, hi', rfl⟩ := List.map_eq_singleton_iff.1 hi
    have h0 := released_only s.m i
    have hcfg : (released s.m i).cfg = s.m.cfg := h0 .cfg (by decide)
    have hfab2 : (released s.m i).fab2 = s.m.fab2 := h0 .fab2 (by decide)
    obtain ⟨h1, h2, h3, h4⟩ := tha_flips (m := released s.m i) (g := i.msg) (p := p) (by rw [hfab2]; exact hp) (by rw [hfab2]; exact hb)
      (by rw [hfab2]; exact ha) (by rw [hfab2]; exact hw) hs (by rw [rosterNodes, h0 .fab (by decide)]; exact hros)
      (by rw [nodeId_congr (onlyRegs_of_only (as := []) h0 (by decide)) (by decide)]; exact hd)
      (by rw [hcfg, released_routes]; exact hroute)
    have hpump : pumpAll (tha (released s.m i) i.msg) = tha (released s.m i) i.msg := pumpAll_runs (by simp [throwRuns, h2])
    have hstep : exec .tha s = .next { s with m := tha (released s.m i) i.msg } :=
      clocked_next (f := fun m => pumpAll (onMsg .tha (fun _ => true) (fun m i => tha m i.msg) m)) hr
        ((congrArg pumpAll (onMsg_single hi' ho rfl)).trans hpump)
    rw [hfab2, hcfg] at h4
    have hinbox : (tha (released s.m i) i.msg).inbox = [] := (h1 .inbox (by decide)).trans (released_inbox _ _)
    have hall : s.m.onlyParts (.inbox :: .fab :: .fab2 :: .ports :: Part.report) (tha (released s.m i) i.msg) :=
      onlyParts_trans (onlyParts_mono h0 (by decide)) (onlyParts_mono h1 (by decide))
    generalize tha (released s.m i) i.msg = o at hstep hinbox h2 h3 h4 hall
    exact ⟨_, hstep, hinbox, h2, h3, h4, only_next hall⟩
  · obtain ⟨h1, h2, h3, h4, h5, h6⟩ := throwTimeout_aborts hp hw
    have hstep : exec .throwTimeout s = .next { s with m := throwTimeout s.m } :=
      clocked_next (f := fun m => pumpAll (throwTimeout m)) hr (pumpAll_empty (h6.trans hq))
    generalize throwTimeout s.m = o at hstep h1 h2 h3 h4 h5
    exact ⟨_, hstep, h1, h2, h3, h4, h5, rfl, rfl⟩
  · obtain ⟨i, hi', rfl⟩ := List.map_eq_singleton_iff.1 hi
    have h0 := released_only s.m i
    obtain ⟨h1, h2, -⟩ := numberedThrow_state (released s.m i) i.msg
    rw [h0 .cfg (by decide)] at h2
    have hstep : exec .thrPrepare s = _ := clocked_next (f := onThr 1 thrPrepare) hr
      ((onThr_master hi' ho (by rw [hs]; rfl) hv hm).trans (thrPrepare_checks (by rw [h2]; exact hdr) (by rw [h2]; exact hc)))
    have hinbox : (numberedThrow (released s.m i) i.msg).inbox = [] := (h1 .inbox (by decide)).trans (released_inbox _ _)
    have hall : s.m.onlyParts (.inbox :: .cfg :: .ports :: Part.report) (numberedThrow (released s.m i) i.msg) :=
      onlyParts_trans (onlyParts_mono h0 (by decide)) (onlyParts_mono h1 (by decide))
    generalize numberedThrow (released s.m i) i.msg = o at hstep h2 hinbox hall
    refine ⟨_, hstep, hinbox, ?_, only_next (onlyParts_trans hall (onlyParts_cfg _ _ (by decide)))⟩
    show { o.cfg with check := .prepare i.msg.src i.msg.tag i.msg.aux i.msg.epoch false } = _
    rw [h2]
  · obtain ⟨h1, h2, h3, h4, h5, h6⟩ := prepareDone_state hc hd hroute
    have hstep : exec .prepareCheckDone s = .next { s with m := prepareDone s.m } := clocked_next (f := prepareDone) hr rfl
    generalize prepareDone s.m = o at hstep h1 h2 h3 h4 h5 h6
    exact ⟨_, hstep, h1, h2, h3, h4, only_next h5, h6⟩
  · obtain ⟨i, hi', rfl⟩ := List.map_eq_singleton_iff.1 hi
    have h0 := released_only s.m i
    obtain ⟨h1, h2, h3⟩ := numberedThrow_state (released s.m i) i.msg
    rw [h0 .cfg (by decide)] at h2
    have hn : nodeId (numberedThrow (released s.m i) i.msg) = nodeId s.m :=
      h3.trans (nodeId_congr (onlyRegs_of_only (as := []) h0 (by decide)) (by decide))
    have hinbox : (numberedThrow (released s.m i) i.msg).inbox = [] := (h1 .inbox (by decide)).trans (released_inbox _ _)
    have hstep : exec .thrFlip s = _ := clocked_next (f := onThr 2 thrFlip) hr
      ((onThr_master hi' ho (by rw [hs]; rfl) hv hm).trans (thrFlip_prepared (by rw [h2]; exact he) (by rw [h2]; exact hp)))
    generalize numberedThrow (released s.m i) i.msg = o at hstep h2 hn hinbox
    have hflip : (flip o).cfg = { o.cfg with epoch := !o.cfg.epoch, drain := true, prepared := false, copyDone := false } := rfl
    obtain ⟨g1, g2⟩ := sendTha_state (flip o) i.msg 0
    rw [hflip, h2] at g1
    generalize sendTha (flip o) i.msg 0 = q at hstep g1 g2
    refine ⟨_, hstep, fun hd => (g2 (by rw [← hn] at hd; exact hd)).trans hinbox, ?_, by rw [g1], by rw [g1], by rw [g1], by rw [g1]; rfl,
      rfl, rfl⟩
    rw [g1]
    revert he
    cases i.msg.epoch <;> cases s.m.cfg.epoch <;> simp
  · obtain ⟨i, hi', rfl⟩ := List.map_eq_singleton_iff.1 hi
    have h0 := released_only s.m i
    obtain ⟨h1, h2, h3⟩ := numberedThrow_state (released s.m i) i.msg
    rw [h0 .cfg (by decide)] at h2
    have hn : nodeId (numberedThrow (released s.m i) i.msg) = nodeId s.m :=
      h3.trans (nodeId_congr (onlyRegs_of_only (as := []) h0 (by decide)) (by decide))
    have hinbox : (numberedThrow (released s.m i) i.msg).inbox = [] := (h1 .inbox (by decide)).trans (released_inbox _ _)
    have hstep : exec .thrAbort s = _ := clocked_next (f := onThr 3 thrAbort) hr
      ((onThr_master hi' ho (by rw [hs]; rfl) hv hm).trans (thrAbort_eq _ _))
    generalize numberedThrow (released s.m i) i.msg = o at hstep h2 hn hinbox
    obtain ⟨u1, u2, u3, u4⟩ := unprepared_state o
    obtain ⟨g1, g2⟩ := sendTha_state (unprepared o) i.msg 0
    have hnu : nodeId (unprepared o) = nodeId s.m := (nodeId_congr (onlyRegs_of_only (as := []) u1 (by decide)) (by decide)).trans hn
    generalize sendTha (unprepared o) i.msg 0 = q at hstep g1 g2
    refine ⟨_, hstep, fun hd => (g2 (by rw [hnu]; exact hd)).trans ((u1 .inbox (by decide)).trans hinbox), ?_, ?_, fun a b c e d h => ?_,
      rfl, rfl⟩
    · rw [g1]; exact u2
    · rw [g1]; exact u3.trans (by rw [h2])
    · rw [g1] at h
      exact u4 a b c e d h

end Sys2Proof.FabricThrows
end

section
/-! SUPPORT. Writes of a transaction to memory: the merging buffer takes them, or they wait for an entry of it
(spec/08_line_caches.md). -/

namespace Sys2Proof.Merging

open Sys2Proof.Machine Sys2Proof.Laws Sys2Proof.Windows Sys2Proof.Sending Sys2Proof.Engine Sys2Proof.Transactions
  Sys2Proof.Units

theorem modCa_only (m : Core) (f : Caches → Caches) : m.onlyParts [.ca] (modCa m f) := onlyParts_ca m _ (by decide)

/-! ### What a write does to the copies of its line -/

/-- The merging buffer, the writes that wait for it and the order stand as they stood. -/
def MbKept (m n : Core) : Prop := n.ca.mb = m.ca.mb ∧ n.ca.mbWait = m.ca.mbWait

theorem mbKept_trans {m n o : Core} (h : MbKept m n) (g : MbKept n o) : MbKept m o := ⟨g.1.trans h.1, g.2.trans h.2⟩

/-- A write touches the HLC, the siding and the miss registers alone. -/
theorem mbTouch_clean (m : Core) (l : LineAddr) (d : LineData) (k : ByteMask) (p : Bool) :
    m.onlyParts [.ca] (mbTouch m l d k p .clean) ∧ MbKept m (mbTouch m l d k p .clean) := by
  have hend (n : Core) : n.onlyParts [.ca] (markStale (sidingInval n l) l) ∧ MbKept n (markStale (sidingInval n l) l) :=
    ⟨onlyParts_trans (modCa_only _ _) (modCa_only _ _), rfl, rfl⟩
  have hcopy (n : Core) (hn : m.onlyParts [.ca] n) (hk : MbKept m n) :
      m.onlyParts [.ca] (markStale (sidingInval n l) l) ∧ MbKept m (markStale (sidingInval n l) l) :=
    ⟨onlyParts_trans hn (hend _).1, mbKept_trans hk (hend _).2⟩
  have hlook := hlcLookup_clean m l
  unfold mbTouch
  dsimp only
  split
  · next n h =>
    rw [h] at hlook
    rw [show n = m from hlook]
    exact hend m
  · next c n h =>
    rw [h] at hlook
    rw [show n = m from hlook]
    split
    · exact hend m
    · split
      · exact hcopy _ (modCa_only m _) ⟨rfl, rfl⟩
      · exact hcopy _ (modCa_only m _) ⟨rfl, rfl⟩

/-! ### The merging buffer takes a write -/

/-- The merging buffer of `n` holds the bytes of a write. -/
def Merged (n : Core) (l : LineAddr) (d : LineData) (k : ByteMask) : Prop :=
  ∃ e ∈ n.ca.mb, e.2.line = l ∧ ∃ o ko, e.2.data = mergeBytes k d o ∧ e.2.mask = ko ||| k

theorem mem_tset {α : Type} (t : Tab α) (k : Nat) (v : α) : (k, v) ∈ tset t k v := by
  induction t with
  | nil => exact List.mem_singleton.2 rfl
  | cons x r ih =>
    obtain ⟨k', v'⟩ := x
    unfold tset
    split
    · exact List.mem_cons_self
    · split
      · exact List.mem_cons_self
      · exact List.mem_cons_of_mem _ ih

/-- What stood at another key stays. -/
theorem mem_tset_other {α : Type} {t : Tab α} {k : Nat} {v : α} {x : Nat × α} (h : x ∈ t) (hk : x.1 ≠ k) : x ∈ tset t k v := by
  induction t with
  | nil => cases h
  | cons y r ih =>
    obtain ⟨k', v'⟩ := y
    unfold tset
    split
    · exact List.mem_cons_of_mem _ h
    · split
      · next e =>
        rcases List.mem_cons.1 h with rfl | h
        · exact absurd e.symm hk
        · exact List.mem_cons_of_mem _ h
      · rcases List.mem_cons.1 h with rfl | h
        · exact List.mem_cons_self
        · exact List.mem_cons_of_mem _ (ih h)

/-- What stands in a table after a write is the write, or stood there. -/
theorem mem_of_mem_tset {α : Type} {t : Tab α} {k : Nat} {v : α} {x : Nat × α} (h : x ∈ tset t k v) : x = (k, v) ∨ x ∈ t := by
  induction t with
  | nil => exact .inl (List.mem_singleton.1 h)
  | cons y r ih =>
    obtain ⟨k', v'⟩ := y
    unfold tset at h
    split at h
    · rcases List.mem_cons.1 h with rfl | h
      · exact .inl rfl
      · exact .inr h
    · split at h
      · rcases List.mem_cons.1 h with rfl | h
        · exact .inl rfl
        · exact .inr (List.mem_cons_of_mem _ h)
      · rcases List.mem_cons.1 h with rfl | h
        · exact .inr List.mem_cons_self
        · exact (ih h).imp id (List.mem_cons_of_mem _)

theorem mbPut_state {m n : Core} {l : LineAddr} {d : LineData} {k : ByteMask} {p : Bool} {ord : Nat} {ep : Bool}
    (h : mbPut m l d k p ord ep = some n) : m.onlyParts (.ca :: Part.report) n ∧ m.onlyRegs reportRegs n ∧ PendingKept m n
      ∧ Merged n l d k := by
  unfold mbPut at h
  split at h
  · next i x hx =>
    have hfound := List.find?_some hx
    rw [Bool.and_eq_true, decide_eq_true_eq] at hfound
    obtain ⟨-, hl⟩ := hfound
    injection h with h
    subst h
    have hca := modCa_only m fun c => { c with mb := tset c.mb i { x with
      data := mergeBytes k d x.data, mask := x.mask ||| k, isOpen := decide (x.mask ||| k ≠ fullMask)
      poison := if p then true else if k = fullMask then false else x.poison } }
    have ht := tally_only .hlc 3 1 (modCa m fun c => { c with mb := tset c.mb i { x with
      data := mergeBytes k d x.data, mask := x.mask ||| k, isOpen := decide (x.mask ||| k ≠ fullMask)
      poison := if p then true else if k = fullMask then false else x.poison } })
    refine ⟨onlyParts_trans (onlyParts_mono hca (by decide)) (onlyParts_mono ht (by decide)),
      onlyRegs_trans (onlyRegs_mono (onlyRegs_of_only (as := []) hca (by decide)) (by decide)) (tally_regs _ _ _ _),
      pendingKept_trans (pendingKept_of_only hca (by decide)) (tally_pendingKept _ _ _ _), ?_⟩
    unfold Merged
    rw [ht .ca (by decide)]
    exact ⟨_, mem_tset _ _ _, hl, _, _, rfl, rfl⟩
  · dsimp only at h
    split at h
    · cases h
    · injection h with h
      subst h
      refine ⟨onlyParts_mono (modCa_only m _) (by decide), onlyRegs_of_eq rfl, pendingKept_of_only (modCa_only m _) (by decide),
        _, mem_tset _ _ _, rfl, 0, 0, rfl, ?_⟩
      exact (BitVec.zero_or).symm

/-- The next order of a write. -/
theorem nextOrder_only (m : Core) : m.onlyParts [.ca] (nextOrder m) := modCa_only _ _

/-- An HTE that waits for its write to enter the merging buffer. -/
def awaitsMb (x : Hte) : Hte := if x.awaits.contains .mbIn then x else { x with awaits := x.awaits ++ [.mbIn] }

/-- A write that waits for an entry. -/
def mbQueued (m : Core) (w : MbWrite) : Core := modHte (modCa m fun c => { c with mbWait := c.mbWait ++ [w] }) w.hte awaitsMb

theorem mbQueued_state (m : Core) (w : MbWrite) : m.onlyParts [.ca, .trk] (mbQueued m w)
    ∧ (mbQueued m w).trk = (modHte m w.hte awaitsMb).trk := by
  have h1 := modCa_only m fun c => { c with mbWait := c.mbWait ++ [w] }
  refine ⟨onlyParts_trans (onlyParts_mono h1 (by decide)) (onlyParts_mono (modHte_only _ _ _) (by decide)), ?_⟩
  have hh : hte (modCa m fun c => { c with mbWait := c.mbWait ++ [w] }) w.hte = hte m w.hte := rfl
  unfold mbQueued
  rw [modHte, modHte, hh]
  cases hte m w.hte <;> rfl

/-- What a write to memory can do: the buffer takes it, or it waits and its HTE with it. -/
structure Wrote (m n : Core) (h : Nat) : Prop where
  parts : m.onlyParts (.ca :: .trk :: Part.report) n
  regs : m.onlyRegs reportRegs n
  pending : PendingKept m n
  trk : n.trk = m.trk ∨ n.trk = (modHte m h awaitsMb).trk

theorem mbQueued_wrote {m n : Core} {w : MbWrite} (h : m.onlyParts [.ca] n) : Wrote m (tally .hlc 6 1 (mbQueued n w)) w.hte := by
  obtain ⟨h1, h2⟩ := mbQueued_state n w
  have ht := tally_only .hlc 6 1 (mbQueued n w)
  have hall : m.onlyParts [.ca, .trk] (mbQueued n w) := onlyParts_trans (onlyParts_mono h (by decide)) h1
  refine ⟨onlyParts_trans (onlyParts_mono hall (by decide)) (onlyParts_mono ht (by decide)),
    onlyRegs_trans (onlyRegs_mono (onlyRegs_of_only (as := []) hall (by decide)) (by decide)) (tally_regs _ _ _ _),
    pendingKept_trans (pendingKept_of_only hall (by decide)) (tally_pendingKept _ _ _ _), .inr ?_⟩
  have htrk : n.trk = m.trk := h .trk (by decide)
  have hh : hte n w.hte = hte m w.hte := hte_congr (by rw [htrk]) _
  refine (ht .trk (by decide)).trans (h2.trans ?_)
  rw [modHte, modHte, hh]
  cases hte m w.hte with
  | none => exact htrk
  | some x =>
    show { n.trk with htes := tset n.trk.htes w.hte (awaitsMb x) } = { m.trk with htes := tset m.trk.htes w.hte (awaitsMb x) }
    rw [htrk]

theorem memWriteAs_wrote (req : Bool) (m : Core) (h : Nat) (l : LineAddr) (d : LineData) (k : ByteMask) (p : Bool) :
    Wrote m (memWriteAs req m h l d k p .clean) h := by
  have h0 := nextOrder_only m
  have hqueue (n : Core) (hn : m.onlyParts [.ca] n) (ord : Nat) (ep : Bool) :
      Wrote m (tally .hlc 6 1 (mbQueued n ⟨h, l, d, k, p, ord, ep, req⟩)) h := mbQueued_wrote hn
  unfold memWriteAs
  dsimp only
  split
  · exact hqueue (nextOrder m) h0 _ _
  · split
    · exact hqueue (nextOrder m) h0 _ _
    · split
      · next n hn =>
        obtain ⟨h1, h2, h3, -⟩ := mbPut_state hn
        have hpre : m.onlyParts [.ca] (mbTouch (nextOrder m) l d k p .clean) :=
          onlyParts_trans h0 (mbTouch_clean (nextOrder m) l d k p).1
        exact ⟨onlyParts_trans (onlyParts_mono hpre (by decide)) (onlyParts_mono h1 (by decide)),
          onlyRegs_trans (onlyRegs_mono (onlyRegs_of_only (as := []) hpre (by decide)) (by decide)) h2,
          pendingKept_trans (pendingKept_of_only hpre (by decide)) h3, .inl ((h1 .trk (by decide)).trans (hpre .trk (by decide)))⟩
      · exact hqueue (nextOrder m) h0 _ _

/-- A write that finds the buffer with room enters it. -/
theorem memWriteAs_entered {req : Bool} {m : Core} {h : Nat} {l : LineAddr} {d : LineData} {k : ByteMask} {p : Bool}
    (hw : m.ca.mbWait = []) (hf : tfree m.ca.mb 0 < 128) :
    m.onlyParts (.ca :: Part.report) (memWriteAs req m h l d k p .clean) ∧ m.onlyRegs reportRegs (memWriteAs req m h l d k p .clean)
      ∧ Merged (memWriteAs req m h l d k p .clean) l d k := by
  have h0 := nextOrder_only m
  obtain ⟨h1, hmb, hmw⟩ := mbTouch_clean (nextOrder m) l d k p
  have hpre : m.onlyParts [.ca] (mbTouch (nextOrder m) l d k p .clean) := onlyParts_trans h0 h1
  have hput (ord : Nat) (ep : Bool) : ∃ n, mbPut (mbTouch (nextOrder m) l d k p .clean) l d k p ord ep = some n := by
    have hfree : ¬ 128 ≤ tfree (mbTouch (nextOrder m) l d k p .clean).ca.mb 0 := by
      rw [hmb]
      exact Nat.not_le.2 hf
    unfold mbPut
    split
    · exact ⟨_, rfl⟩
    · exact ⟨_, if_neg hfree⟩
  obtain ⟨n, hn⟩ := hput m.ca.mbSeq (((hte m h).map (·.epoch)).getD m.cfg.epoch)
  have heq : memWriteAs req m h l d k p .clean = n := by
    have hwait : (nextOrder m).ca.mbWait = [] := hw
    unfold memWriteAs
    dsimp only
    rw [hwait, hn]
    simp
  obtain ⟨g1, g2, -, g4⟩ := mbPut_state hn
  rw [heq]
  exact ⟨onlyParts_trans (onlyParts_mono hpre (by decide)) (onlyParts_mono g1 (by decide)),
    onlyRegs_trans (onlyRegs_mono (onlyRegs_of_only (as := []) hpre (by decide)) (by decide)) g2, g4⟩

end Sys2Proof.Merging
end

section
/-! PROOFS. The home tracker (spec/04_ordering_races.md, spec/06_progress.md): admission, completion, expiry and the end of
a quarantine, with the statement about them. -/

namespace Sys2Proof.TrackerRuns

open Sys2Proof.Machine Sys2Proof.Laws Sys2Proof.Windows Sys2Proof.Sending Sys2Proof.Engine Sys2Proof.Arriving Sys2Proof.Image
  Sys2Proof.Flits Sys2Proof.Channels Sys2Proof.Transactions Sys2Proof.Units Sys2Proof.Merging

/-! ### What lookups depend on -/

theorem slotOf_congr {m n : Core} (h : n.cfg = m.cfg) (e : Bool) (d : NodeId) : slotOf n e d = slotOf m e d := by
  simp only [slotOf, Machine.setOf, h]

theorem anySlotOf_congr {m n : Core} (h : n.cfg = m.cfg) (e : Bool) (d : NodeId) : anySlotOf n e d = anySlotOf m e d := by
  simp only [anySlotOf, slotOf_congr h, Machine.setOf, h]

theorem arrSlot_congr {m n : Core} (h : n.cfg = m.cfg) (a : Arrival) : arrSlot n a = arrSlot m a := by
  unfold arrSlot epochFor
  rw [h]
  split
  · exact slotOf_congr h _ _
  · rfl

theorem lineBusy_congr {m n : Core} (h : n.trk.htes = m.trk.htes) (l : LineAddr) : lineBusy n l = lineBusy m l := by
  rw [lineBusy, lineBusy, lineHolder, lineHolder, h]

theorem queueHead_congr {m n : Core} (h : n.trk.htes = m.trk.htes) (l : LineAddr) : queueHead n l = queueHead m l := by
  rw [queueHead, queueHead, h]

theorem awaitsWb_congr {m n : Core} (h : n.cfg = m.cfg) (x : Hte) (d : NodeId) : awaitsWb n x d = awaitsWb m x d := by
  rw [awaitsWb, awaitsWb, anySlotOf_congr h]

theorem wbAtOnce_congr {m n : Core} (h : n.cfg = m.cfg) (ht : n.trk.htes = m.trk.htes) (x : Msg) : wbAtOnce n x = wbAtOnce m x := by
  simp only [wbAtOnce, wbTaker, chainTaker, awaitsWb_congr h, lineBusy_congr ht, ht]

theorem sweptBy_congr {m n : Core} (h : n.cfg = m.cfg) (ht : n.trk.htes = m.trk.htes) (a : Arrival) : sweptBy n a = sweptBy m a := by
  simp only [sweptBy, anySlotOf_congr h, ht]

/-! ### Admission (R155 to R160, R978) -/

/-- The arbiter has chosen arrival `i`. -/
def chosen (m : Core) (i : Nat) (a : Arrival) : Core :=
  { m with trk := { m.trk with core := m.trk.core + 1, ptr := (a.port + 1) % 17, arrivals := m.trk.arrivals.eraseIdx i } }

/-- The chosen arrival is counted, and its slots in the port's buffer free. -/
def leftPort (m : Core) (i : Nat) (a : Arrival) : Core :=
  let n := tally .trk 1 1 (chosen m i a)
  if clsOf a.msg.op = .req && decide (a.job = .external) && a.slots then freeSlots n a.port (vcOf a.msg) (slotsOf a.msg) else n

theorem leftPort_state (m : Core) (i : Nat) (a : Arrival) : m.onlyParts (.trk :: .ports :: Part.report) (leftPort m i a)
    ∧ (leftPort m i a).trk = (chosen m i a).trk := by
  have h0 : m.onlyParts [.trk] (chosen m i a) := onlyParts_trk m _ (by decide)
  have ht := tally_only .trk 1 1 (chosen m i a)
  have hpre : m.onlyParts (.trk :: .ports :: Part.report) (tally .trk 1 1 (chosen m i a)) :=
    onlyParts_trans (onlyParts_mono h0 (by decide)) (onlyParts_mono ht (by decide))
  have htrk : (tally .trk 1 1 (chosen m i a)).trk = (chosen m i a).trk := ht .trk (by decide)
  unfold leftPort
  dsimp only
  split
  · have hf := freeSlots_only (tally .trk 1 1 (chosen m i a)) a.port (vcOf a.msg) (slotsOf a.msg)
    exact ⟨onlyParts_trans hpre (onlyParts_mono hf (by decide)), (hf .trk (by decide)).trans htrk⟩
  · exact ⟨hpre, htrk⟩

/-- An arrival of the current epoch takes it. -/
theorem admitEpoch_current {m : Core} {a : Arrival} (h : a.msg.epoch = m.cfg.epoch) : admitEpoch m a = (a.msg.epoch, m) := by
  unfold admitEpoch
  dsimp only
  split
  · rw [h]
  · rw [if_pos (by simp [h])]

theorem admission_takes {m : Core} {i : Nat} {a : Arrival} (hd : m.deck.initDone = true)
    (ha : arbitrate { m with trk := { m.trk with core := m.trk.core + 1 } } = some (i, a))
    (hw : clsOf a.msg.op ≠ .wbk ∨ wbAtOnce m a.msg = false) (he : a.msg.epoch = m.cfg.epoch) (hs : sweptBy m a = false) :
    admission m = takeHte (leftPort m i a) a a.msg.epoch := by
  obtain ⟨h1, h2⟩ := leftPort_state m i a
  have hcfg : (leftPort m i a).cfg = m.cfg := h1 .cfg (by decide)
  have hhtes : (leftPort m i a).trk.htes = m.trk.htes := by rw [h2]; rfl
  have hep : admitEpoch (leftPort m i a) a = (a.msg.epoch, leftPort m i a) := admitEpoch_current (by rw [hcfg, he])
  have hwb : (decide (clsOf a.msg.op = .wbk) && wbAtOnce (leftPort m i a) a.msg) = false := by
    rw [wbAtOnce_congr hcfg hhtes]
    rcases hw with hw | hw
    · simp [hw]
    · simp [hw]
  have hadm : admission m = (let r := admitEpoch (leftPort m i a) a
      if clsOf a.msg.op = .wbk && wbAtOnce (leftPort m i a) a.msg then
        { r.2 with trk := { r.2.trk with atOnce := r.2.trk.atOnce ++ [{ a with msg := { a.msg with epoch := r.1 } }] } }
      else if sweptBy (leftPort m i a) a then
        send r.2 16 none r.1 { op := .err, dest := a.msg.src, tag := a.msg.tag, line := a.msg.line, epoch := r.1
                               htag := BitVec.ofNat 12 (tfree r.2.trk.htes 0), status := BitVec.ofNat 8 errUncorr }
      else takeHte r.2 a r.1) := by
    unfold admission
    dsimp only
    rw [hd, ha]
    rfl
  rw [hadm, hep]
  dsimp only
  rw [hwb, sweptBy_congr hcfg hhtes, hs, if_neg Bool.false_ne_true, if_neg Bool.false_ne_true]

/-- The HTE of an admitted arrival. -/
def admittedHte (m : Core) (a : Arrival) (e : Bool) : Hte :=
  { kind := if lineBusy m a.msg.line then .queued else .active, msg := a.msg, port := a.port, job := a.job, slot := arrSlot m a
    epoch := e, adm := m.stmp, seq := m.trk.seq, wbFrom := a.wb, pool := poolKey (arrSlot m a)
    wait := if lineBusy m a.msg.line then .queue else .decision }

theorem takeHte_state (m : Core) (a : Arrival) (e : Bool) : m.onlyParts (.trk :: Part.report) (takeHte m a e)
    ∧ ∃ u, (takeHte m a e).trk = { m.trk with htes := tset m.trk.htes (tfree m.trk.htes 0) (admittedHte m a e)
                                              seq := m.trk.seq + 1, hteUse := u } := by
  have ht : m.onlyParts Part.report (if lineBusy m a.msg.line then tally .trk 2 1 m else m) := by
    split
    · exact tally_only _ _ _ _
    · exact onlyParts_refl _ _
  have htrk : (if lineBusy m a.msg.line then tally .trk 2 1 m else m).trk = m.trk := ht .trk (by decide)
  refine ⟨onlyParts_trans (onlyParts_mono ht (by decide)) (onlyParts_trk _ _ (by decide)), ?_⟩
  unfold takeHte
  dsimp only
  rw [htrk]
  exact ⟨_, rfl⟩

/-! ### What reports, messages and memory writes leave of the tracker -/

/-- HTE `h`'s transaction does something that leaves the other HTEs, their queues, the time and the count of expiries. -/
structure Ongoing (h : Nat) (m n : Core) : Prop where
  stmp : n.stmp = m.stmp
  count : rget n 0xC14 = rget m 0xC14
  pending : PendingKept m n
  others : ∀ g, g ≠ h → hte n g = hte m g
  own : ∀ x, hte m h = some x → ∃ y, hte n h = some y ∧ y.msg = x.msg ∧ y.vline = x.vline ∧ y.recov = x.recov
  queued : ∀ z ∈ n.trk.htes, z.2.kind = .queued → ∃ w ∈ m.trk.htes, w.2.kind = .queued

theorem ongoing_trans {h : Nat} {m n o : Core} (a : Ongoing h m n) (b : Ongoing h n o) : Ongoing h m o := by
  refine ⟨b.stmp.trans a.stmp, b.count.trans a.count, pendingKept_trans a.pending b.pending,
    fun g hg => (b.others g hg).trans (a.others g hg), fun x hx => ?_, fun z hz hk => ?_⟩
  · obtain ⟨y, hy, hm, hv, hr⟩ := a.own x hx
    obtain ⟨y', hy', hm', hv', hr'⟩ := b.own y hy
    exact ⟨y', hy', hm'.trans hm, hv'.trans hv, hr'.trans hr⟩
  · obtain ⟨w, hw, hk'⟩ := b.queued z hz hk
    exact a.queued w hw hk'

/-- What leaves the HTEs alone. -/
theorem ongoing_of {ps : List Part} {as : List Nat} {h : Nat} {m n : Core} (ho : m.onlyParts ps n) (hs : Part.stmp ∉ ps)
    (hr : m.onlyRegs as n) (ha : 0xC14 ∉ as) (hp : PendingKept m n) (ht : n.trk.htes = m.trk.htes) : Ongoing h m n :=
  ⟨ho .stmp hs, hr _ ha, hp, fun g _ => hte_congr ht g, fun x hx => ⟨x, (hte_congr ht h).trans hx, rfl, rfl, rfl⟩,
    fun z hz hk => ⟨z, ht ▸ hz, hk⟩⟩

theorem ongoing_refl (h : Nat) (m : Core) : Ongoing h m m :=
  ongoing_of (onlyParts_refl [] m) (by decide) (onlyRegs_refl [] m) (by decide) (fun _ hk => hk) rfl

/-- What touches neither the tracker nor the registers nor the sources. -/
theorem ongoing_of_only {ps : List Part} {h : Nat} {m n : Core} (ho : m.onlyParts ps n)
    (hps : Part.stmp ∉ ps ∧ Part.trk ∉ ps ∧ Part.regs ∉ ps ∧ Part.eic ∉ ps) : Ongoing h m n := by
  obtain ⟨hs, ht, hr, he⟩ := hps
  exact ongoing_of ho hs (onlyRegs_of_only (as := []) ho hr) (by decide) (pendingKept_of_only ho he) (congrArg Tracker.htes (ho .trk ht))

theorem mem_of_tfind {α : Type} {t : Tab α} {k : Nat} {v : α} (h : tfind t k = some v) : (k, v) ∈ t := by
  induction t with
  | nil => cases h
  | cons x r ih =>
    obtain ⟨k', v'⟩ := x
    unfold tfind at h
    split at h
    · next e =>
      subst e
      injection h with h
      subst h
      exact List.mem_cons_self
    · exact List.mem_cons_of_mem _ (ih h)

theorem ongoing_modHte {h : Nat} {m : Core} {f : Hte → Hte} (hf : ∀ x, (f x).kind = x.kind ∧ (f x).msg = x.msg ∧ (f x).vline = x.vline ∧ (f x).recov = x.recov) :
    Ongoing h m (modHte m h f) := by
  cases hx : hte m h with
  | none =>
    rw [modHte, hx]
    exact ongoing_refl _ _
  | some x =>
    obtain ⟨hk, hm, hv, hr⟩ := hf x
    have ho := setHte_only m h (f x)
    rw [modHte_eq hx]
    refine ⟨rfl, rfl, pendingKept_of_only ho (by decide), fun g hg => ?_, fun y hy => ?_, fun z hz hzk => ?_⟩
    · rw [hte_setHte, if_neg (Ne.symm hg)]
    · rw [hx] at hy
      injection hy with hy
      subst hy
      exact ⟨f x, by rw [hte_setHte, if_pos rfl], hm, hv, hr⟩
    · rcases mem_of_mem_tset hz with rfl | hz
      · exact ⟨(h, x), mem_of_tfind hx, hk.symm.trans hzk⟩
      · exact ⟨z, hz, hzk⟩

theorem ongoing_send (h : Nat) (m : Core) (src : Nat) (o : Option Nat) (e : Bool) (x : Msg) : Ongoing h m (send m src o e x) :=
  ongoing_of (send_only _ _ _ _ _) (by decide) (send_regs _ _ _ _ _) (by decide) (send_pendingKept _ _ _ _ _)
    (congrArg Tracker.htes (send_only m src o e x .trk (by decide)))

theorem ongoing_journal (h : Nat) (m : Core) (t s : Nat) (p : BitVec 128) : Ongoing h m (journal m t s p) :=
  ongoing_of (journal_only _ _ _ _) (by decide) (journal_regs _ _ _ _) (by decide) (journal_pendingKept _ _ _ _)
    (congrArg Tracker.htes (journal_only m t s p .trk (by decide)))

theorem ongoing_tally (h : Nat) (b : Blk) (e n : Nat) (m : Core) : Ongoing h m (tally b e n m) :=
  ongoing_of (tally_only _ _ _ _) (by decide) (tally_regs _ _ _ _) (by decide) (tally_pendingKept _ _ _ _)
    (congrArg Tracker.htes (tally_only b e n m .trk (by decide)))

theorem ongoing_raise (h : Nat) (m : Core) (k : Nat) : Ongoing h m (raise m k) :=
  ongoing_of (raise_only _ _) (by decide) (raise_regs _ _) (by decide) (raise_pendingKept _ _)
    (congrArg Tracker.htes (raise_only m k .trk (by decide)))

theorem ongoing_foldl {α : Type} {h : Nat} (f : Core → α → Core) (hf : ∀ (m : Core) x, Ongoing h m (f m x)) (l : List α) (m : Core) :
    Ongoing h m (l.foldl f m) := by
  induction l generalizing m with
  | nil => exact ongoing_refl _ _
  | cons x r ih => exact ongoing_trans (hf m x) (ih _)

/-- The writeback buffer `k` is free. -/
def wbFreed (m : Core) (k : Nat) : Core :=
  { m with trk := { m.trk with wbUse := tput 0 m.trk.wbUse k (tget 0 m.trk.wbUse k - 1) } }

theorem wbGrants_state (m : Core) : m.onlyParts [.ports, .trk] (wbGrants m) ∧ (wbGrants m).trk.htes = m.trk.htes := by
  obtain ⟨h1, ⟨as, u, h2⟩, -⟩ := grantWb_state [] m.trk.arrivals m []
  exact ⟨h1, by rw [wbGrants, h2]⟩

theorem freeWb_state (m : Core) (k : Option Nat) : m.onlyParts [.ports, .trk] (freeWb m k)
    ∧ (freeWb m k).trk.htes = m.trk.htes := by
  cases k with
  | none => exact ⟨onlyParts_refl _ _, rfl⟩
  | some k =>
    have h0 : m.onlyParts [.trk] (wbFreed m k) := onlyParts_trk m _ (by decide)
    obtain ⟨h1, h2⟩ := wbGrants_state (wbFreed m k)
    exact ⟨onlyParts_trans (onlyParts_mono h0 (by decide)) h1, h2⟩

theorem ongoing_freeWb (h : Nat) (m : Core) (k : Option Nat) : Ongoing h m (freeWb m k) := by
  obtain ⟨h1, h2⟩ := freeWb_state m k
  exact ongoing_of h1 (by decide) (onlyRegs_of_only (as := []) h1 (by decide)) (by decide) (pendingKept_of_only h1 (by decide)) h2

theorem ongoing_heldCmp (h : Nat) (m : Core) (g : Nat) (a : Arrival) : Ongoing h m (heldCmp m g a) :=
  ongoing_trans (ongoing_send _ _ _ _ _ _) (ongoing_freeWb _ _ _)

theorem ongoing_countRule (h : Nat) (m : Core) (r : Nat) : Ongoing h m (countRule m r) :=
  ongoing_of (countRule_only m r) (by decide) (onlyRegs_of_only (as := []) (countRule_only m r) (by decide)) (by decide)
    (pendingKept_of_only (countRule_only m r) (by decide)) rfl

theorem ongoing_unpaired (h : Nat) (m : Core) (g : Nat) (a : Arrival) : Ongoing h m (unpaired m g a) :=
  ongoing_trans (ongoing_trans (ongoing_countRule _ _ _) (ongoing_journal _ _ _ _ _)) (ongoing_heldCmp _ _ _ _)

theorem ongoing_wrote {h : Nat} {m n : Core} (hw : Wrote m n h) : Ongoing h m n := by
  obtain ⟨ho, hr, hp, ht⟩ := hw
  have hmod : Ongoing h m (modHte m h awaitsMb) := ongoing_modHte fun x => by
    unfold awaitsMb
    split <;> exact ⟨rfl, rfl, rfl, rfl⟩
  refine ⟨ho .stmp (by decide), hr _ (by decide), hp, fun g hg => ?_, fun x hx => ?_, fun z hz hk => ?_⟩
  · rcases ht with ht | ht
    · exact hte_congr (congrArg Tracker.htes ht) g
    · exact (hte_congr (congrArg Tracker.htes ht) g).trans (hmod.others g hg)
  · rcases ht with ht | ht
    · exact ⟨x, (hte_congr (congrArg Tracker.htes ht) h).trans hx, rfl, rfl, rfl⟩
    · obtain ⟨y, hy, hyx⟩ := hmod.own x hx
      exact ⟨y, (hte_congr (congrArg Tracker.htes ht) h).trans hy, hyx⟩
  · rcases ht with ht | ht
    · exact ⟨z, by rw [← ht]; exact hz, hk⟩
    · exact hmod.queued z (by rw [← ht]; exact hz) hk

theorem ongoing_memPoison (h : Nat) (m : Core) (l : LineAddr) : Ongoing h m (memPoison m h l) :=
  ongoing_wrote (memWriteAs_wrote false m h l 0 0 true)

theorem dirWrite_only (m : Core) (k : Nat) (d : DirEnt) : m.onlyParts [.deck] (dirWrite m k d) := by
  unfold dirWrite
  split
  · exact onlyParts_refl _ _
  · dsimp only
    split
    · exact onlyParts_deck m _ (by decide)
    · exact onlyParts_trans (onlyParts_trans (onlyParts_deck m _ (by decide)) (onlyParts_deck _ _ (by decide)))
        (onlyParts_deck _ _ (by decide))

theorem ongoing_dirWrite (h : Nat) (m : Core) (k : Nat) (d : DirEnt) : Ongoing h m (dirWrite m k d) :=
  ongoing_of_only (dirWrite_only m k d) (by decide)

theorem ongoing_staffEnd (h : Nat) (m : Core) : Ongoing h m (staffEnd m) := by
  have ho : m.onlyParts [.trk] (staffEnd m) := onlyParts_trk m _ (by decide)
  exact ongoing_of ho (by decide) (onlyRegs_of_only (as := []) ho (by decide)) (by decide) (pendingKept_of_only ho (by decide)) rfl

/-! ### The quarantine (R283) -/

/-- No HTE waits in a platform queue. -/
def NoneQueued (m : Core) : Prop := ∀ z ∈ m.trk.htes, z.2.kind ≠ .queued

/-- The step of the search for the head of a line's queue. -/
def headStep (l : LineAddr) (best : Option (Nat × Nat)) (x : Nat × Hte) : Option (Nat × Nat) :=
  if decide (x.2.kind = .queued) && decide (x.2.msg.line = l) then
    match best with
    | none => some (x.1, x.2.seq)
    | some b => if x.2.seq < b.2 then some (x.1, x.2.seq) else some b
  else best

theorem queueHead_eq (m : Core) (l : LineAddr) : queueHead m l = (m.trk.htes.foldl (headStep l) none).map (·.1) := rfl

/-- The search finds an HTE that is listed and queued. -/
theorem headStep_listed (l : LineAddr) (ts : List (Nat × Hte)) (b : Option (Nat × Nat)) {r : Nat × Nat}
    (h : ts.foldl (headStep l) b = some r) : b = some r ∨ ∃ z ∈ ts, z.1 = r.1 ∧ z.2.kind = .queued := by
  induction ts generalizing b with
  | nil => exact .inl h
  | cons z ts ih =>
    rw [List.foldl_cons] at h
    rcases ih _ h with hb | ⟨w, hw, hk⟩
    · unfold headStep at hb
      split at hb
      · next hq =>
        rw [Bool.and_eq_true, decide_eq_true_eq] at hq
        have hz (s : Nat) (hs : some (z.1, s) = some r) : ∃ w ∈ z :: ts, w.1 = r.1 ∧ w.2.kind = .queued := by
          injection hs with hs
          exact ⟨z, List.mem_cons_self, congrArg Prod.fst hs, hq.1⟩
        split at hb
        · exact .inr (hz _ hb)
        · split at hb
          · exact .inr (hz _ hb)
          · exact .inl hb
      · exact .inl hb
    · exact .inr ⟨w, List.mem_cons_of_mem _ hw, hk⟩

theorem queueHead_listed {m : Core} {l : LineAddr} {q : Nat} (h : queueHead m l = some q) :
    ∃ z ∈ m.trk.htes, z.1 = q ∧ z.2.kind = .queued := by
  rw [queueHead_eq, Option.map_eq_some_iff] at h
  obtain ⟨r, hr, rfl⟩ := h
  rcases headStep_listed l _ _ hr with h | h
  · cases h
  · exact h

theorem queueHead_noneQueued {m : Core} (h : NoneQueued m) (l : LineAddr) : queueHead m l = none := by
  rw [Option.eq_none_iff_forall_ne_some]
  intro q hq
  obtain ⟨z, hz, -, hk⟩ := queueHead_listed hq
  exact h z hz hk

theorem promote_noneQueued {m : Core} (h : NoneQueued m) (l : LineAddr) : promote m l = m := by
  unfold promote
  rw [queueHead_noneQueued h]
  split <;> rfl

theorem promote_busy {m : Core} {l : LineAddr} (h : lineBusy m l = true) : promote m l = m := by
  unfold promote
  exact if_pos h

theorem lineBusy_of_hte {m : Core} {g : Nat} {w : Hte} {l : LineAddr} (hw : hte m g = some w) (hk : keepsBusy w l = true) :
    lineBusy m l = true := by
  unfold lineBusy lineHolder
  rw [List.find?_isSome]
  exact ⟨(g, w), mem_of_tfind hw, hk⟩

/-- An HTE in quarantine. -/
def quarantinedHte (now : Nat) (y : Hte) : Hte :=
  { y with kind := .quarantined, awaits := [], wait := .none, cont := .idle, done := true, key := none, fin := none
           vline := none, recov := none, held := [], cmps := [], alcIx := none, adm := now }

/-- The engine's part of a job that expires. -/
theorem jobEnd_state (m : Core) (x : Hte) : ∃ ps as, m.onlyParts ps (jobEnd m x true) ∧ m.onlyRegs as (jobEnd m x true)
    ∧ Part.stmp ∉ ps ∧ Part.trk ∉ ps ∧ Part.eic ∉ ps ∧ 0xC14 ∉ as := by
  unfold jobEnd groomLater
  split
  · exact ⟨[.deck], [], onlyParts_deck m _ (by decide), onlyRegs_of_eq rfl, by decide⟩
  · exact ⟨[.deck], [], onlyParts_deck m _ (by decide), onlyRegs_of_eq rfl, by decide⟩
  · rw [if_pos rfl]
    split
    · exact ⟨[.regs], [0x184C], onlyParts_rset _ _ _ (by decide), onlyRegs_rset _ _ _ (by decide), by decide⟩
    · exact ⟨[.mem], [], onlyParts_mem m _ (by decide), onlyRegs_of_eq rfl, by decide⟩
  · exact ⟨[], [], onlyParts_refl _ _, onlyRegs_refl _ _, by decide⟩

theorem ongoing_jobEnd (h : Nat) (m : Core) (x : Hte) : Ongoing h m (jobEnd m x true) := by
  obtain ⟨ps, as, ho, hr, hs, ht, he, ha⟩ := jobEnd_state m x
  exact ongoing_of ho hs hr ha (pendingKept_of_only ho he) (congrArg Tracker.htes (ho .trk ht))

/-- Whether an expiry makes no queued HTE go on: none waits, or the line stays busy. -/
def NoneGoesOn (m : Core) (h : Nat) (x : Hte) : Prop :=
  NoneQueued m ∨ (x.vline = none ∧ x.recov = none ∧ ∃ g w, g ≠ h ∧ hte m g = some w ∧ keepsBusy w x.msg.line = true)

/-- What an expired HTE leaves. -/
theorem quarantine_state {m : Core} {h : Nat} {x : Hte} (hx : hte m h = some x) (hn : NoneGoesOn m h x) :
    ∃ y, hte (quarantine m h) h = some y ∧ y.kind = .quarantined ∧ y.awaits = [] ∧ y.done = true ∧ y.adm = m.stmp
      ∧ rget (quarantine m h) 0xC14 = rget m 0xC14 ∧ PendingKept m (quarantine m h) := by
  have h1 : Ongoing h m (x.held.foldl (fun m a => unpaired m h a) (x.cmps.foldl (fun m a => heldCmp m h a) m)) :=
    ongoing_trans (ongoing_foldl _ (fun _ _ => ongoing_heldCmp _ _ _ _) _ _) (ongoing_foldl _ (fun _ _ => ongoing_unpaired _ _ _ _) _ _)
  have heq : quarantine m h = (let n := x.held.foldl (fun m a => unpaired m h a) (x.cmps.foldl (fun m a => heldCmp m h a) m)
      let o := promote (jobEnd (modHte n h (quarantinedHte n.stmp)) x true) x.msg.line
      match x.vline, x.recov with
      | some l, _ => promote o l
      | _, some r => promote o r.line
      | _, _ => o) := by
    unfold quarantine
    rw [hx]
    rfl
  generalize x.held.foldl (fun m a => unpaired m h a) (x.cmps.foldl (fun m a => heldCmp m h a) m) = n at h1 heq
  obtain ⟨y, hy, -⟩ := h1.own x hx
  have ho := setHte_only n h (quarantinedHte n.stmp y)
  have hset : modHte n h (quarantinedHte n.stmp) = setHte n h (quarantinedHte n.stmp y) := modHte_eq hy _
  have h2 : Ongoing h (setHte n h (quarantinedHte n.stmp y)) (jobEnd (setHte n h (quarantinedHte n.stmp y)) x true) :=
    ongoing_jobEnd _ _ _
  have htrk : (jobEnd (setHte n h (quarantinedHte n.stmp y)) x true).trk = (setHte n h (quarantinedHte n.stmp y)).trk := by
    obtain ⟨ps, as, hp, -, -, ht, -⟩ := jobEnd_state (setHte n h (quarantinedHte n.stmp y)) x
    exact hp .trk ht
  have hown : hte (jobEnd (setHte n h (quarantinedHte n.stmp y)) x true) h = some (quarantinedHte n.stmp y) := by
    rw [hte_congr (congrArg Tracker.htes htrk), hte_setHte, if_pos rfl]
  have hother (g : Nat) (hg : g ≠ h) : hte (jobEnd (setHte n h (quarantinedHte n.stmp y)) x true) g = hte m g := by
    rw [h2.others g hg, hte_setHte, if_neg (Ne.symm hg), h1.others g hg]
  have hqueued (hq : NoneQueued m) : NoneQueued (jobEnd (setHte n h (quarantinedHte n.stmp y)) x true) := by
    intro z hz
    rw [htrk] at hz
    rcases mem_of_mem_tset hz with rfl | hz
    · exact fun hk => by cases hk
    · intro hk
      obtain ⟨w, hw, hwk⟩ := h1.queued z hz hk
      exact hq w hw hwk
  have hstay (l : LineAddr) (hl : NoneQueued m ∨ l = x.msg.line) :
      promote (jobEnd (setHte n h (quarantinedHte n.stmp y)) x true) l = jobEnd (setHte n h (quarantinedHte n.stmp y)) x true := by
    rcases hn with hq | ⟨-, -, g, w, hg, hw, hk⟩
    · exact promote_noneQueued (hqueued hq) l
    · rcases hl with hq | rfl
      · exact promote_noneQueued (hqueued hq) l
      · exact promote_busy (lineBusy_of_hte ((hother g hg).trans hw) hk)
  have hall : quarantine m h = jobEnd (setHte n h (quarantinedHte n.stmp y)) x true := by
    rw [heq]
    dsimp only
    rw [hset, hstay _ (.inr rfl)]
    rcases hn with hq | ⟨hv, hr, -⟩
    · split
      · exact hstay _ (.inl hq)
      · exact hstay _ (.inl hq)
      · rfl
    · rw [hv, hr]
  rw [hall]
  refine ⟨_, hown, rfl, rfl, rfl, h1.stmp, ?_, pendingKept_trans h1.pending (pendingKept_trans (pendingKept_of_only ho (by decide)) h2.pending)⟩
  exact h2.count.trans h1.count

/-! ### Expiry (R281, R282, Table PRG-5) -/

theorem homeServes_congr {as : List Nat} {m n : Core} (hc : n.cfg = m.cfg) (hr : m.onlyRegs as n) (h1 : 0x1C ∉ as)
    (h2 : 0x20 ∉ as) (e : Bool) (l : LineAddr) (o : Option Nat) : homeServes n e l o = homeServes m e l o := by
  have hrole : role n = role m := by rw [role, role, rfld, rfld, hr _ h1]
  have hhome : homeOf n e l = homeOf m e l := by simp only [homeOf, rangeOf, Machine.setOf, hc]
  have hslot (k : Nat) : slotEnt n e k = slotEnt m e k := by simp only [slotEnt, Machine.setOf, hc]
  simp only [homeServes, hrole, hhome, hslot, nodeId_congr hr h2]

theorem isJct_congr {as : List Nat} {m n : Core} (hc : n.cfg = m.cfg) (hr : m.onlyRegs as n) (h1 : 0x1C ∉ as) (h2 : 0x20 ∉ as)
    (h3 : 0x1000 ∉ as) (x : Hte) : isJct n x = isJct m x := by
  have hsplit : split n = split m := by rw [split, split, rfld, rfld, hr _ h3]
  unfold isJct
  split
  · rfl
  · rw [homeServes_congr hc hr h1 h2]
  · rw [hsplit]
  · rfl

/-- An expiry is counted, raised and journaled. -/
theorem expiryNote_state (m : Core) (h : Nat) (x : Hte) : m.onlyParts (.jnl :: Part.report) (expiryNote m h x)
    ∧ m.onlyRegs (0xC14 :: journalRegs) (expiryNote m h x)
    ∧ rget (expiryNote m h x) 0xC14 = BitVec.ofNat 32 (min ((rget m 0xC14).toNat + 1) 0xFFFFFFFF)
    ∧ isPending (expiryNote m h x) 33 = true := by
  have h0 : m.onlyParts [.regs] (rinc m 0xC14 1) := onlyParts_rset _ _ _ (by decide)
  have hr0 : m.onlyRegs [0xC14] (rinc m 0xC14 1) := onlyRegs_rset _ _ _ (by decide)
  have hg : rget (rinc m 0xC14 1) 0xC14 = BitVec.ofNat 32 (min ((rget m 0xC14).toNat + 1) 0xFFFFFFFF) := rget_rset_same _ _ _
  have hp : isPending (raise (rinc m 0xC14 1) 33) 33 = true := raise_isPending _ _
  have h1 := raise_only (rinc m 0xC14 1) 33
  have hr1 := raise_regs (rinc m 0xC14 1) 33
  have h2 := tally_only .trk 6 1 (raise (rinc m 0xC14 1) 33)
  have hr2 := tally_regs .trk 6 1 (raise (rinc m 0xC14 1) 33)
  have hp2 := tally_pendingKept .trk 6 1 _ 33 hp
  have hnote : ∃ pl, expiryNote m h x = journal (tally .trk 6 1 (raise (rinc m 0xC14 1) 33)) 0x20 3 pl := ⟨_, rfl⟩
  obtain ⟨pl, hnote⟩ := hnote
  have h3 := journal_only (tally .trk 6 1 (raise (rinc m 0xC14 1) 33)) 0x20 3 pl
  have hr3 := journal_regs (tally .trk 6 1 (raise (rinc m 0xC14 1) 33)) 0x20 3 pl
  rw [hnote]
  refine ⟨onlyParts_trans (onlyParts_trans (onlyParts_mono h0 (by decide)) (onlyParts_mono h1 (by decide)))
      (onlyParts_trans (onlyParts_mono h2 (by decide)) (onlyParts_mono h3 (by decide))),
    onlyRegs_trans (onlyRegs_trans (onlyRegs_mono hr0 (by decide)) (onlyRegs_mono hr1 (by decide)))
      (onlyRegs_trans (onlyRegs_mono hr2 (by decide)) (onlyRegs_mono hr3 (by decide))), ?_, journal_pendingKept _ _ _ _ _ hp2⟩
  exact (hr3 _ (by decide)).trans ((hr2 _ (by decide)).trans ((hr1 _ (by decide)).trans hg))

theorem ongoing_expireAnswer (m : Core) (h : Nat) (x : Hte) : Ongoing h m (expireAnswer m h x) := by
  have hanswer : Ongoing h m (if clsOf x.msg.op = .wbk then freeWb (wbCmp m h x.epoch x.msg) x.wbFrom
      else sendH m h x { toReq x h .err with status := BitVec.ofNat 8 errTimeout }) := by
    split
    · exact ongoing_trans (ongoing_send _ _ _ _ _ _) (ongoing_freeWb _ _ _)
    · exact ongoing_send _ _ _ _ _ _
  unfold expireAnswer
  split
  · exact ongoing_refl _ _
  · split
    · exact hanswer
    · exact hanswer
    · exact hanswer
    · exact ongoing_refl _ _

/-- The directory entry of a completed transaction is written. -/
def ended (m : Core) (x : Hte) : Core :=
  match x.key, x.fin with
  | some k, some d => dirWrite m k d
  | _, _ => m

theorem ended_only (m : Core) (x : Hte) : m.onlyParts [.deck] (ended m x) := by
  unfold ended
  split
  · exact dirWrite_only _ _ _
  · exact onlyParts_refl _ _

/-- The step by which an expired transaction is judged, beyond invalidations. -/
def awaitedStep (x : Hte) : Option Await :=
  (x.awaits.filter fun a => match a with
    | .owner _ _ | .wb _ _ | .acc _ | .unit | .up _ => true
    | _ => false).head?.or (x.awaits.find? fun a => match a with
    | .reqCmp _ => true
    | _ => false)

/-- The requester is answered and the HTE quarantined. -/
def endsExpired (n : Core) (h : Nat) (x : Hte) : Core := quarantine (expireAnswer n h x) h

/-- The line of an expired transaction is poisoned and its entry freed. -/
def poisonedExpired (n : Core) (h : Nat) (x : Hte) (key : Option Nat) : Core :=
  quarantine (match key with
    | some k => dirWrite (memPoison (expireAnswer n h x) h (x.vline.getD x.msg.line)) k {}
    | none => memPoison (expireAnswer n h x) h (x.vline.getD x.msg.line)) h

/-- The staff that an expired transaction's entry held ends. -/
def staffEnds (m : Core) (key : Option Nat) (staff : Bool) : Core :=
  if staff && (match key with
    | some k => (dirEnt m k).staff
    | none => false) then staffEnd m else m

/-- The target of an expired stash holds the line. -/
def stashGiven (n : Core) (x : Hte) (t : Nat) : Core :=
  match x.key with
  | some k => dirWrite n k { entOf (x.vline.getD x.msg.line) x.epoch .x with owner := BitVec.ofNat 8 t }
  | none => n

/-- The outcome of an expired transaction of the home function by the step it awaited (Table PRG-5). -/
def outcome (m : Core) (h : Nat) (x : Hte) (key : Option Nat) : Option Await → Core
  | some (.owner _ _) => poisonedExpired m h x key
  | some (.wb _ staff) => poisonedExpired (staffEnds m key staff) h x key
  | some (.acc t) => endsExpired (stashGiven (memPoison m h (x.vline.getD x.msg.line)) x t) h x
  | some (.reqCmp _) => quarantine (ended m x) h
  | some .unit => endsExpired (modAtm m fun a => { a with units := a.units.map fun u => (u.1, u.2.map fun o =>
      if o.hte = h then { o with dropped := true } else o) }) h x
  | some (.up _) => endsExpired (if clsOf x.msg.op = .wbk then ended m x else m) h x
  | _ => if x.ended then quarantine (ended m x) h else endsExpired (expireAtm m h x) h x

/-- The slots that did not answer an invalidation stay in the vector. -/
def roundExpired (m : Core) (h : Nat) (x : Hte) (key : Option Nat) : Core :=
  let n := modCa m fun c => { c with mbWait := c.mbWait.filter fun w => !(decide (w.hte = h) && w.req) }
  match key with
  | some k =>
    let v := (dirEnt n k).vec &&& staysIn x
    dirWrite n k (if v = 0 then {} else { dirEnt n k with vec := v, epoch := x.epoch })
  | none => n

theorem expireState_home {m : Core} {h : Nat} {x : Hte} (hj : isJct m x = false) :
    ∃ key, expireState m h x = endsExpired (roundExpired m h x key) h x
      ∨ expireState m h x = outcome m h x key (awaitedStep x) := by
  unfold expireState
  dsimp only
  rw [hj]
  generalize (if x.vline.isSome = true then x.key else dirFind m (!false) (x.vline.getD x.msg.line)) = key
  refine ⟨key, ?_⟩
  by_cases hr : (x.awaits.any fun a => match a with
      | .ria _ => true
      | _ => false) = true
  · exact .inl (if_pos hr)
  · exact .inr (if_neg hr)

theorem ongoing_ended (h : Nat) (m : Core) (x : Hte) : Ongoing h m (ended m x) := ongoing_of_only (ended_only m x) (by decide)

theorem ongoing_expireAtm (h : Nat) (m : Core) (x : Hte) : Ongoing h m (expireAtm m h x) := by
  unfold expireAtm
  split
  · exact ongoing_refl _ _
  · have hw := ongoing_wrote (memWriteAs_wrote false m h x.msg.line x.buf fullMask x.bufPoison)
    dsimp only
    split
    · exact ongoing_trans hw (ongoing_dirWrite _ _ _ _)
    · exact hw

theorem ongoing_roundExpired (h : Nat) (m : Core) (x : Hte) (key : Option Nat) : Ongoing h m (roundExpired m h x key) := by
  have hca : Ongoing h m (modCa m fun c => { c with mbWait := c.mbWait.filter fun w => !(decide (w.hte = h) && w.req) }) :=
    ongoing_of_only (modCa_only _ _) (by decide)
  unfold roundExpired
  dsimp only
  split
  · exact ongoing_trans hca (ongoing_dirWrite _ _ _ _)
  · exact hca

/-- Every outcome ends in quarantine. -/
theorem outcome_quarantines (m : Core) (h : Nat) (x : Hte) (key : Option Nat) (a : Option Await) :
    ∃ n, Ongoing h m n ∧ outcome m h x key a = quarantine n h := by
  have hends (n : Core) (hn : Ongoing h m n) : ∃ o, Ongoing h m o ∧ endsExpired n h x = quarantine o h :=
    ⟨_, ongoing_trans hn (ongoing_expireAnswer _ _ _), rfl⟩
  have hpoison (n : Core) (hn : Ongoing h m n) : ∃ o, Ongoing h m o ∧ poisonedExpired n h x key = quarantine o h := by
    have hp : Ongoing h m (memPoison (expireAnswer n h x) h (x.vline.getD x.msg.line)) :=
      ongoing_trans hn (ongoing_trans (ongoing_expireAnswer _ _ _) (ongoing_memPoison _ _ _))
    refine ⟨_, ?_, rfl⟩
    split
    · exact ongoing_trans hp (ongoing_dirWrite _ _ _ _)
    · exact hp
  have hrest : ∃ n, Ongoing h m n ∧ (if x.ended then quarantine (ended m x) h else endsExpired (expireAtm m h x) h x) = quarantine n h := by
    split
    · exact ⟨_, ongoing_ended _ _ _, rfl⟩
    · exact hends _ (ongoing_expireAtm _ _ _)
  cases a with
  | none => exact hrest
  | some a =>
    cases a with
    | owner _ _ => exact hpoison m (ongoing_refl _ _)
    | wb _ staff =>
      have hstaff (b : Bool) : Ongoing h m (if b then staffEnd m else m) := by
        cases b
        · exact ongoing_refl _ _
        · exact ongoing_staffEnd _ _
      exact hpoison _ (hstaff _)
    | acc t =>
      refine hends _ (ongoing_trans (ongoing_memPoison h m (x.vline.getD x.msg.line)) ?_)
      unfold stashGiven
      split
      · exact ongoing_dirWrite _ _ _ _
      · exact ongoing_refl _ _
    | reqCmp _ => exact ⟨_, ongoing_ended _ _ _, rfl⟩
    | unit => exact hends _ (ongoing_of_only (onlyParts_atm m _ (by decide) : m.onlyParts [.atm] _) (by decide))
    | up _ =>
      refine hends _ ?_
      split
      · exact ongoing_ended _ _ _
      · exact ongoing_refl _ _
    | _ => exact hrest

/-- The home function's expired transaction is quarantined, whatever it awaited. -/
theorem expireState_quarantines {m : Core} {h : Nat} {x : Hte} (hj : isJct m x = false) :
    ∃ n, Ongoing h m n ∧ expireState m h x = quarantine n h := by
  obtain ⟨key, hr | ho⟩ := expireState_home (m := m) (h := h) (x := x) hj
  · exact ⟨_, ongoing_trans (ongoing_roundExpired _ _ _ _) (ongoing_expireAnswer _ _ _), hr⟩
  · rw [ho]
    exact outcome_quarantines m h x key _

theorem expire_notes {m : Core} {h : Nat} {x : Hte} (hx : hte m h = some x) (hk : x.kind ≠ .quarantined) (hd : x.done = false)
    (ha : aged m x = true) (he : x.expired = false) : expire m h = expireBy (expiryNote m h x) h x := by
  unfold expire
  rw [hx]
  dsimp only
  rw [ha, hd, he]
  simp [hk]

/-- What an HTE that has passed its age limit leaves: it is in quarantine, and the expiry is counted and raised. -/
theorem expired_state {m n : Core} {h : Nat} {x : Hte} (hx : hte m h = some x) (ho : Ongoing h (expiryNote m h x) n)
    (hn : NoneQueued m ∨ (x.vline = none ∧ x.recov = none ∧ ∃ g w, g ≠ h ∧ hte m g = some w ∧ keepsBusy w x.msg.line = true)) :
    ∃ y, hte (quarantine n h) h = some y ∧ y.kind = .quarantined ∧ y.awaits = [] ∧ y.done = true ∧ y.adm = m.stmp
      ∧ rget (quarantine n h) 0xC14 = BitVec.ofNat 32 (min ((rget m 0xC14).toNat + 1) 0xFFFFFFFF)
      ∧ isPending (quarantine n h) 33 = true := by
  obtain ⟨h1, -, h3, h4⟩ := expiryNote_state m h x
  have htrk : (expiryNote m h x).trk = m.trk := h1 .trk (by decide)
  have hh (g : Nat) : hte (expiryNote m h x) g = hte m g := hte_congr (congrArg Tracker.htes htrk) g
  obtain ⟨y, hy, hm, hv, hr⟩ := ho.own x ((hh h).trans hx)
  have hgo : NoneGoesOn n h y := by
    rcases hn with hq | ⟨hv', hr', g, w, hg, hw, hk⟩
    · refine .inl fun z hz hk => ?_
      obtain ⟨w, hw, hwk⟩ := ho.queued z hz hk
      exact hq w (htrk ▸ hw) hwk
    · exact .inr ⟨hv.trans hv', hr.trans hr', g, w, hg, (ho.others g hg).trans ((hh g).trans hw), by rw [hm]; exact hk⟩
  obtain ⟨z, hz, hk, haw, hd, had, hc, hp⟩ := quarantine_state hy hgo
  exact ⟨z, hz, hk, haw, hd, had.trans (ho.stmp.trans (h1 .stmp (by decide))), hc.trans (ho.count.trans h3),
    hp _ (ho.pending _ h4)⟩

/-! ### Completion (R106, R165) -/

theorem freeHte_state {m : Core} {h : Nat} {x : Hte} (hx : hte m h = some x) : m.onlyParts [.trk] (freeHte m h)
    ∧ (freeHte m h).trk.htes = tdel m.trk.htes h := by
  unfold freeHte
  rw [hx]
  dsimp only
  split
  · exact ⟨onlyParts_trk m _ (by decide), rfl⟩
  · exact ⟨onlyParts_trk m _ (by decide), rfl⟩

theorem hte_freeHte {m : Core} {h : Nat} {x : Hte} (hx : hte m h = some x) (g : Nat) :
    hte (freeHte m h) g = if h = g then none else hte m g := by
  rw [hte, (freeHte_state hx).2, tfind_tdel]
  rfl

theorem tfind_of_mem {α : Type} {t : Tab α} {x : Nat × α} (h : x ∈ t) : ∃ v, tfind t x.1 = some v := by
  induction t with
  | nil => cases h
  | cons y r ih =>
    obtain ⟨k', v'⟩ := y
    unfold tfind
    split
    · exact ⟨_, rfl⟩
    · next hne =>
      rcases List.mem_cons.1 h with rfl | h
      · exact absurd rfl hne
      · exact ih h

theorem promote_state (m : Core) (l : LineAddr) : m.onlyParts [.trk] (promote m l) := by
  unfold promote
  split
  · exact onlyParts_refl _ _
  · split
    · exact onlyParts_refl _ _
    · exact modHte_only _ _ _

/-- A free HTE stays free as the head of a queue goes on. -/
theorem promote_free {m : Core} {h : Nat} {l : LineAddr} (hf : hte m h = none) : hte (promote m l) h = none := by
  unfold promote
  split
  · exact hf
  · split
    · exact hf
    · next q hq =>
      obtain ⟨z, hz, rfl, -⟩ := queueHead_listed hq
      obtain ⟨y, hy⟩ := tfind_of_mem hz
      have hy : hte m z.1 = some y := hy
      rw [modHte_eq hy, hte_setHte]
      split
      · next e =>
        rw [e, hf] at hy
        cases hy
      · exact hf

/-- The head of a line's queue goes on. -/
theorem promote_head {m : Core} {l : LineAddr} {q : Nat} (hb : lineBusy m l = false) (hq : queueHead m l = some q) :
    ∃ y, hte m q = some y ∧ hte (promote m l) q = some { y with kind := .active, wait := .decision } := by
  obtain ⟨z, hz, rfl, -⟩ := queueHead_listed hq
  obtain ⟨y, hy⟩ := tfind_of_mem hz
  have hy : hte m z.1 = some y := hy
  refine ⟨y, hy, ?_⟩
  unfold promote
  rw [hb, hq]
  dsimp only
  rw [if_neg Bool.false_ne_true, modHte_eq hy, hte_setHte, if_pos rfl]

theorem jobEnd_done_only (m : Core) (x : Hte) : m.onlyParts [.deck] (jobEnd m x false)
    ∧ (jobEnd m x false).deck.ents = m.deck.ents := by
  unfold jobEnd
  split
  · exact ⟨onlyParts_deck m _ (by decide), rfl⟩
  · exact ⟨onlyParts_deck m _ (by decide), rfl⟩
  · exact ⟨onlyParts_refl _ _, rfl⟩
  · exact ⟨onlyParts_refl _ _, rfl⟩

theorem dirEnt_dirWrite {m : Core} {k : Nat} {d : DirEnt} (h : retired m (k / 16) = false) : dirEnt (dirWrite m k d) k = d := by
  have hpost (n : Core) (i : Nat) (t : BitVec 24) : (mirrorPost n i t).deck.ents = n.deck.ents := by
    unfold mirrorPost modDeck
    dsimp only
    split
    · rfl
    · split <;> rfl
  unfold dirWrite
  rw [h, if_neg Bool.false_ne_true]
  dsimp only
  split
  · exact tget_tput _ _ _ _ _ |>.trans (if_pos rfl)
  · rw [dirEnt, hpost]
    exact tget_tput _ _ _ _ _ |>.trans (if_pos rfl)

theorem complete_done {m : Core} {h : Nat} {x : Hte} (hx : hte m h = some x) (hk : x.kind = .active) (hd : x.done = true)
    (ha : x.awaits = []) (hh : x.held = []) (hc : x.cmps = []) (he : x.expired = false) (hu : unsent m h = false)
    (ho : (m.trk.atOnce.any fun a => decide (a.msg.line = x.msg.line)) = false) :
    complete m h = promote (freeHte (jobEnd (ended m x) x false) h) x.msg.line := by
  have hgo : (!x.done || !x.awaits.isEmpty || decide (x.kind = .quarantined) || unsent m h
      || m.trk.atOnce.any fun a => decide (a.msg.line = x.msg.line)) = false := by
    rw [hd, ha, hk, hu, ho]
    rfl
  unfold complete
  rw [hx]
  dsimp only
  rw [hgo, if_neg Bool.false_ne_true, hh, hc, he, if_neg Bool.false_ne_true, List.foldl_nil, List.foldl_nil]
  rfl

/-! ### The statement -/

/-- Settles O38: admission, completion, expiry and the end of a quarantine, each by the lemma about its function. -/
theorem trackerAdmitsAndCompletes : Obligations.TrackerAdmitsAndCompletes := by
  refine ⟨fun s i a hr hd ha hw he hs => ?_, fun s h x hr hx hk hd haw hh hc he hu ho => ?_,
    fun s h g x w hr hx hk hd he hv hrec ha hne hg hkeep => ?_, fun s h x hr hx hk hsur hrec hj hd he ha hq => ?_,
    fun s h x hr hx hk ha => ?_⟩
  · obtain ⟨h1, h2⟩ := leftPort_state s.m i a
    have hstep : exec .admission s = .next { s with m := takeHte (leftPort s.m i a) a a.msg.epoch } :=
      clocked_next (f := admission) hr (admission_takes hd ha hw he hs)
    obtain ⟨g1, u, g2⟩ := takeHte_state (leftPort s.m i a) a a.msg.epoch
    have hhtes : (leftPort s.m i a).trk.htes = s.m.trk.htes := by rw [h2]; rfl
    have hbusy : lineBusy (leftPort s.m i a) a.msg.line = lineBusy s.m a.msg.line := lineBusy_congr hhtes _
    have hslot : arrSlot (leftPort s.m i a) a = arrSlot s.m a := arrSlot_congr (h1 .cfg (by decide)) a
    have hall : s.m.onlyParts (.trk :: .ports :: Part.report) (takeHte (leftPort s.m i a) a a.msg.epoch) :=
      onlyParts_trans h1 (onlyParts_mono g1 (by decide))
    rw [h2] at g2
    generalize takeHte (leftPort s.m i a) a a.msg.epoch = t at hstep hall g2
    have hfind (k : Nat) : hte t k = if tfree s.m.trk.htes 0 = k then some (admittedHte (leftPort s.m i a) a a.msg.epoch) else hte s.m k := by
      rw [hte, g2]
      exact tfind_tset _ _ _ _
    refine ⟨_, admittedHte (leftPort s.m i a) a a.msg.epoch, hstep, (hfind _).trans (if_pos rfl), rfl, rfl, rfl, hslot, rfl, ?_, ?_,
      rfl, rfl, fun k hk => (hfind k).trans (if_neg (Ne.symm hk)), ?_, ?_, ?_, only_next hall⟩
    · exact congrArg (fun b : Bool => if b = true then HKind.queued else HKind.active) hbusy
    · exact congrArg (fun b : Bool => if b = true then Wait.queue else Wait.decision) hbusy
    · show t.trk.arrivals = _
      rw [g2]
      rfl
    · show t.trk.ptr = _
      rw [g2]
      rfl
    · show t.trk.core = _
      rw [g2]
      rfl
  · have h1 := ended_only s.m x
    obtain ⟨h2, h3⟩ := jobEnd_done_only (ended s.m x) x
    have hdeck : s.m.onlyParts [.deck] (jobEnd (ended s.m x) x false) := onlyParts_trans h1 h2
    have htrk : (jobEnd (ended s.m x) x false).trk = s.m.trk := hdeck .trk (by decide)
    have hx' : hte (jobEnd (ended s.m x) x false) h.val = some x := (hte_congr (congrArg Tracker.htes htrk) _).trans hx
    obtain ⟨h4, h5⟩ := freeHte_state hx'
    have hhtes : (freeHte (jobEnd (ended s.m x) x false) h.val).trk.htes = (freeHte s.m h.val).trk.htes := by
      rw [h5, (freeHte_state hx).2, htrk]
    have h6 := promote_state (freeHte (jobEnd (ended s.m x) x false) h.val) x.msg.line
    have hfree : hte (freeHte (jobEnd (ended s.m x) x false) h.val) h.val = none := (hte_freeHte hx' _).trans (if_pos rfl)
    have hstep : exec (.transactionComplete h) s = _ :=
      clocked_next (f := fun m => complete m h.val) hr (complete_done hx hk hd haw hh hc he hu ho)
    refine ⟨_, hstep, promote_free hfree, fun k d hkey hfin hret => ?_, fun q hb hq => ?_,
      only_next (onlyParts_trans (onlyParts_mono hdeck (by decide)) (onlyParts_trans (onlyParts_mono h4 (by decide)) (onlyParts_mono h6 (by decide))))⟩
    · have hents : (promote (freeHte (jobEnd (ended s.m x) x false) h.val) x.msg.line).deck.ents = (ended s.m x).deck.ents := by
        rw [h6 .deck (by decide), h4 .deck (by decide), h3]
      have hend : ended s.m x = dirWrite s.m k d := by rw [ended, hkey, hfin]
      show dirEnt (promote (freeHte (jobEnd (ended s.m x) x false) h.val) x.msg.line) k = d
      rw [dirEnt, hents, hend]
      exact dirEnt_dirWrite hret
    · obtain ⟨y, hy, hz⟩ := promote_head (m := freeHte (jobEnd (ended s.m x) x false) h.val) (l := x.msg.line) (q := q)
        (by rw [lineBusy_congr hhtes]; exact hb) (by rw [queueHead_congr hhtes]; exact hq)
      rw [hte_congr hhtes, hte_freeHte hx] at hy
      split at hy
      · cases hy
      · exact ⟨y, _, hy, hz, rfl⟩
  · have hk' : x.kind ≠ .quarantined := by rw [hk]; decide
    have hstep : exec (.hteExpiry h) s = .next { s with m := quarantine (expireAnswer (expiryNote s.m h.val x) h.val x) h.val } := by
      refine clocked_next (f := fun m => expire m h.val) hr ((expire_notes hx hk' hd ha he).trans ?_)
      unfold expireBy
      rw [hk]
      rfl
    obtain ⟨y, h1, h2, h3, h4, h5, h6, h7⟩ := expired_state hx (ongoing_expireAnswer _ _ _)
      (.inr ⟨hv, hrec, g.val, w, fun e => hne (Fin.ext e.symm), hg, hkeep⟩)
    exact ⟨_, y, hstep, h1, h2, h3, h4, h5, h6, h7, rfl, rfl⟩
  · have hk' : x.kind ≠ .quarantined := by rw [hk]; decide
    obtain ⟨e1, e2, -, -⟩ := expiryNote_state s.m h.val x
    obtain ⟨n, hn, hq'⟩ := expireState_quarantines (m := expiryNote s.m h.val x) (h := h.val) (x := x)
      (by rw [isJct_congr (e1 .cfg (by decide)) e2 (by decide) (by decide) (by decide)]; exact hj)
    have hstep : exec (.hteExpiry h) s = .next { s with m := quarantine n h.val } := by
      refine clocked_next (f := fun m => expire m h.val) hr ((expire_notes hx hk' hd ha he).trans (Eq.trans ?_ hq'))
      unfold expireBy
      rw [hk, hrec, hsur]
      rfl
    obtain ⟨y, h1, h2, h3, h4, h5, h6, h7⟩ := expired_state hx hn (.inl fun z hz => by
      have hz' := List.all_eq_true.1 hq z hz
      simpa using hz')
    exact ⟨_, y, hstep, h1, h2, h3, h4, h5, h6, h7, rfl, rfl⟩
  · have hstep : exec (.quarantineEnd h) s = .next { s with m := freeHte s.m h.val } := by
      refine clocked_next (f := fun m => quarantineEnd m h.val) hr ?_
      show quarantineEnd s.m h.val = _
      rw [quarantineEnd, hx]
      exact if_pos (by simp [hk, ha])
    exact ⟨_, hstep, (hte_freeHte hx _).trans (if_pos rfl), fun g hg => (hte_freeHte hx g).trans (if_neg (Ne.symm hg)),
      only_next (freeHte_state hx).1⟩

end Sys2Proof.TrackerRuns
end

section
/-! SUPPORT. How an HTE goes on while it answers writebacks that it has served (Machine/Flow.lean, R119, R264). -/

namespace Sys2Proof.GoingOn

open Sys2Proof.Machine Sys2Proof.Laws Sys2Proof.Windows Sys2Proof.Sending Sys2Proof.Engine Sys2Proof.Arriving Sys2Proof.Flits
  Sys2Proof.Channels Sys2Proof.Transactions Sys2Proof.CfgMessages Sys2Proof.TrackerRuns

/-! ### Queues of ports -/

/-- The links are as they were, and what waits at a port still waits there. -/
def Grown (m n : Core) : Prop := LinksKept m n ∧ ∀ q, ∀ y ∈ (port m q).txq, y ∈ (port n q).txq

theorem grown_refl (m : Core) : Grown m m := ⟨linksKept_refl m, fun _ _ h => h⟩

theorem grown_trans {m n o : Core} (a : Grown m n) (b : Grown n o) : Grown m o :=
  ⟨fun q => ⟨(b.1 q).1.trans (a.1 q).1, (b.1 q).2.trans (a.1 q).2⟩, fun q y h => b.2 q y (a.2 q y h)⟩

theorem grown_joined {m n : Core} (h : joined m n) : Grown m n := by
  refine ⟨fun q => ?_, fun q y hy => mem_txq_of_joined h hy⟩
  obtain ⟨l, hl⟩ := h q
  rw [hl]
  exact ⟨rfl, rfl⟩

theorem grown_of_only {ps : List Part} {m n : Core} (h : m.onlyParts ps n) (hp : Part.ports ∉ ps) : Grown m n :=
  grown_joined (joined_of_only h hp)

theorem freeSlots_grown (m : Core) (p v k : Nat) : Grown m (freeSlots m p v k) := by
  refine ⟨freeSlots_linksKept m p v k, fun q y hy => ?_⟩
  unfold freeSlots
  split
  · exact hy
  · dsimp only
    rw [port_setPort]
    split
    · next h => exact h ▸ hy
    · exact hy

theorem grown_routes {m n : Core} (hc : n.cfg = m.cfg) (h : Grown m n) (e : Bool) (d : NodeId) : routeOf n e d = routeOf m e d :=
  routeOf_of_links hc h.1 e d

theorem hteSends_grown {m n : Core} {p h : Nat} {f : Msg → Prop} (hs : hteSends m p h f) (hg : Grown m n) : hteSends n p h f := by
  obtain ⟨y, hy, ho, hm⟩ := hs
  exact ⟨y, hg.2 p y hy, ho, hm⟩

theorem asSent_congr {as : List Nat} {m n : Core} (h : m.onlyRegs as n) (h1 : 0x20 ∉ as) (h2 : 0x840 ∉ as) {g r : Msg}
    (hr : AsSent n g r) : AsSent m g r := by
  obtain ⟨d, rfl⟩ := hr
  refine ⟨d, ?_⟩
  rw [stamped, stamped, nodeId_congr h h1, rfld, rfld, h _ h2]

/-! ### Buffers of writebacks -/

theorem grantWb_grown (rest : List Arrival) (m : Core) (bl : List (Nat × Nat)) (done : List Arrival) : Grown m (grantWb m bl done rest) := by
  induction rest generalizing m bl done with
  | nil => exact grown_of_only (onlyParts_trk m _ (by decide) : m.onlyParts [.trk] _) (by decide)
  | cons a rest ih =>
    have htaken : Grown m (wbTaken m a) := by
      unfold wbTaken
      dsimp only
      split
      · exact grown_trans (freeSlots_grown _ _ _ _) (grown_of_only (onlyParts_trk _ _ (by decide) : Core.onlyParts [.trk] _ _) (by decide))
      · exact grown_of_only (onlyParts_trk _ _ (by decide) : Core.onlyParts [.trk] _ _) (by decide)
    rw [grantWb]
    split
    · split
      · exact ih _ _ _
      · split
        · exact grown_trans htaken (ih (wbTaken m a) _ _)
        · exact ih _ _ _
    · exact ih _ _ _

theorem freeWb_grown (m : Core) (k : Option Nat) : Grown m (freeWb m k) := by
  cases k with
  | none => exact grown_refl m
  | some k =>
    have h0 : m.onlyParts [.trk] (wbFreed m k) := onlyParts_trk m _ (by decide)
    exact grown_trans (grown_of_only h0 (by decide)) (grantWb_grown _ (wbFreed m k) _ _)

/-! ### Writebacks answered -/

/-- HTE `h` has answered writebacks: messages have joined the queues of ports, reports and buffers have changed, and of the
HTE the list of those writebacks alone. -/
structure Served (h : Nat) (m n : Core) : Prop where
  parts : m.onlyParts (.trk :: sendParts) n
  regs : m.onlyRegs journalRegs n
  queues : Grown m n
  own : ∀ x, hte m h = some x → ∃ cs, hte n h = some { x with cmps := cs }

theorem served_refl (h : Nat) (m : Core) : Served h m m :=
  ⟨onlyParts_refl _ _, onlyRegs_refl _ _, grown_refl _, fun x hx => ⟨x.cmps, hx⟩⟩

theorem served_trans {h : Nat} {m n o : Core} (a : Served h m n) (b : Served h n o) : Served h m o := by
  refine ⟨onlyParts_trans a.parts b.parts, onlyRegs_trans a.regs b.regs, grown_trans a.queues b.queues, fun x hx => ?_⟩
  obtain ⟨cs, hn⟩ := a.own x hx
  obtain ⟨cs', ho⟩ := b.own _ hn
  exact ⟨cs', ho⟩

/-- A writeback's answer leaves the HTEs alone. -/
theorem answered_state (m : Core) (h : Nat) (e : Bool) (g : Msg) (k : Option Nat) :
    m.onlyParts (.trk :: sendParts) (freeWb (wbCmp m h e g) k) ∧ m.onlyRegs journalRegs (freeWb (wbCmp m h e g) k)
      ∧ Grown m (freeWb (wbCmp m h e g) k) ∧ ∀ i, hte (freeWb (wbCmp m h e g) k) i = hte m i := by
  have h1 := send_only m 16 (some h) e { op := .cmp, dest := g.src, tag := g.tag, htag := BitVec.ofNat 12 h, line := g.line, epoch := e }
  obtain ⟨h2, h3⟩ := freeWb_state (wbCmp m h e g) k
  refine ⟨onlyParts_trans (onlyParts_mono h1 (by decide)) (onlyParts_mono h2 (by decide)),
    onlyRegs_trans (send_regs _ _ _ _ _) (onlyRegs_of_only (as := journalRegs) h2 (by decide)),
    grown_trans (grown_joined (send_joined _ _ _ _ _)) (freeWb_grown _ _), fun i => ?_⟩
  exact (hte_congr h3 i).trans (hte_of_only h1 (by decide) i)

theorem heldCmp_served (h : Nat) (m : Core) (a : Arrival) : Served h m (heldCmp m h a) := by
  obtain ⟨h1, h2, h3, h4⟩ := answered_state m h (epochFor m a.msg.epoch) a.msg a.wb
  exact ⟨h1, h2, h3, fun x hx => ⟨x.cmps, (h4 h).trans hx⟩⟩

theorem flushCmps_served (h : Nat) (m : Core) : Served h m (flushCmps m h) := by
  have hfold (l : List Arrival) : ∀ n, Served h n (l.foldl (fun m a => heldCmp m h a) n) := by
    induction l with
    | nil => exact fun n => served_refl h n
    | cons a r ih => exact fun n => served_trans (heldCmp_served h n a) (ih _)
  unfold flushCmps
  split
  · exact served_refl h m
  · next x hx =>
    split
    · exact served_refl h m
    · refine served_trans ⟨onlyParts_mono (modHte_only _ _ _) (by decide), onlyRegs_of_only (as := journalRegs) (modHte_only m h _) (by decide),
        grown_of_only (modHte_only m h _) (by decide), fun y hy => ⟨[], ?_⟩⟩ (hfold _ _)
      rw [modHte_eq hy, hte_setHte_same]

theorem served_of_same {h : Nat} {m n : Core} (hs : SameHtes m n) : Served h m n :=
  ⟨onlyParts_mono (sameHtes_only hs) (by decide), onlyRegs_of_only (as := journalRegs) (sameHtes_only hs) (by decide),
    grown_of_only (sameHtes_only hs) (by decide), fun x hx => ⟨x.cmps, (sameHtes_hte hs h).trans hx⟩⟩

/-! ### Going on -/

/-- Once its continuations have run, an HTE that is active answers its writebacks, and that is all. -/
theorem go_advanced {m r : Core} {h : Nat} {y : Hte} {e : Env} (hr : advance e 8 (flushCmps m h) h = r) (hy : hte r h = some y)
    (hk : y.kind = .active) : Served h r (go m h e) := by
  have h1 := flushCmps_served h r
  have hstep : goHolder m h e = flushCmps r h := by rw [goHolder, hr]
  obtain ⟨cs, hcs⟩ := h1.own y hy
  have hgo : go m h e = flushCmps r h := by
    rw [go, hstep, hcs]
    exact if_neg (by simp [hk])
  rw [hgo]
  exact h1

theorem go_halted_served {m : Core} {h : Nat} {x : Hte} (e : Env) (hx : hte m h = some x) (hh : Halted x) (hk : x.kind = .active) :
    Served h m (go m h e) := by
  have h1 := flushCmps_served h m
  obtain ⟨cs, hcs⟩ := h1.own x hx
  exact served_trans h1 (go_advanced (advance_halted (x := { x with cmps := cs }) e 8 hcs hh) hcs hk)

/-- An HTE that awaits nothing more runs its continuation; where it then goes no further, that is all. -/
theorem go_once_served {m : Core} {h : Nat} {x : Hte} (e : Env) (hx : hte m h = some x) (ha : x.awaits = []) (hw : x.wait = .none)
    (hd : x.done = false) (hi : x.cont ≠ .idle) (hk : x.kind = .active) :
    ∃ n cs, Served h m n ∧ hte n h = some { x with cmps := cs } ∧ ∀ y, hte (runCont n h { x with cmps := cs } e) h = some y →
      Halted y → y.kind = .active → Served h (runCont n h { x with cmps := cs } e) (go m h e) := by
  have h1 := flushCmps_served h m
  obtain ⟨cs, hcs⟩ := h1.own x hx
  refine ⟨_, cs, h1, hcs, fun y hy hyh hyk => go_advanced ?_ hy hyk⟩
  rw [advance_step (x := { x with cmps := cs }) e 7 hcs ha hw hd hi hk, advance_halted e 7 hy hyh]

/-- An HTE whose continuation ends its request sends the message and ends. -/
theorem go_sends_served {m : Core} {h p : Nat} {x : Hte} {e : Env} {g : Msg} (hx : hte m h = some x) (ha : x.awaits = [])
    (hw : x.wait = .none) (hd : x.done = false) (hi : x.cont ≠ .idle) (hk : x.kind = .active)
    (hrun : ∀ n cs, hte n h = some { x with cmps := cs } → runCont n h { x with cmps := cs } e = sendEnd n h { x with cmps := cs } g)
    (hn : g.dest ≠ nodeId m) (hr : routeOf m x.epoch g.dest = some p) :
    (∃ cs, hte (go m h e) h = some { x with ended := true, done := true, wait := .none, cont := .idle, cmps := cs })
    ∧ m.onlyParts (.trk :: sendParts) (go m h e) ∧ m.onlyRegs journalRegs (go m h e)
    ∧ hteSends (go m h e) p h (AsSent m { g with epoch := x.epoch }) := by
  obtain ⟨n, cs, hmn, hxn, hgo⟩ := go_once_served e hx ha hw hd hi hk
  have hid : nodeId n = nodeId m := nodeId_congr hmn.regs (by decide)
  have hroute : routeOf n x.epoch g.dest = some p := (grown_routes (hmn.parts .cfg (by decide)) hmn.queues _ _).trans hr
  obtain ⟨h1, h2, h3, h4⟩ := sendEnd_state (x := { x with cmps := cs }) (g := g) hxn (by rw [hid]; exact hn) hroute
  rw [hrun n cs hxn] at hgo
  have hlast := hgo _ h3 (Or.inr (Or.inr (Or.inl rfl))) hk
  obtain ⟨cs', hcs'⟩ := hlast.own _ h3
  exact ⟨⟨cs', hcs'⟩, onlyParts_trans hmn.parts (onlyParts_trans (onlyParts_mono h1 (by decide)) hlast.parts),
    onlyRegs_trans hmn.regs (onlyRegs_trans (onlyRegs_mono h2 (by decide)) hlast.regs),
    hteSends_grown (hteSends_mono h4 fun r hr => asSent_congr hmn.regs (by decide) (by decide) hr) hlast.queues⟩

end Sys2Proof.GoingOn
end

section
/-! PROOFS. Writebacks at the home (spec/03_coherence_flows.md, spec/04_ordering_races.md), with the statement about them. -/

namespace Sys2Proof.Writebacks

open Sys2Proof.Machine Sys2Proof.Laws Sys2Proof.Windows Sys2Proof.Sending Sys2Proof.Engine Sys2Proof.Flits Sys2Proof.Channels
  Sys2Proof.Transactions Sys2Proof.Units Sys2Proof.Lookups Sys2Proof.Merging Sys2Proof.TrackerRuns Sys2Proof.GoingOn

/-! ### Bytes laid over a line -/

theorem expandMask_lt (mask n : Nat) : expandMask mask n < 2 ^ (8 * n) := by
  induction n with
  | zero => exact Nat.one_pos
  | succ n ih =>
    have hpow : 2 ^ (8 * (n + 1)) = 256 * 2 ^ (8 * n) := by rw [Nat.mul_succ, Nat.pow_add, Nat.mul_comm]
    rw [expandMask]
    split <;> omega

/-- The expanded mask selects the bits of the bytes that the mask selects. -/
theorem expandMask_testBit (mask n j : Nat) : (expandMask mask n).testBit j = (decide (j < 8 * n) && mask.testBit (j / 8)) := by
  induction n with
  | zero => simp [expandMask]
  | succ n ih =>
    have hsplit : expandMask mask (n + 1) = 2 ^ (8 * n) * (if mask.testBit n then 2 ^ 8 - 1 else 0) + expandMask mask n := by
      rw [expandMask]
      split <;> omega
    rw [hsplit, Nat.testBit_two_pow_mul_add _ (expandMask_lt mask n)]
    split
    · next h =>
      rw [ih, decide_eq_true h, decide_eq_true (by omega : j < 8 * (n + 1))]
    · next h =>
      by_cases hj : j < 8 * (n + 1)
      · have hdiv : j / 8 = n := by omega
        rw [decide_eq_true hj, hdiv, Bool.true_and]
        split
        · next hm => rw [Nat.testBit_two_pow_sub_one, hm, decide_eq_true (by omega)]
        · next hm => rw [Nat.zero_testBit, Bool.not_eq_true _ |>.mp hm]
      · rw [decide_eq_false hj, Bool.false_and]
        split
        · rw [Nat.testBit_two_pow_sub_one, decide_eq_false (by omega)]
        · exact Nat.zero_testBit _

theorem mergeBytes_getLsbD (k : ByteMask) (d o : LineData) {j : Nat} (hj : j < 512) :
    (mergeBytes k d o).getLsbD j = if k.getLsbD (j / 8) then d.getLsbD j else o.getLsbD j := by
  have he : (BitVec.ofNat 512 (expandMask k.toNat 64)).getLsbD j = k.getLsbD (j / 8) := by
    rw [BitVec.getLsbD_ofNat, expandMask_testBit, decide_eq_true hj]
    rfl
  simp only [mergeBytes, BitVec.getLsbD_or, BitVec.getLsbD_and, BitVec.getLsbD_not, he, decide_eq_true hj]
  cases k.getLsbD (j / 8) <;> simp

theorem mergeBytes_full (d o : LineData) : mergeBytes fullMask d o = d := by
  refine BitVec.eq_of_getLsbD_eq fun j hj => ?_
  rw [mergeBytes_getLsbD _ _ _ hj, if_pos]
  rw [fullMask, BitVec.getLsbD_allOnes]
  exact decide_eq_true (by omega)

/-- A byte that the mask selects is the new one. -/
theorem lineByte_mergeBytes {k : ByteMask} {i : Nat} (d o : LineData) (hi : i < 64) (hk : k.getLsbD i = true) :
    lineByte (mergeBytes k d o) i = lineByte d i := by
  refine BitVec.eq_of_getLsbD_eq fun b hb => ?_
  have hbyte (x : LineData) : (lineByte x i).getLsbD b = x.getLsbD (8 * i + b) := by
    rw [lineByte, BitVec.getLsbD_ofNat, Nat.testBit_shiftRight, decide_eq_true hb, Bool.true_and]
    rfl
  rw [hbyte, hbyte, mergeBytes_getLsbD _ _ _ (by omega), show (8 * i + b) / 8 = i by omega, hk, if_pos rfl]

/-- A whole line that was written stands in the merging buffer. -/
theorem merged_full {m : Core} {l : LineAddr} {d : LineData} (h : Merged m l d fullMask) :
    ∃ e ∈ m.ca.mb, e.2.line = l ∧ e.2.mask = fullMask ∧ e.2.data = d := by
  obtain ⟨e, he, hl, o, ko, hd, hk⟩ := h
  refine ⟨e, he, hl, hk.trans ?_, hd.trans (mergeBytes_full _ _)⟩
  rw [fullMask, BitVec.or_allOnes]

/-! ### The end of a writeback -/

/-- A writeback's `CMP` stands at its port, and its HTE has ended. -/
theorem wbEnd_state {m : Core} {h p : Nat} {x : Hte} (hx : hte m h = some x) (hd : x.msg.src ≠ nodeId m)
    (hr : routeOf m x.epoch x.msg.src = some p) : m.onlyParts (.trk :: sendParts) (wbEnd m h) ∧ m.onlyRegs journalRegs (wbEnd m h)
      ∧ hte (wbEnd m h) h = some { x with done := true, wait := .none, cont := .idle }
      ∧ hteSends (wbEnd m h) p h (fun g => g.op = .cmp ∧ g.dest = x.msg.src ∧ g.tag = x.msg.tag ∧ g.line = x.msg.line) := by
  obtain ⟨-, -, h3⟩ := send_routed_state (h := h) (e := x.epoch)
    (g := { op := .cmp, dest := x.msg.src, tag := x.msg.tag, htag := BitVec.ofNat 12 h, line := x.msg.line, epoch := x.epoch }) hd hr
  obtain ⟨g1, g2, -, g4⟩ := answered_state m h x.epoch x.msg x.wbFrom
  have hx' : hte (freeWb (wbCmp m h x.epoch x.msg) x.wbFrom) h = some x := (g4 h).trans hx
  have hend := setHte_only (freeWb (wbCmp m h x.epoch x.msg) x.wbFrom) h { x with done := true, wait := .none, cont := .idle }
  rw [wbEnd, hx]
  dsimp only
  rw [endHte_eq hx']
  refine ⟨onlyParts_trans g1 (onlyParts_mono hend (by decide)), onlyRegs_trans g2 (onlyRegs_of_only (as := journalRegs) hend (by decide)),
    hte_setHte_same _ _ _, hteSends_mono (hteSends_of_only (hteSends_grown h3 (freeWb_grown _ _)) hend (by decide)) fun r hr => ?_⟩
  obtain ⟨d, rfl⟩ := hr
  exact ⟨rfl, rfl, rfl, rfl⟩

/-! ### The decision of a writeback (Table COH-5) -/

/-- What a writeback does at its line's entry `k`. -/
def atEntry (m : Core) (h k : Nat) (x : Hte) (e : Env) : Core :=
  let d := dirEnt m k
  match d.st with
  | .x =>
    if x.msg.op = .wbs then wbEnd m h
    else if d.owner.toNat = x.slot.getD 256 then andThen (wbData (setFin m h (some k) {}) h x.msg e.hlc) h .wbDone
    else wbDiscard m h 151
  | .s =>
    if x.msg.op ≠ .wbs then wbDiscard m h 151
    else if x.slot.getD 256 < 256 && d.vec.getLsbD (x.slot.getD 256) then
      let v := d.vec &&& ~~~(vecOf (x.slot.getD 256))
      wbEnd (setFin m h (some k) (if v = 0 then {} else { d with vec := v, epoch := x.epoch })) h
    else wbEnd m h
  | .k => homeWbK m h k x e
  | _ => if x.msg.op = .wbs then wbEnd m h else wbDiscard m h 151

/-- A writeback of a line that the home serves and lists meets its entry. -/
theorem homeWb_listed {m : Core} {h k : Nat} {x : Hte} (hx : hte m h = some x) (he : x.ended = false)
    (hhome : homeOf m x.epoch x.msg.line = some (nodeId m)) (hcap : 64 * llaOf m x.epoch x.msg.line < capacity m)
    (hu : uncoupled m = false) (hret : retired m (dirSet x.msg.line) = false) (hk : dirFind m true x.msg.line = some k) :
    homeWb m h Env.clean = atEntry (tally .dir 1 1 m) h k x Env.clean := by
  have ht := tally_only .dir 1 1 m
  have hdeck : (tally .dir 1 1 m).deck = m.deck := ht .deck (by decide)
  have hmine : (decide (homeOf m x.epoch x.msg.line ≠ some (nodeId m)) || decide (capacity m ≤ 64 * llaOf m x.epoch x.msg.line)) = false := by
    simp [hhome, hcap]
  have hret' : retired (tally .dir 1 1 m) (dirSet x.msg.line) = false := by rw [retired_congr hdeck]; exact hret
  have hfind : dirFind (tally .dir 1 1 m) true x.msg.line = some k := by
    rw [dirFind_congr hdeck (tally_regs .dir 1 1 m _ (by decide))]; exact hk
  unfold homeWb
  rw [hx]
  dsimp only
  rw [he, if_neg Bool.false_ne_true, hmine, if_neg Bool.false_ne_true, hu, if_neg Bool.false_ne_true, lookupRead_clean, hret',
    if_neg Bool.false_ne_true, lookupRecover_clean, hfind]
  rfl

theorem homeWb_owner {m : Core} {h k own : Nat} {x : Hte} (hop : x.msg.op ≠ .wbs) (hslot : x.slot = some own)
    (hst : (dirEnt m k).st = .x) (hown : (dirEnt m k).owner.toNat = own) :
    atEntry m h k x Env.clean = andThen (wbData (setFin m h (some k) {}) h x.msg .clean) h .wbDone := by
  unfold atEntry
  dsimp only
  rw [hst, hslot, hown]
  simp only [hop, if_false, Option.getD_some, if_true]
  rfl

theorem homeWb_sharer {m : Core} {h k own : Nat} {x : Hte} (hop : x.msg.op = .wbs) (hslot : x.slot = some own) (ho : own < 256)
    (hst : (dirEnt m k).st = .s) (hbit : (dirEnt m k).vec.getLsbD own = true) :
    atEntry m h k x Env.clean = wbEnd (setFin m h (some k) (if (dirEnt m k).vec &&& ~~~(vecOf own) = 0 then {}
      else { dirEnt m k with vec := (dirEnt m k).vec &&& ~~~(vecOf own), epoch := x.epoch })) h := by
  unfold atEntry
  dsimp only
  rw [hst, hslot]
  simp only [hop, ne_eq, not_true_eq_false, if_false, Option.getD_some, hbit, ho, decide_true, Bool.true_and, if_true]

/-! ### An owner's writeback -/

/-- The HTE of an owner's writeback, whose data is on its way. -/
def writingBack (x : Hte) (k : Nat) : Hte := { x with wait := .none, key := some k, fin := some {}, cont := .wbDone }

/-- The data of a `WBD` enters the merging buffer; a `WBE` writes none. -/
theorem wbData_state {m : Core} {h : Nat} {g : Msg} (hw : m.ca.mbWait = []) (hf : tfree m.ca.mb 0 < 128) :
    m.onlyParts (.ca :: Part.report) (wbData m h g .clean) ∧ m.onlyRegs reportRegs (wbData m h g .clean)
      ∧ (g.op = .wbd → ∃ e ∈ (wbData m h g .clean).ca.mb, e.2.line = g.line ∧ e.2.mask = fullMask ∧ e.2.data = g.data)
      ∧ (g.op ≠ .wbd → wbData m h g .clean = m) := by
  unfold wbData
  split
  · next hop =>
    obtain ⟨h1, h2, h3⟩ := memWriteAs_entered (req := false) (h := h) (l := g.line) (d := g.data) (k := fullMask)
      (p := wbPoison m g) hw hf
    exact ⟨h1, h2, fun _ => merged_full h3, fun hne => absurd hop hne⟩
  · next hop => exact ⟨onlyParts_refl _ _, onlyRegs_refl _ _, fun he => absurd he hop, fun _ => rfl⟩

/-- The continuation of an owner's writeback: it is answered, and ends. -/
theorem go_wbDone {m : Core} {h p : Nat} {x : Hte} {e : Env} (hx : hte m h = some x) (ha : x.awaits = []) (hw : x.wait = .none)
    (hd : x.done = false) (hc : x.cont = .wbDone) (hk : x.kind = .active) (hs : x.msg.src ≠ nodeId m)
    (hr : routeOf m x.epoch x.msg.src = some p) :
    (∃ cs, hte (go m h e) h = some { x with done := true, wait := .none, cont := .idle, cmps := cs })
      ∧ m.onlyParts (.trk :: sendParts) (go m h e) ∧ m.onlyRegs journalRegs (go m h e)
      ∧ hteSends (go m h e) p h (fun g => g.op = .cmp ∧ g.dest = x.msg.src ∧ g.tag = x.msg.tag ∧ g.line = x.msg.line) := by
  obtain ⟨n, cs, hmn, hxn, hgo⟩ := go_once_served e hx ha hw hd (by simp [hc]) hk
  have hrun : runCont n h { x with cmps := cs } e = wbEnd n h := by
    unfold runCont
    simp only [hc]
  obtain ⟨h1, h2, h3, h4⟩ := wbEnd_state (p := p) hxn (by rw [nodeId_congr hmn.regs (by decide)]; exact hs)
    ((grown_routes (hmn.parts .cfg (by decide)) hmn.queues _ _).trans hr)
  rw [hrun] at hgo
  have hlast := hgo _ h3 (Or.inr (Or.inr (Or.inl rfl))) hk
  obtain ⟨cs', hcs'⟩ := hlast.own _ h3
  exact ⟨⟨cs', hcs'⟩, onlyParts_trans hmn.parts (onlyParts_trans h1 hlast.parts),
    onlyRegs_trans hmn.regs (onlyRegs_trans h2 hlast.regs), hteSends_grown h4 hlast.queues⟩

/-- What a command of the home function's writebacks does. -/
theorem exec_homeWb {s : State} {h : HteIx} {x : Hte} {op : Op} {c : Instr} (hr : running s.m = true) (hx : hte s.m h.val = some x)
    (hk : x.kind = .active) (hw : x.wait = .decision) (hj : x.job = .external) (hop : x.msg.op = op)
    (hs : homeServes s.m x.epoch x.msg.line x.slot = true)
    (hc : (c, op) ∈ ([(.wbd (.hte h) Env.clean, .wbd), (.wbe (.hte h) Env.clean, .wbe), (.wbs (.hte h) Env.clean, .wbs)] : List (Instr × Op))) :
    exec c s = .next { s with m := go (homeWb (setHte s.m h.val (deciding x)) h.val Env.clean) h.val Env.clean } := by
  have hdec (o : Op) (ho : o = op) (hcls : clsOf o = .wbk) : decideIf (homeReq o) h.val Env.clean s.m
      = go (homeWb (setHte s.m h.val (deciding x)) h.val Env.clean) h.val Env.clean := by
    subst ho
    refine (decideIf_eq Env.clean hx hk hw ?_).trans (decideHte_homeWb Env.clean hx hj hs (by rw [hop]; exact hcls))
    unfold homeReq
    rw [hj, hop, hs]
    simp
  simp only [List.mem_cons, List.not_mem_nil, or_false, Prod.mk.injEq] at hc
  rcases hc with ⟨rfl, h2⟩ | ⟨rfl, h2⟩ | ⟨rfl, h2⟩
  · exact clocked_next (f := homeWbk .wbd (.hte h) Env.clean) hr (hdec _ h2.symm rfl)
  · exact clocked_next (f := homeWbk .wbe (.hte h) Env.clean) hr (hdec _ h2.symm rfl)
  · exact clocked_next (f := homeWbk .wbs (.hte h) Env.clean) hr (hdec _ h2.symm rfl)

/-! ### A writeback decided at once -/

theorem homeWbk_atOnce {m : Core} {a : Arrival} {rest : List Arrival} {op : Op} {e : Env} (hrole : role m = 0) (hop : a.msg.op = op)
    (ha : m.trk.atOnce = a :: rest) :
    homeWbk op .atOnce e m = homeWbAtOnce { m with trk := { m.trk with atOnce := rest } } a e := by
  have hserves : homeServes m (epochFor m a.msg.epoch) a.msg.line (arrSlot m a) = true := by
    unfold homeServes
    rw [hrole]
    rfl
  have htake : takeAtOnce m (fun a => decide (a.msg.op = op) && homeServes m (epochFor m a.msg.epoch) a.msg.line (arrSlot m a))
      = some (a, { m with trk := { m.trk with atOnce := rest } }) := by
    rw [takeAtOnce, ha, takeFirst, if_pos (by rw [hserves, hop]; simp)]
  unfold homeWbk
  dsimp only
  rw [htake]

/-- A writeback whose holder has snooped its sender is kept until the reply (R167, R189). -/
theorem homeWbAtOnce_kept {m : Core} {a : Arrival} {g : Nat} {x : Hte} {e : Env} (ht : wbTaker m a.msg.line a.msg.src = some (g, x))
    (hx : hte m g = some x) (hf : x.awaits.contains (.wb ((anySlotOf m x.epoch a.msg.src).getD 256) false) = false)
    (hs : x.awaits.contains (.wb ((anySlotOf m x.epoch a.msg.src).getD 256) true) = false) :
    homeWbAtOnce m a e = setHte m g { x with held := x.held ++ [a] } := by
  unfold homeWbAtOnce
  dsimp only
  rw [ht]
  dsimp only
  rw [hf, hs, modHte_eq hx]
  exact if_neg Bool.false_ne_true

/-! ### The statement -/

/-- Settles O42: an owner's writeback writes its data and is answered, a sharer's leaves the vector; one that its line's
holder awaits is kept. -/
theorem writebacksAreServed : Obligations.WritebacksAreServed := by
  refine ⟨fun s h x op c k own p d hr hx hk hw hj hop hslot haw he hdone hserves hhome hcap hu hret hent ho hst hmw hmb hd hroute hc => ?_,
    fun s a rest g x op c hr hrole hop ha ht hx hf hs hc => ?_⟩
  · obtain ⟨hfind, rfl⟩ := hent
    have hdec : deciding x = { x with wait := .none } := rfl
    have h0 := setHte_only s.m h.val (deciding x)
    have hy : hte (setHte s.m h.val (deciding x)) h.val = some (deciding x) := hte_setHte_same _ _ _
    have hlisted := homeWb_listed (m := setHte s.m h.val (deciding x)) (k := k) hy he hhome hcap hu hret hfind
    have hstep := exec_homeWb hr hx hk hw hj hop hserves hc
    rw [hlisted] at hstep
    have ht := tally_only .dir 1 1 (setHte s.m h.val (deciding x))
    have hpre : s.m.onlyParts (.trk :: Part.report) (tally .dir 1 1 (setHte s.m h.val (deciding x))) :=
      onlyParts_trans (onlyParts_mono h0 (by decide)) (onlyParts_mono ht (by decide))
    have hregs : s.m.onlyRegs reportRegs (tally .dir 1 1 (setHte s.m h.val (deciding x))) :=
      onlyRegs_trans (onlyRegs_of_only (as := reportRegs) h0 (by decide)) (tally_regs _ _ _ _)
    have hent : dirEnt (tally .dir 1 1 (setHte s.m h.val (deciding x))) k = dirEnt s.m k := dirEnt_congr (hpre .deck (by decide)) k
    have hyt : hte (tally .dir 1 1 (setHte s.m h.val (deciding x))) h.val = some (deciding x) := (hte_of_only ht (by decide) _).trans hy
    generalize tally .dir 1 1 (setHte s.m h.val (deciding x)) = m at hpre hregs hent hyt hstep
    have hsrc : x.msg.src ≠ nodeId m := by rw [nodeId_congr hregs (by decide)]; exact hd
    have hrt : routeOf m x.epoch x.msg.src = some p := by
      rw [routeOf_congr (hpre .cfg (by decide)) (hpre .ports (by decide))]; exact hroute
    have hca : m.ca = s.m.ca := hpre .ca (by decide)
    by_cases hwbs : op = .wbs
    · subst hwbs
      rw [if_pos rfl] at hst
      obtain ⟨hst, hbit⟩ := hst
      have hat := homeWb_sharer (m := m) (h := h.val) (k := k) (x := deciding x) hop hslot ho (by rw [hent]; exact hst)
        (by rw [hent]; exact hbit)
      rw [hat, hent, setFin_eq hyt] at hstep
      obtain ⟨h1, h2, h3, h4⟩ := wbEnd_state (m := setHte m h.val { deciding x with
          key := some k, fin := some (if (dirEnt s.m k).vec &&& ~~~(vecOf own) = 0 then {}
            else { dirEnt s.m k with vec := (dirEnt s.m k).vec &&& ~~~(vecOf own), epoch := (deciding x).epoch }) })
        (p := p) (hte_setHte_same _ _ _) hsrc hrt
      have hset := setHte_only m h.val { deciding x with
          key := some k, fin := some (if (dirEnt s.m k).vec &&& ~~~(vecOf own) = 0 then {}
            else { dirEnt s.m k with vec := (dirEnt s.m k).vec &&& ~~~(vecOf own), epoch := (deciding x).epoch }) }
      have hall := onlyParts_trans (onlyParts_mono (onlyParts_trans hpre (onlyParts_mono hset (by decide)))
        (by decide : ∀ p ∈ Part.trk :: Part.report, p ∈ Part.trk :: sendParts)) h1
      generalize wbEnd (setHte m h.val _) h.val = n at hstep h3 h4 hall
      have hlast := go_halted_served Env.clean h3 (Or.inr (Or.inr (Or.inl rfl))) hk
      obtain ⟨cs, hcs⟩ := hlast.own _ h3
      have hend := onlyParts_trans hall hlast.parts
      have hsend := hteSends_grown h4 hlast.queues
      generalize go n h.val Env.clean = o at hstep hcs hend hsend
      refine ⟨_, _, hstep, hcs, rfl, haw, rfl, ?_, hsend, fun hb => absurd hb (by decide), fun _ => hend .ca (by decide), only_next (onlyParts_mono hend (by decide))⟩
      by_cases hv : (dirEnt s.m k).vec &&& ~~~(vecOf own) = 0
      · exact (congrArg some (if_pos hv)).trans (if_neg fun hn => hn.2 hv).symm
      · exact (congrArg some (if_neg hv)).trans (if_pos ⟨rfl, hv⟩).symm
    · rw [if_neg hwbs] at hst
      obtain ⟨hst, hown⟩ := hst
      have hat := homeWb_owner (m := m) (h := h.val) (k := k) (x := deciding x) (by show x.msg.op ≠ .wbs; rw [hop]; exact hwbs) hslot
        (by rw [hent]; exact hst) (by rw [hent]; exact hown)
      rw [hat, setFin_eq hyt] at hstep
      have hset := setHte_only m h.val { deciding x with key := some k, fin := some {} }
      have hxs : hte (setHte m h.val { deciding x with key := some k, fin := some {} }) h.val
        = some { deciding x with key := some k, fin := some {} } := hte_setHte_same _ _ _
      have hpre' := onlyParts_trans hpre (onlyParts_mono hset (by decide))
      have hregs' := onlyRegs_trans hregs (onlyRegs_of_only (as := reportRegs) hset (by decide))
      generalize setHte m h.val { deciding x with key := some k, fin := some {} } = n at hstep hxs hpre' hregs'
      have hcan : n.ca = s.m.ca := hpre' .ca (by decide)
      obtain ⟨w1, w2, w3, w4⟩ := wbData_state (m := n) (h := h.val) (g := x.msg) (by rw [hcan]; exact hmw) (by rw [hcan]; exact hmb)
      have hxw : hte (wbData n h.val x.msg .clean) h.val = some { deciding x with key := some k, fin := some {} } :=
        (hte_of_only w1 (by decide) _).trans hxs
      have hcaw : op ≠ .wbd → (wbData n h.val x.msg .clean).ca = s.m.ca := fun hne => by rw [w4 (by rw [hop]; exact hne), hcan]
      have hparts : s.m.onlyParts (.ca :: .trk :: Part.report) (wbData n h.val x.msg .clean) :=
        onlyParts_trans (onlyParts_mono hpre' (by decide)) (onlyParts_mono w1 (by decide))
      have hregsw := onlyRegs_trans hregs' w2
      change exec c s = .next { s with m := go (andThen (wbData n h.val x.msg .clean) h.val .wbDone) h.val Env.clean } at hstep
      generalize wbData n h.val x.msg .clean = o at hstep w3 hxw hcaw hparts hregsw
      rw [andThen_eq hxw] at hstep
      have hseto := setHte_only o h.val (writingBack x k)
      obtain ⟨⟨cs, g1⟩, g2, -, g4⟩ := go_wbDone (m := setHte o h.val (writingBack x k)) (x := writingBack x k) (p := p)
        (e := Env.clean) (hte_setHte_same _ _ _) haw rfl hdone rfl hk
        (by rw [nodeId_congr (onlyRegs_trans hregsw (onlyRegs_of_only (as := reportRegs) hseto (by decide))) (by decide)]; exact hd)
        (by
          have hro := onlyParts_trans hparts (onlyParts_mono hseto (by decide))
          rw [routeOf_congr (hro .cfg (by decide)) (hro .ports (by decide))]
          exact hroute)
      have hend : o.onlyParts (.trk :: sendParts) (go (setHte o h.val (writingBack x k)) h.val Env.clean) :=
        onlyParts_trans (onlyParts_mono hseto (by decide)) g2
      change exec c s = .next { s with m := go (setHte o h.val (writingBack x k)) h.val Env.clean } at hstep
      generalize go (setHte o h.val (writingBack x k)) h.val Env.clean = t at hstep g1 g4 hend
      have hcat : t.ca = o.ca := hend .ca (by decide)
      refine ⟨_, _, hstep, g1, rfl, haw, rfl, (if_neg fun hn => hwbs hn.1).symm, g4, fun hb => ?_, fun hb => hcat.trans (hcaw hb),
        only_next (onlyParts_trans (onlyParts_mono hparts (by decide)) (onlyParts_mono hend (by decide)))⟩
      show ∃ e ∈ t.ca.mb, _
      rw [hcat]
      exact w3 (by rw [hop]; exact hb)
  · have hkept := homeWbAtOnce_kept (m := { s.m with trk := { s.m.trk with atOnce := rest } }) (e := Env.clean) ht hx hf hs
    have hrun : homeWbk op .atOnce Env.clean s.m = _ := (homeWbk_atOnce hrole hop ha).trans hkept
    have hparts : s.m.onlyParts [.trk] (setHte { s.m with trk := { s.m.trk with atOnce := rest } } g { x with held := x.held ++ [a] }) :=
      onlyParts_trk s.m _ (by decide)
    have hstep : exec c s = .next { s with m := setHte { s.m with trk := { s.m.trk with atOnce := rest } } g { x with held := x.held ++ [a] } } := by
      simp only [List.mem_cons, List.not_mem_nil, or_false, Prod.mk.injEq] at hc
      rcases hc with ⟨rfl, rfl⟩ | ⟨rfl, rfl⟩
      · exact clocked_next (f := homeWbk .wbd .atOnce Env.clean) hr hrun
      · exact clocked_next (f := homeWbk .wbe .atOnce Env.clean) hr hrun
    exact ⟨_, hstep, rfl, hte_setHte_same _ _ _, only_next hparts⟩

end Sys2Proof.Writebacks
end

section
/-! PROOFS. Coherence replies at the home (Machine/Flow.lean, R108, R113, R150, R161, R188, R189, R207), with the statement
about them. -/

namespace Sys2Proof.Replies

open Sys2Proof.Machine Sys2Proof.Laws Sys2Proof.Windows Sys2Proof.Sending Sys2Proof.Engine Sys2Proof.Flits Sys2Proof.Channels
  Sys2Proof.Transactions Sys2Proof.Units Sys2Proof.Lookups Sys2Proof.Merging Sys2Proof.TrackerRuns Sys2Proof.GoingOn
  Sys2Proof.Writebacks

/-! ### Writes whose HLC lookup meets a fault (R405 to R408) -/

/-- What a lookup with a fault can change. -/
structure LookedUp (m n : Core) : Prop where
  parts : m.onlyParts (.ca :: .deck :: Part.report) n
  regs : m.onlyRegs (0x1414 :: reportRegs) n
  buffer : MbKept m n

theorem lookedUp_refl (m : Core) : LookedUp m m := ⟨onlyParts_refl _ _, onlyRegs_refl _ _, rfl, rfl⟩

theorem lookedUp_trans {m n o : Core} (a : LookedUp m n) (b : LookedUp n o) : LookedUp m o :=
  ⟨onlyParts_trans a.parts b.parts, onlyRegs_trans a.regs b.regs, mbKept_trans a.buffer b.buffer⟩

theorem lookedUp_modCa {m : Core} {f : Caches → Caches} (h : (f m.ca).mb = m.ca.mb ∧ (f m.ca).mbWait = m.ca.mbWait) :
    LookedUp m (modCa m f) :=
  ⟨onlyParts_mono (modCa_only m f) (by decide), onlyRegs_of_only (as := 0x1414 :: reportRegs) (modCa_only m f) (by decide), h⟩

theorem lookedUp_raise (m : Core) (k : Nat) : LookedUp m (raise m k) := by
  have hr := raise_only m k
  have hca : (raise m k).ca = m.ca := hr .ca (by decide)
  exact ⟨onlyParts_mono hr (by decide), onlyRegs_mono (raise_regs m k) (by decide), by rw [hca], by rw [hca]⟩

theorem lookedUp_rinc (m : Core) : LookedUp m (rinc m 0x1414 1) :=
  ⟨onlyParts_rset _ _ _ (by decide), onlyRegs_rset _ _ _ (by decide), rfl, rfl⟩

theorem lookedUp_hlcDrop (m : Core) (k : Nat) : LookedUp m (hlcDrop m k) := lookedUp_modCa ⟨rfl, rfl⟩

theorem lookedUp_hlcError (m : Core) : LookedUp m (hlcError m) := lookedUp_trans (lookedUp_rinc m) (lookedUp_raise _ _)

theorem lookedUp_deck {m : Core} (d : Deck) : LookedUp m { m with deck := d } :=
  ⟨onlyParts_deck m d (by decide), onlyRegs_of_eq rfl, rfl, rfl⟩

theorem lookedUp_bucketAdd (m : Core) (b : Nat) : LookedUp m (bucketAdd m b) := by
  unfold bucketAdd
  dsimp only
  split
  · exact lookedUp_trans (lookedUp_trans (lookedUp_deck _) (lookedUp_deck _)) (lookedUp_raise _ _)
  · exact lookedUp_deck _

theorem hlcLookup_state (m : Core) (l : LineAddr) (f : HlcFault) : LookedUp m (hlcLookup m l f).2 := by
  have hpre : LookedUp m (match f with
      | .pointerParity => rinc (modCa m fun c => { c with hptr := tdel c.hptr (hlcSetIx l) }) 0x1414 1
      | .tagParity w => hlcError (hlcDrop m (16 * hlcSetIx l + w.val))
      | _ => m) := by
    split
    · exact lookedUp_trans (lookedUp_modCa ⟨rfl, rfl⟩) (lookedUp_rinc _)
    · exact lookedUp_trans (lookedUp_hlcDrop _ _) (lookedUp_hlcError _)
    · exact lookedUp_refl _
  unfold hlcLookup
  split
  · exact lookedUp_refl _
  · dsimp only
    split
    · exact hpre
    · split
      · exact lookedUp_trans hpre (lookedUp_trans (lookedUp_hlcDrop _ _) (lookedUp_hlcError _))
      · exact lookedUp_trans hpre (lookedUp_trans (lookedUp_modCa ⟨rfl, rfl⟩) (lookedUp_bucketAdd _ _))
      · exact hpre

theorem mbTouch_state (m : Core) (l : LineAddr) (d : LineData) (k : ByteMask) (p : Bool) (f : HlcFault) :
    LookedUp m (mbTouch m l d k p f) := by
  have hend (n : Core) : LookedUp n (markStale (sidingInval n l) l) :=
    lookedUp_trans (n := sidingInval n l) (lookedUp_modCa ⟨rfl, rfl⟩) (lookedUp_modCa ⟨rfl, rfl⟩)
  have hlook := hlcLookup_state m l f
  unfold mbTouch
  dsimp only
  split
  · next n h =>
    rw [h] at hlook
    exact lookedUp_trans hlook (hend _)
  · next c n h =>
    rw [h] at hlook
    split
    · exact lookedUp_trans hlook (hend _)
    · split
      · exact lookedUp_trans hlook (lookedUp_trans (lookedUp_hlcDrop _ _) (hend _))
      · exact lookedUp_trans hlook (lookedUp_trans (lookedUp_modCa ⟨rfl, rfl⟩) (hend _))

/-- A write that finds the buffer with room enters it, whatever its lookup meets. -/
theorem memWrite_entered {m : Core} {h : Nat} {l : LineAddr} {d : LineData} {k : ByteMask} {p : Bool} (f : HlcFault)
    (hw : m.ca.mbWait = []) (hf : tfree m.ca.mb 0 < 128) :
    m.onlyParts (.ca :: .deck :: Part.report) (memWrite m h l d k p f) ∧ m.onlyRegs (0x1414 :: reportRegs) (memWrite m h l d k p f)
      ∧ Merged (memWrite m h l d k p f) l d k := by
  have hpre : LookedUp m (mbTouch (nextOrder m) l d k p f) :=
    lookedUp_trans (lookedUp_modCa ⟨rfl, rfl⟩) (mbTouch_state (nextOrder m) l d k p f)
  have hput (ord : Nat) (ep : Bool) : ∃ n, mbPut (mbTouch (nextOrder m) l d k p f) l d k p ord ep = some n := by
    have hfree : ¬ 128 ≤ tfree (mbTouch (nextOrder m) l d k p f).ca.mb 0 := by
      rw [hpre.buffer.1]
      exact Nat.not_le.2 hf
    unfold mbPut
    split
    · exact ⟨_, rfl⟩
    · exact ⟨_, if_neg hfree⟩
  obtain ⟨n, hn⟩ := hput m.ca.mbSeq (((hte m h).map (·.epoch)).getD m.cfg.epoch)
  have heq : memWrite m h l d k p f = n := by
    have hwait : (nextOrder m).ca.mbWait = [] := hw
    unfold memWrite memWriteAs
    dsimp only
    rw [hwait, hn]
    simp
  obtain ⟨g1, g2, -, g4⟩ := mbPut_state hn
  rw [heq]
  exact ⟨onlyParts_trans hpre.parts (onlyParts_mono g1 (by decide)), onlyRegs_trans hpre.regs (onlyRegs_mono g2 (by decide)), g4⟩

/-! ### A reply finds its transaction (R150, R161) -/

/-- The inbox is empty. -/
def emptied (m : Core) : Core := { m with inbox := [] }

theorem emptied_only (m : Core) : m.onlyParts [.inbox] (emptied m) := onlyParts_inbox m _ (by decide)

/-- Taking a reply frees no slots. -/
theorem released_reply (m : Core) (i : InMsg) (hc : clsOf i.msg.op = .rsp ∨ clsOf i.msg.op = .dat) : released m i = emptied m := by
  unfold released
  dsimp only
  exact if_pos (by rcases hc with hc | hc <;> simp [hc])

theorem takeCoh_single {m : Core} {i : InMsg} {op : Op} (e : Env) (hi : m.inbox = [i]) (ho : i.msg.op = op)
    (hc : clsOf op = .rsp ∨ clsOf op = .dat) : takeCoh op e m = cohReply (emptied m) i.msg e := by
  subst ho
  rw [takeCoh, takeInbox_single hi (decide_eq_true rfl), released_reply m i hc]

theorem takeAnswer_single {m : Core} {i : InMsg} {op : Op} (e : Env) (hi : m.inbox = [i]) (ho : i.msg.op = op)
    (hc : clsOf op = .rsp) (hm : mgtAnswer (emptied m) i.msg = none) (hd : dumpAnswer (emptied m) i.msg = none) :
    takeAnswer op e m = cohReply (emptied m) i.msg e := by
  subst ho
  rw [takeAnswer, takeInbox_single hi (decide_eq_true rfl), released_reply m i (.inl hc)]
  dsimp only
  rw [hm, hd]
  rfl

/-- A reply without a junction function goes to the HTE that its home tag names. -/
theorem cohReply_other {m : Core} {h : Nat} {x : Hte} {g : Msg} (e : Env) (hj : isJunction m = false) (ht : g.htag.toNat = h)
    (hx : hte m h = some x) (hk : x.kind = .active) (hu : upHome x = none) :
    cohReply m g e = cohReply.cohOther e m h x g := by
  have hr : replyHte m g = h := by
    rw [replyHte, hj, ht]
    rfl
  unfold cohReply
  dsimp only
  rw [hr, hx]
  dsimp only
  rw [hk, hu]
  rfl

/-- A reply to a snoop counts for what awaits it. -/
theorem cohOther_awaited {m : Core} {h : Nat} {x : Hte} {a : Await} {g : Msg} (e : Env) (hk : x.kind = .active)
    (hs : (anySlotOf m x.epoch g.src).bind (awaitOf x) = some a) (he : g.epoch = x.epoch) (hl : legalReply a g = true)
    (hop : g.op ≠ .cmp) :
    cohReply.cohOther e m h x g = takeReply m h ((anySlotOf m x.epoch g.src).getD 256) a g e := by
  unfold cohReply.cohOther
  dsimp only
  rw [if_neg (by simp [he]), if_neg (by simp [hop]), if_neg (by simp [hk]), hs]
  dsimp only
  rw [hl, if_pos rfl]

/-! ### What a reply does -/

section
variable {m : Core} {h sl : Nat} {x : Hte} {a : Await} {g : Msg} {e : Env}

theorem takeReply_counted (hx : hte m h = some x) (hj : isJct m x = false) (ho : g.op = .ria ∨ g.op = .rsa) :
    takeReply m h sl a g e = go (setHte m h { x with awaits := x.awaits.erase a }) h e := by
  have hj' : isJct (setHte m h { x with awaits := x.awaits.erase a }) x = false :=
    (isJct_congr (as := []) rfl (onlyRegs_of_eq rfl) (by decide) (by decide) (by decide) x).trans hj
  unfold takeReply
  rw [hx]
  dsimp only
  rw [unawait_eq hx]
  rcases ho with ho | ho
  · rw [ho]
    dsimp only
    split
    · rfl
    · rfl
    · rw [hj', Bool.false_and, if_neg Bool.false_ne_true]
  · rw [ho]
    dsimp only
    rw [hj', Bool.false_and, if_neg Bool.false_ne_true]

/-- What is found in a table beside an entry is found after that entry changes. -/
theorem find?_tset {α : Type} {p : Nat × α → Bool} (t : Tab α) {k : Nat} {v w : α} (hw : tfind t k = some w) (hv : p (k, v) = false)
    (hp : p (k, w) = false) : (tset t k v).find? p = t.find? p := by
  induction t with
  | nil => cases hw
  | cons y r ih =>
    obtain ⟨k', v'⟩ := y
    unfold tset
    split
    · rw [List.find?_cons, hv]
    · split
      · next he =>
        subst he
        rw [tfind, if_pos rfl] at hw
        injection hw with hw
        rw [List.find?_cons, List.find?_cons, hv, hw, hp]
      · next hne =>
        rw [tfind, if_neg (Ne.symm hne)] at hw
        rw [List.find?_cons, List.find?_cons, ih hw]

/-- Whether a writeback waits for an HTE depends of the HTE itself on its epoch and on what it keeps. -/
theorem takeWbOf_setHte {y : Hte} {l : LineAddr} (hx : hte m h = some x) (hk : x.kind = .active) (hy : y.kind = .active)
    (he : y.epoch = x.epoch) (hh : y.held = x.held) (hn : takeWbOf m h sl l = none) : takeWbOf (setHte m h y) h sl l = none := by
  unfold takeWbOf at hn ⊢
  rw [hx] at hn
  rw [hte_setHte_same]
  dsimp only at hn ⊢
  rw [he, hh]
  have hslot (d : NodeId) : anySlotOf (setHte m h y) x.epoch d = anySlotOf m x.epoch d := anySlotOf_congr rfl _ _
  simp only [hslot]
  cases htake : takeFirst (fun b : Arrival => decide (anySlotOf m x.epoch b.msg.src = some sl) && decide (b.msg.line = l)) x.held with
  | some b =>
    rw [htake] at hn
    cases hn
  | none =>
    rw [htake] at hn
    dsimp only at hn ⊢
    have hfind : (setHte m h y).trk.htes.find? (fun y => decide (y.2.kind = .queued) && decide (y.2.msg.line = l) && !y.2.ended
        && decide (y.2.slot = some sl) && (decide (y.2.msg.op = .wbd) || decide (y.2.msg.op = .wbe)))
        = m.trk.htes.find? (fun y => decide (y.2.kind = .queued) && decide (y.2.msg.line = l) && !y.2.ended
        && decide (y.2.slot = some sl) && (decide (y.2.msg.op = .wbd) || decide (y.2.msg.op = .wbe))) :=
      find?_tset _ hx (by simp [hy]) (by simp [hk])
    rw [hfind]
    split at hn
    · rfl
    · cases hn

theorem takeWbOf_congr {n : Core} {l : LineAddr} (hc : n.cfg = m.cfg) (ht : n.trk.htes = m.trk.htes) (hn : takeWbOf m h sl l = none) :
    takeWbOf n h sl l = none := by
  have hslot (e : Bool) (d : NodeId) : anySlotOf n e d = anySlotOf m e d := anySlotOf_congr hc _ _
  unfold takeWbOf at hn ⊢
  rw [hte_congr ht]
  cases hx : hte m h with
  | none => rfl
  | some x =>
    rw [hx] at hn
    dsimp only at hn ⊢
    simp only [hslot]
    cases htake : takeFirst (fun b : Arrival => decide (anySlotOf m x.epoch b.msg.src = some sl) && decide (b.msg.line = l)) x.held with
    | some b =>
      rw [htake] at hn
      cases hn
    | none =>
      rw [htake] at hn
      dsimp only at hn ⊢
      rw [ht]
      split at hn
      · rfl
      · cases hn

/-- Whether an awaited reply is that of a surrender. -/
def ofSurrender (a : Await) : Bool := match a with
  | .ssu _ => true
  | _ => false

theorem takeReply_rwp (hx : hte m h = some x) (hk : x.kind = .active) (ho : g.op = .rwp) (hj : x.job ≠ .snoop) (hr : x.recov = none)
    (hn : takeWbOf m h sl (awaitLine x) = none) :
    takeReply m h sl a g e = setHte m h { x with awaits := x.awaits.erase a ++ [.wb sl (ofSurrender a)] } := by
  have hx1 : hte (setHte m h { x with awaits := x.awaits.erase a }) h = some { x with awaits := x.awaits.erase a } :=
    hte_setHte_same _ _ _
  have hown : ownRecovery { x with awaits := x.awaits.erase a } sl = none := by
    rw [ownRecovery, hr]
    rfl
  have hline : awaitLine { x with awaits := x.awaits.erase a } = awaitLine x := rfl
  have hnone : takeWbOf (setHte m h { x with awaits := x.awaits.erase a ++ [.wb sl (ofSurrender a)] }) h sl (awaitLine x) = none :=
    takeWbOf_setHte hx hk hk rfl rfl hn
  unfold takeReply
  rw [hx]
  dsimp only
  rw [unawait_eq hx, ho]
  dsimp only
  unfold onRwp
  rw [hx1]
  dsimp only
  rw [if_neg (by simp [hj]), hown]
  dsimp only
  rw [modHte_eq hx1, setHte_setHte, hline]
  exact (congrArg (fun o : Option (Arrival × Core) => match o with
    | none => setHte m h { x with awaits := x.awaits.erase a ++ [Await.wb sl (ofSurrender a)] }
    | some (b, m) => pairWb m h sl b e) hnone :)

/-- A stash whose target `sl` has accepted. -/
def accepted (x : Hte) (sl : Nat) : Hte :=
  { x with awaits := x.awaits.erase (.acc sl), fin := some { entOf x.msg.line x.epoch .x with owner := BitVec.ofNat 8 sl } }

theorem takeReply_acc (hx : hte m h = some x) (ho : g.op = .acc) :
    takeReply m h sl (.acc sl) g e = go (setHte m h (accepted x sl)) h e := by
  unfold takeReply
  rw [hx]
  dsimp only
  rw [unawait_eq hx, ho]
  dsimp only
  rw [setFin_eq (hte_setHte_same _ _ _), setHte_setHte]
  rfl

/-- A stash whose target has declined. -/
def declined (x : Hte) (a : Await) : Hte := { x with awaits := x.awaits.erase a, cont := .declined }

theorem takeReply_dec (hx : hte m h = some x) (ho : g.op = .dec) :
    takeReply m h sl a g e = go (setHte m h (declined x a)) h e := by
  unfold takeReply
  rw [hx]
  dsimp only
  rw [unawait_eq hx, ho]
  dsimp only
  rw [modHte_eq (hte_setHte_same _ _ _), setHte_setHte]
  rfl

theorem takeReply_dhm {o : Nat} (hx : hte m h = some x) (hj : isJct m x = false) (ho : g.op = .dhm) (ha : a = .owner o .sfs)
    (hjob : x.job = .external) (hop : x.msg.op = .rds) (hr : x.recov = none) (hv : x.vline = none) :
    takeReply m h sl a g e = go (memWrite (setHte m h { x with awaits := x.awaits.erase a }) h x.msg.line g.data fullMask g.poison e.hlc) h e := by
  have hj' : isJct (setHte m h { x with awaits := x.awaits.erase a }) x = false :=
    (isJct_congr (as := []) rfl (onlyRegs_of_eq rfl) (by decide) (by decide) (by decide) x).trans hj
  have hdhm (n : Core) (f : HlcFault) : homeDhm n h x a g f = memWrite n h x.msg.line g.data fullMask g.poison f := by
    unfold homeDhm
    rw [hr, hv, hjob, hop, ha]
  unfold takeReply
  rw [hx]
  dsimp only
  rw [unawait_eq hx, ho]
  dsimp only
  rw [hj', Bool.false_and, if_neg Bool.false_ne_true, hdhm]

end

/-! ### The end of a request that its target has answered -/

theorem runCont_answer_wst {n : Core} {h : Nat} {x : Hte} (e : Env) (hx : hte n h = some x) (hop : x.msg.op = .wst) (hc : x.cont = .answer) :
    runCont n h x e = sendEnd n h x (toReq x h .cmp) := by
  unfold runCont
  rw [hc]
  dsimp only
  rw [homeAnswer, hx]
  dsimp only
  rw [hop]

/-- Once its continuations have run, an HTE that has no writeback to answer stays as it is. -/
theorem go_stopped {m r : Core} {h : Nat} {y : Hte} {e : Env} (hr : advance e 8 (flushCmps m h) h = r) (hy : hte r h = some y)
    (hc : y.cmps = []) (hk : y.kind = .active) : SameHtes r (go m h e) := by
  have h1 := flushCmps_none hy hc
  have hgo : go m h e = flushCmps r h := by
    rw [go, goHolder, hr, (sameHtes_hte h1 h).trans hy]
    exact if_neg (by simp [hk])
  exact hgo ▸ h1

/-- A stash whose target has answered. -/
def answering (x : Hte) : Hte := { x with wait := .none, cont := .answer }

/-- A declined push: its data goes to memory, and its request is answered. -/
theorem go_declined {m : Core} {h p : Nat} {x : Hte} {e : Env} (hx : hte m h = some x) (ha : x.awaits = []) (hw : x.wait = .none)
    (hd : x.done = false) (hc : x.cont = .declined) (hk : x.kind = .active) (hcm : x.cmps = []) (hop : x.msg.op = .wst)
    (hmw : m.ca.mbWait = []) (hmb : tfree m.ca.mb 0 < 128) (hn : x.msg.src ≠ nodeId m) (hr : routeOf m x.epoch x.msg.src = some p) :
    hte (go m h e) h = some { answering x with ended := true, done := true, wait := .none, cont := .idle }
      ∧ m.onlyParts (.ca :: .deck :: .trk :: .ports :: Part.report) (go m h e)
      ∧ (∃ y ∈ (go m h e).ca.mb, y.2.line = x.msg.line ∧ y.2.mask = fullMask ∧ y.2.data = x.msg.data)
      ∧ hteSends (go m h e) p h (fun r => r.op = .cmp ∧ r.dest = x.msg.src ∧ r.tag = x.msg.tag ∧ r.line = x.msg.line) := by
  have h1 := flushCmps_none hx hcm
  have hxf := (sameHtes_hte h1 h).trans hx
  have hstep := advance_step e 7 hxf ha hw hd (by rw [hc]; decide) hk
  have hfo := sameHtes_only h1
  generalize hf : flushCmps m h = f at h1 hxf hstep hfo
  have hca : f.ca = m.ca := hfo .ca (by decide)
  obtain ⟨w1, w2, w3⟩ := memWrite_entered (m := f) (h := h) (l := x.msg.line) (d := x.msg.data) (k := fullMask)
    (p := x.msg.poison) e.hlc (by rw [hca]; exact hmw) (by rw [hca]; exact hmb)
  have hmerged := merged_full w3
  have hstash : runCont f h x e = andThen (memWrite f h x.msg.line x.msg.data fullMask x.msg.poison e.hlc) h .answer := by
    unfold runCont
    rw [hc]
    dsimp only
    rw [stashToMem, hxf]
  rw [hstash] at hstep
  have hxw := (hte_of_only w1 (by decide) h).trans hxf
  have hparts := onlyParts_trans (onlyParts_mono hfo (by decide : ∀ q ∈ [Part.trk], q ∈ Part.ca :: Part.deck :: Part.trk :: Part.report))
    (onlyParts_mono w1 (by decide))
  have hregs := onlyRegs_trans (onlyRegs_of_only (as := 0x1414 :: reportRegs) hfo (by decide)) w2
  generalize memWrite f h x.msg.line x.msg.data fullMask x.msg.poison e.hlc = n at hstep hxw hparts hregs hmerged
  have hset := setHte_only n h (answering x)
  rw [andThen_eq hxw] at hstep
  have hxa : hte (setHte n h (answering x)) h = some (answering x) := hte_setHte_same _ _ _
  have hstep2 := advance_step e 6 hxa ha rfl hd (show Cont.answer ≠ .idle by decide) hk
  rw [runCont_answer_wst e hxa hop rfl] at hstep2
  have hregs' := onlyRegs_trans hregs (onlyRegs_of_only (as := 0x1414 :: reportRegs) hset (by decide))
  have hparts' := onlyParts_trans hparts (onlyParts_mono hset (by decide))
  obtain ⟨hid, hroutes⟩ := route_kept hparts' (by decide) (by decide) hregs' (by decide)
  obtain ⟨s1, -, s3, s4⟩ := sendEnd_state (p := p) (g := toReq (answering x) h .cmp) (x := answering x) hxa
    (by rw [hid]; exact hn) ((hroutes _ _).trans hr)
  have hstep3 := advance_halted e 6 s3 (Or.inr (Or.inr (Or.inl rfl)))
  have hlast := go_stopped (m := m) (by rw [hf]; exact (hstep.trans hstep2).trans hstep3) s3 hcm hk
  have hlo := sameHtes_only hlast
  have hcaend : (go m h e).ca = n.ca := (hlo .ca (by decide)).trans ((s1 .ca (by decide)).trans (hset .ca (by decide)))
  refine ⟨(sameHtes_hte hlast h).trans s3, onlyParts_trans (onlyParts_mono hparts' (by decide))
    (onlyParts_trans (onlyParts_mono s1 (by decide)) (onlyParts_mono hlo (by decide))), by rw [hcaend]; exact hmerged,
    hteSends_of_only (hteSends_mono s4 fun r hr => ?_) hlo (by decide)⟩
  obtain ⟨d, rfl⟩ := hr
  exact ⟨rfl, rfl, rfl, rfl⟩

/-! ### The statement -/

/-- An awaited reply reaches its transaction. -/
theorem answers_taken {s : State} {h : HteIx} {x : Hte} {a : Await} {g : Msg} (ha : answers s.m h.val x a g)
    (hop : clsOf g.op = .rsp ∨ clsOf g.op = .dat) (hne : g.op ≠ .cmp) (e : Env) :
    takeCoh g.op e s.m = takeReply (emptied s.m) h.val ((anySlotOf s.m x.epoch g.src).getD 256) a g e := by
  obtain ⟨hi, hj, ht, hx, hk, -, hu, -, hs, he, hl⟩ := ha
  obtain ⟨i, hi', rfl⟩ := List.map_eq_singleton_iff.1 hi
  have hslot : anySlotOf (emptied s.m) x.epoch i.msg.src = anySlotOf s.m x.epoch i.msg.src := anySlotOf_congr rfl _ _
  have hother : cohReply (emptied s.m) i.msg e = cohReply.cohOther e (emptied s.m) h.val x i.msg := cohReply_other e hj ht hx hk hu
  rw [takeCoh_single e hi' rfl hop, hother, cohOther_awaited e hk (by rw [hslot]; exact hs) he hl hne, hslot]

/-- A reply that leaves its transaction waiting changes the inbox and that transaction alone. -/
theorem go_waiting {m : Core} {h : Nat} {y : Hte} (e : Env) (hy : y.awaits ≠ []) (hk : y.kind = .active) (hc : y.cmps = []) :
    Core.onlyParts [.inbox, .trk] m (go (setHte m h y) h e) ∧ hte (go (setHte m h y) h e) h = some y := by
  have hgo := go_halted e (hte_setHte_same m h y) hc (Or.inl hy) hk
  exact ⟨onlyParts_trans (onlyParts_mono (setHte_only m h y) (by decide)) (onlyParts_mono (sameHtes_only hgo) (by decide)),
    (sameHtes_hte hgo h).trans (hte_setHte_same _ _ _)⟩

/-- The clean lookups with the HLC fault that is free in the state. -/
def freeHlc (s : State) : Env := { Env.clean with hlc := (freeFault s.m).1 }

/-- Settles O43: each reply by the lemma about what it does to the transaction that awaits it. -/
theorem awaitedRepliesAreCounted : Obligations.AwaitedRepliesAreCounted := by
  refine ⟨fun s h x a g c hr ha hne hc => ?_, fun s h x a g sl hr ha ho hsl hj hrec hn => ?_,
    fun s h x g sl p hr ha ho hsl hop haw hcont hw hd hsrc hroute => ?_,
    fun s h x g sl p hr ha ho hop haw hw hd hcont hmw hmb hsrc hroute => ?_,
    fun s h x g o hr ha ho hj hop hrec hv hne hmw hmb => ?_,
    fun s h x g hr hi hj ho ht hm hdump hx hk hu hst he haw hw hcont hd hc => ?_⟩
  · obtain ⟨-, -, -, hx, hk, hcm, -, hjct, -⟩ := id ha
    have hx' : hte (emptied s.m) h.val = some x := hx
    have hjct' : isJct (emptied s.m) x = false :=
      (isJct_congr (as := []) rfl (onlyRegs_of_eq rfl) (by decide) (by decide) (by decide) x).trans hjct
    have hrun (ho : g.op = .ria ∨ g.op = .rsa) : takeCoh g.op Env.clean s.m
        = go (setHte (emptied s.m) h.val { x with awaits := x.awaits.erase a }) h.val Env.clean :=
      (answers_taken ha (by rcases ho with ho | ho <;> rw [ho] <;> exact .inl rfl) (by rcases ho with ho | ho <;> rw [ho] <;> decide) _).trans
        (takeReply_counted hx' hjct' ho)
    obtain ⟨g1, g2⟩ := go_waiting (m := emptied s.m) (h := h.val) (y := { x with awaits := x.awaits.erase a }) Env.clean hne hk hcm
    have hinbox : (go (setHte (emptied s.m) h.val { x with awaits := x.awaits.erase a }) h.val Env.clean).inbox = [] := by
      have hgo := go_halted Env.clean (hte_setHte_same (emptied s.m) h.val { x with awaits := x.awaits.erase a }) hcm (Or.inl hne) hk
      exact sameHtes_only hgo .inbox (by decide)
    have hall := onlyParts_trans (onlyParts_mono (emptied_only s.m) (by decide)) g1
    have hstep : exec c s = .next { s with m := go (setHte (emptied s.m) h.val { x with awaits := x.awaits.erase a }) h.val Env.clean } := by
      simp only [List.mem_cons, List.not_mem_nil, or_false, Prod.mk.injEq] at hc
      rcases hc with ⟨rfl, ho⟩ | ⟨rfl, ho⟩
      · exact clocked_next (f := takeCoh .ria Env.clean) hr (ho ▸ hrun (.inl ho))
      · exact clocked_next (f := takeCoh .rsa Env.clean) hr (ho ▸ hrun (.inr ho))
    generalize go (setHte (emptied s.m) h.val { x with awaits := x.awaits.erase a }) h.val Env.clean = t at hstep g2 hinbox hall
    exact ⟨_, hstep, hinbox, g2, only_next hall⟩
  · obtain ⟨-, -, -, hx, hk, -⟩ := id ha
    have hx' : hte (emptied s.m) h.val = some x := hx
    have hn' : takeWbOf (emptied s.m) h.val sl (awaitLine x) = none := takeWbOf_congr (m := s.m) rfl rfl hn
    have hrun : takeCoh g.op Env.clean s.m
        = setHte (emptied s.m) h.val { x with awaits := x.awaits.erase a ++ [.wb sl (ofSurrender a)] } := by
      rw [answers_taken ha (by rw [ho]; exact .inl rfl) (by rw [ho]; decide), hsl]
      exact takeReply_rwp hx' hk ho hj hrec hn'
    have hstep : exec (.rwp Env.clean) s = _ := clocked_next (f := takeCoh .rwp Env.clean) hr (ho ▸ hrun)
    have hset := setHte_only (emptied s.m) h.val { x with awaits := x.awaits.erase a ++ [.wb sl (ofSurrender a)] }
    refine ⟨_, hstep, rfl, ?_, only_next (onlyParts_trans (onlyParts_mono (emptied_only s.m) (by decide)) (onlyParts_mono hset (by decide)))⟩
    exact hte_setHte_same (emptied s.m) h.val { x with awaits := x.awaits.erase a ++ [.wb sl (ofSurrender a)] }
  · obtain ⟨-, -, -, hx, hk, hcm, -⟩ := id ha
    have hx' : hte (emptied s.m) h.val = some x := hx
    have herase : (accepted x sl).awaits = [] := by
      show x.awaits.erase (.acc sl) = []
      rw [haw, List.erase_cons_head]
    have hrun : takeCoh g.op Env.clean s.m = go (setHte (emptied s.m) h.val (accepted x sl)) h.val Env.clean := by
      rw [answers_taken ha (by rw [ho]; exact .inl rfl) (by rw [ho]; decide), hsl]
      exact takeReply_acc hx' ho
    have hpre : s.m.onlyParts [.inbox, .trk] (setHte (emptied s.m) h.val (accepted x sl)) :=
      onlyParts_trans (onlyParts_mono (emptied_only _) (by decide)) (onlyParts_mono (setHte_only _ _ _) (by decide))
    have hstep : exec .acc s = .next { s with m := go (setHte (emptied s.m) h.val (accepted x sl)) h.val Env.clean } :=
      clocked_next (f := takeCoh .acc Env.clean) hr (ho ▸ hrun)
    have hxa : hte (setHte (emptied s.m) h.val (accepted x sl)) h.val = some (accepted x sl) := hte_setHte_same _ _ _
    have hinbox : (setHte (emptied s.m) h.val (accepted x sl)).inbox = [] := rfl
    generalize setHte (emptied s.m) h.val (accepted x sl) = m at hstep hxa hpre hinbox
    obtain ⟨hid, hroutes⟩ := route_kept hpre (by decide) (by decide) (onlyRegs_of_only (as := []) hpre (by decide)) (by decide)
    obtain ⟨g1, g2, -, g4⟩ := go_sends (e := Env.clean) (p := p) (g := toReq (accepted x sl) h.val .cmp) hxa hcm herase hw hd
      (by show x.cont ≠ .idle; rw [hcont]; decide) hk (fun n hn => runCont_answer_wst Env.clean hn hop hcont)
      (by rw [hid]; exact hsrc) ((hroutes _ _).trans hroute)
    have hall := onlyParts_trans (onlyParts_mono hpre (by decide : ∀ q ∈ [Part.inbox, Part.trk], q ∈ decisionParts))
      (onlyParts_mono g2 (by decide))
    have hend := (g2 .inbox (by decide)).trans hinbox
    generalize go m h.val Env.clean = t at hstep g1 g4 hall hend
    refine ⟨_, _, hstep, hend, g1, herase, rfl, rfl, hteSends_mono g4 fun r hr => ?_, only_next hall⟩
    obtain ⟨d, rfl⟩ := hr
    exact ⟨rfl, rfl, rfl, rfl⟩
  · obtain ⟨-, -, -, hx, hk, hcm, -⟩ := id ha
    have hfo : s.m.onlyParts [.free] (freeFault s.m).2 := onlyParts_free s.m _ (by decide)
    have hfree : answers (freeFault s.m).2 h.val x (.acc sl) g := by
      obtain ⟨h1, h2, h3, h4, h5, h6, h7, h8, h9⟩ := ha
      refine ⟨h1, h2, h3, h4, h5, h6, h7, ?_, h9⟩
      exact (isJct_congr (as := []) rfl (onlyRegs_of_eq rfl) (by decide) (by decide) (by decide) x).trans h8
    have hx' : hte (emptied (freeFault s.m).2) h.val = some x := hx
    have hrun := (answers_taken (s := { s with m := (freeFault s.m).2 }) hfree (by rw [ho]; exact .inl rfl) (by rw [ho]; decide)
      (freeHlc s)).trans (takeReply_dec hx' ho)
    have hset := setHte_only (emptied (freeFault s.m).2) h.val (declined x (.acc sl))
    have hpre : s.m.onlyParts [.free, .inbox, .trk] (setHte (emptied (freeFault s.m).2) h.val (declined x (.acc sl))) :=
      onlyParts_trans (onlyParts_mono hfo (by decide)) (onlyParts_trans (onlyParts_mono (emptied_only _) (by decide)) (onlyParts_mono hset (by decide)))
    have hstep : exec .dec s = .next { s with m := go (setHte (emptied (freeFault s.m).2) h.val (declined x (.acc sl))) h.val (freeHlc s) } :=
      clocked_next (f := fun m => takeCoh .dec { Env.clean with hlc := (freeFault m).1 } (freeFault m).2) hr (ho ▸ hrun)
    have hxd : hte (setHte (emptied (freeFault s.m).2) h.val (declined x (.acc sl))) h.val = some (declined x (.acc sl)) := hte_setHte_same _ _ _
    have hinbox : (setHte (emptied (freeFault s.m).2) h.val (declined x (.acc sl))).inbox = [] := rfl
    generalize setHte (emptied (freeFault s.m).2) h.val (declined x (.acc sl)) = m at hpre hstep hxd hinbox
    have hca : m.ca = s.m.ca := hpre .ca (by decide)
    obtain ⟨hid, hroutes⟩ := route_kept hpre (by decide) (by decide) (onlyRegs_of_only (as := []) hpre (by decide)) (by decide)
    have herase : (declined x (.acc sl)).awaits = [] := by
      show x.awaits.erase (.acc sl) = []
      rw [haw, List.erase_cons_head]
    obtain ⟨g1, g2, g3, g4⟩ := go_declined (e := freeHlc s) (p := p) hxd herase hw hd rfl hk hcm hop
      (by rw [hca]; exact hmw) (by rw [hca]; exact hmb) (by rw [hid]; exact hsrc) ((hroutes _ _).trans hroute)
    have hall := onlyParts_trans (onlyParts_mono hpre (by decide : ∀ q ∈ [Part.free, Part.inbox, Part.trk], q ∈ decisionParts))
      (onlyParts_mono g2 (by decide))
    have hend := (g2 .inbox (by decide)).trans hinbox
    generalize go m h.val (freeHlc s) = t at hstep g1 g3 g4 hall hend
    exact ⟨_, _, hstep, hend, g1, herase, rfl, rfl, g3, g4, only_next hall⟩
  · obtain ⟨-, -, -, hx, hk, hcm, -, hjct, -⟩ := id ha
    have hx' : hte (emptied s.m) h.val = some x := hx
    have hjct' : isJct (emptied s.m) x = false :=
      (isJct_congr (as := []) rfl (onlyRegs_of_eq rfl) (by decide) (by decide) (by decide) x).trans hjct
    have hrun := (answers_taken ha (by rw [ho]; exact .inr rfl) (by rw [ho]; decide) Env.clean).trans
      (takeReply_dhm hx' hjct' ho rfl hj hop hrec hv)
    have hstep : exec (.dhm Env.clean) s = _ := clocked_next (f := takeCoh .dhm Env.clean) hr (ho ▸ hrun)
    have hset := setHte_only (emptied s.m) h.val { x with awaits := x.awaits.erase (.owner o .sfs) }
    have hxs : hte (setHte (emptied s.m) h.val { x with awaits := x.awaits.erase (.owner o .sfs) }) h.val
      = some { x with awaits := x.awaits.erase (.owner o .sfs) } := hte_setHte_same _ _ _
    have hpre : s.m.onlyParts [.inbox, .trk] (setHte (emptied s.m) h.val { x with awaits := x.awaits.erase (.owner o .sfs) }) :=
      onlyParts_trans (onlyParts_mono (emptied_only _) (by decide)) (onlyParts_mono hset (by decide))
    have hinbox : (setHte (emptied s.m) h.val { x with awaits := x.awaits.erase (.owner o .sfs) }).inbox = [] := rfl
    generalize setHte (emptied s.m) h.val { x with awaits := x.awaits.erase (.owner o .sfs) } = m at hstep hxs hpre hinbox
    have hca : m.ca = s.m.ca := hpre .ca (by decide)
    have hw := memWriteAs_entered (req := false) (m := m) (h := h.val) (l := x.msg.line) (d := g.data) (k := fullMask) (p := g.poison)
      (by rw [hca]; exact hmw) (by rw [hca]; exact hmb)
    obtain ⟨w1, -, w3⟩ := hw
    have hmerged := merged_full w3
    have hxw := (hte_of_only w1 (by decide) h.val).trans hxs
    change exec (.dhm Env.clean) s = .next { s with m := go (memWriteAs false m h.val x.msg.line g.data fullMask g.poison .clean) h.val Env.clean } at hstep
    generalize memWriteAs false m h.val x.msg.line g.data fullMask g.poison .clean = n at hstep w1 hmerged hxw
    have hgo := go_halted Env.clean hxw hcm (Or.inl hne) hk
    have hlo := sameHtes_only hgo
    have hall : s.m.onlyParts (.inbox :: .trk :: .ca :: Part.report) (go n h.val Env.clean) :=
      onlyParts_trans (onlyParts_mono hpre (by decide)) (onlyParts_trans (onlyParts_mono w1 (by decide)) (onlyParts_mono hlo (by decide)))
    have hend : (go n h.val Env.clean).inbox = [] := (hlo .inbox (by decide)).trans ((w1 .inbox (by decide)).trans hinbox)
    have hcaend : (go n h.val Env.clean).ca = n.ca := hlo .ca (by decide)
    rw [← hcaend] at hmerged
    exact ⟨_, hstep, hend, (sameHtes_hte hgo h.val).trans hxw, hmerged, only_next hall⟩
  · obtain ⟨i, hi', rfl⟩ := List.map_eq_singleton_iff.1 hi
    have hx' : hte (emptied s.m) h.val = some x := hx
    have hother : cohReply (emptied s.m) i.msg Env.clean = cohReply.cohOther Env.clean (emptied s.m) h.val x i.msg :=
      cohReply_other Env.clean hj ht hx hk hu
    have hcmp : cohReply.cohOther Env.clean (emptied s.m) h.val x i.msg
        = go (setHte (emptied s.m) h.val { x with awaits := x.awaits.erase (.reqCmp i.msg.src) }) h.val Env.clean := by
      unfold cohReply.cohOther
      dsimp only
      rw [if_neg (by simp [he]), if_pos (by simp [ho, hst, haw]), unawait_eq hx']
    have hstep : exec (.cmp Env.clean) s = _ := clocked_next (f := takeAnswer .cmp Env.clean) hr
      (((takeAnswer_single Env.clean hi' ho rfl hm hdump).trans hother).trans hcmp)
    have herase : x.awaits.erase (.reqCmp i.msg.src) = [] := by rw [haw, List.erase_cons_head]
    rw [herase] at hstep
    have hset := setHte_only (emptied s.m) h.val { x with awaits := [] }
    obtain ⟨g1, g2⟩ := go_finish (m := setHte (emptied s.m) h.val { x with awaits := [] }) (x := { x with awaits := [] }) Env.clean
      (hte_setHte_same _ _ _) hc rfl hw hcont hk
    have hinbox : (setHte (emptied s.m) h.val { x with awaits := [] }).inbox = [] := rfl
    have hpre : s.m.onlyParts [.inbox, .trk] (setHte (emptied s.m) h.val { x with awaits := [] }) :=
      onlyParts_trans (onlyParts_mono (emptied_only _) (by decide)) (onlyParts_mono hset (by decide))
    generalize setHte (emptied s.m) h.val { x with awaits := [] } = m at hstep g1 g2 hinbox hpre
    refine ⟨_, hstep, (g1 .inbox (by decide)).trans hinbox, g2.trans ?_, only_next (onlyParts_trans hpre (onlyParts_mono g1 (by decide)))⟩
    rw [show (({ x with awaits := [] } : Hte).done) = false from hd]
    rfl

end Sys2Proof.Replies
end

section
/-! PROOFS. What a returned DRAM read gives its readers, and the reads that wait for a miss register (Machine/MemCmds.lean,
R374 to R378, R396). -/

namespace Sys2Proof.ReadReturns

open Sys2Proof.Machine Sys2Proof.Laws Sys2Proof.Windows Sys2Proof.Sending Sys2Proof.DramAccess Sys2Proof.Channels
  Sys2Proof.Transactions Sys2Proof.Units Sys2Proof.Merging

/-- A table whose values change by their keys. -/
theorem tfind_map {α β : Type} (t : Tab α) (i : Nat) (f : Nat × α → Nat × β) (hf : ∀ x, (f x).1 = x.1) :
    tfind (t.map f) i = (tfind t i).map fun v => (f (i, v)).2 := by
  induction t with
  | nil => rfl
  | cons x r ih =>
    obtain ⟨k, v⟩ := x
    have hk : f (k, v) = (k, (f (k, v)).2) := Prod.ext (hf _) rfl
    rw [List.map_cons, hk, tfind, tfind]
    split
    · next he => subst he; rfl
    · exact ih

/-! ### What a return installs (R368, R372, R396, R403) -/

/-- An install changes the caches, and neither the merging buffer nor the miss registers. -/
structure Installed (m n : Core) : Prop where
  parts : m.onlyParts [.ca] n
  buffer : n.ca.mb = m.ca.mb
  registers : n.ca.miss = m.ca.miss

theorem installed_refl (m : Core) : Installed m m := ⟨onlyParts_refl _ _, rfl, rfl⟩

theorem installed_trans {m n o : Core} (a : Installed m n) (b : Installed n o) : Installed m o :=
  ⟨onlyParts_trans a.parts b.parts, b.buffer.trans a.buffer, b.registers.trans a.registers⟩

theorem hlcInstall_installed (m : Core) (x : CLine) (cls : Nat) : Installed m (hlcInstall m x cls) := by
  unfold hlcInstall
  split
  · exact installed_refl m
  · dsimp only
    split
    · exact installed_refl m
    · exact ⟨modCa_only _ _, rfl, rfl⟩

theorem prefetchFill_installed (m : Core) (x : CLine) : Installed m (prefetchFill m x) := by
  unfold prefetchFill
  split
  · exact installed_refl m
  · exact ⟨modCa_only _ _, rfl, rfl⟩

theorem secondsInstalled (x : CLine) (ys : List (Reader × Bool × Nat)) (m : Core) :
    Installed m (ys.foldl (fun m y => if y.2.1 then hlcInstall m x y.2.2 else m) m) := by
  induction ys generalizing m with
  | nil => exact installed_refl m
  | cons y r ih =>
    rw [List.foldl_cons]
    split
    · exact installed_trans (hlcInstall_installed _ _ _) (ih _)
    · exact ih m

theorem returnFill_installed (m : Core) (x : MissReg) (d : LineData) (p : Bool) : Installed m (returnFill m x d p) := by
  unfold returnFill
  split
  · exact installed_refl m
  · dsimp only
    have hfirst (line : CLine) : Installed m (if x.install then hlcInstall m line x.cls else m) := by
      split
      · exact hlcInstall_installed _ _ _
      · exact installed_refl m
    split
    · exact installed_trans (hfirst _) (installed_trans (secondsInstalled _ _ _) (prefetchFill_installed _ _))
    · exact installed_trans (hfirst _) (secondsInstalled _ _ _)

/-- A prefetch whose data came without poison enters the siding. -/
theorem returnFill_prefetch {m : Core} {x : MissReg} (d : LineData) (hrd : x.reader = .prefetch) (hsec : x.secs = [])
    (hst : x.stale = false) (hfill : x.fill = true) (hin : x.install = false) :
    returnFill m x d false = prefetchFill m { line := x.line, data := (overBase (mbOverlay m x.line) d false).1
                                              poison := (overBase (mbOverlay m x.line) d false).2 } := by
  unfold returnFill
  rw [hst, hfill, hin, hsec, hrd]
  rfl

theorem prefetchFill_near {m : Core} {x : CLine} (hon : hlcOn m = true) (hp : x.poison = false) (hk : hlcKey m x.line = none)
    (hs : sidingKey m x.line = none) : tfind (prefetchFill m x).ca.siding
      (if m.ca.sidFreed.contains (m.ca.sptr, m.trk.core) then (m.ca.sptr + 1) % 64 else m.ca.sptr) = some x := by
  unfold prefetchFill
  rw [if_neg (by simp [hon, hp, hk, hs])]
  dsimp only [modCa]
  rw [tfind_tset, if_pos rfl]

/-! ### A returned read (R374) -/

/-- The machine when the data of register `r` has returned and its register is free, before its reader is served. -/
def returned (d : Dram) (m : Core) (r lla : Nat) (x : MissReg) : Core :=
  returnFill (modCa (dramRead d m x.line lla .clean).2.2.2 fun c => { c with miss := tdel c.miss r }) x
    (dramRead d m x.line lla .clean).1 (dramRead d m x.line lla .clean).2.1

section
variable {d : Dram} {m : Core} {r lla : Nat} {x : MissReg}

theorem readReturn_eq (hr : tfind m.ca.miss r = some x) (hs : x.secs = []) (hl : lla = llaOf m (decide (8 ≤ x.cls)) x.line)
    (hf : chFailed m (coords m lla).1.ch = false) (hrep : m.mem.repair = none) :
    readReturn r .clean d m = readerGets x.line (readLine d lla) (isPoisoned d lla) (returned d m r lla x) x.reader := by
  obtain ⟨h1, h2, -⟩ := dramRead_clean_data (d := d) (lla := lla) x.line hf (inBuffer_none hrep lla)
  unfold readReturn
  rw [hr]
  dsimp only
  rw [hs, List.map_nil, List.foldl_cons, List.foldl_nil, ← hl, ← h1, ← h2]
  rfl

/-- The read without its fill. -/
def readDone (d : Dram) (m : Core) (r lla : Nat) (x : MissReg) : Core :=
  modCa (dramRead d m x.line lla .clean).2.2.2 fun c => { c with miss := tdel c.miss r }

theorem returned_eq (hf : chFailed m (coords m lla).1.ch = false) (hrep : m.mem.repair = none) :
    returned d m r lla x = returnFill (readDone d m r lla x) x (readLine d lla) (isPoisoned d lla) := by
  obtain ⟨h1, h2, -⟩ := dramRead_clean_data (d := d) (lla := lla) x.line hf (inBuffer_none hrep lla)
  rw [returned, h1, h2]
  rfl

theorem readDone_state (hf : chFailed m (coords m lla).1.ch = false) :
    m.onlyParts (.ca :: .mem :: Part.report) (readDone d m r lla x) ∧ m.onlyRegs (0x1830 :: reportRegs) (readDone d m r lla x)
      ∧ (readDone d m r lla x).ca = { m.ca with miss := tdel m.ca.miss r } := by
  obtain ⟨g1, g2, -⟩ := dramRead_clean_only (d := d) (lla := lla) x.line hf
  have hca : (dramRead d m x.line lla .clean).2.2.2.ca = m.ca := g1 .ca (by decide)
  refine ⟨onlyParts_trans (onlyParts_mono g1 (by decide)) (onlyParts_mono (modCa_only _ _) (by decide)),
    onlyRegs_trans g2 (onlyRegs_of_eq rfl), ?_⟩
  rw [readDone, modCa, hca]

theorem returned_state (hf : chFailed m (coords m lla).1.ch = false) (hrep : m.mem.repair = none) :
    m.onlyParts (.ca :: .mem :: Part.report) (returned d m r lla x) ∧ m.onlyRegs (0x1830 :: reportRegs) (returned d m r lla x)
      ∧ (returned d m r lla x).ca.mb = m.ca.mb ∧ tfind (returned d m r lla x).ca.miss r = none := by
  obtain ⟨g1, g2, g3⟩ := readDone_state (d := d) (r := r) (x := x) hf
  rw [returned_eq hf hrep]
  obtain ⟨i1, i2, i3⟩ := returnFill_installed (readDone d m r lla x) x (readLine d lla) (isPoisoned d lla)
  refine ⟨onlyParts_trans g1 (onlyParts_mono i1 (by decide)), onlyRegs_trans g2 (onlyRegs_of_only i1 (by decide)), ?_, ?_⟩
  · rw [i2, g3]
  · rw [i3, g3, tfind_tdel, if_pos rfl]

end

/-! ### What a reader makes of the data (R374, R385, R396) -/

/-- An HTE that has the data it awaited. -/
def withData (x : Hte) (d : LineData) (p : Bool) : Hte :=
  { x with buf := (overBase (x.ovData, x.ovMask, x.bufPoison) d p).1
           bufPoison := (overBase (x.ovData, x.ovMask, x.bufPoison) d p).2, haveBuf := true, awaits := x.awaits.erase .mem }

theorem readerGets_hte {l : LineAddr} {d : LineData} {p : Bool} {m : Core} {h : Nat} {x : Hte} (hx : hte m h = some x)
    (ha : x.awaits = [.mem]) (hl : x.msg.line = l) :
    readerGets l d p m (.hte h) = go (setHte m h (withData x d p)) h Env.clean := by
  unfold readerGets
  dsimp only
  rw [hx]
  dsimp only
  rw [if_pos (by simp [ha, readsLine, hl]), gotData_eq hx, unawait_eq (hte_setHte_same _ _ _), setHte_setHte]
  rfl

/-- An entry whose merge base has come. -/
def withBase (x : MbEnt) (d : LineData) (p : Bool) : MbEnt :=
  { x with data := mergeBytes x.mask x.data d, mask := fullMask, poison := x.poison || p, basePending := false }

theorem readerGets_drain {l : LineAddr} {d : LineData} {p : Bool} {m : Core} {i : Nat} {x : MbEnt} (hx : tfind m.ca.mb i = some x)
    (hl : x.line = l) (hb : x.basePending = true) :
    tfind (readerGets l d p m (.drain i)).ca.mb i = some (withBase x d p)
      ∧ (readerGets l d p m (.drain i)).ca.miss = m.ca.miss ∧ m.onlyParts [.ca] (readerGets l d p m (.drain i)) := by
  unfold readerGets
  dsimp only
  refine ⟨?_, rfl, modCa_only _ _⟩
  dsimp only [modCa]
  rw [tfind_map _ _ _ (fun y => by split <;> rfl), hx, Option.map_some, if_pos (by simp [hl, hb])]
  rfl

/-- The message that ends a request whose answer is data. -/
theorem homeAnswer_data {m : Core} {h : Nat} {x : Hte} {op : Op} (hx : hte m h = some x) (ha : dataAnswer x op)
    (hb : x.haveBuf = true) : homeAnswer m h = sendEnd m h x { toReq x h op with data := x.buf, poison := x.bufPoison } := by
  rw [homeAnswer, hx]
  dsimp only
  rcases ha with ⟨ho, rfl⟩ | ⟨ho, rfl⟩ | ⟨ho, rfl⟩ | ⟨ho, rfl⟩
  · rw [ho]
  · rw [ho]
  · rw [ho]
    dsimp only
    rw [if_pos hb]
  · rw [ho]

/-! ### Reads that wait for a register (R376, R377, R395) -/

/-- A read that finds its line nowhere near takes a register, or joins its line's. -/
theorem missPlace_state (m : Core) (w : MissWait) : m.onlyParts (.ca :: Part.report) (missPlace m w)
    ∧ (missPlace m w).ca.missWait = m.ca.missWait
    ∧ ((m.ca.miss.find? fun x => decide (x.2.line = w.line)) = none → tfind (missPlace m w).ca.miss (tfree m.ca.miss 0)
        = some { line := w.line, reader := w.reader, install := w.install, cls := w.cls })
    ∧ ∀ i x, (m.ca.miss.find? fun x => decide (x.2.line = w.line)) = some (i, x) →
        tfind (missPlace m w).ca.miss i = some { x with secs := x.secs ++ [(w.reader, w.install, w.cls)] } := by
  unfold missPlace
  split
  · next i x hf =>
    have ht := tally_only .hlc 7 1 (modCa m fun c => { c with
      miss := tset c.miss i { x with secs := x.secs ++ [(w.reader, w.install, w.cls)] } })
    have hca := ht .ca (by decide)
    refine ⟨onlyParts_trans (onlyParts_mono (modCa_only _ _) (by decide)) (onlyParts_mono ht (by decide)), ?_,
      fun h => (by rw [h] at hf; cases hf), fun j y h => ?_⟩
    · rw [show Core.ca _ = _ from hca]
      rfl
    · rw [hf] at h
      injection h with h
      injection h with hi hy
      subst hi hy
      rw [show Core.ca _ = _ from hca, modCa, tfind_tset, if_pos rfl]
  · next hf =>
    refine ⟨onlyParts_mono (modCa_only _ _) (by decide), rfl, fun _ => ?_, fun j y h => by rw [h] at hf; cases hf⟩
    rw [modCa, tfind_tset, if_pos rfl]

theorem hlcLookup_absent {m : Core} {l : LineAddr} (hk : hlcKey m l = none) : hlcLookup m l .clean = (none, m) := by
  unfold hlcLookup
  split
  · rfl
  · dsimp only
    rw [hk]

theorem lookAgain_absent {m : Core} {w : MissWait} (hk : hlcKey m w.line = none) (hs : sidingKey m w.line = none) :
    lookAgain m w .clean = (none, m) := by
  have hside : sidingLook m w.line = none := by
    unfold sidingLook
    rw [hs]
    split <;> rfl
  unfold lookAgain
  rw [hlcLookup_absent hk]
  dsimp only
  rw [hside]
  split
  · next h => cases h
  · rfl

/-- A read that a lookup does not serve takes its place at the registers. -/
theorem missGrant_placed {m : Core} {w : MissWait} {q : List MissWait} (ht : takeFirst (fun v => missRoom m v) m.ca.missWait = some (w, q))
    (hd : prefetchDead m w = false) (hk : hlcKey m w.line = none) (hs : sidingKey m w.line = none) :
    missGrant m .clean = missPlace (modCa m fun c => { c with missWait := q }) w := by
  unfold missGrant
  rw [ht]
  dsimp only
  rw [hd, if_neg Bool.false_ne_true]
  split
  · rfl
  · rw [lookAgain_absent (m := modCa m fun c => { c with missWait := q }) hk hs]

theorem missGrant_dead {m : Core} {w : MissWait} {q : List MissWait} {f : HlcFault}
    (ht : takeFirst (fun v => missRoom m v) m.ca.missWait = some (w, q)) (hd : prefetchDead m w = true) :
    missGrant m f = modCa m fun c => { c with missWait := q } := by
  unfold missGrant
  rw [ht]
  dsimp only
  rw [hd, if_pos rfl]

end Sys2Proof.ReadReturns
end

section
/-! PROOFS. The merging buffer's entries close, are issued, free and are granted (Machine/MemCmds.lean, R383 to R389, R975),
with the statement about the caches and the buffer. -/

namespace Sys2Proof.CacheRuns

open Sys2Proof.Machine Sys2Proof.Laws Sys2Proof.Windows Sys2Proof.Sending Sys2Proof.DramAccess Sys2Proof.Channels
  Sys2Proof.Transactions Sys2Proof.Units Sys2Proof.Lookups Sys2Proof.Merging Sys2Proof.Replies Sys2Proof.ReadReturns

/-! ### Entries change -/

/-- The machine with one entry of the merging buffer replaced. -/
def setMb (m : Core) (i : Nat) (x : MbEnt) : Core := modCa m fun c => { c with mb := tset c.mb i x }

theorem setMb_only (m : Core) (i : Nat) (x : MbEnt) : m.onlyParts [.ca] (setMb m i x) := modCa_only _ _

theorem tfind_setMb (m : Core) (i : Nat) (x : MbEnt) : tfind (setMb m i x).ca.mb i = some x := by
  rw [setMb, modCa, tfind_tset, if_pos rfl]

/-- An entry that closes, and is counted. -/
def mbClosed (m : Core) (i k : Nat) (x : MbEnt) : Core := tally .hlc k 1 (setMb m i { x with isOpen := false })

theorem mbClosed_state (m : Core) (i k : Nat) (x : MbEnt) : m.onlyParts (.ca :: Part.report) (mbClosed m i k x)
    ∧ tfind (mbClosed m i k x).ca.mb i = some { x with isOpen := false } := by
  have ht := tally_only .hlc k 1 (setMb m i { x with isOpen := false })
  refine ⟨onlyParts_trans (onlyParts_mono (setMb_only _ _ _) (by decide)) (onlyParts_mono ht (by decide)), ?_⟩
  rw [mbClosed, show Core.ca _ = _ from ht .ca (by decide)]
  exact tfind_setMb _ _ _

theorem ageClose_eq {m : Core} {i : Nat} {x : MbEnt} (hx : tfind m.ca.mb i = some x) (ho : x.isOpen = true) :
    ageClose m i = mbClosed m i 4 x := by
  unfold ageClose
  rw [hx]
  dsimp only
  rw [if_pos ho]
  rfl

/-- Whether an open entry is older than every other. -/
def oldestOpen (l : List (Nat × MbEnt)) (x : Nat × MbEnt) : Bool :=
  l.all fun y => decide (x.2.born < y.2.born) || (decide (x.2.born = y.2.born) && decide (x.2.order ≤ y.2.order))

theorem find?_oldest {l : List (Nat × MbEnt)} {z : Nat × MbEnt} (hm : z ∈ l) (hold : ∀ y ∈ l, y ≠ z → z.2.born < y.2.born) :
    l.find? (oldestOpen l) = some z := by
  have hz : oldestOpen l z = true := by
    rw [oldestOpen, List.all_eq_true]
    intro y hy
    by_cases he : y = z
    · simp [he]
    · simp [hold y hy he]
  have honly : ∀ y ∈ l, oldestOpen l y = true → y = z := by
    intro y hy ho
    by_contra hne
    have h1 := hold y hy hne
    have h2 := List.all_eq_true.1 ho z hm
    simp only [Bool.or_eq_true, Bool.and_eq_true, decide_eq_true_eq] at h2
    omega
  cases hf : l.find? (oldestOpen l) with
  | none => exact absurd hz (by simpa using List.find?_eq_none.1 hf z hm)
  | some y => rw [honly y (List.mem_of_find?_eq_some hf) (List.find?_some hf)]

theorem pressureClose_eq {m : Core} {i : Nat} {x : MbEnt} (hl : rfld m 0x140C 6 0 ≤ m.ca.mb.length) (hx : (i, x) ∈ m.ca.mb)
    (ho : x.isOpen = true) (hold : ∀ y ∈ m.ca.mb, y.2.isOpen = true → y ≠ (i, x) → x.born < y.2.born) :
    pressureClose m = mbClosed m i 5 x := by
  have hf := find?_oldest (l := m.ca.mb.filter fun x => x.2.isOpen) (z := (i, x)) (List.mem_filter.2 ⟨hx, ho⟩)
    (fun y hy hne => hold y (List.mem_filter.1 hy).1 (List.mem_filter.1 hy).2 hne)
  have hfind : ((m.ca.mb.filter fun x => x.2.isOpen).find? fun x => (m.ca.mb.filter fun x => x.2.isOpen).all fun y =>
      decide (x.2.born < y.2.born) || (decide (x.2.born = y.2.born) && decide (x.2.order ≤ y.2.order))) = some (i, x) := hf
  unfold pressureClose
  rw [if_neg (by omega)]
  dsimp only
  rw [hfind]
  rfl

/-! ### Entries are issued (R385, R387, R975) -/

section
variable {m : Core} {i : Nat} {x : MbEnt}

/-- No transaction waits for the data of a line to be issued. -/
theorem wakeFlush_none {l : LineAddr}
    (h : (m.trk.htes.any fun y => y.2.awaits.contains .flush && decide (y.2.msg.line = l)) = false) : wakeFlush m l = m := by
  have hfold : ∀ (ys : List (Nat × Hte)), (ys.any fun y => y.2.awaits.contains .flush && decide (y.2.msg.line = l)) = false →
      ys.foldl (fun m x => if x.2.awaits.contains .flush && decide (x.2.msg.line = l) then go (unawait m x.1 .flush) x.1 Env.clean else m) m
        = m := by
    intro ys
    induction ys with
    | nil => exact fun _ => rfl
    | cons y r ih =>
      intro hy
      rw [List.any_cons, Bool.or_eq_false_iff] at hy
      rw [List.foldl_cons, hy.1, if_neg Bool.false_ne_true]
      exact ih hy.2
  unfold wakeFlush
  split
  · rfl
  · exact hfold _ h

theorem mbIssue_ready (e : Env) (he : e.mbUncorrectable = none) (hx : tfind m.ca.mb i = some x) (hi : issuable m x) :
    mbIssue m i e = if x.mask = fullMask then wakeFlush (setMb m i { x with issued := true }) x.line
      else match hlcLookup m x.line e.hlc with
        | (some b, m) => wakeFlush (setMb m i { x with data := mergeBytes x.mask x.data b.data, mask := fullMask, issued := true }) x.line
        | (none, m) => missStart (setMb m i { x with basePending := true })
            { reader := .drain i, line := x.line, install := false, cls := 8 * b1 x.epoch } := by
  obtain ⟨h1, h2, h3, h4, h5, -⟩ := hi
  have hgo : (x.isOpen || x.issued || x.basePending || unitBefore m x.line x.order
      || (mbOf m x.line).any (fun y => decide (y.2.order < x.order))) = false := by
    rw [h1, h2, h3, h4, h5]
    rfl
  unfold mbIssue
  rw [hx]
  dsimp only
  rw [hgo, if_neg Bool.false_ne_true, he]
  dsimp only
  rw [hx]
  rfl

theorem mbIssue_full (hx : tfind m.ca.mb i = some x) (hi : issuable m x) (hm : x.mask = fullMask) :
    mbIssue m i Env.clean = setMb m i { x with issued := true } := by
  obtain ⟨-, -, -, -, -, hw⟩ := id hi
  rw [mbIssue_ready Env.clean rfl hx hi, if_pos hm]
  exact wakeFlush_none hw

theorem mbIssue_near {k : Nat} {b : CLine} (hx : tfind m.ca.mb i = some x) (hi : issuable m x) (hm : x.mask ≠ fullMask)
    (hon : hlcOn m = true) (hk : hlcKey m x.line = some k) (hb : tfind m.ca.hlc k = some b) : mbIssue m i Env.clean
      = setMb m i { x with data := mergeBytes x.mask x.data b.data, mask := fullMask, issued := true } := by
  obtain ⟨-, -, -, -, -, hw⟩ := id hi
  have hlook : hlcLookup m x.line .clean = (some b, m) := by
    unfold hlcLookup
    rw [hon, if_neg (by decide)]
    dsimp only
    rw [hk]
    dsimp only
    rw [hb]
  rw [mbIssue_ready Env.clean rfl hx hi, if_neg hm, show Env.clean.hlc = HlcFault.clean from rfl, hlook]
  exact wakeFlush_none hw

/-- The merge base of an entry. -/
def baseRead (i : Nat) (x : MbEnt) : MissWait := { reader := .drain i, line := x.line, install := false, cls := 8 * b1 x.epoch }

theorem mbIssue_base (hx : tfind m.ca.mb i = some x) (hi : issuable m x) (hm : x.mask ≠ fullMask)
    (hh : hlcOn m = false ∨ hlcKey m x.line = none) (hw : m.ca.missWait = [])
    (hline : (m.ca.miss.any fun y => decide (y.2.line = x.line)) = false) (hl : m.ca.miss.length < 256) :
    mbIssue m i Env.clean = missPlace (setMb m i { x with basePending := true }) (baseRead i x) := by
  have hlook : hlcLookup m x.line .clean = (none, m) := by
    rcases hh with hh | hh
    · rw [hlcLookup, hh]
      rfl
    · exact hlcLookup_absent hh
  have hroom : missRoom (setMb m i { x with basePending := true }) (baseRead i x) = true := by
    have hblock : missBlocked (setMb m i { x with basePending := true }) (baseRead i x) = false := by
      have hst : ((setMb m i { x with basePending := true }).ca.miss.any fun y =>
          decide (y.2.line = x.line) && (y.2.stale || decide (16 ≤ y.2.secs.length))) = false := by
        rw [List.any_eq_false] at hline ⊢
        intro y hy
        have := hline y hy
        simp at this
        simp [this]
      unfold missBlocked baseRead
      dsimp only
      rw [hst]
      rfl
    have hfree : missFree (setMb m i { x with basePending := true }) (baseRead i x).reader = true := by
      show decide (m.ca.miss.length + (if Reader.drain i = Reader.prefetch then 32 else 1) ≤ 256) = true
      rw [if_neg (by simp)]
      exact decide_eq_true hl
    rw [missRoom, hblock, hfree]
    simp
  have hempty : ((setMb m i { x with basePending := true }).ca.missWait.any fun v => missRoom (setMb m i { x with basePending := true }) v)
      = false := by
    rw [show (setMb m i { x with basePending := true }).ca.missWait = m.ca.missWait from rfl, hw]
    rfl
  rw [mbIssue_ready Env.clean rfl hx hi, if_neg hm, show Env.clean.hlc = HlcFault.clean from rfl, hlook]
  dsimp only
  rw [missStart]
  exact if_pos (by rw [Bool.and_eq_true]; exact ⟨hroom, by rw [hempty]; simp⟩)

end

/-! ### Entries free (R386, R387, R425) -/

section
variable {d : Dram} {m : Core} {i lla : Nat} {x : MbEnt}

/-- The machine without an entry of the merging buffer. -/
def dropMb (m : Core) (i : Nat) : Core := modCa m fun c => { c with mb := tdel c.mb i }

theorem mbFree_eq (hx : tfind m.ca.mb i = some x) (hi : x.issued = true) (hl : lla = llaOf m x.epoch x.line)
    (hf : chFailed m (chanOf m lla) = false) (hr : m.mem.repair = none) (hq : wqFull m (chanOf m lla) = false) :
    mbFree i d m = (writeLine d lla x.data x.poison, written (dropMb m i) lla) := by
  unfold mbFree
  rw [hx]
  dsimp only
  rw [← hl, if_neg (by simp [hi, wqTakes, hq])]
  exact dramWrite_direct (m := dropMb m i) x.data x.poison hf hr

theorem mbFree_held (hx : tfind m.ca.mb i = some x) (hl : lla = llaOf m x.epoch x.line)
    (hf : chFailed m (chanOf m lla) = false) (hr : m.mem.repair = none) (hq : wqFull m (chanOf m lla) = true) :
    mbFree i d m = (d, m) := by
  unfold mbFree
  rw [hx]
  dsimp only
  rw [← hl, if_pos (by simp [wqTakes, hq, hf, inBuffer_none hr])]

theorem writeQueue_written (m : Core) (lla : Nat) :
    writeQueue (written m lla) (chanOf m lla) = writeQueue m (chanOf m lla) ++ [lla] := by
  have ht : (tally .mem (16 + chanOf m lla) 1 m).mem = m.mem := tally_only _ _ _ m .mem (by decide)
  rw [written, wqPush, setWq, modMem, writeQueue, tget_tput, if_pos rfl, writeQueue, ht]
  rfl

end

/-! ### Waiting writes take entries (R389) -/

theorem bucketAdd_ents (m : Core) (b : Nat) : (bucketAdd m b).deck.ents = m.deck.ents := by
  unfold bucketAdd
  dsimp only
  split
  · rw [raise_only _ _ .deck (by decide)]
  · rfl

theorem hlcError_deck (m : Core) : (hlcError m).deck = m.deck := raise_only _ _ .deck (by decide)

/-- A lookup in the HLC leaves the directory's entries. -/
theorem hlcLookup_ents (m : Core) (l : LineAddr) (f : HlcFault) : (hlcLookup m l f).2.deck.ents = m.deck.ents := by
  have hpre : (match f with
      | .pointerParity => rinc (modCa m fun c => { c with hptr := tdel c.hptr (hlcSetIx l) }) 0x1414 1
      | .tagParity w => hlcError (hlcDrop m (16 * hlcSetIx l + w.val))
      | _ => m).deck = m.deck := by
    split
    · rfl
    · rw [hlcError_deck]
      rfl
    · rfl
  unfold hlcLookup
  split
  · rfl
  · dsimp only
    split
    · exact congrArg Deck.ents hpre
    · split
      · exact congrArg Deck.ents ((hlcError_deck _).trans hpre)
      · exact (bucketAdd_ents _ _).trans (congrArg Deck.ents hpre)
      · exact congrArg Deck.ents hpre

theorem mbTouch_ents (m : Core) (l : LineAddr) (d : LineData) (k : ByteMask) (p : Bool) (f : HlcFault) :
    (mbTouch m l d k p f).deck.ents = m.deck.ents := by
  have hlook := hlcLookup_ents m l f
  unfold mbTouch
  dsimp only
  split
  · next n h =>
    rw [h] at hlook
    exact hlook
  · next c n h =>
    rw [h] at hlook
    split
    · exact hlook
    · split <;> exact hlook

/-- The entry that a waiting write opens. -/
def openedBy (m : Core) (w : MbWrite) : MbEnt :=
  { line := w.line, data := mergeBytes w.mask w.data 0, mask := w.mask, poison := w.poison
    isOpen := decide (w.mask ≠ fullMask) && !unitAfter m w.line w.order, born := m.stmp, order := w.order, epoch := w.epoch }

/-- The machine when the first waiting write, with `q` behind it, has taken an entry. -/
def granted (m : Core) (w : MbWrite) (q : List MbWrite) (f : HlcFault) : Core :=
  setMb (mbTouch (modCa m fun c => { c with mbWait := q }) w.line w.data w.mask w.poison f) (tfree m.ca.mb 0) (openedBy m w)

section
variable {m : Core} {w : MbWrite} {q : List MbWrite} {f : HlcFault}

theorem touched_state : m.onlyParts (.ca :: .deck :: Part.report) (mbTouch (modCa m fun c => { c with mbWait := q }) w.line w.data w.mask w.poison f)
    ∧ m.onlyRegs (0x1414 :: reportRegs) (mbTouch (modCa m fun c => { c with mbWait := q }) w.line w.data w.mask w.poison f)
    ∧ (mbTouch (modCa m fun c => { c with mbWait := q }) w.line w.data w.mask w.poison f).ca.mb = m.ca.mb
    ∧ (mbTouch (modCa m fun c => { c with mbWait := q }) w.line w.data w.mask w.poison f).ca.mbWait = q := by
  obtain ⟨h1, h2, h3, h4⟩ := mbTouch_state (modCa m fun c => { c with mbWait := q }) w.line w.data w.mask w.poison f
  exact ⟨onlyParts_trans (onlyParts_mono (modCa_only _ _) (by decide)) h1, onlyRegs_trans (onlyRegs_of_eq rfl) h2, h3, h4⟩

theorem granted_state : m.onlyParts (.ca :: .deck :: Part.report) (granted m w q f)
    ∧ m.onlyRegs (0x1414 :: reportRegs) (granted m w q f) ∧ (granted m w q f).ca.mbWait = q
    ∧ tfind (granted m w q f).ca.mb (tfree m.ca.mb 0) = some (openedBy m w)
    ∧ (granted m w q f).deck.ents = m.deck.ents := by
  obtain ⟨h1, h2, -, h4⟩ := touched_state (m := m) (w := w) (q := q) (f := f)
  exact ⟨onlyParts_trans h1 (onlyParts_mono (setMb_only _ _ _) (by decide)),
    onlyRegs_trans h2 (onlyRegs_of_only (setMb_only _ _ _) (by decide)), h4, tfind_setMb _ _ _, mbTouch_ents _ _ _ _ _ _⟩

theorem mbGrant_eq (hw : m.ca.mbWait = w :: q) (ho : (m.ca.mb.any fun x => x.2.isOpen && decide (x.2.line = w.line)) = false)
    (hf : tfree m.ca.mb 0 < 128) : mbGrant m f = if q.any fun v => decide (v.hte = w.hte) then granted m w q f
      else go (unawait (granted m w q f) w.hte .mbIn) w.hte Env.clean := by
  obtain ⟨h1, -, h3, -⟩ := touched_state (m := m) (w := w) (q := q) (f := f)
  have hput : mbPut (mbTouch (modCa m fun c => { c with mbWait := q }) w.line w.data w.mask w.poison f) w.line w.data w.mask w.poison
      w.order w.epoch = some (granted m w q f) := by
    have hfind : m.ca.mb.find? (fun x => x.2.isOpen && decide (x.2.line = w.line)) = none := by
      rw [List.find?_eq_none]
      intro y hy
      have := List.any_eq_false.1 ho y hy
      exact this
    have hatm := h1 .atm (by decide)
    have hstmp := h1 .stmp (by decide)
    unfold granted openedBy unitAfter
    generalize mbTouch (modCa m fun c => { c with mbWait := q }) w.line w.data w.mask w.poison f = n at h3 hatm hstmp
    unfold mbPut unitAfter
    rw [h3, hfind]
    dsimp only
    rw [if_neg (by omega), show n.atm = m.atm from hatm, show n.stmp = m.stmp from hstmp]
    rfl
  unfold mbGrant
  rw [hw]
  dsimp only
  rw [hput]

end

theorem go_none {m : Core} {h : Nat} {e : Env} (hx : hte m h = none) : go m h e = m := by
  have hflush : flushCmps m h = m := by rw [flushCmps, hx]
  have hgo : goHolder m h e = m := by
    rw [goHolder, hflush, advance, hx]
    exact hflush
  rw [go, hgo, hx]

/-- A write whose data has entered the merging buffer is answered with `CMP`. -/
theorem homeAnswer_cmp {m : Core} {h : Nat} {x : Hte} (hx : hte m h = some x) (ho : x.msg.op = .wrl ∨ x.msg.op = .wrp ∨ x.msg.op = .wst) :
    homeAnswer m h = sendEnd m h x (toReq x h .cmp) := by
  rw [homeAnswer, hx]
  dsimp only
  rcases ho with ho | ho | ho <;> rw [ho]

theorem runCont_answer {m : Core} {h : Nat} {x : Hte} {e : Env} (hc : x.cont = .answer) : runCont m h x e = homeAnswer m h := by
  rw [runCont, hc]

/-! ### The statement -/

/-- Settles O48: the returned reads by `readReturn_eq`, the waiting ones by `missGrant_placed`, the buffer's entries by the
lemma about each of their steps. -/
theorem cachesAndMergingBufferRun : Obligations.CachesAndMergingBufferRun := by
  refine ⟨fun s r h p lla x reg op hr hm hrd hl hs hx hk hop ha hw hc hd hcm hlla hf hrep hn hroute => ?_,
    fun s r i lla x reg hr hm hrd hl hs hx hb hlla hf hrep => ?_,
    fun s r lla reg hr hm hrd hs hst hfill hin hon hkey hsid hov hlla hf hrep hp => ?_,
    fun s w q hr ht hd hk hs => ?_, fun s w q hr ht hd => ?_, fun s i x hr hx ho => ?_, fun s i x hr hl hx ho hold => ?_,
    fun s i x hr hx hi hm => ?_, fun s i k x b hr hx hi hm hon hk hb => ?_, fun s i x hr hx hi hm hh hw hline hl => ?_,
    fun s i x lla hr hx hi hl hf hrep hq => ?_, fun s i x lla hr hx hl hf hrep hq => ?_,
    fun s w q hr hw ho hf hh => ?_, fun s w q x p hr hw ho hf hq hx hk hop ha hwait hc hd hcm hn hroute => ?_,
    fun s hr hrun => ?_, fun s set way hr => ?_⟩
  · obtain ⟨g1, g2, -, g4⟩ := returned_state (d := s.dram) (r := r.val) (x := reg) hf hrep
    have hread := readReturn_eq (d := s.dram) hm hs (by rw [hl]; exact hlla) hf hrep
    generalize returned s.dram s.m r.val lla reg = n at g1 g2 g4 hread
    have hxn : hte n h = some x := (hte_of_only g1 (by decide) h).trans hx
    rw [hrd, readerGets_hte hxn ha hl.symm] at hread
    have hset := setHte_only n h (withData x (readLine s.dram lla) (isPoisoned s.dram lla))
    have hempty : (withData x (readLine s.dram lla) (isPoisoned s.dram lla)).awaits = [] := by
      show x.awaits.erase .mem = []
      rw [ha, List.erase_cons_head]
    have hop' : dataAnswer (withData x (readLine s.dram lla) (isPoisoned s.dram lla)) op := hop
    have hpre : s.m.onlyParts (.ca :: .trk :: .mem :: Part.report) (setHte n h (withData x (readLine s.dram lla) (isPoisoned s.dram lla))) :=
      onlyParts_trans (onlyParts_mono g1 (by decide)) (onlyParts_mono hset (by decide))
    obtain ⟨hid, hroutes⟩ := route_kept hpre (by decide) (by decide)
      (onlyRegs_trans g2 (onlyRegs_of_only (as := 0x1830 :: reportRegs) hset (by decide))) (by decide)
    have hxs := hte_setHte_same n h (withData x (readLine s.dram lla) (isPoisoned s.dram lla))
    have hfree : tfind (setHte n h (withData x (readLine s.dram lla) (isPoisoned s.dram lla))).ca.miss r.val = none := g4
    have hdata : ((withData x (readLine s.dram lla) (isPoisoned s.dram lla)).buf, (withData x (readLine s.dram lla) (isPoisoned s.dram lla)).bufPoison)
        = overBase (x.ovData, x.ovMask, x.bufPoison) (readLine s.dram lla) (isPoisoned s.dram lla) := rfl
    have hmsg : (withData x (readLine s.dram lla) (isPoisoned s.dram lla)).msg = x.msg := rfl
    have hstep := clockedRead_next (f := readReturn r.val .clean) hr hread
    generalize hy : withData x (readLine s.dram lla) (isPoisoned s.dram lla) = y at hstep hxs hpre hid hroutes hempty hop' hfree hdata hmsg
    generalize setHte n h y = m at hstep hxs hpre hid hroutes hfree
    obtain ⟨o1, o2, -, o4⟩ := go_sends (e := Env.clean) (p := p) (g := { toReq y h op with data := y.buf, poison := y.bufPoison })
      hxs (by rw [← hy]; exact hcm) hempty (by rw [← hy]; exact hw) (by rw [← hy]; exact hd)
      (by rw [← hy]; show x.cont ≠ .idle; rw [hc]; decide) (by rw [← hy]; exact hk)
      (fun k hk => (runCont_answer (by rw [← hy]; exact hc)).trans (homeAnswer_data hk hop' (by rw [← hy]; rfl)))
      (by rw [hid]; show y.msg.src ≠ _; rw [hmsg]; exact hn)
      (by rw [← hy]; exact (hroutes _ _).trans hroute)
    have hca := o2 .ca (by decide)
    have hall := onlyParts_trans (onlyParts_mono hpre (by decide : ∀ q ∈ .ca :: .trk :: .mem :: Part.report, q ∈ .ca :: .trk :: .mem :: .ports :: Part.report))
      (onlyParts_mono o2 (by decide))
    refine ⟨_, _, hstep, ?_, o1, rfl, hempty, hteSends_mono o4 fun g hg => ?_, only_next hall⟩
    · rw [show Core.ca _ = _ from hca]
      exact hfree
    · obtain ⟨d, rfl⟩ := hg
      have hsrc : y.msg.src = x.msg.src := by rw [hmsg]
      have htag : y.msg.tag = x.msg.tag := by rw [hmsg]
      exact ⟨rfl, hsrc, htag, hdata⟩
  · obtain ⟨g1, -, g3, g4⟩ := returned_state (d := s.dram) (r := r.val) (x := reg) hf hrep
    have hread := readReturn_eq (d := s.dram) hm hs (by rw [hl]; exact hlla) hf hrep
    generalize returned s.dram s.m r.val lla reg = n at g1 g3 g4 hread
    rw [hrd] at hread
    obtain ⟨k1, k2, k3⟩ := readerGets_drain (l := reg.line) (d := readLine s.dram lla) (p := isPoisoned s.dram lla)
      (by rw [g3]; exact hx) hl.symm hb
    have hstep := clockedRead_next (f := readReturn r.val .clean) hr hread
    have hall := onlyParts_trans g1 (onlyParts_mono k3 (by decide))
    generalize readerGets reg.line (readLine s.dram lla) (isPoisoned s.dram lla) n (.drain i) = t at hstep k1 k2 hall
    exact ⟨_, hstep, by rw [k2]; exact g4, k1, only_next hall⟩
  · obtain ⟨g1, -, g3, g4⟩ := returned_state (d := s.dram) (r := r.val) (x := reg) hf hrep
    obtain ⟨k1, k2, k3⟩ := readDone_state (d := s.dram) (r := r.val) (x := reg) hf
    have hread := readReturn_eq (d := s.dram) hm hs hlla hf hrep
    rw [hrd] at hread
    have hstep : exec (.dramReadReturn r .clean) s = .next { s with m := returned s.dram s.m r.val lla reg } :=
      clockedRead_next (f := readReturn r.val .clean) hr hread
    have hfilled := returned_eq (d := s.dram) (r := r.val) (x := reg) hf hrep
    rw [hp, returnFill_prefetch _ hrd hs hst hfill hin] at hfilled
    generalize returned s.dram s.m r.val lla reg = t at hstep g1 g3 g4 hfilled
    generalize readDone s.dram s.m r.val lla reg = n at k1 k2 k3 hfilled
    have hov' : mbOverlay n reg.line = mbOverlay s.m reg.line := by
      simp only [mbOverlay, mbOf, k3]
    have htrk : n.trk = s.m.trk := k1 .trk (by decide)
    have hnear := prefetchFill_near (m := n) (x := ({ line := reg.line, data := (overBase (mbOverlay s.m reg.line) (readLine s.dram lla) false).1
                                                      poison := false } : CLine))
      (by rw [hlcOn, rbit, k2 0x1400 (by decide)]; exact hon) rfl
      (by simpa only [hlcKey, k3] using hkey) (by simpa only [sidingKey, k3] using hsid)
    rw [hov', show (overBase (mbOverlay s.m reg.line) (readLine s.dram lla) false).2 = false by simp [overBase, hov]] at hfilled
    rw [← hfilled, k3, htrk] at hnear
    exact ⟨_, hstep, g4, hnear, g3, only_next g1⟩
  · have hpre := modCa_only s.m fun c => { c with missWait := q }
    obtain ⟨h1, h2, h3, h4⟩ := missPlace_state (modCa s.m fun c => { c with missWait := q }) w
    have hstep := clocked_next (f := fun m => missGrant m Env.clean.hlc) hr (missGrant_placed ht hd hk hs)
    exact ⟨_, hstep, h2, h3, h4, only_next (onlyParts_trans (onlyParts_mono hpre (by decide)) h1)⟩
  · exact ⟨_, clocked_next (f := fun m => missGrant m Env.clean.hlc) hr (missGrant_dead ht hd), rfl, only_next (modCa_only _ _)⟩
  · obtain ⟨h1, h2⟩ := mbClosed_state s.m i.val 4 x
    exact ⟨_, clocked_next (f := fun m => ageClose m i.val) hr (ageClose_eq hx ho), h2, only_next h1⟩
  · obtain ⟨h1, h2⟩ := mbClosed_state s.m i 5 x
    exact ⟨_, clocked_next (f := pressureClose) hr (pressureClose_eq hl hx ho hold), h2, only_next h1⟩
  · exact ⟨_, clocked_next (f := fun m => mbIssue m i.val Env.clean) hr (mbIssue_full hx hi hm), tfind_setMb _ _ _,
      only_next (setMb_only _ _ _)⟩
  · exact ⟨_, clocked_next (f := fun m => mbIssue m i.val Env.clean) hr (mbIssue_near hx hi hm hon hk hb), tfind_setMb _ _ _,
      only_next (setMb_only _ _ _)⟩
  · have hnone : ((setMb s.m i.val { x with basePending := true }).ca.miss.find? fun y => decide (y.2.line = (baseRead i.val x).line)) = none := by
      rw [List.find?_eq_none]
      exact fun y hy => List.any_eq_false.1 hline y hy
    have hplace : missPlace (setMb s.m i.val { x with basePending := true }) (baseRead i.val x)
        = modCa (setMb s.m i.val { x with basePending := true }) fun c => { c with
            miss := tset c.miss (tfree s.m.ca.miss 0) { line := x.line, reader := .drain i.val, install := false, cls := 8 * b1 x.epoch } } := by
      unfold missPlace
      rw [hnone]
      rfl
    refine ⟨_, clocked_next (f := fun m => mbIssue m i.val Env.clean) hr ((mbIssue_base hx hi hm hh hw hline hl).trans hplace),
      tfind_setMb _ _ _, ?_, only_next (onlyParts_trans (setMb_only _ _ _) (modCa_only _ _))⟩
    dsimp only [modCa]
    rw [tfind_tset, if_pos rfl]
  · obtain ⟨h1, -, -⟩ := written_state (dropMb s.m i.val) lla
    have hstep := clockedDram_next (f := mbFree i.val) hr (mbFree_eq (d := s.dram) hx hi hl hf hrep hq)
    have hmb : tfind (dropMb s.m i.val).ca.mb i.val = none := by
      dsimp only [dropMb, modCa]
      rw [tfind_tdel, if_pos rfl]
    have hwq := writeQueue_written (dropMb s.m i.val) lla
    have hall : s.m.onlyParts (.ca :: .mem :: Part.report) (written (dropMb s.m i.val) lla) :=
      onlyParts_trans (onlyParts_mono (modCa_only _ _) (by decide)) (onlyParts_mono h1 (by decide))
    refine ⟨_, hstep, ?_, rfl, rfl, hwq, hall⟩
    rw [show Core.ca _ = _ from h1 .ca (by decide)]
    exact hmb
  · exact clockedDram_next (f := mbFree i.val) hr (mbFree_held (d := s.dram) hx hl hf hrep hq)
  · have hfo : s.m.onlyParts [.free] (freeFault s.m).2 := onlyParts_free s.m _ (by decide)
    obtain ⟨g1, -, g3, g4, g5⟩ := granted_state (m := (freeFault s.m).2) (w := w) (q := q) (f := (freeFault s.m).1)
    have heq := mbGrant_eq (m := (freeFault s.m).2) (f := (freeFault s.m).1) hw ho hf
    have hstay : mbGrant (freeFault s.m).2 (freeFault s.m).1 = granted (freeFault s.m).2 w q (freeFault s.m).1 := by
      rw [heq]
      rcases hh with hh | hh
      · split
        · rfl
        · have hnone : hte (granted (freeFault s.m).2 w q (freeFault s.m).1) w.hte = none := (hte_of_only g1 (by decide) _).trans hh
          rw [unawait, modHte, hnone]
          exact go_none hnone
      · exact if_pos hh
    have hstep := clocked_next (f := fun m => mbGrant (freeFault m).2 (freeFault m).1) hr hstay
    have hall := onlyParts_trans (onlyParts_mono hfo (by decide : ∀ q ∈ [Part.free], q ∈ .ca :: .deck :: .free :: Part.report))
      (onlyParts_mono g1 (by decide))
    generalize granted (freeFault s.m).2 w q (freeFault s.m).1 = t at hstep g3 g4 g5 hall
    exact ⟨_, hstep, g3, g4, g5, only_next hall⟩
  · have hfo : s.m.onlyParts [.free] (freeFault s.m).2 := onlyParts_free s.m _ (by decide)
    obtain ⟨g1, g2, g3, g4, g5⟩ := granted_state (m := (freeFault s.m).2) (w := w) (q := q) (f := (freeFault s.m).1)
    have heq := mbGrant_eq (m := (freeFault s.m).2) (f := (freeFault s.m).1) hw ho hf
    rw [hq, if_neg Bool.false_ne_true] at heq
    have hmid := onlyParts_trans (onlyParts_mono hfo (by decide : ∀ q ∈ [Part.free], q ∈ .ca :: .deck :: .free :: Part.report))
      (onlyParts_mono g1 (by decide))
    have hregs := onlyRegs_trans (onlyRegs_of_only (as := 0x1414 :: reportRegs) hfo (by decide)) g2
    have hstep := clocked_next (f := fun m => mbGrant (freeFault m).2 (freeFault m).1) hr heq
    generalize granted (freeFault s.m).2 w q (freeFault s.m).1 = n at hstep g3 g4 g5 hmid hregs
    have hxn : hte n w.hte = some x := (hte_of_only hmid (by decide) _).trans hx
    rw [unawait_eq hxn, ha, List.erase_cons_head] at hstep
    obtain ⟨hid, hroutes⟩ := route_kept hmid (by decide) (by decide) hregs (by decide)
    have hset := setHte_only n w.hte { x with awaits := [] }
    obtain ⟨o1, o2, -, o4⟩ := go_sends (m := setHte n w.hte { x with awaits := [] }) (x := { x with awaits := [] }) (e := Env.clean) (p := p)
      (g := toReq x w.hte .cmp) (hte_setHte_same _ _ _) hcm rfl hwait hd (by show x.cont ≠ .idle; rw [hc]; decide) hk
      (fun k hk => (runCont_answer hc).trans (homeAnswer_cmp hk hop)) (by rw [show nodeId (setHte n w.hte _) = nodeId n from rfl, hid]; exact hn)
      ((hroutes _ _).trans hroute)
    have hend := onlyParts_trans (onlyParts_mono hset (by decide : ∀ q ∈ [Part.trk], q ∈ .trk :: .ports :: Part.report)) o2
    have hca := hend .ca (by decide)
    have hdeck := hend .deck (by decide)
    have hall := onlyParts_trans (onlyParts_mono hmid (by decide : ∀ q ∈ .ca :: .deck :: .free :: Part.report,
      q ∈ .ca :: .deck :: .trk :: .ports :: .free :: Part.report)) (onlyParts_mono hend (by decide))
    generalize go (setHte n w.hte { x with awaits := [] }) w.hte Env.clean = t at hstep o1 o4 hca hdeck hall
    have hca' : t.ca = n.ca := hca
    have hdeck' : t.deck = n.deck := hdeck
    refine ⟨_, _, hstep, by rw [hca']; exact g3, ?_, o1, rfl, rfl, hteSends_mono o4 fun g hg => ?_, by rw [hdeck']; exact g5, only_next hall⟩
    · rw [hca']
      exact congrArg (Option.map (·.line)) g4
    · obtain ⟨d, rfl⟩ := hg
      exact ⟨rfl, rfl, rfl⟩
  · have hinv : hlcInvDone s.m = modCa s.m fun c => { c with
        hlc := [], hptr := [], siding := [], streams := [], tptr := 0, ceWb := [], invRunning := false, invDone := true } := by
      rw [hlcInvDone, hrun]
      rfl
    exact ⟨_, clocked_next (f := hlcInvDone) hr hinv, rfl, rfl, rfl, rfl, rfl, rfl, rfl, only_next (modCa_only _ _)⟩
  · exact ⟨_, clocked_next (f := fun m => modCa m fun c => { c with ceWb := c.ceWb.filter (· != 16 * set.toNat + way.val) }) hr rfl, rfl,
      only_next (modCa_only _ _)⟩

end Sys2Proof.CacheRuns
end

section
/-! PROOFS. A request's decision in the home function, up to the state of its line (spec/03_coherence_flows.md, R113, R980),
and what its steps leave: messages sent, bytes read and written. -/

namespace Sys2Proof.Decisions

open Sys2Proof.Machine Sys2Proof.Laws Sys2Proof.Windows Sys2Proof.Sending Sys2Proof.Flits Sys2Proof.Channels Sys2Proof.Transactions
  Sys2Proof.Units Sys2Proof.Lookups Sys2Proof.CfgMessages Sys2Proof.Merging Sys2Proof.TrackerRuns Sys2Proof.GoingOn
  Sys2Proof.ReadReturns Sys2Proof.CacheRuns

/-! ### What a decision leaves -/

/-- The registers that a decision can change. -/
def actRegs : List Nat := 0x410 :: 0x414 :: 0x418 :: 0x41C :: journalRegs

/-- A step of a decision: what it changes, the port queues growing alone. -/
structure Acted (m n : Core) : Prop where
  parts : m.onlyParts decisionParts n
  regs : m.onlyRegs actRegs n
  queues : Grown m n

theorem acted_refl (m : Core) : Acted m m := ⟨onlyParts_refl _ _, onlyRegs_refl _ _, grown_refl _⟩

theorem acted_trans {m n o : Core} (a : Acted m n) (b : Acted n o) : Acted m o :=
  ⟨onlyParts_trans a.parts b.parts, onlyRegs_trans a.regs b.regs, grown_trans a.queues b.queues⟩

theorem acted_of_only {ps : List Part} {m n : Core} (h : m.onlyParts ps n) (hp : ∀ q ∈ ps, q ∈ decisionParts) (hq : Part.ports ∉ ps)
    (hr : m.onlyRegs actRegs n) : Acted m n := ⟨onlyParts_mono h hp, hr, grown_of_only h hq⟩

/-- The parts without registers and ports. -/
theorem acted_of_inner {ps : List Part} {m n : Core} (h : m.onlyParts ps n) (hp : ∀ q ∈ ps, q ∈ [Part.trk, .deck, .ca, .atm, .free]) :
    Acted m n := by
  have hd : ∀ q ∈ [Part.trk, .deck, .ca, .atm, .free], q ∈ decisionParts := by decide
  refine acted_of_only h (fun q hq => hd q (hp q hq)) (fun hq => ?_) (onlyRegs_of_only h fun hq => ?_)
  · exact absurd (hp _ hq) (by decide)
  · exact absurd (hp _ hq) (by decide)

theorem acted_report {m n : Core} (h : m.onlyParts Part.report n) (hr : m.onlyRegs reportRegs n) : Acted m n :=
  acted_of_only h (by decide) (by decide) (onlyRegs_mono hr (by decide))

theorem acted_tally (b : Blk) (e n : Nat) (m : Core) : Acted m (tally b e n m) := acted_report (tally_only _ _ _ _) (tally_regs _ _ _ _)

theorem acted_raise (m : Core) (k : Nat) : Acted m (raise m k) := acted_report (raise_only _ _) (raise_regs _ _)

theorem acted_rset (m : Core) {a : Nat} (v : Word) (h : a ∈ actRegs) : Acted m (rset m a v) :=
  acted_of_only (onlyParts_rset (ps := [.regs]) m a v (by decide)) (by decide) (by decide) (onlyRegs_rset _ _ _ h)

theorem acted_setHte (m : Core) (h : Nat) (x : Hte) : Acted m (setHte m h x) := acted_of_inner (setHte_only m h x) (by decide)

theorem acted_modHte (m : Core) (h : Nat) (f : Hte → Hte) : Acted m (modHte m h f) := acted_of_inner (modHte_only m h f) (by decide)

theorem acted_modCa (m : Core) (f : Caches → Caches) : Acted m (modCa m f) := acted_of_inner (modCa_only m f) (by decide)

theorem acted_send (m : Core) (src : Nat) (o : Option Nat) (e : Bool) (g : Msg) : Acted m (send m src o e g) :=
  ⟨onlyParts_mono (send_only _ _ _ _ _) (by decide), onlyRegs_mono (send_regs _ _ _ _ _) (by decide), grown_joined (send_joined _ _ _ _ _)⟩

theorem acted_served {h : Nat} {m n : Core} (s : Served h m n) : Acted m n :=
  ⟨onlyParts_mono s.parts (by decide), onlyRegs_mono s.regs (by decide), s.queues⟩

section
variable {m n : Core} (a : Acted m n)
include a

theorem acted_cfg : n.cfg = m.cfg := a.parts .cfg (by decide)

theorem acted_node : nodeId n = nodeId m := nodeId_congr a.regs (by decide)

theorem acted_routes (e : Bool) (d : NodeId) : routeOf n e d = routeOf m e d := grown_routes (acted_cfg a) a.queues e d

theorem acted_slotEnt (e : Bool) (i : Nat) : slotEnt n e i = slotEnt m e i := by
  rw [slotEnt, slotEnt, Machine.setOf, Machine.setOf, acted_cfg a]

theorem acted_nodeOf (e : Bool) (i : Nat) : nodeOf n e i = nodeOf m e i := by rw [nodeOf, nodeOf, acted_slotEnt a]

theorem acted_snoopable (e : Bool) (i : Nat) : snoopable n e i = snoopable m e i := by rw [snoopable, snoopable, acted_slotEnt a]

theorem acted_regionOf (e : Bool) (l : LineAddr) : regionOf n e l = regionOf m e l := by
  rw [regionOf, regionOf, regionHits, regionHits, Machine.setOf, Machine.setOf, acted_cfg a]

theorem acted_sends {p h : Nat} {f : Msg → Prop} (hs : hteSends m p h f) : hteSends n p h f := hteSends_grown hs a.queues

theorem acted_asSent {g r : Msg} (hr : AsSent n g r) : AsSent m g r := asSent_congr a.regs (by decide) (by decide) hr

theorem acted_dirFind (hd : n.deck = m.deck) (home : Bool) (l : LineAddr) : dirFind n home l = dirFind m home l :=
  dirFind_congr hd (a.regs 0x1000 (by decide)) home l

end

/-! ### Up to the state of the line (R980, R621) -/

/-- What a decision counts and notes about the regions of its line. -/
def regionsNoted (m : Core) (x : Hte) : Core :=
  match topHits (regionHits m x.epoch x.msg.line) with
  | [] => raise (rinc m 0x41C 1) 133
  | [_] => m
  | a :: b :: _ => raise (rset (rinc (rsetf m 0x410 0 0 1) 0x414 1) 0x418 (BitVec.ofNat 32 (b.1 * 256 + a.1))) 132

/-- The machine at a decision on a line's state. -/
def counted (m : Core) (x : Hte) : Core := regionsNoted (tally .dir 1 1 m) x

theorem regionsNoted_only (m : Core) (x : Hte) : m.onlyParts Part.report (regionsNoted m x) := by
  have hset (n : Core) (a : Nat) (v : Word) : n.onlyParts Part.report (rset n a v) := onlyParts_rset _ _ _ (by decide)
  unfold regionsNoted
  split
  · exact onlyParts_trans (hset _ _ _) (raise_only _ _)
  · exact onlyParts_refl _ _
  · exact onlyParts_trans (onlyParts_trans (onlyParts_trans (hset _ _ _) (hset _ _ _)) (hset _ _ _)) (raise_only _ _)

theorem regionsNoted_acted (m : Core) (x : Hte) : Acted m (regionsNoted m x) := by
  unfold regionsNoted
  split
  · exact acted_trans (acted_rset _ _ (by decide)) (acted_raise _ _)
  · exact acted_refl _
  · exact acted_trans (acted_trans (acted_trans (acted_rset _ _ (by decide)) (acted_rset _ _ (by decide))) (acted_rset _ _ (by decide)))
      (acted_raise _ _)

theorem counted_only (m : Core) (x : Hte) : m.onlyParts Part.report (counted m x) :=
  onlyParts_trans (tally_only _ _ _ _) (regionsNoted_only _ _)

theorem counted_acted (m : Core) (x : Hte) : Acted m (counted m x) := acted_trans (acted_tally _ _ _ _) (regionsNoted_acted _ _)

theorem judge_notRetired {m : Core} {x : Hte} (h : judge m x = none) : retired m (dirSet x.msg.line) = false := by
  unfold judge at h
  dsimp only at h
  split at h
  · cases h
  · split_ifs at h with h1 h2 h3 h4 h5
    exact Bool.not_eq_true _ ▸ h5

theorem decideReq_judged {m : Core} {h : Nat} {x : Hte} (hx : hte m h = some x) (hl : reqLost m x = false) (hj : judge m x = none) :
    decideReq m h Env.clean = decideState (counted m x) h Env.clean := by
  have hret : retired (counted m x) (dirSet x.msg.line) = false :=
    (retired_congr (counted_only m x .deck (by decide)) _).trans (judge_notRetired hj)
  have hstep : decideReq m h Env.clean
      = (if retired (lookupRead (counted m x) true x.msg.line Env.clean) (dirSet x.msg.line) then
          refuse (lookupRead (counted m x) true x.msg.line Env.clean) h errUncorr
        else match lookupRecover (lookupRead (counted m x) true x.msg.line Env.clean) true h x.msg.line Env.clean with
          | some (k, rl, fm) => recoverStart (lookupRead (counted m x) true x.msg.line Env.clean) h k rl fm
          | none => decideState (lookupRead (counted m x) true x.msg.line Env.clean) h Env.clean) := by
    unfold decideReq
    rw [hx]
    dsimp only
    rw [hl, if_neg Bool.false_ne_true, hj]
    rfl
  rw [hstep, lookupRead_clean, hret, if_neg Bool.false_ne_true, lookupRecover_clean]

/-- The requests of the home function, with the commands that decide them. -/
def requests (h : HteIx) : List (Instr × Op) :=
  [(.rds h Env.clean, .rds), (.rdo h Env.clean, .rdo), (.rdc h Env.clean, .rdc), (.upg h Env.clean, .upg), (.wrl h Env.clean, .wrl),
    (.wrp h Env.clean, .wrp), (.wst h Env.clean, .wst), (.atm h Env.clean, .atm), (.fls h Env.clean, .fls)]

theorem request_cls {h : HteIx} {c : Instr} {op : Op} (hc : (c, op) ∈ requests h) : clsOf op ≠ .wbk := by
  have hops : ∀ z ∈ requests h, clsOf z.2 ≠ .wbk := by simp [requests, clsOf]
  exact hops _ hc

/-- The machine that meets the state of a request's line. -/
def atState (m : Core) (h : Nat) (x : Hte) : Core := counted (setHte m h (deciding x)) (deciding x)

section
variable {m : Core} {h : Nat} {x : Hte} {op : Op} {w : Wait}

theorem decideHte_atDecision (ha : atDecision m h x op w) (hc : clsOf op ≠ .wbk) :
    decideHte m h Env.clean = go (decideState (atState m h x) h Env.clean) h Env.clean := by
  obtain ⟨hx, -, -, hj, hop, -, -, -, -, -, -, hs, hl, hjudge⟩ := ha
  have hreq := decideReq_judged (m := setHte m h (deciding x)) (hte_setHte_same m h (deciding x)) hl hjudge
  rw [decideHte_home Env.clean hx hj hs (by rw [hop]; exact hc), hreq]
  rfl

theorem atState_only : m.onlyParts (.trk :: Part.report) (atState m h x) :=
  onlyParts_trans (onlyParts_mono (setHte_only _ _ _) (by decide)) (onlyParts_mono (counted_only _ _) (by decide))

theorem atState_acted : Acted m (atState m h x) := acted_trans (acted_setHte _ _ _) (counted_acted _ _)

theorem hte_atState : hte (atState m h x) h = some (deciding x) :=
  (hte_of_only (counted_only _ _) (by decide) h).trans (hte_setHte_same _ _ _)

theorem exec_request {s : State} {h : HteIx} {x : Hte} {op : Op} {c : Instr} (hr : running s.m = true)
    (ha : atDecision s.m h.val x op .decision) (hc : (c, op) ∈ requests h) :
    exec c s = .next { s with m := go (decideState (atState s.m h.val x) h.val Env.clean) h.val Env.clean } := by
  obtain ⟨hx, hk, hw, hj, hop, -, -, -, -, -, -, hs, -⟩ := id ha
  have hdec (o : Op) (ho : o = op) : decideIf (homeReq o) h.val Env.clean s.m
      = go (decideState (atState s.m h.val x) h.val Env.clean) h.val Env.clean := by
    subst ho
    refine (decideIf_eq Env.clean hx hk hw ?_).trans (decideHte_atDecision ha (request_cls hc))
    unfold homeReq
    rw [hj, hop, hs]
    simp
  simp only [requests, List.mem_cons, List.not_mem_nil, or_false, Prod.mk.injEq] at hc
  rcases hc with ⟨rfl, h2⟩ | ⟨rfl, h2⟩ | ⟨rfl, h2⟩ | ⟨rfl, h2⟩ | ⟨rfl, h2⟩ | ⟨rfl, h2⟩ | ⟨rfl, h2⟩ | ⟨rfl, h2⟩ | ⟨rfl, h2⟩
  · exact clocked_next (f := decideIf (homeReq .rds) h.val Env.clean) hr (hdec _ h2.symm)
  · exact clocked_next (f := decideIf (homeReq .rdo) h.val Env.clean) hr (hdec _ h2.symm)
  · exact clocked_next (f := decideIf (homeReq .rdc) h.val Env.clean) hr (hdec _ h2.symm)
  · exact clocked_next (f := decideIf (homeReq .upg) h.val Env.clean) hr (hdec _ h2.symm)
  · exact clocked_next (f := decideIf (homeReq .wrl) h.val Env.clean) hr (hdec _ h2.symm)
  · exact clocked_next (f := decideIf (homeReq .wrp) h.val Env.clean) hr (hdec _ h2.symm)
  · exact clocked_next (f := decideIf (homeReq .wst) h.val Env.clean) hr (hdec _ h2.symm)
  · exact clocked_next (f := decideIf (homeReq .atm) h.val Env.clean) hr (hdec _ h2.symm)
  · exact clocked_next (f := decideIf (homeReq .fls) h.val Env.clean) hr (hdec _ h2.symm)

end

/-! ### Messages of a decision -/

section
variable {m : Core} {h : Nat} {x : Hte}

theorem acted_sendH (g : Msg) : Acted m (sendH m h x g) := acted_send _ _ _ _ _

theorem hte_sendH (g : Msg) (i : Nat) : hte (sendH m h x g) i = hte m i := hte_of_only (send_only _ _ _ _ _) (by decide) i

theorem sendH_sends {g : Msg} {p : Nat} (hd : g.dest ≠ nodeId m) (hr : routeOf m x.epoch g.dest = some p) :
    hteSends (sendH m h x g) p h (AsSent m { g with epoch := x.epoch }) := (sendH_state hd hr).2.2

/-- The snoop of a slot. -/
def snoopMsg (m : Core) (h : Nat) (x : Hte) (l : LineAddr) (op : Op) (i : Nat) : Msg :=
  { op := op, dest := nodeOf m x.epoch i, tag := BitVec.ofNat 12 h, htag := BitVec.ofNat 12 h, line := l }

/-- What a snoop is once sent. -/
def IsSnoop (m : Core) (h : Nat) (x : Hte) (l : LineAddr) (op : Op) (i : Nat) (g : Msg) : Prop :=
  g.op = op ∧ g.dest = nodeOf m x.epoch i ∧ g.src = nodeId m ∧ g.tag = BitVec.ofNat 12 h ∧ g.htag = BitVec.ofNat 12 h
    ∧ g.line = l ∧ g.epoch = x.epoch ∧ g.staff = false ∧ g.fnode = 0 ∧ g.ftag = 0

theorem snoop_state (hx : hte m h = some x) (l : LineAddr) (op : Op) (i : Nat) :
    Acted m (snoop m h l op i) ∧ (∀ j, hte (snoop m h l op i) j = hte m j) ∧ m.onlyParts sendParts (snoop m h l op i)
      ∧ ∀ p, nodeOf m x.epoch i ≠ nodeId m → routeOf m x.epoch (nodeOf m x.epoch i) = some p →
        hteSends (snoop m h l op i) p h (IsSnoop m h x l op i) := by
  have hstep : ∃ n, m.onlyParts Part.report n ∧ Acted m n ∧ snoop m h l op i = sendH n h x (snoopMsg n h x l op i) := by
    unfold snoop
    rw [hx]
    dsimp only
    split
    · exact ⟨m, onlyParts_refl _ _, acted_refl m, rfl⟩
    · exact ⟨_, tally_only _ _ _ _, acted_tally _ _ _ _, rfl⟩
  obtain ⟨n, hn, ha, he⟩ := hstep
  rw [he]
  refine ⟨acted_trans ha (acted_sendH _), fun j => (hte_sendH _ j).trans (hte_of_only hn (by decide) j),
    onlyParts_trans (onlyParts_mono hn (by decide)) (send_only _ _ _ _ _), fun p hd hr => ?_⟩
  have hnode : nodeOf n x.epoch i = nodeOf m x.epoch i := acted_nodeOf ha _ _
  refine hteSends_mono (sendH_sends (g := snoopMsg n h x l op i) (p := p) ?_ ?_) fun r hr => ?_
  · show nodeOf n x.epoch i ≠ nodeId n
    rw [hnode, acted_node ha]
    exact hd
  · exact (acted_routes ha _ _).trans (by rw [show (snoopMsg n h x l op i).dest = nodeOf n x.epoch i from rfl, hnode]; exact hr)
  · obtain ⟨d, rfl⟩ := hr
    exact ⟨rfl, hnode, acted_node ha, rfl, rfl, rfl, rfl, rfl, rfl, rfl⟩

/-- What a forward to an owner is once sent. -/
def IsForward (m : Core) (h : Nat) (x : Hte) (op : Op) (o : Nat) (g : Msg) : Prop :=
  g.op = op ∧ g.dest = nodeOf m x.epoch o ∧ g.src = nodeId m ∧ g.tag = BitVec.ofNat 12 h ∧ g.htag = BitVec.ofNat 12 h
    ∧ g.line = x.msg.line ∧ g.epoch = x.epoch ∧ g.staff = false ∧ g.fnode = x.msg.src ∧ g.ftag = x.msg.tag

theorem forward_state (hx : hte m h = some x) (op : Op) (o : Nat) :
    Acted m (forward m h op o false) ∧ (∀ j, hte (forward m h op o false) j = hte m j)
      ∧ ∀ p, nodeOf m x.epoch o ≠ nodeId m → routeOf m x.epoch (nodeOf m x.epoch o) = some p →
        hteSends (forward m h op o false) p h (IsForward m h x op o) := by
  have ha := acted_tally .dir 9 1 m
  have hn := tally_only .dir 9 1 m
  have hnode : nodeOf (tally .dir 9 1 m) x.epoch o = nodeOf m x.epoch o := acted_nodeOf ha _ _
  unfold forward
  rw [hx]
  dsimp only
  refine ⟨acted_trans ha (acted_sendH _), fun j => (hte_sendH _ j).trans (hte_of_only hn (by decide) j), fun p hd hr => ?_⟩
  refine hteSends_mono (sendH_sends (p := p) ?_ ?_) fun r hr => ?_
  · rw [acted_node ha]
    exact hd
  · exact (acted_routes ha _ _).trans hr
  · obtain ⟨d, rfl⟩ := hr
    exact ⟨rfl, rfl, acted_node ha, rfl, rfl, rfl, rfl, rfl, rfl, rfl⟩

end

/-! ### Reads of memory that a decision starts (R109, R374, R390 to R395) -/

theorem missPlace_acted (m : Core) (w : MissWait) : Acted m (missPlace m w) := by
  unfold missPlace
  split
  · exact acted_trans (acted_modCa _ _) (acted_tally _ _ _ _)
  · exact acted_modCa _ _

theorem missStart_state (m : Core) (w : MissWait) : m.onlyParts (.ca :: Part.report) (missStart m w) ∧ Acted m (missStart m w) := by
  unfold missStart
  split
  · exact ⟨(missPlace_state m w).1, missPlace_acted m w⟩
  · exact ⟨onlyParts_mono (modCa_only _ _) (by decide), acted_modCa _ _⟩

theorem prefetch_state (m : Core) (l : Int) : m.onlyParts (.ca :: Part.report) (prefetch m l) ∧ Acted m (prefetch m l) := by
  obtain ⟨h1, h2⟩ := missStart_state m { reader := .prefetch, line := BitVec.ofNat 46 l.toNat, install := false, cls := 8 * b1 m.cfg.epoch }
  exact ⟨onlyParts_trans h1 (onlyParts_mono (tally_only _ _ _ _) (by decide)), acted_trans h2 (acted_tally _ _ _ _)⟩

theorem prefetchRun_state (la depth : Nat) (stride : Int) (fuel : Nat) : ∀ (m : Core) (far : Int),
    m.onlyParts (.ca :: Part.report) (prefetchRun m la stride far depth fuel).1 ∧ Acted m (prefetchRun m la stride far depth fuel).1 := by
  induction fuel with
  | zero => exact fun m _ => ⟨onlyParts_refl _ _, acted_refl m⟩
  | succ n ih =>
    intro m far
    unfold prefetchRun
    dsimp only
    split
    · exact ih _ _
    · obtain ⟨h1, h2⟩ := prefetch_state m ((la : Int) + (depth - n : Nat) * stride)
      obtain ⟨h3, h4⟩ := ih (prefetch m ((la : Int) + (depth - n : Nat) * stride)) (depth - n : Nat)
      exact ⟨onlyParts_trans h1 h3, acted_trans h2 h4⟩

theorem train_state (m : Core) (l : LineAddr) : m.onlyParts (.ca :: Part.report) (train m l) ∧ Acted m (train m l) := by
  have hself : m.onlyParts (.ca :: Part.report) m ∧ Acted m m := ⟨onlyParts_refl _ _, acted_refl m⟩
  have hmod {n : Core} (f : Caches → Caches) (hn : m.onlyParts (.ca :: Part.report) n ∧ Acted m n) :
      m.onlyParts (.ca :: Part.report) (modCa n f) ∧ Acted m (modCa n f) :=
    ⟨onlyParts_trans hn.1 (onlyParts_mono (modCa_only _ _) (by decide)), acted_trans hn.2 (acted_modCa _ _)⟩
  have hrun (c : Prop) [Decidable c] (r : Core × Int) (far : Int) (hr : m.onlyParts (.ca :: Part.report) r.1 ∧ Acted m r.1) :
      m.onlyParts (.ca :: Part.report) (if c then r else (m, far)).1 ∧ Acted m (if c then r else (m, far)).1 := by
    split
    · exact hr
    · exact hself
  unfold train
  split
  · exact hself
  · dsimp only
    split
    · exact hmod _ hself
    · exact hmod _ (hrun _ _ _ (prefetchRun_state _ _ _ _ _ _))

theorem hlcHit_state (m : Core) (l : LineAddr) (kind : RdKind) (cls : Nat) : m.onlyParts (.ca :: Part.report) (hlcHit m l kind cls)
    ∧ Acted m (hlcHit m l kind cls) := by
  have ht : m.onlyParts (.ca :: Part.report) (tally .hlc (0x10 + cls % 8) 1 m) := onlyParts_mono (tally_only _ _ _ _) (by decide)
  unfold hlcHit
  dsimp only
  split
  · exact ⟨onlyParts_trans ht (onlyParts_mono (hlcInval_clean_only _ _) (by decide)),
      acted_trans (acted_tally _ _ _ _) (acted_of_inner (hlcInval_clean_only _ _) (by decide))⟩
  · exact ⟨ht, acted_tally _ _ _ _⟩

theorem sidingFree_only (m : Core) (l : LineAddr) : m.onlyParts [.ca] (sidingFree m l) := by
  unfold sidingFree
  split
  · exact onlyParts_trans (modCa_only m _) (modCa_only _ _)
  · exact onlyParts_refl _ _

theorem sidingHit_state (m : Core) (x : CLine) (kind : RdKind) (cls : Nat) : m.onlyParts (.ca :: Part.report) (sidingHit m x kind cls)
    ∧ Acted m (sidingHit m x kind cls) := by
  have ht : m.onlyParts (.ca :: Part.report) (tally .hlc 1 1 m) := onlyParts_mono (tally_only _ _ _ _) (by decide)
  have hca {n : Core} (h : (tally .hlc 1 1 m).onlyParts [.ca] n) : m.onlyParts (.ca :: Part.report) n ∧ Acted m n :=
    ⟨onlyParts_trans ht (onlyParts_mono h (by decide)), acted_trans (acted_tally _ _ _ _) (acted_of_inner h (by decide))⟩
  unfold sidingHit
  dsimp only
  split
  · exact hca (onlyParts_trans (sidingFree_only _ _) (hlcInstall_installed _ _ _).parts)
  · exact hca (modCa_only _ _)
  · exact ⟨ht, acted_tally _ _ _ _⟩

/-- An HTE that has read memory: it has its data, or awaits them. -/
def ReadInto (x y : Hte) : Prop :=
  (∃ d p, y = { x with buf := d, bufPoison := p, haveBuf := true })
    ∨ ∃ d k p, y = { x with ovData := d, ovMask := k, bufPoison := p, haveBuf := false, awaits := x.awaits ++ [.mem] }

theorem memRead_state {m : Core} {h : Nat} {x : Hte} (hx : hte m h = some x) (l : LineAddr) (kind : RdKind) (cls : Nat) :
    m.onlyParts (.ca :: .trk :: Part.report) (memRead m h l kind cls .clean) ∧ Acted m (memRead m h l kind cls .clean)
      ∧ ∃ y, hte (memRead m h l kind cls .clean) h = some y ∧ ReadInto x y := by
  have hgot {n o : Core} {d : LineData} {p : Bool} (hn : m.onlyParts (.ca :: Part.report) n ∧ Acted m n)
      (ho : (gotData n h d p).onlyParts (.ca :: Part.report) o ∧ Acted (gotData n h d p) o) :
      m.onlyParts (.ca :: .trk :: Part.report) o ∧ Acted m o ∧ ∃ y, hte o h = some y ∧ ReadInto x y := by
    have hxn : hte n h = some x := (hte_of_only hn.1 (by decide) h).trans hx
    rw [gotData_eq hxn] at ho
    exact ⟨onlyParts_trans (onlyParts_mono hn.1 (by decide)) (onlyParts_trans (onlyParts_mono (setHte_only _ _ _) (by decide))
      (onlyParts_mono ho.1 (by decide))), acted_trans hn.2 (acted_trans (acted_setHte _ _ _) ho.2), _,
      (hte_of_only ho.1 (by decide) h).trans (hte_setHte_same _ _ _), Or.inl ⟨_, _, rfl⟩⟩
  have hsid {n : Core} (hn : m.onlyParts (.ca :: Part.report) n ∧ Acted m n) :
      m.onlyParts (.ca :: Part.report) (if kind = .alcFill then sidingInval n l else n) ∧ Acted m (if kind = .alcFill then sidingInval n l else n) := by
    split
    · exact ⟨onlyParts_trans hn.1 (onlyParts_mono (modCa_only _ _) (by decide)), acted_trans hn.2 (acted_modCa _ _)⟩
    · exact hn
  have hcount : m.onlyParts (.ca :: Part.report) (if hlcOn m then tally .hlc (0x18 + cls % 8) 1 m else m)
      ∧ Acted m (if hlcOn m then tally .hlc (0x18 + cls % 8) 1 m else m) := by
    split
    · exact ⟨onlyParts_mono (tally_only _ _ _ _) (by decide), acted_tally _ _ _ _⟩
    · exact ⟨onlyParts_refl _ _, acted_refl m⟩
  have htrain : m.onlyParts (.ca :: Part.report) (if kind = .demand then train (if hlcOn m then tally .hlc (0x18 + cls % 8) 1 m else m) l
        else (if hlcOn m then tally .hlc (0x18 + cls % 8) 1 m else m))
      ∧ Acted m (if kind = .demand then train (if hlcOn m then tally .hlc (0x18 + cls % 8) 1 m else m) l
        else (if hlcOn m then tally .hlc (0x18 + cls % 8) 1 m else m)) := by
    split
    · exact ⟨onlyParts_trans hcount.1 (train_state _ _).1, acted_trans hcount.2 (train_state _ _).2⟩
    · exact hcount
  have hself : m.onlyParts (.ca :: Part.report) m ∧ Acted m m := ⟨onlyParts_refl _ _, acted_refl m⟩
  have hclean := hlcLookup_clean m l
  unfold memRead
  dsimp only
  split
  · next c n hlook =>
    rw [hlook] at hclean
    subst hclean
    exact hgot hself (hlcHit_state _ _ _ _)
  · next n hlook =>
    rw [hlook] at hclean
    dsimp only at hclean
    subst hclean
    generalize (if kind = .demand then train (if hlcOn n then tally .hlc (0x18 + cls % 8) 1 n else n) l
        else (if hlcOn n then tally .hlc (0x18 + cls % 8) 1 n else n)) = t at htrain
    split
    · exact hgot (hsid htrain) ⟨onlyParts_refl _ _, acted_refl _⟩
    · split
      · exact hgot htrain (sidingHit_state _ _ _ _)
      · have hxs : hte (if kind = .alcFill then sidingInval t l else t) h = some x := (hte_of_only (hsid htrain).1 (by decide) h).trans hx
        have hs := hsid htrain
        generalize (if kind = .alcFill then sidingInval t l else t) = u at hs hxs
        rw [modHte_eq hxs]
        refine ⟨onlyParts_trans (onlyParts_mono hs.1 (by decide)) (onlyParts_trans (onlyParts_mono (setHte_only _ _ _) (by decide))
          (onlyParts_mono (missStart_state _ _).1 (by decide))), acted_trans hs.2 (acted_trans (acted_setHte _ _ _) (missStart_state _ _).2), _,
          (hte_of_only (missStart_state _ _).1 (by decide) h).trans (hte_setHte_same _ _ _), Or.inr ⟨_, _, _, rfl⟩⟩

/-! ### Bytes that a decision writes -/

theorem acted_wrote {h : Nat} {m n : Core} (w : Wrote m n h) : Acted m n :=
  acted_of_only w.parts (by decide) (by decide) (onlyRegs_mono w.regs (by decide))

theorem hte_wrote {h : Nat} {m n : Core} {x : Hte} (w : Wrote m n h) (hx : hte m h = some x) :
    hte n h = some x ∨ hte n h = some (awaitsMb x) := by
  rcases w.trk with ht | ht
  · exact .inl ((hte_congr (congrArg Tracker.htes ht) h).trans hx)
  · refine .inr ((hte_congr (congrArg Tracker.htes ht) h).trans ?_)
    rw [modHte_eq hx]
    exact hte_setHte_same _ _ _

end Sys2Proof.Decisions
end

section
/-! PROOFS. The atomic line cache's entries and the X column of Table COH-4 (Machine/Home.lean, R114, R165, R169, R219 to
R221), with the statement about owned lines. -/

namespace Sys2Proof.OwnedLines

open Sys2Proof.Machine Sys2Proof.Laws Sys2Proof.Windows Sys2Proof.Sending Sys2Proof.Flits Sys2Proof.Channels Sys2Proof.Transactions
  Sys2Proof.Units Sys2Proof.Lookups Sys2Proof.Merging Sys2Proof.TrackerRuns Sys2Proof.GoingOn Sys2Proof.Decisions

/-! ### The choice of an ALC entry (R219 to R221, R418) -/

/-- A test that an entry's old and new value answer alike has one answer for the table. -/
theorem any_tset {α : Type} {p : Nat × α → Bool} {t : Tab α} {k : Nat} {v w : α} (hw : tfind t k = some w) (hp : p (k, v) = p (k, w)) :
    (tset t k v).any p = t.any p := by
  induction t with
  | nil => cases hw
  | cons y r ih =>
    obtain ⟨k', v'⟩ := y
    unfold tset
    split
    · have hmem : (k, w) ∈ (k', v') :: r := mem_of_tfind hw
      rw [List.any_cons, hp]
      cases hpw : p (k, w) with
      | false => rfl
      | true => exact (List.any_eq_true.2 ⟨_, hmem, hpw⟩).symm
    · split
      · next he =>
        subst he
        rw [tfind, if_pos rfl] at hw
        injection hw with hw
        rw [List.any_cons, List.any_cons, hp, hw]
      · next hne =>
        rw [tfind, if_neg (Ne.symm hne)] at hw
        rw [List.any_cons, List.any_cons, ih hw]

section
variable {m : Core} {h : Nat} {x y : Hte}

/-- An HTE's lines, and whether it is quarantined, are as they were. -/
structure SameLines (x y : Hte) : Prop where
  kind : y.kind = x.kind
  line : y.msg.line = x.msg.line
  victim : y.vline = x.vline
  recov : y.recov = x.recov

theorem lineHeld_setHte (hx : hte m h = some x) (hs : SameLines x y) (l : LineAddr) : lineHeld (setHte m h y) l = lineHeld m l :=
  any_tset hx (by dsimp only; rw [hs.kind, hs.line, hs.victim, hs.recov])

theorem alcPick_setHte (hx : hte m h = some x) (hs : SameLines x y) (ha : y.alcIx = x.alcIx) : alcPick (setHte m h y) = alcPick m := by
  have htaken (i : Nat) : ((setHte m h y).trk.htes.any fun x => decide (x.2.alcIx = some i)) = m.trk.htes.any fun x => decide (x.2.alcIx = some i) :=
    any_tset hx (by dsimp only; rw [ha])
  unfold alcPick
  simp only [htaken, lineHeld_setHte hx hs]
  rfl

theorem alcPick_congr {n : Core} (hc : n.ca = m.ca) (ht : n.trk = m.trk) : alcPick n = alcPick m := by
  simp only [alcPick, lineHeld, hc, ht]

theorem entryFree_setHte {i : Nat} (hx : hte m h = some x) (hs : SameLines x y) (ha : y.alcIx = x.alcIx) (he : entryFree m i) :
    entryFree (setHte m h y) i := by
  obtain ⟨h1, h2, h3, h4⟩ := he
  exact ⟨h1, h2, (alcPick_setHte hx hs ha).trans h3, h4⟩

theorem entryFree_congr {n : Core} {i : Nat} (hd : n.deck = m.deck) (hc : n.ca = m.ca) (ht : n.trk = m.trk) (he : entryFree m i) :
    entryFree n i := by
  obtain ⟨h1, h2, h3, h4⟩ := he
  exact ⟨by rw [heldPending, hd]; exact h1, by rw [alcAllOff, hc]; exact h2, (alcPick_congr hc ht).trans h3, by rw [hc]; exact h4⟩

theorem entryFree_atState {i : Nat} (hx : hte m h = some x) (he : entryFree m i) : entryFree (atState m h x) i := by
  have hc := counted_only (setHte m h (deciding x)) (deciding x)
  exact entryFree_congr (hc .deck (by decide)) (hc .ca (by decide)) (hc .trk (by decide))
    (entryFree_setHte (y := deciding x) hx ⟨rfl, rfl, rfl, rfl⟩ rfl he)

/-- The machine when HTE `h` has taken the free ALC entry `i`. -/
def alcTaken (m : Core) (h i : Nat) (x : Hte) : Core :=
  setHte (modCa m fun c => { c with alcPtr := (i + 1) % 48 }) h { x with alcIx := some i }

theorem alcGet_free {i : Nat} (hx : hte m h = some x) (ha : x.alcIx = none) (he : entryFree m i) :
    alcGet m h Env.clean = (true, alcTaken m h i x) := by
  obtain ⟨h1, -, h3, h4⟩ := he
  have htake : alcTake m h i Env.clean = alcTaken m h i x := by
    have hx' : hte (modCa m fun c => { c with alcPtr := (i + 1) % 48 }) h = some x := hx
    unfold alcTake
    rw [h4]
    dsimp only
    rw [modHte_eq hx']
    rfl
  unfold alcGet
  rw [hx]
  dsimp only
  rw [ha, h1, h3, if_neg (by decide), if_neg (by decide)]
  dsimp only
  rw [h4]
  dsimp only
  rw [h1, if_neg (by decide), htake]

theorem alcTaken_state (i : Nat) : m.onlyParts [.ca, .trk] (alcTaken m h i x) ∧ hte (alcTaken m h i x) h = some { x with alcIx := some i } :=
  ⟨onlyParts_trans (onlyParts_mono (modCa_only _ _) (by decide)) (onlyParts_mono (setHte_only _ _ _) (by decide)), hte_setHte_same _ _ _⟩

/-- The decision of an atomic is made once. -/
theorem atmDecided_state (hx : hte m h = some x) (st : DSt) : m.onlyParts (.trk :: .atm :: Part.report) (atmDecided m h st)
    ∧ Acted m (atmDecided m h st) ∧ hte (atmDecided m h st) h = some { x with counted := true } := by
  have hatm (n : Core) (f : Atomics → Atomics) : n.onlyParts [.atm] (modAtm n f) := onlyParts_atm n _ (by decide)
  unfold atmDecided
  rw [hx]
  dsimp only
  split
  · next hc =>
    refine ⟨onlyParts_refl _ _, acted_refl m, ?_⟩
    rw [hx, ← hc]
  · have hcon : m.onlyParts Part.report (if contended m x.msg.line st then tally .atm 6 1 m else m)
        ∧ Acted m (if contended m x.msg.line st then tally .atm 6 1 m else m) := by
      split
      · exact ⟨tally_only _ _ _ _, acted_tally _ _ _ _⟩
      · exact ⟨onlyParts_refl _ _, acted_refl m⟩
    generalize contended m x.msg.line st = con at hcon
    generalize (if con then tally .atm 6 1 m else m) = n at hcon
    have hxn : hte (noteRecent n x.msg.line) h = some x := (hte_of_only (hatm n _) (by decide) h).trans
      ((hte_of_only hcon.1 (by decide) h).trans hx)
    rw [modHte_eq hxn]
    have hset := hte_setHte_same (noteRecent n x.msg.line) h { x with counted := true }
    have hpre : m.onlyParts (.trk :: .atm :: Part.report) (setHte (noteRecent n x.msg.line) h { x with counted := true })
        ∧ Acted m (setHte (noteRecent n x.msg.line) h { x with counted := true }) :=
      ⟨onlyParts_trans (onlyParts_mono hcon.1 (by decide)) (onlyParts_trans (onlyParts_mono (hatm n _) (by decide))
        (onlyParts_mono (setHte_only _ _ _) (by decide))),
        acted_trans hcon.2 (acted_trans (acted_of_inner (hatm n _) (by decide)) (acted_setHte _ _ _))⟩
    generalize setHte (noteRecent n x.msg.line) h { x with counted := true } = q at hset hpre
    split
    · have hq (f : Atomics → Atomics) : m.onlyParts (.trk :: .atm :: Part.report) (modAtm q f) ∧ Acted m (modAtm q f)
          ∧ hte (modAtm q f) h = some { x with counted := true } :=
        ⟨onlyParts_trans hpre.1 (onlyParts_mono (hatm q f) (by decide)), acted_trans hpre.2 (acted_of_inner (hatm q f) (by decide)), hset⟩
      split
      · exact hq _
      · refine ⟨onlyParts_trans (hq _).1 (onlyParts_mono (tally_only _ _ _ _) (by decide)), acted_trans (hq _).2.1 (acted_tally _ _ _ _),
          (hte_of_only (tally_only _ _ _ _) (by decide) h).trans (hq _).2.2⟩
    · exact ⟨hpre.1, hpre.2, hset⟩

/-- An atomic with an entry to take goes on with it. -/
theorem atmWithEntry_free {i : Nat} (hx : hte m h = some x) (ha : x.alcIx = none) (he : entryFree m i) (st : DSt) (f : Core → Core) :
    ∃ n, atmWithEntry m h st Env.clean f = f n ∧ m.onlyParts (.ca :: .trk :: .atm :: Part.report) n ∧ Acted m n
      ∧ hte n h = some { x with alcIx := some i, counted := true } := by
  obtain ⟨-, hoff, -, -⟩ := id he
  obtain ⟨h1, h2⟩ := alcTaken_state (m := m) (h := h) (x := x) i
  have hplaced : ∃ n, (alcTaken m h i x).onlyParts Part.report n ∧ Acted (alcTaken m h i x) n
      ∧ atmWithEntry m h st Env.clean f = f (atmDecided n h st) := by
    unfold atmWithEntry
    rw [hx]
    dsimp only
    rw [hoff, if_neg Bool.false_ne_true, alcGet_free hx ha he]
    dsimp only
    split
    · exact ⟨_, tally_only _ _ _ _, acted_tally _ _ _ _, rfl⟩
    · exact ⟨_, onlyParts_refl _ _, acted_refl _, rfl⟩
  obtain ⟨n, hn, hna, hstep⟩ := hplaced
  obtain ⟨g1, g2, g3⟩ := atmDecided_state (m := n) (h := h) ((hte_of_only hn (by decide) h).trans h2) st
  exact ⟨_, hstep, onlyParts_trans (onlyParts_mono h1 (by decide)) (onlyParts_trans (onlyParts_mono hn (by decide)) (onlyParts_mono g1 (by decide))),
    acted_trans (acted_of_inner h1 (by decide)) (acted_trans hna g2), g3⟩

end

/-! ### A line in X of another slot (Table COH-4) -/

/-- The entry that a request to a line in X of slot `o` writes at its end. -/
def ownedFin (x : Hte) (own o : Nat) : Option DirEnt :=
  match x.msg.op with
  | .rds => some { entOf x.msg.line x.epoch .s with vec := vecOf o ||| vecOf own }
  | .rdo | .upg => some { entOf x.msg.line x.epoch .x with owner := BitVec.ofNat 8 own }
  | .rdc => x.fin
  | _ => some {}

/-- A request that has chosen its entry in way `k`. -/
def choosing (x : Hte) (k own o : Nat) : Hte := { x with key := some k, fin := ownedFin x own o }

/-- A read that the owner answers. -/
def forwarded (x : Hte) (k own o : Nat) (sn : Op) : Hte :=
  { choosing x k own o with awaits := x.awaits ++ [.owner o sn, .reqCmp x.msg.src], wait := .none, cont := .finish }

/-- A request that recalls the owner's copy. -/
def recalling (x : Hte) (k own o : Nat) : Hte :=
  { choosing x k own o with awaits := x.awaits ++ [.owner o .src], wait := .none, cont := .serveI }

section
variable {m : Core} {h k own : Nat} {x : Hte} {d : DirEnt} {e : Env}

theorem setFin_again {n : Core} {y : Hte} {f : DirEnt} :
    setFin (setHte n h y) h (some k) f = setHte n h { y with key := some k, fin := some f } := by
  rw [setFin_eq (hte_setHte_same _ _ _), setHte_setHte]

/-- The forward of a read, and what its HTE then awaits. -/
def forwarding (m : Core) (h : Nat) (y : Hte) (o : Nat) (sn : Op) (src : NodeId) : Core :=
  andThen (await (await (forward (setHte m h y) h sn o false) h (.owner o sn)) h (.reqCmp src)) h .finish

theorem decideX_reads (sn : Op) (hx : hte m h = some x) (hslot : x.slot = some own) (hs : snoopable m x.epoch d.owner.toNat = true)
    (ho : (x.msg.op, sn) ∈ [(Op.rds, Op.sfs), (.rdo, .sfo), (.upg, .sfo), (.rdc, .sfc)]) :
    decideX m h k d e = forwarding m h (choosing x k own d.owner.toNat) d.owner.toNat sn x.msg.src := by
  have hown : x.slot.getD 0 = own := by rw [hslot]; rfl
  have hlost : (!snoopable m x.epoch d.owner.toNat) = false := by rw [hs]; rfl
  unfold decideX
  rw [hx]
  dsimp only
  rw [hlost, hown, modHte_eq hx]
  unfold forwarding choosing ownedFin
  simp only [List.mem_cons, List.not_mem_nil, or_false, Prod.mk.injEq] at ho
  rcases ho with ⟨ho, rfl⟩ | ⟨ho, rfl⟩ | ⟨ho, rfl⟩ | ⟨ho, rfl⟩
  · rw [ho]
    dsimp only
    rw [if_neg Bool.false_ne_true, setFin_again]
  · rw [ho]
    dsimp only
    rw [if_neg Bool.false_ne_true, setFin_again]
  · rw [ho]
    dsimp only
    rw [if_neg Bool.false_ne_true, setFin_again]
  · rw [ho]
    dsimp only
    rw [if_neg Bool.false_ne_true]

theorem forwarding_state {y : Hte} {o : Nat} {sn : Op} {src : NodeId} : Acted m (forwarding m h y o sn src)
    ∧ hte (forwarding m h y o sn src) h = some { y with awaits := y.awaits ++ [.owner o sn, .reqCmp src], wait := .none, cont := .finish }
    ∧ ∀ p, nodeOf m y.epoch o ≠ nodeId m → routeOf m y.epoch (nodeOf m y.epoch o) = some p →
        hteSends (forwarding m h y o sn src) p h (IsForward m h y sn o) := by
  obtain ⟨h1, h2, h3⟩ := forward_state (hte_setHte_same m h y) sn o
  have hy : hte (forward (setHte m h y) h sn o false) h = some y := (h2 h).trans (hte_setHte_same _ _ _)
  have hsends : ∀ p, nodeOf m y.epoch o ≠ nodeId m → routeOf m y.epoch (nodeOf m y.epoch o) = some p →
      hteSends (forward (setHte m h y) h sn o false) p h (IsForward m h y sn o) := h3
  have hact := acted_trans (acted_setHte m h y) h1
  unfold forwarding
  generalize forward (setHte m h y) h sn o false = n at hy hsends hact
  rw [await_eq hy, await_eq (hte_setHte_same _ _ _), setHte_setHte, andThen_eq (hte_setHte_same _ _ _), setHte_setHte]
  refine ⟨acted_trans hact (acted_setHte _ _ _), ?_, fun p hd hr => acted_sends (acted_setHte _ _ _) (hsends p hd hr)⟩
  rw [hte_setHte_same, List.append_assoc]
  rfl

/-- The recall of the owner's copy, and what the HTE then awaits. -/
theorem recallOwner_state {o : Nat} (hx : hte m h = some x) (hs : snoopable m x.epoch o = true) : Acted m (andThen (recallOwner m h x.msg.line o) h .serveI)
    ∧ hte (andThen (recallOwner m h x.msg.line o) h .serveI) h
      = some { x with awaits := x.awaits ++ [.owner o .src], wait := .none, cont := .serveI }
    ∧ ∀ p, nodeOf m x.epoch o ≠ nodeId m → routeOf m x.epoch (nodeOf m x.epoch o) = some p →
        hteSends (andThen (recallOwner m h x.msg.line o) h .serveI) p h (IsSnoop m h x x.msg.line .src o) := by
  obtain ⟨h1, h2, -, h4⟩ := snoop_state hx x.msg.line .src o
  have hy : hte (snoop m h x.msg.line .src o) h = some x := (h2 h).trans hx
  have hrec : recallOwner m h x.msg.line o = await (snoop m h x.msg.line .src o) h (.owner o .src) := by
    unfold recallOwner
    rw [hx]
    exact if_pos hs
  rw [hrec, await_eq hy, andThen_eq (hte_setHte_same _ _ _), setHte_setHte]
  exact ⟨acted_trans h1 (acted_setHte _ _ _), hte_setHte_same _ _ _, fun p hd hr => acted_sends (acted_setHte _ _ _) (h4 p hd hr)⟩

/-- Where a recall begins: a flush has closed its line's entry and dropped its copies. -/
theorem decideX_recalls (own : Nat) (hx : hte m h = some x) (ho : x.msg.op ∈ [Op.wrl, .wrp, .wst, .fls, .atm]) : ∃ n, Acted m n ∧ hte n h = some (choosing x k own d.owner.toNat)
      ∧ decideX m h k d Env.clean = andThen (recallOwner n h x.msg.line d.owner.toNat) h .serveI := by
  have hfin : ownedFin x own d.owner.toNat = some {} := by
    unfold ownedFin
    simp only [List.mem_cons, List.not_mem_nil, or_false] at ho
    rcases ho with ho | ho | ho | ho | ho <;> rw [ho]
  have hset := acted_setHte m h (choosing x k own d.owner.toNat)
  have hy := hte_setHte_same m h (choosing x k own d.owner.toNat)
  have hplain (ho : x.msg.op = .wrl ∨ x.msg.op = .wrp ∨ x.msg.op = .wst ∨ x.msg.op = .atm) :
      decideX m h k d Env.clean = andThen (recallOwner (setHte m h (choosing x k own d.owner.toNat)) h x.msg.line d.owner.toNat) h .serveI := by
    unfold decideX
    rw [hx]
    dsimp only
    rw [modHte_eq hx]
    unfold choosing
    rw [hfin]
    rcases ho with ho | ho | ho | ho <;> (rw [ho]; dsimp only; rw [setFin_again])
  simp only [List.mem_cons, List.not_mem_nil, or_false] at ho
  rcases ho with ho | ho | ho | ho | ho
  · exact ⟨_, hset, hy, hplain (.inl ho)⟩
  · exact ⟨_, hset, hy, hplain (.inr (.inl ho))⟩
  · exact ⟨_, hset, hy, hplain (.inr (.inr (.inl ho)))⟩
  · have hinv := hlcInval_clean_only (setHte m h (choosing x k own d.owner.toNat)) x.msg.line
    refine ⟨mbClose (hlcInval (setHte m h (choosing x k own d.owner.toNat)) x.msg.line .clean) x.msg.line,
      acted_trans hset (acted_trans (acted_of_inner hinv (by decide)) (acted_modCa _ _)), ?_, ?_⟩
    · exact (hte_of_only (modCa_only _ _) (by decide) h).trans ((hte_of_only hinv (by decide) h).trans hy)
    · unfold decideX
      rw [hx]
      dsimp only
      rw [modHte_eq hx]
      unfold choosing
      rw [hfin, ho]
      dsimp only
      rw [setFin_again]
      rfl
  · exact ⟨_, hset, hy, hplain (.inr (.inr (.inr ho)))⟩

end

/-! ### The state of the line -/

section
variable {m : Core} {h k own : Nat} {x : Hte} {d : DirEnt}

theorem checks_clean (m : Core) (l : LineAddr) : mbCheck (alcCheck m l Env.clean.alc) l Env.clean.mbUncorrectable = m := rfl

/-- A request, of whatever opcode, that meets an owner's line and joins no chain. -/
theorem decideState_owned (hx : hte m h = some x) (hf : dirFind m true x.msg.line = some k) (hd : dirEnt m k = d) (hst : d.st = .x)
    (hslot : x.slot = some own) (hne : d.owner.toNat ≠ own) (hch : mayChain m x = false) :
    decideState m h Env.clean = if x.msg.op = .atm then atmWithEntry m h .x Env.clean (fun m => decideX m h k d Env.clean)
      else decideX m h k d Env.clean := by
  unfold decideState
  rw [hx]
  dsimp only
  rw [checks_clean, hf]
  dsimp only
  rw [hd, hst]
  dsimp only
  rw [if_neg (by simp [hslot, hne]), hch, if_neg (by simp)]
  by_cases ho : x.msg.op = .atm <;> simp [ho]

theorem mayChain_congr {n : Core} (hc : n.cfg = m.cfg) : mayChain n x = mayChain m x := by
  have hslot (e : Bool) (i : Nat) : slotEnt n e i = slotEnt m e i := by rw [slotEnt, slotEnt, Machine.setOf, Machine.setOf, hc]
  have hreg : regionOf n x.epoch x.msg.line = regionOf m x.epoch x.msg.line := by
    rw [regionOf, regionOf, regionHits, regionHits, Machine.setOf, Machine.setOf, hc]
  simp only [mayChain, junctionSlot, hslot, hreg]

/-- What a request makes of an owned line: the read is forwarded, anything else recalls the copy. -/
def decidedX (x : Hte) (k own o : Nat) (sn : Op) : Hte := if sn = .src then recalling x k own o else forwarded x k own o sn

/-- The message to the owner. -/
def ToOwner (m : Core) (h : Nat) (x : Hte) (sn : Op) (o : Nat) (g : Msg) : Prop :=
  if sn = .src then IsSnoop m h x x.msg.line .src o g else IsForward m h x sn o g

/-- The requests to an owned line, with what the owner is sent. -/
def ownedRequests : List (Op × Op) :=
  [(.rds, .sfs), (.rdo, .sfo), (.upg, .sfo), (.rdc, .sfc), (.wrl, .src), (.wrp, .src), (.wst, .src), (.fls, .src), (.atm, .src)]

theorem decideX_state {sn : Op} (hx : hte m h = some x) (hslot : x.slot = some own) (hs : snoopable m x.epoch d.owner.toNat = true)
    (ho : (x.msg.op, sn) ∈ ownedRequests) : Acted m (decideX m h k d Env.clean)
      ∧ hte (decideX m h k d Env.clean) h = some (decidedX x k own d.owner.toNat sn)
      ∧ ∀ p, nodeOf m x.epoch d.owner.toNat ≠ nodeId m → routeOf m x.epoch (nodeOf m x.epoch d.owner.toNat) = some p →
          hteSends (decideX m h k d Env.clean) p h (ToOwner m h x sn d.owner.toNat) := by
  have hcases : ((x.msg.op, sn) ∈ [(Op.rds, Op.sfs), (.rdo, .sfo), (.upg, .sfo), (.rdc, .sfc)] ∧ sn ≠ .src)
      ∨ (x.msg.op ∈ [Op.wrl, .wrp, .wst, .fls, .atm] ∧ sn = .src) := by
    simp only [ownedRequests, List.mem_cons, List.not_mem_nil, or_false, Prod.mk.injEq] at ho ⊢
    rcases ho with ⟨h1, rfl⟩ | ⟨h1, rfl⟩ | ⟨h1, rfl⟩ | ⟨h1, rfl⟩ | ⟨h1, rfl⟩ | ⟨h1, rfl⟩ | ⟨h1, rfl⟩ | ⟨h1, rfl⟩ | ⟨h1, rfl⟩ <;> simp [h1]
  rcases hcases with ⟨hreads, hsn⟩ | ⟨hrecalls, rfl⟩
  · obtain ⟨h1, h2, h3⟩ := forwarding_state (m := m) (h := h) (y := choosing x k own d.owner.toNat) (o := d.owner.toNat) (sn := sn) (src := x.msg.src)
    unfold decidedX ToOwner
    rw [if_neg hsn, decideX_reads sn hx hslot hs hreads]
    simp only [if_neg hsn]
    exact ⟨h1, h2, h3⟩
  · obtain ⟨n, hn, hy, he⟩ := decideX_recalls (k := k) (d := d) own hx hrecalls
    have hsn : snoopable n x.epoch d.owner.toNat = true := (acted_snoopable hn _ _).trans hs
    obtain ⟨h1, h2, h3⟩ := recallOwner_state (o := d.owner.toNat) hy hsn
    unfold decidedX ToOwner
    rw [if_pos rfl, he]
    refine ⟨acted_trans hn h1, h2, fun p hd hr => ?_⟩
    have hnode : nodeOf n x.epoch d.owner.toNat = nodeOf m x.epoch d.owner.toNat := acted_nodeOf hn _ _
    refine hteSends_mono (h3 p ?_ ?_) fun g hg => ?_
    · show nodeOf n x.epoch d.owner.toNat ≠ nodeId n
      rw [hnode, acted_node hn]
      exact hd
    · show routeOf n x.epoch (nodeOf n x.epoch d.owner.toNat) = some p
      rw [acted_routes hn, hnode]
      exact hr
    · obtain ⟨g1, g2, g3, g4⟩ := hg
      rw [if_pos rfl]
      exact ⟨g1, g2.trans hnode, g3.trans (acted_node hn), g4⟩

end

/-- QUEUE_HEAD_DECISION runs the decision of the transaction that holds the line. -/
theorem exec_queueHead {s t : State} {h : HteIx} {x : Hte} {op : Op} (hr : running s.m = true) (ha : atDecision s.m h.val x op .decision)
    (hc : clsOf op ≠ .wbk) (ht : t = { s with m := go (decideState (atState s.m h.val x) h.val Env.clean) h.val Env.clean })
    (hf : s.m.trk.htes.find? (fun z => decide (z.2.msg.line = x.msg.line) && decide (z.2.kind = .active) && decide (z.2.wait = .decision))
      = some (h.val, x)) : exec (.queueHeadDecision x.msg.line Env.clean) s = .next t := by
  obtain ⟨hx, hk, hw, -⟩ := id ha
  have hdec : decideIf (fun _ _ => true) h.val Env.clean s.m = go (decideState (atState s.m h.val x) h.val Env.clean) h.val Env.clean :=
    (decideIf_eq Env.clean hx hk hw rfl).trans (decideHte_atDecision ha hc)
  subst ht
  refine clocked_next (f := fun m => match m.trk.htes.find? fun z => decide (z.2.msg.line = x.msg.line) && decide (z.2.kind = .active)
      && decide (z.2.wait = .decision) with
    | some z => decideIf (fun _ _ => true) z.1 Env.clean m
    | none => m) hr ?_
  rw [hf]
  exact hdec

/-- Settles O39: the forward of a read by `forwarding_state`, the recall by `recallOwner_state`. -/
theorem ownedLinesAreForwardedOrRecalled : Obligations.OwnedLinesAreForwardedOrRecalled := by
  intro s h x op sn c k own d hr ha hent hst hslot hne hch hsnoop hatm hc
  obtain ⟨hx, hk, -, -, hop, haw, -, hdone, hfin, -⟩ := id ha
  obtain ⟨hfind, hd⟩ := hent
  have hreq : (c, op) ∈ requests h := by
    simp only [List.mem_cons, List.not_mem_nil, or_false, Prod.mk.injEq, requests] at hc ⊢
    rcases hc with ⟨h1, h2, -⟩ | ⟨h1, h2, -⟩ | ⟨h1, h2, -⟩ | ⟨h1, h2, -⟩ | ⟨h1, h2, -⟩ | ⟨h1, h2, -⟩ | ⟨h1, h2, -⟩ | ⟨h1, h2, -⟩
      | ⟨h1, h2, -⟩ <;> simp [h1, h2]
  have howned : (op, sn) ∈ ownedRequests := by
    simp only [List.mem_cons, List.not_mem_nil, or_false, Prod.mk.injEq, ownedRequests] at hc ⊢
    rcases hc with ⟨-, h1, h2⟩ | ⟨-, h1, h2⟩ | ⟨-, h1, h2⟩ | ⟨-, h1, h2⟩ | ⟨-, h1, h2⟩ | ⟨-, h1, h2⟩ | ⟨-, h1, h2⟩ | ⟨-, h1, h2⟩
      | ⟨-, h1, h2⟩ <;> simp [h1, h2]
  have hstep := exec_request hr ha hreq
  have hqueue := exec_queueHead hr ha (request_cls hreq) rfl
  have hact := atState_acted (m := s.m) (h := h.val) (x := x)
  have hdeck : (atState s.m h.val x).deck = s.m.deck := atState_only .deck (by decide)
  have hxn := hte_atState (m := s.m) (h := h.val) (x := x)
  have hfree : op = .atm → ∃ i, entryFree (atState s.m h.val x) i := fun ho => (hatm ho).2.imp fun i hi => entryFree_atState hx hi
  generalize atState s.m h.val x = m at hstep hqueue hact hdeck hxn hfree
  have hstate := decideState_owned (own := own) hxn ((acted_dirFind hact hdeck _ _).trans hfind) ((dirEnt_congr hdeck k).trans hd) hst hslot hne
    ((mayChain_congr (acted_cfg hact)).trans hch)
  have hdecided : ∃ n z, Acted s.m n ∧ hte n h.val = some z ∧ decideState m h.val Env.clean = decideX n h.val k d Env.clean
      ∧ ∃ i c, z = { deciding x with alcIx := i, counted := c } := by
    by_cases ho : op = .atm
    · obtain ⟨i, hi⟩ := hfree ho
      obtain ⟨n, hn, -, hna, hnx⟩ := atmWithEntry_free hxn (hatm ho).1 hi .x fun m => decideX m h.val k d Env.clean
      exact ⟨n, _, acted_trans hact hna, hnx, hstate.trans ((if_pos (hop.trans ho)).trans hn), _, _, rfl⟩
    · exact ⟨m, _, hact, hxn, hstate.trans (if_neg (by rw [show (deciding x).msg.op = op from hop]; exact ho)), _, _, rfl⟩
  obtain ⟨n, z, hna, hnx, heq, i, b, rfl⟩ := hdecided
  obtain ⟨h1, h2, h3⟩ := decideX_state (k := k) (d := d) (sn := sn) hnx hslot ((acted_snoopable hna _ _).trans hsnoop)
    (show (x.msg.op, sn) ∈ ownedRequests by rw [hop]; exact howned)
  rw [heq] at hstep hqueue
  have hnode : nodeOf n x.epoch d.owner.toNat = nodeOf s.m x.epoch d.owner.toNat := acted_nodeOf hna _ _
  have hsends : ∀ p, nodeOf s.m x.epoch d.owner.toNat ≠ nodeId s.m → routeOf s.m x.epoch (nodeOf s.m x.epoch d.owner.toNat) = some p →
      hteSends (decideX n h.val k d Env.clean) p h.val (ToOwner n h.val { deciding x with alcIx := i, counted := b } sn d.owner.toNat) := by
    intro p hp hroute
    refine h3 p ?_ ?_
    · show nodeOf n x.epoch d.owner.toNat ≠ nodeId n
      rw [hnode, acted_node hna]
      exact hp
    · show routeOf n x.epoch (nodeOf n x.epoch d.owner.toNat) = some p
      rw [acted_routes hna, hnode]
      exact hroute
  have hall := acted_trans hna h1
  generalize decideX n h.val k d Env.clean = q at hstep hqueue hall h2 hsends
  have hy : (decidedX { deciding x with alcIx := i, counted := b } k own d.owner.toNat sn).awaits
      = if sn = .src then [.owner d.owner.toNat .src] else [.owner d.owner.toNat sn, .reqCmp x.msg.src] := by
    unfold decidedX recalling forwarded
    split
    · exact congrArg (· ++ [_]) haw
    · exact congrArg (· ++ [_, _]) haw
  have hkind : (decidedX { deciding x with alcIx := i, counted := b } k own d.owner.toNat sn).kind = .active := by
    unfold decidedX recalling forwarded
    split <;> exact hk
  have hgo := go_halted_served Env.clean h2 (.inl (by rw [hy]; split <;> simp)) hkind
  obtain ⟨cs, hcs⟩ := hgo.own _ h2
  have hall' := acted_trans hall (acted_served hgo)
  have hsends' : ∀ p, nodeOf s.m x.epoch d.owner.toNat ≠ nodeId s.m → routeOf s.m x.epoch (nodeOf s.m x.epoch d.owner.toNat) = some p →
      hteSends (go q h.val Env.clean) p h.val (ToOwner n h.val { deciding x with alcIx := i, counted := b } sn d.owner.toNat) :=
    fun p hp hroute => acted_sends (acted_served hgo) (hsends p hp hroute)
  generalize go q h.val Env.clean = t at hstep hqueue hcs hall' hsends'
  refine ⟨_, _, hstep, hcs, ?_, ?_, ?_, hy, ?_, fun p hp hroute => hteSends_mono (hsends' p hp hroute) fun g hg => ?_, only_next hall'.parts, hqueue⟩
  · unfold decidedX recalling forwarded choosing
    split <;> rfl
  · unfold decidedX recalling forwarded
    split <;> rfl
  · unfold decidedX recalling forwarded
    split <;> exact hdone
  · have hfin' : (decidedX { deciding x with alcIx := i, counted := b } k own d.owner.toNat sn).fin = ownedFin x own d.owner.toNat := by
      unfold decidedX recalling forwarded choosing
      split <;> rfl
    refine hfin'.trans ?_
    simp only [ownedRequests, List.mem_cons, List.not_mem_nil, or_false, Prod.mk.injEq] at howned
    rcases howned with ⟨h1, -⟩ | ⟨h1, -⟩ | ⟨h1, -⟩ | ⟨h1, -⟩ | ⟨h1, -⟩ | ⟨h1, -⟩ | ⟨h1, -⟩ | ⟨h1, -⟩ | ⟨h1, -⟩ <;>
      simp [ownedFin, hop, h1, hfin]
  · have hid : nodeId n = nodeId s.m := acted_node hna
    unfold ToOwner at hg
    split at hg
    · next hsn =>
      obtain ⟨g1, g2, g3, g4, g5, g6, g7, g8, g9, g10⟩ := hg
      rw [if_pos hsn]
      exact ⟨g1.trans hsn.symm, g2.trans hnode, g3.trans hid, g4, g5, g6, g7, g8, g9, g10⟩
    · next hsn =>
      obtain ⟨g1, g2, g3, g4, g5, g6, g7, g8, g9, g10⟩ := hg
      rw [if_neg hsn]
      exact ⟨g1, g2.trans hnode, g3.trans hid, g4, g5, g6, g7, g8, g9, g10⟩

end Sys2Proof.OwnedLines
end

section
/-! PROOFS. The S column of Table COH-4 (Machine/Home.lean, R113, R114), with the statement about shared lines. -/

namespace Sys2Proof.SharedLines

open Sys2Proof.Machine Sys2Proof.Laws Sys2Proof.Windows Sys2Proof.Sending Sys2Proof.Flits Sys2Proof.Channels Sys2Proof.Transactions
  Sys2Proof.Units Sys2Proof.Lookups Sys2Proof.Merging Sys2Proof.TrackerRuns Sys2Proof.GoingOn Sys2Proof.ReadReturns
  Sys2Proof.CacheRuns Sys2Proof.Decisions Sys2Proof.OwnedLines

/-! ### An invalidation round -/

/-- An HTE that awaits the answers of the slots that a round has snooped. -/
def snooping (m : Core) (y : Hte) (is : List Nat) : Hte :=
  { y with awaits := y.awaits ++ (is.filter fun i => snoopable m y.epoch i).map .ria }

/-- The slots of a list are sent `SIN` in their order, those that are snooped. -/
theorem sinFold_state {h : Nat} (l : LineAddr) (e : Bool) (is : List Nat) : ∀ {m : Core} {y : Hte}, hte m h = some y → y.epoch = e →
    Acted m (is.foldl (fun m i => if snoopable m e i then await (snoop m h l .sin i) h (.ria i) else m) m)
    ∧ hte (is.foldl (fun m i => if snoopable m e i then await (snoop m h l .sin i) h (.ria i) else m) m) h = some (snooping m y is)
    ∧ ∀ i ∈ is, snoopable m e i = true → ∀ p, nodeOf m e i ≠ nodeId m → routeOf m e (nodeOf m e i) = some p →
        hteSends (is.foldl (fun m i => if snoopable m e i then await (snoop m h l .sin i) h (.ria i) else m) m) p h
          (IsSnoop m h y l .sin i) := by
  induction is with
  | nil =>
    intro m y hy _
    refine ⟨acted_refl m, ?_, fun i hi => absurd hi (by simp)⟩
    rw [List.foldl_nil, hy, snooping, List.filter_nil, List.map_nil, List.append_nil]
  | cons j r ih =>
    intro m y hy he
    subst he
    rw [List.foldl_cons]
    by_cases hs : snoopable m y.epoch j = true
    · rw [if_pos hs]
      obtain ⟨h1, h2, -, h4⟩ := snoop_state hy l .sin j
      have hyn : hte (snoop m h l .sin j) h = some y := (h2 h).trans hy
      rw [await_eq hyn]
      have hact := acted_trans h1 (acted_setHte _ h { y with awaits := y.awaits ++ [.ria j] })
      have hset := hte_setHte_same (snoop m h l .sin j) h { y with awaits := y.awaits ++ [.ria j] }
      have hfirst : ∀ p, nodeOf m y.epoch j ≠ nodeId m → routeOf m y.epoch (nodeOf m y.epoch j) = some p →
          hteSends (setHte (snoop m h l .sin j) h { y with awaits := y.awaits ++ [.ria j] }) p h (IsSnoop m h y l .sin j) :=
        fun p hd hr => acted_sends (acted_setHte _ _ _) (h4 p hd hr)
      generalize setHte (snoop m h l .sin j) h { y with awaits := y.awaits ++ [.ria j] } = n at hact hset hfirst
      obtain ⟨g1, g2, g3⟩ := ih hset rfl
      have hsn (i : Nat) : snoopable n y.epoch i = snoopable m y.epoch i := acted_snoopable hact _ _
      refine ⟨acted_trans hact g1, g2.trans ?_, fun i hi hsi p hd hr => ?_⟩
      · simp only [snooping, hsn]
        rw [List.filter_cons_of_pos hs, List.map_cons, List.append_assoc]
        rfl
      · rcases List.mem_cons.1 hi with rfl | hi
        · exact acted_sends g1 (hfirst p hd hr)
        · have hnode : nodeOf n y.epoch i = nodeOf m y.epoch i := acted_nodeOf hact _ _
          refine hteSends_mono (g3 i hi ((hsn i).trans hsi) p (by rw [hnode, acted_node hact]; exact hd)
            (by rw [acted_routes hact, hnode]; exact hr)) fun g hg => ?_
          obtain ⟨k1, k2, k3, k4⟩ := hg
          exact ⟨k1, k2.trans hnode, k3.trans (acted_node hact), k4⟩
    · rw [if_neg hs]
      obtain ⟨g1, g2, g3⟩ := ih hy rfl
      refine ⟨g1, g2.trans ?_, fun i hi hsi => ?_⟩
      · rw [snooping, snooping, List.filter_cons_of_neg hs]
      · rcases List.mem_cons.1 hi with rfl | hi
        · exact absurd hsi hs
        · exact g3 i hi hsi

theorem mem_slotsIn {v : BitVec 256} {i : Nat} : i ∈ slotsIn v ↔ i < 256 ∧ v.getLsbD i = true := by
  rw [slotsIn, List.mem_filter, List.mem_range]

theorem sinRound_state {m : Core} {h : Nat} {y : Hte} (hy : hte m h = some y) (l : LineAddr) (v : BitVec 256) :
    Acted m (sinRound m h l v) ∧ hte (sinRound m h l v) h = some (snooping m y (slotsIn v))
    ∧ ∀ i ∈ slotsIn v, snoopable m y.epoch i = true → ∀ p, nodeOf m y.epoch i ≠ nodeId m →
        routeOf m y.epoch (nodeOf m y.epoch i) = some p → hteSends (sinRound m h l v) p h (IsSnoop m h y l .sin i) := by
  have heq : sinRound m h l v
      = (slotsIn v).foldl (fun m i => if snoopable m y.epoch i then await (snoop m h l .sin i) h (.ria i) else m) m := by
    rw [sinRound, hy]
  rw [heq]
  exact sinFold_state l y.epoch (slotsIn v) hy rfl

/-! ### What follows a round -/

/-- An HTE that awaits more, no invalidation among it. -/
structure Extends (y z : Hte) : Prop where
  awaits : ∃ more, z.awaits = y.awaits ++ more ∧ ∀ i, Await.ria i ∉ more
  key : z.key = y.key
  fin : z.fin = y.fin
  done : z.done = y.done
  kind : z.kind = y.kind

theorem extends_refl (y : Hte) : Extends y y := ⟨⟨[], (List.append_nil _).symm, fun _ => by simp⟩, rfl, rfl, rfl, rfl⟩

theorem extends_readInto {y z : Hte} (hr : ReadInto y z) : Extends y z := by
  rcases hr with ⟨d, p, rfl⟩ | ⟨d, k, p, rfl⟩
  · exact ⟨⟨[], (List.append_nil _).symm, fun _ => by simp⟩, rfl, rfl, rfl, rfl⟩
  · exact ⟨⟨[.mem], rfl, fun _ => by simp⟩, rfl, rfl, rfl, rfl⟩

theorem extends_awaitsMb (y : Hte) : Extends y (awaitsMb y) := by
  unfold awaitsMb
  split
  · exact extends_refl y
  · exact ⟨⟨[.mbIn], rfl, fun _ => by simp⟩, rfl, rfl, rfl, rfl⟩

/-- A step that leaves an HTE's choice of entry and can make it await memory. -/
def Quiet (h : Nat) (f : Core → Core) : Prop := ∀ q y, hte q h = some y → Acted q (f q) ∧ ∃ z, hte (f q) h = some z ∧ Extends y z

theorem quiet_id (h : Nat) : Quiet h fun q => q := fun q y hy => ⟨acted_refl q, y, hy, extends_refl y⟩

theorem quiet_memRead (h : Nat) (l : LineAddr) (kind : RdKind) (cls : Nat) : Quiet h fun q => memRead q h l kind cls .clean := by
  intro q y hy
  obtain ⟨-, h2, z, hz, hr⟩ := memRead_state hy l kind cls
  exact ⟨h2, z, hz, extends_readInto hr⟩

theorem quiet_memWriteAs (h : Nat) (req : Bool) (l : LineAddr) (d : LineData) (k : ByteMask) (p : Bool) :
    Quiet h fun q => memWriteAs req q h l d k p .clean := by
  intro q y hy
  have hw := memWriteAs_wrote req q h l d k p
  refine ⟨acted_wrote hw, ?_⟩
  rcases hte_wrote hw hy with hz | hz
  · exact ⟨_, hz, extends_refl y⟩
  · exact ⟨_, hz, extends_awaitsMb y⟩

/-! ### The S column -/

/-- The entry that a request which invalidates a shared line writes at its end. -/
def sharedFin (x : Hte) (own : Nat) : DirEnt :=
  if x.msg.op = .rdo ∨ x.msg.op = .upg then { entOf x.msg.line x.epoch .x with owner := BitVec.ofNat 8 own } else {}

/-- The slots that it invalidates. -/
def toInvalidate (op : Op) (d : DirEnt) (own : Nat) : BitVec 256 := if op = .rdo ∨ op = .upg then d.vec &&& ~~~(vecOf own) else d.vec

/-- A request that has chosen what it writes in way `k`. -/
def chosen (x : Hte) (k : Nat) (f : DirEnt) : Hte := { x with key := some k, fin := some f }

section
variable {m : Core} {h k own : Nat} {x : Hte} {d : DirEnt}

theorem decideS_shape (hx : hte m h = some x) (hslot : x.slot = some own) (ho : x.msg.op ∈ [Op.rdo, .upg, .wrl, .wrp, .wst, .fls, .atm]) :
    ∃ n f c, Acted m n ∧ hte n h = some (chosen x k (sharedFin x own)) ∧ Quiet h f
      ∧ decideS m h k d Env.clean = andThen (f (sinRound n h x.msg.line (toInvalidate x.msg.op d own))) h c := by
  have hown : x.slot.getD 0 = own := by rw [hslot]; rfl
  have hset := acted_setHte m h (chosen x k (sharedFin x own))
  have hy := hte_setHte_same m h (chosen x k (sharedFin x own))
  have hinv := hlcInval_clean_only (setHte m h (chosen x k (sharedFin x own))) x.msg.line
  have hclosed : Acted m (mbClose (hlcInval (setHte m h (chosen x k (sharedFin x own))) x.msg.line .clean) x.msg.line)
      ∧ hte (mbClose (hlcInval (setHte m h (chosen x k (sharedFin x own))) x.msg.line .clean) x.msg.line) h
        = some (chosen x k (sharedFin x own)) :=
    ⟨acted_trans hset (acted_trans (acted_of_inner hinv (by decide)) (acted_modCa _ _)),
      (hte_of_only (modCa_only _ _) (by decide) h).trans ((hte_of_only hinv (by decide) h).trans hy)⟩
  have hfin (f : DirEnt) (hf : sharedFin x own = f) : setFin m h (some k) f = setHte m h (chosen x k (sharedFin x own)) := by
    rw [setFin_eq hx, hf]
    rfl
  unfold decideS
  rw [hx]
  dsimp only
  rw [hown]
  unfold toInvalidate
  simp only [List.mem_cons, List.not_mem_nil, or_false] at ho
  rcases ho with ho | ho | ho | ho | ho | ho | ho
  · rw [ho]
    dsimp only
    rw [hfin _ (by rw [sharedFin, ho]; rfl), if_pos (by simp)]
    exact ⟨_, _, _, hset, hy, quiet_memRead h _ _ _, rfl⟩
  · rw [ho]
    dsimp only
    rw [hfin _ (by rw [sharedFin, ho]; rfl), if_pos (show Op.upg = .rdo ∨ Op.upg = .upg from .inr rfl)]
    by_cases hin : (x.slot.isSome && d.vec.getLsbD own) = true
    · rw [if_pos hin]
      exact ⟨_, _, _, hset, hy, quiet_id h, rfl⟩
    · rw [if_neg hin]
      exact ⟨_, _, _, hset, hy, quiet_memRead h _ _ _, rfl⟩
  · rw [ho]
    dsimp only
    rw [hfin _ (by rw [sharedFin, ho]; rfl), if_neg (by simp)]
    exact ⟨_, _, _, hset, hy, quiet_memWriteAs h true _ _ _ _, rfl⟩
  · rw [ho]
    dsimp only
    rw [hfin _ (by rw [sharedFin, ho]; rfl), if_neg (by simp)]
    exact ⟨_, _, _, hset, hy, quiet_memWriteAs h true _ _ _ _, rfl⟩
  · rw [ho]
    dsimp only
    rw [hfin _ (by rw [sharedFin, ho]; rfl), if_neg (by simp)]
    exact ⟨_, _, _, hset, hy, quiet_id h, rfl⟩
  · rw [ho]
    dsimp only
    rw [hfin _ (by rw [sharedFin, ho]; rfl), if_neg (by simp)]
    exact ⟨_, _, _, hclosed.1, hclosed.2, quiet_id h, rfl⟩
  · rw [ho]
    dsimp only
    rw [hfin _ (by rw [sharedFin, ho]; rfl), if_neg (by simp)]
    exact ⟨_, _, _, hset, hy, quiet_memRead h _ _ _, rfl⟩

theorem decideS_state (hx : hte m h = some x) (hslot : x.slot = some own) (ho : x.msg.op ∈ [Op.rdo, .upg, .wrl, .wrp, .wst, .fls, .atm]) :
    Acted m (decideS m h k d Env.clean) ∧ (∃ z c, hte (decideS m h k d Env.clean) h = some { z with wait := .none, cont := c }
      ∧ Extends (snooping m (chosen x k (sharedFin x own)) (slotsIn (toInvalidate x.msg.op d own))) z)
    ∧ ∀ i ∈ slotsIn (toInvalidate x.msg.op d own), snoopable m x.epoch i = true → ∀ p, nodeOf m x.epoch i ≠ nodeId m →
        routeOf m x.epoch (nodeOf m x.epoch i) = some p →
        hteSends (decideS m h k d Env.clean) p h (IsSnoop m h x x.msg.line .sin i) := by
  obtain ⟨n, f, c, hn, hy, hf, he⟩ := decideS_shape (k := k) (d := d) hx hslot ho
  obtain ⟨s1, s2, s3⟩ := sinRound_state hy x.msg.line (toInvalidate x.msg.op d own)
  obtain ⟨f1, z, f2, f3⟩ := hf _ _ s2
  have hsn (i : Nat) : snoopable n x.epoch i = snoopable m x.epoch i := acted_snoopable hn _ _
  have hsame : snooping n (chosen x k (sharedFin x own)) (slotsIn (toInvalidate x.msg.op d own))
      = snooping m (chosen x k (sharedFin x own)) (slotsIn (toInvalidate x.msg.op d own)) := by
    simp only [snooping, show (chosen x k (sharedFin x own)).epoch = x.epoch from rfl, hsn]
  rw [hsame] at f3
  rw [he, andThen_eq f2]
  refine ⟨acted_trans hn (acted_trans s1 (acted_trans f1 (acted_setHte _ _ _))), ⟨z, c, hte_setHte_same _ _ _, f3⟩, fun i hi hsi p hd hr => ?_⟩
  have hnode : nodeOf n x.epoch i = nodeOf m x.epoch i := acted_nodeOf hn _ _
  refine acted_sends (acted_trans f1 (acted_setHte _ _ _)) (hteSends_mono (s3 i hi ((hsn i).trans hsi) p ?_ ?_) fun g hg => ?_)
  · show nodeOf n x.epoch i ≠ nodeId n
    rw [hnode, acted_node hn]
    exact hd
  · show routeOf n x.epoch (nodeOf n x.epoch i) = some p
    rw [acted_routes hn, hnode]
    exact hr
  · obtain ⟨k1, k2, k3, k4⟩ := hg
    exact ⟨k1, k2.trans hnode, k3.trans (acted_node hn), k4⟩

/-- A request at its decision, an atomic with the ALC entry that it has taken. -/
def prepared (x : Hte) (i : Option Nat) (b : Bool) : Hte := { deciding x with alcIx := i, counted := b }

theorem decideState_shared (hx : hte m h = some x) (hf : dirFind m true x.msg.line = some k) (hd : dirEnt m k = d) (hst : d.st = .s) :
    decideState m h Env.clean = if x.msg.op = .atm then atmWithEntry m h .s Env.clean (fun m => decideS m h k d Env.clean)
      else decideS m h k d Env.clean := by
  unfold decideState
  rw [hx]
  dsimp only
  rw [checks_clean, hf]
  dsimp only
  rw [hd, hst]
  by_cases ho : x.msg.op = .atm <;> simp [ho]

end

section
variable {m : Core} {h k own : Nat} {x : Hte} {d : DirEnt}

theorem decideS_rds (hx : hte m h = some x) (ho : x.msg.op = .rds) (hslot : x.slot = some own) : decideS m h k d Env.clean
    = andThen (memRead (setHte m h (chosen x k { entOf x.msg.line x.epoch .s with vec := d.vec ||| vecOf own })) h x.msg.line .demand
        (classOf m x.epoch x.msg.line x.slot) .clean) h .answer := by
  unfold decideS
  rw [hx]
  dsimp only
  rw [ho]
  dsimp only
  rw [setFin_eq hx, show x.slot.getD 0 = own by rw [hslot]; rfl]
  rfl

theorem decideS_rdc (hx : hte m h = some x) (ho : x.msg.op = .rdc) : decideS m h k d Env.clean
    = andThen (memRead m h x.msg.line .demand (classOf m x.epoch x.msg.line x.slot) .clean) h .answer := by
  unfold decideS
  rw [hx]
  dsimp only
  rw [ho]
  rfl

end

/-! ### Reads that the home answers -/

/-- The message that ends a request is sent, wherever it goes. -/
theorem sendEnd_own {m : Core} {h : Nat} {x y : Hte} {g : Msg} (hy : hte m h = some y) : Acted m (sendEnd m h x g)
    ∧ hte (sendEnd m h x g) h = some { y with ended := true, done := true, wait := .none, cont := .idle } := by
  have hy' : hte (sendH m h x g) h = some y := (hte_sendH g h).trans hy
  rw [sendEnd, modHte_eq hy']
  exact ⟨acted_trans (acted_sendH g) (acted_setHte _ _ _), hte_setHte_same _ _ _⟩

/-- An HTE that has read memory for a request answered with data goes on: it ends, or awaits the data. -/
theorem go_read {m : Core} {h : Nat} {x : Hte} (hx : hte m h = some x) (ha : x.awaits = []) (hd : x.done = false) (hk : x.kind = .active)
    (ho : x.msg.op ∈ [Op.rds, .rdo, .upg, .rdc]) (l : LineAddr) (cls : Nat) :
    Acted m (go (andThen (memRead m h l .demand cls .clean) h .answer) h Env.clean)
    ∧ ∃ y, hte (go (andThen (memRead m h l .demand cls .clean) h .answer) h Env.clean) h = some y ∧ y.key = x.key ∧ y.fin = x.fin
      ∧ (y.done = true ∧ y.awaits = [] ∨ y.done = false ∧ y.awaits = [.mem]) := by
  obtain ⟨-, h2, z, hz, hr⟩ := memRead_state hx l .demand cls
  rw [andThen_eq hz]
  have hset := hte_setHte_same (memRead m h l .demand cls .clean) h { z with wait := .none, cont := .answer }
  have hact := acted_trans h2 (acted_setHte _ h { z with wait := .none, cont := .answer })
  generalize setHte (memRead m h l .demand cls .clean) h { z with wait := .none, cont := .answer } = n at hset hact
  rcases hr with ⟨d, p, rfl⟩ | ⟨d, k, p, rfl⟩
  · obtain ⟨q, cs, hq, hxq, hgo⟩ := go_once_served Env.clean hset ha rfl hd (by simp) hk
    have hans : ∃ op, dataAnswer x op := by
      simp only [List.mem_cons, List.not_mem_nil, or_false] at ho
      rcases ho with ho | ho | ho | ho
      · exact ⟨_, .inl ⟨ho, rfl⟩⟩
      · exact ⟨_, .inr (.inl ⟨ho, rfl⟩)⟩
      · exact ⟨_, .inr (.inr (.inl ⟨ho, rfl⟩))⟩
      · exact ⟨_, .inr (.inr (.inr ⟨ho, rfl⟩))⟩
    obtain ⟨op, hop⟩ := hans
    rw [runCont_answer rfl, homeAnswer_data hxq hop rfl] at hgo
    obtain ⟨e1, e2⟩ := sendEnd_own (x := { x with buf := d, bufPoison := p, haveBuf := true, wait := .none, cont := .answer, cmps := cs })
      (g := { toReq x h op with data := d, poison := p }) hxq
    have hlast := hgo _ e2 (.inr (.inr (.inl rfl))) hk
    obtain ⟨cs', hend⟩ := hlast.own _ e2
    exact ⟨acted_trans hact (acted_trans (acted_served hq) (acted_trans e1 (acted_served hlast))), _, hend, rfl, rfl, .inl ⟨rfl, ha⟩⟩
  · have hgo := go_halted_served Env.clean hset (.inl (by simp)) hk
    obtain ⟨cs, hend⟩ := hgo.own _ hset
    refine ⟨acted_trans hact (acted_served hgo), _, hend, rfl, rfl, .inr ⟨hd, ?_⟩⟩
    show x.awaits ++ [.mem] = _
    rw [ha, List.nil_append]

/-- Settles O40: an invalidation by `decideS_state`, a read by `go_read`. -/
theorem sharedLinesAreInvalidated : Obligations.SharedLinesAreInvalidated := by
  refine ⟨fun s h x op c k own d v hr ha hent hst hslot hatm hc hany => ?_, fun s h x k own d hr ha hent hst hslot => ?_,
    fun s h x k own d hr ha hent hst hslot => ?_⟩
  · obtain ⟨hx, hk, -, -, hop, haw, -, hdone, -⟩ := id ha
    obtain ⟨hfind, hd⟩ := hent
    have hreq : (c, op) ∈ requests h := by
      simp only [List.mem_cons, List.not_mem_nil, or_false, Prod.mk.injEq, requests] at hc ⊢
      rcases hc with ⟨h1, h2, -⟩ | ⟨h1, h2, -⟩ | ⟨h1, h2, -⟩ | ⟨h1, h2, -⟩ | ⟨h1, h2, -⟩ | ⟨h1, h2, -⟩ | ⟨h1, h2, -⟩ <;> simp [h1, h2]
    have hops : x.msg.op ∈ [Op.rdo, .upg, .wrl, .wrp, .wst, .fls, .atm] ∧ toInvalidate x.msg.op d own = v := by
      simp only [List.mem_cons, List.not_mem_nil, or_false, Prod.mk.injEq] at hc
      rcases hc with ⟨-, h1, h2⟩ | ⟨-, h1, h2⟩ | ⟨-, h1, h2⟩ | ⟨-, h1, h2⟩ | ⟨-, h1, h2⟩ | ⟨-, h1, h2⟩ | ⟨-, h1, h2⟩ <;>
        simp [hop, h1, h2, toInvalidate]
    obtain ⟨hmem, hv⟩ := hops
    have hstep := exec_request hr ha hreq
    have hact := atState_acted (m := s.m) (h := h.val) (x := x)
    have hdeck : (atState s.m h.val x).deck = s.m.deck := atState_only .deck (by decide)
    have hxn := hte_atState (m := s.m) (h := h.val) (x := x)
    have hfree : op = .atm → ∃ i, entryFree (atState s.m h.val x) i := fun ho => (hatm ho).2.imp fun i hi => entryFree_atState hx hi
    generalize atState s.m h.val x = m at hstep hact hdeck hxn hfree
    have hstate := decideState_shared hxn ((acted_dirFind hact hdeck _ _).trans hfind) ((dirEnt_congr hdeck k).trans hd) hst
    have hdecided : ∃ n z, Acted s.m n ∧ hte n h.val = some z ∧ decideState m h.val Env.clean = decideS n h.val k d Env.clean
        ∧ ∃ i c, z = prepared x i c := by
      by_cases ho : op = .atm
      · obtain ⟨i, hi⟩ := hfree ho
        obtain ⟨n, hn, -, hna, hnx⟩ := atmWithEntry_free hxn (hatm ho).1 hi .s fun m => decideS m h.val k d Env.clean
        exact ⟨n, _, acted_trans hact hna, hnx, hstate.trans ((if_pos (hop.trans ho)).trans hn), _, _, rfl⟩
      · exact ⟨m, _, hact, hxn, hstate.trans (if_neg (by rw [show (deciding x).msg.op = op from hop]; exact ho)), _, _, rfl⟩
    obtain ⟨n, z, hna, hnx, heq, i, b, rfl⟩ := hdecided
    obtain ⟨h1, ⟨y, ct, h2, h3⟩, h4⟩ := decideS_state (k := k) (d := d) (own := own) hnx hslot hmem
    have hv' : toInvalidate (prepared x i b).msg.op d own = v := hv
    rw [hv'] at h3 h4
    rw [heq] at hstep
    have hall := acted_trans hna h1
    generalize decideS n h.val k d Env.clean = q at hstep hall h2 h4
    have hsn (i : Nat) : snoopable n x.epoch i = snoopable s.m x.epoch i := acted_snoopable hna _ _
    obtain ⟨⟨more, hmore, hno⟩, hkey, hfin, hdn, hkind⟩ := h3
    have hawaits : ∀ i < 256, (v.getLsbD i = true ∧ snoopable s.m x.epoch i = true) ↔ Await.ria i ∈ y.awaits := by
      intro i hi
      have hnone : Await.ria i ∉ x.awaits := by rw [haw]; simp
      rw [hmore]
      simp only [snooping, chosen, prepared, deciding, List.mem_append, hno, or_false, hnone, false_or, List.mem_map, List.mem_filter, mem_slotsIn, hsn,
        Await.ria.injEq, exists_eq_right, hi, true_and]
    have hsome : y.awaits ≠ [] := by
      obtain ⟨i, hi, hvi, hsi⟩ := hany
      intro he
      have := (hawaits i hi).1 ⟨hvi, hsi⟩
      rw [he] at this
      cases this
    have hgo := go_halted_served Env.clean h2 (.inl hsome) (hkind.trans hk)
    obtain ⟨cs, hcs⟩ := hgo.own _ h2
    have hall' := acted_trans hall (acted_served hgo)
    have hsends : ∀ i ∈ slotsIn v, snoopable n x.epoch i = true → ∀ p, nodeOf n x.epoch i ≠ nodeId n →
        routeOf n x.epoch (nodeOf n x.epoch i) = some p →
        hteSends (go q h.val Env.clean) p h.val (IsSnoop n h.val (prepared x i b) x.msg.line .sin i) :=
      fun i hi hsi p hnd hroute => acted_sends (acted_served hgo) (h4 i hi hsi p hnd hroute)
    generalize go q h.val Env.clean = t at hstep hcs hall' hsends
    refine ⟨_, _, hstep, hcs, hkey, hdn.trans hdone, hfin.trans ?_, hawaits, fun i hi p hvi hsi hnd hroute => ?_, only_next hall'.parts⟩
    · show some (sharedFin x own) = _
      rw [sharedFin, hop]
      split <;> rfl
    · have hnode : nodeOf n x.epoch i = nodeOf s.m x.epoch i := acted_nodeOf hna _ _
      refine hteSends_mono (hsends i (mem_slotsIn.2 ⟨hi, hvi⟩) ((hsn i).trans hsi) p (by rw [hnode, acted_node hna]; exact hnd)
        (by rw [acted_routes hna, hnode]; exact hroute)) fun g hg => ?_
      obtain ⟨k1, k2, -, k4, -, k6, -⟩ := hg
      exact ⟨k1, k2.trans hnode, k6, k4⟩
  · obtain ⟨hx, hk, -, -, hop, haw, -, hdone, -⟩ := id ha
    obtain ⟨hfind, hd⟩ := hent
    have hstep := exec_request (c := .rds h Env.clean) hr ha (by simp [requests])
    have hact := atState_acted (m := s.m) (h := h.val) (x := x)
    have hdeck : (atState s.m h.val x).deck = s.m.deck := atState_only .deck (by decide)
    have hxn := hte_atState (m := s.m) (h := h.val) (x := x)
    generalize atState s.m h.val x = m at hstep hact hdeck hxn
    have hstate := decideState_shared hxn ((acted_dirFind hact hdeck _ _).trans hfind) ((dirEnt_congr hdeck k).trans hd) hst
    have hopx : (deciding x).msg.op = .rds := hop
    rw [hopx, if_neg (by decide), decideS_rds hxn hopx hslot] at hstate
    rw [hstate] at hstep
    obtain ⟨g1, y, g2, g3, g4, g5⟩ := go_read (m := setHte m h.val (chosen (deciding x) k { entOf x.msg.line x.epoch .s with vec := d.vec ||| vecOf own }))
      (h := h.val) (hte_setHte_same _ _ _) haw hdone hk (by rw [show (chosen (deciding x) k _).msg.op = .rds from hop]; simp) x.msg.line
      (classOf m x.epoch x.msg.line x.slot)
    have hall := acted_trans hact (acted_trans (acted_setHte _ _ _) g1)
    exact ⟨_, y, hstep, g2, g3, g4, g5, only_next hall.parts⟩
  · obtain ⟨hx, hk, -, -, hop, haw, -, hdone, hfin, -⟩ := id ha
    obtain ⟨hfind, hd⟩ := hent
    have hstep := exec_request (c := .rdc h Env.clean) hr ha (by simp [requests])
    have hact := atState_acted (m := s.m) (h := h.val) (x := x)
    have hdeck : (atState s.m h.val x).deck = s.m.deck := atState_only .deck (by decide)
    have hxn := hte_atState (m := s.m) (h := h.val) (x := x)
    generalize atState s.m h.val x = m at hstep hact hdeck hxn
    have hstate := decideState_shared hxn ((acted_dirFind hact hdeck _ _).trans hfind) ((dirEnt_congr hdeck k).trans hd) hst
    have hopx : (deciding x).msg.op = .rdc := hop
    rw [hopx, if_neg (by decide), decideS_rdc hxn hopx] at hstate
    rw [hstate] at hstep
    obtain ⟨g1, y, g2, -, g4, g5⟩ := go_read hxn haw hdone hk (by rw [hopx]; simp) x.msg.line (classOf m x.epoch x.msg.line x.slot)
    exact ⟨_, y, hstep, g2, g4.trans hfin, g5, only_next (acted_trans hact g1).parts⟩

end Sys2Proof.SharedLines
end

section
/-! PROOFS. The I column of Table COH-4 (Machine/Home.lean, R110, R113, R118, R195, R220, R221, R306), with the statement about
lines that the directory does not list. -/

namespace Sys2Proof.UnlistedLines

open Sys2Proof.Machine Sys2Proof.Laws Sys2Proof.Windows Sys2Proof.Sending Sys2Proof.Flits Sys2Proof.Channels Sys2Proof.Transactions
  Sys2Proof.Units Sys2Proof.Lookups Sys2Proof.Merging Sys2Proof.TrackerRuns Sys2Proof.GoingOn Sys2Proof.Writebacks Sys2Proof.ReadReturns
  Sys2Proof.CacheRuns Sys2Proof.Decisions Sys2Proof.OwnedLines Sys2Proof.SharedLines

/-! ### The choice of a way (R306) -/

section
variable {m : Core} {h set : Nat} {x y : Hte}

theorem wayHeld_setHte (hx : hte m h = some x) (hs : SameLines x y) (k : Nat) : wayHeld (setHte m h y) h k = wayHeld m h k := by
  have hany : ((setHte m h y).trk.htes.any fun x => decide (x.1 ≠ h) && decide (x.2.key = some k) && decide (x.2.kind ≠ .quarantined))
      = m.trk.htes.any fun x => decide (x.1 ≠ h) && decide (x.2.key = some k) && decide (x.2.kind ≠ .quarantined) :=
    any_tset hx (by simp)
  unfold wayHeld
  rw [hany, lineHeld_setHte hx hs]
  rfl

/-- The free way that a request takes depends on the directory, on the HTEs and on the split alone. -/
theorem freeWay_congr {n : Core} {k : Nat} (hd : n.deck = m.deck) (hr : rget n 0x1000 = rget m 0x1000)
    (hh : ∀ k, wayHeld n h k = wayHeld m h k) (hp : (pickWay m h true set false).1 = .free k) : pickWay n h true set false = (.free k, n) := by
  have hways : waysOf n true = waysOf m true := by
    unfold waysOf split rfld
    rw [hr]
  have hent (j : Nat) : dirEnt n j = dirEnt m j := dirEnt_congr hd j
  unfold pickWay at hp ⊢
  dsimp only at hp ⊢
  simp only [hways, hent, hh]
  split at hp
  · next w hw =>
    injection hp with hp
    rw [hp]
  · next hw =>
    split at hp <;> cases hp

theorem freeWay_setHte {k : Nat} (hx : hte m h = some x) (hs : SameLines x y) (hp : (pickWay m h true set false).1 = .free k) :
    (pickWay (setHte m h y) h true set false).1 = .free k := by
  rw [freeWay_congr (m := m) (n := setHte m h y) rfl rfl (wayHeld_setHte hx hs) hp]

theorem freeWay_inner {ps : List Part} {n : Core} {k : Nat} (ho : m.onlyParts ps n) (hd : Part.deck ∉ ps) (ht : Part.trk ∉ ps) (ha : Acted m n)
    (hp : (pickWay m h true set false).1 = .free k) : pickWay n h true set false = (.free k, n) := by
  have htrk : n.trk = m.trk := ho .trk ht
  have hdeck : n.deck = m.deck := ho .deck hd
  exact freeWay_congr hdeck (ha.regs 0x1000 (by decide))
    (fun j => by rw [wayHeld, wayHeld, dirEnt_congr hdeck, lineHeld, lineHeld, htrk]) hp

theorem freeWay_atState {k : Nat} (hx : hte m h = some x) (hp : (pickWay m h true set false).1 = .free k) :
    pickWay (atState m h x) h true set false = (.free k, atState m h x) :=
  freeWay_inner (counted_only _ _) (by decide) (by decide) (counted_acted _ _)
    (freeWay_setHte (y := deciding x) hx ⟨rfl, rfl, rfl, rfl⟩ hp)

/-- A request in the way that it takes. -/
def inWay (x : Hte) (k : Nat) : Hte := { x with key := some k }

theorem takeWay_free {k : Nat} (hx : hte m h = some x) (hp : pickWay m h true (dirSet x.msg.line) false = (.free k, m)) :
    takeWay m h Env.clean = serveI (setHte m h (inWay x k)) h Env.clean := by
  unfold takeWay
  rw [hx]
  dsimp only
  rw [show Env.clean.ptrParity = false from rfl, hp]
  dsimp only
  rw [modHte_eq hx]
  rfl

theorem decideState_none (hx : hte m h = some x) (hf : dirFind m true x.msg.line = none) :
    decideState m h Env.clean = decideNone m h Env.clean := by
  unfold decideState
  rw [hx]
  dsimp only
  rw [checks_clean, hf]

end

/-! ### Reads (R113, R306) -/

section
variable {m : Core} {h k own : Nat} {x : Hte}

/-- The entry that a read of an unlisted line writes. -/
def readFin (m : Core) (x : Hte) (own : Nat) : DirEnt :=
  if x.msg.op = .rds ∧ (regionOf m x.epoch x.msg.line).exclGrant = false then { entOf x.msg.line x.epoch .s with vec := vecOf own }
  else { entOf x.msg.line x.epoch .x with owner := BitVec.ofNat 8 own }

theorem serveI_read (hx : hte m h = some x) (hkey : x.key = some k) (hslot : x.slot = some own) (ho : x.msg.op ∈ [Op.rds, .rdo, .upg]) :
    serveI m h Env.clean = andThen (memRead (setHte m h (chosen x k (readFin m x own))) h x.msg.line .demand
      (classOf m x.epoch x.msg.line x.slot) .clean) h .answer := by
  have hown : x.slot.getD 0 = own := by rw [hslot]; rfl
  have hfin (f : DirEnt) (hf : readFin m x own = f) : setFin m h x.key f = setHte m h (chosen x k (readFin m x own)) := by
    rw [setFin_eq hx, hf, hkey]
    rfl
  unfold serveI
  rw [hx]
  dsimp only
  rw [hown]
  simp only [List.mem_cons, List.not_mem_nil, or_false] at ho
  rcases ho with ho | ho | ho
  · rw [ho]
    dsimp only
    rw [hfin _ ?_]
    · rfl
    · unfold readFin
      rw [ho]
      cases (regionOf m x.epoch x.msg.line).exclGrant <;> rfl
  · rw [ho]
    dsimp only
    rw [hfin _ (by rw [readFin, ho]; rfl)]
    rfl
  · rw [ho]
    dsimp only
    rw [hfin _ (by rw [readFin, ho]; rfl)]
    rfl

theorem decideNone_read (hx : hte m h = some x) (ho : x.msg.op ∈ [Op.rds, .rdo, .upg]) : decideNone m h Env.clean = takeWay m h Env.clean := by
  unfold decideNone
  rw [hx]
  dsimp only
  simp only [List.mem_cons, List.not_mem_nil, or_false] at ho
  rcases ho with ho | ho | ho <;> rw [ho]

/-! ### Requests answered at once (R110, R113, R118) -/

/-- HTE `h` has nothing more to await, and its bytes, if it has any, stand in the merging buffer. -/
def ToAnswer (m n : Core) (h : Nat) (x : Hte) : Prop := Acted m n ∧ hte n h = some { x with wait := .none, cont := .answer }

theorem andThen_toAnswer {n : Core} (ha : Acted m n) (hn : hte n h = some x) : ToAnswer m (andThen n h .answer) h x := by
  rw [andThen_eq hn]
  exact ⟨acted_trans ha (acted_setHte _ _ _), hte_setHte_same _ _ _⟩

theorem written_toAnswer (hx : hte m h = some x) (req : Bool) (k : ByteMask) (hw : m.ca.mbWait = []) (hf : tfree m.ca.mb 0 < 128) :
    ToAnswer m (andThen (memWriteAs req m h x.msg.line x.msg.data k x.msg.poison .clean) h .answer) h x
      ∧ Merged (andThen (memWriteAs req m h x.msg.line x.msg.data k x.msg.poison .clean) h .answer) x.msg.line x.msg.data k := by
  obtain ⟨h1, h2, h3⟩ := memWriteAs_entered (req := req) (h := h) (l := x.msg.line) (d := x.msg.data) (k := k) (p := x.msg.poison) hw hf
  have hn := (hte_of_only h1 (by decide) h).trans hx
  have ha : Acted m (memWriteAs req m h x.msg.line x.msg.data k x.msg.poison .clean) :=
    acted_of_only h1 (by decide) (by decide) (onlyRegs_mono h2 (by decide))
  refine ⟨andThen_toAnswer ha hn, ?_⟩
  rw [andThen_eq hn]
  exact h3

theorem mbUnissued_closed (l : LineAddr) : mbUnissued (mbClose (hlcInval m l .clean) l) l = mbUnissued m l := by
  have hca : (hlcInval m l .clean).ca.mb = m.ca.mb ∧ (hlcInval m l .clean).ca.mbWait = m.ca.mbWait := by
    unfold hlcInval
    split
    · rw [tagOnly_clean, hlcLookup_clean]
      exact ⟨rfl, rfl⟩
    · rw [tagOnly_clean, hlcLookup_clean]
      exact ⟨rfl, rfl⟩
  unfold mbUnissued
  rw [show (mbClose (hlcInval m l .clean) l).ca.mbWait = m.ca.mbWait from hca.2]
  have hmb : (mbClose (hlcInval m l .clean) l).ca.mb = m.ca.mb.map fun x => if x.2.line = l then (x.1, { x.2 with isOpen := false }) else x := by
    rw [← hca.1]
    rfl
  rw [hmb, List.any_map]
  congr 1
  congr 1
  funext y
  dsimp only [Function.comp]
  split <;> rfl

/-- Writes, stashes without a live target and flushes with nothing held. -/
theorem decideNone_answered (hx : hte m h = some x) (ho : x.msg.op ∈ [Op.wrl, .wrp, .wst, .fls]) (hw : m.ca.mbWait = [])
    (hf : tfree m.ca.mb 0 < 128) (hfls : x.msg.op = .fls → mbUnissued m x.msg.line = false)
    (hwst : x.msg.op = .wst → (slotEnt m x.epoch (fld x.msg.aux 15 8)).status ≠ .live) :
    ToAnswer m (decideNone m h Env.clean) h x
      ∧ (x.msg.op ≠ .fls → Merged (decideNone m h Env.clean) x.msg.line x.msg.data (if x.msg.op = .wrp then x.msg.mask else fullMask)) := by
  unfold decideNone
  rw [hx]
  dsimp only
  simp only [List.mem_cons, List.not_mem_nil, or_false] at ho
  rcases ho with ho | ho | ho | ho
  · have heq : serveI m h Env.clean = andThen (memWriteAs true m h x.msg.line x.msg.data fullMask x.msg.poison .clean) h .answer := by
      unfold serveI
      rw [hx]
      dsimp only
      rw [ho]
      rfl
    rw [ho]
    dsimp only
    rw [heq, if_neg (by decide)]
    obtain ⟨h1, h2⟩ := written_toAnswer hx true fullMask hw hf
    exact ⟨h1, fun _ => h2⟩
  · have heq : serveI m h Env.clean = andThen (memWriteAs true m h x.msg.line x.msg.data x.msg.mask x.msg.poison .clean) h .answer := by
      unfold serveI
      rw [hx]
      dsimp only
      rw [ho]
      rfl
    rw [ho]
    dsimp only
    rw [heq, if_pos rfl]
    obtain ⟨h1, h2⟩ := written_toAnswer hx true x.msg.mask hw hf
    exact ⟨h1, fun _ => h2⟩
  · have heq : serveI m h Env.clean = andThen (memWriteAs false m h x.msg.line x.msg.data fullMask x.msg.poison .clean) h .answer := by
      unfold serveI
      rw [hx]
      dsimp only
      rw [ho]
      dsimp only
      rw [if_neg (hwst ho)]
      unfold stashToMem
      rw [hx]
      rfl
    rw [ho]
    dsimp only
    rw [if_neg (hwst ho), heq, if_neg (by decide)]
    obtain ⟨h1, h2⟩ := written_toAnswer hx false fullMask hw hf
    exact ⟨h1, fun _ => h2⟩
  · have heq : serveI m h Env.clean = andThen (mbClose (hlcInval m x.msg.line .clean) x.msg.line) h .answer := by
      have hun : mbUnissued (mbClose (hlcInval m x.msg.line .clean) x.msg.line) x.msg.line = false := (mbUnissued_closed _).trans (hfls ho)
      unfold serveI
      rw [hx]
      dsimp only
      rw [ho]
      dsimp only
      rw [show Env.clean.hlc = HlcFault.clean from rfl, hun, if_neg Bool.false_ne_true]
    have hinv := hlcInval_clean_only m x.msg.line
    rw [ho]
    dsimp only
    rw [heq]
    refine ⟨andThen_toAnswer (acted_trans (acted_of_inner hinv (by decide)) (acted_modCa _ _)) ?_, fun hne => absurd rfl hne⟩
    exact (hte_of_only (modCa_only _ _) (by decide) h).trans ((hte_of_only hinv (by decide) h).trans hx)

/-- The `CMP` of a request whose answer carries nothing. -/
theorem homeAnswer_bare (hx : hte m h = some x) (ho : x.msg.op ∈ [Op.wrl, .wrp, .wst, .fls]) :
    homeAnswer m h = sendEnd m h x (toReq x h .cmp) := by
  rw [homeAnswer, hx]
  dsimp only
  simp only [List.mem_cons, List.not_mem_nil, or_false] at ho
  rcases ho with ho | ho | ho | ho <;> rw [ho]

/-! ### A stash with a live target (R118) -/

/-- The push of a stash. -/
def pushMsg (m : Core) (h : Nat) (x : Hte) : Msg :=
  { op := .spu, dest := nodeOf m x.epoch (fld x.msg.aux 15 8), tag := BitVec.ofNat 12 h, htag := BitVec.ofNat 12 h, line := x.msg.line
    poison := x.msg.poison, aux := x.msg.aux, data := x.msg.data }

theorem serveI_push (hx : hte m h = some x) (ho : x.msg.op = .wst) (hl : (slotEnt m x.epoch (fld x.msg.aux 15 8)).status = .live) :
    serveI m h Env.clean = setHte (sendH m h x (pushMsg m h x)) h
      { x with awaits := x.awaits ++ [.acc (fld x.msg.aux 15 8)], wait := .none, cont := .answer } := by
  have hxs : hte (sendH m h x (pushMsg m h x)) h = some x := (hte_sendH _ h).trans hx
  have hstep : serveI m h Env.clean = andThen (await (sendH m h x (pushMsg m h x)) h (.acc (fld x.msg.aux 15 8))) h .answer := by
    unfold serveI
    rw [hx]
    dsimp only
    rw [ho]
    dsimp only
    rw [if_pos hl]
    rfl
  rw [hstep, await_eq hxs, andThen_eq (hte_setHte_same _ _ _), setHte_setHte]

end

/-! ### Atomics that take an ALC entry (R220, R221) -/

section
variable {m : Core} {h k i : Nat} {x : Hte}

/-- The decision of an atomic, once counted, changes its own HTE alone. -/
theorem atmDecided_trk (hx : hte m h = some x) (st : DSt) :
    (atmDecided m h st).trk = m.trk ∨ (atmDecided m h st).trk = (setHte m h { x with counted := true }).trk := by
  unfold atmDecided
  rw [hx]
  dsimp only
  split
  · exact .inl rfl
  · right
    have hcon : (if contended m x.msg.line st then tally .atm 6 1 m else m).trk = m.trk := by
      split
      · exact tally_only _ _ _ _ .trk (by decide)
      · rfl
    generalize contended m x.msg.line st = con at hcon
    generalize (if con then tally .atm 6 1 m else m) = n at hcon
    have hxn : hte (noteRecent n x.msg.line) h = some x := (hte_congr (congrArg Tracker.htes hcon) h).trans hx
    rw [modHte_eq hxn]
    have hset : (setHte (noteRecent n x.msg.line) h { x with counted := true }).trk = (setHte m h { x with counted := true }).trk := by
      show { n.trk with htes := tset n.trk.htes h { x with counted := true } } = { m.trk with htes := tset m.trk.htes h { x with counted := true } }
      rw [hcon]
    generalize setHte (noteRecent n x.msg.line) h { x with counted := true } = q at hset ⊢
    split
    · split
      · exact hset
      · exact (tally_only _ _ _ _ .trk (by decide)).trans hset
    · exact hset

theorem freeWay_atmDecided {set : Nat} (hx : hte m h = some x) (st : DSt) (hp : (pickWay m h true set false).1 = .free k) :
    pickWay (atmDecided m h st) h true set false = (.free k, atmDecided m h st) := by
  obtain ⟨h1, h2, -⟩ := atmDecided_state hx st
  have hdeck : (atmDecided m h st).deck = m.deck := h1 .deck (by decide)
  refine freeWay_congr hdeck (h2.regs 0x1000 (by decide)) (fun j => ?_) hp
  rcases atmDecided_trk hx st with ht | ht
  · rw [wayHeld, wayHeld, dirEnt_congr hdeck, lineHeld, lineHeld, ht]
  · rw [← wayHeld_setHte (y := { x with counted := true }) hx ⟨rfl, rfl, rfl, rfl⟩, wayHeld, wayHeld, dirEnt_congr hdeck, lineHeld, lineHeld, ht]
    rfl

/-- An atomic that fills its ALC entry. -/
def filling (x : Hte) (i : Nat) : Hte :=
  { x with alcIx := some i, counted := true, fin := some { entOf x.msg.line x.epoch .i with homeHeld := true } }

/-- An atomic with its ALC entry has its line's data, or awaits them. -/
theorem atmFill_state {n : Core} (hx : hte m h = some x) (hoff : alcAllOff m = false) (hg : alcGet m h Env.clean = (true, n))
    (hn : hte n h = some { x with alcIx := some i }) (ha : Acted m n) :
    Acted m (atmFill m h Env.clean) ∧ ∃ z, hte (atmFill m h Env.clean) h = some { z with wait := .none, cont := .answer }
      ∧ (z = filling x i ∨ ReadInto (filling x i) z) := by
  obtain ⟨-, g2, g3⟩ := atmDecided_state hn .i
  have heq : atmFill m h Env.clean = andThen (tally .atm 1 1 (tally .hlc 9 1 (if x.haveBuf then setHte (atmDecided n h .i) h (filling x i)
      else memRead (setHte (atmDecided n h .i) h (filling x i)) h x.msg.line .alcFill
        (classOf (setHte (atmDecided n h .i) h (filling x i)) x.epoch x.msg.line x.slot) .clean))) h .answer := by
    unfold atmFill
    rw [hx]
    dsimp only
    rw [hoff, if_neg Bool.false_ne_true, hg]
    dsimp only
    rw [modHte_eq g3]
    rfl
  have hset : hte (setHte (atmDecided n h .i) h (filling x i)) h = some (filling x i) := hte_setHte_same _ _ _
  have hact : Acted m (setHte (atmDecided n h .i) h (filling x i)) := acted_trans ha (acted_trans g2 (acted_setHte _ _ _))
  generalize setHte (atmDecided n h .i) h (filling x i) = q at heq hset hact
  have hread : ∃ z, Acted m (if x.haveBuf then q else memRead q h x.msg.line .alcFill (classOf q x.epoch x.msg.line x.slot) .clean)
      ∧ hte (if x.haveBuf then q else memRead q h x.msg.line .alcFill (classOf q x.epoch x.msg.line x.slot) .clean) h = some z
      ∧ (z = filling x i ∨ ReadInto (filling x i) z) := by
    split
    · exact ⟨_, hact, hset, .inl rfl⟩
    · obtain ⟨-, r2, z, r3, r4⟩ := memRead_state hset x.msg.line .alcFill (classOf q x.epoch x.msg.line x.slot)
      exact ⟨z, acted_trans hact r2, r3, .inr r4⟩
  obtain ⟨z, r1, r2, r3⟩ := hread
  generalize (if x.haveBuf then q else memRead q h x.msg.line .alcFill (classOf q x.epoch x.msg.line x.slot) .clean) = u at heq r1 r2
  have hu : hte (tally .atm 1 1 (tally .hlc 9 1 u)) h = some z :=
    (hte_of_only (tally_only _ _ _ _) (by decide) h).trans ((hte_of_only (tally_only _ _ _ _) (by decide) h).trans r2)
  rw [heq, andThen_eq hu]
  exact ⟨acted_trans r1 (acted_trans (acted_tally _ _ _ _) (acted_trans (acted_tally _ _ _ _) (acted_setHte _ _ _))), z,
    hte_setHte_same _ _ _, r3⟩

theorem sendEnd_only {y : Hte} (g : Msg) : m.onlyParts (.trk :: sendParts) (sendEnd m h y g) :=
  onlyParts_trans (onlyParts_mono (send_only _ _ _ _ _) (by decide)) (onlyParts_mono (modHte_only _ _ _) (by decide))

/-- The line that an atomic leaves in its ALC entry. -/
def executed (x : Hte) : CLine :=
  { line := x.msg.line, data := if x.bufPoison then x.buf else atmLine x.msg x.buf, poison := x.bufPoison }

theorem homeAnswer_atm (hx : hte m h = some x) (ho : x.msg.op = .atm) (hu : x.atUnit = false) (hi : x.alcIx = some i) :
    ∃ g, homeAnswer m h = sendEnd (setHte (modCa m fun c => { c with alc := tset c.alc i (executed x) }) h { x with alcIx := none }) h x g := by
  refine ⟨{ toReq x h .dsh with data := atmResult x.msg x.buf, poison := x.bufPoison, status := 1 }, ?_⟩
  have hx' : hte (modCa m fun c => { c with alc := tset c.alc i (executed x) }) h = some x := hx
  rw [homeAnswer, hx]
  dsimp only
  have hkey : x.alcIx.or (alcKey m x.msg.line) = some i := by rw [hi]; rfl
  have hmod := modHte_eq hx' fun y => { y with alcIx := none }
  unfold executed at hmod ⊢
  rw [ho]
  dsimp only
  rw [if_neg (by simp [hu]), hkey]
  dsimp only
  rw [hmod]

/-- An atomic that has its entry executes there, or awaits its line. -/
theorem go_atm (hx : hte m h = some x) (hk : x.kind = .active) (hw : x.wait = .none) (hc : x.cont = .answer) (hd : x.done = false)
    (ho : x.msg.op = .atm) (hu : x.atUnit = false) (hi : x.alcIx = some i) (ha : x.awaits = [] ∨ x.awaits = [.mem]) :
    Acted m (go m h Env.clean) ∧ ∃ y, hte (go m h Env.clean) h = some y ∧ y.key = x.key ∧ y.fin = x.fin
      ∧ fillsEntry (go m h Env.clean) y i x.msg.line := by
  rcases ha with ha | ha
  · obtain ⟨n, cs, hmn, hxn, hgo⟩ := go_once_served Env.clean hx ha hw hd (by rw [hc]; decide) hk
    obtain ⟨g, hans⟩ := homeAnswer_atm (x := { x with cmps := cs }) hxn ho hu hi
    rw [(runCont_answer (x := { x with cmps := cs }) (e := Env.clean) hc).trans hans] at hgo
    have hset := hte_setHte_same (modCa n fun c => { c with alc := tset c.alc i (executed { x with cmps := cs }) }) h
      { x with cmps := cs, alcIx := none }
    have hact := acted_trans (acted_modCa n fun c => { c with alc := tset c.alc i (executed { x with cmps := cs }) })
      (acted_setHte _ h { x with cmps := cs, alcIx := none })
    have hfind : tfind (setHte (modCa n fun c => { c with alc := tset c.alc i (executed { x with cmps := cs }) }) h
        { x with cmps := cs, alcIx := none }).ca.alc i = some (executed { x with cmps := cs }) := by
      show tfind (tset n.ca.alc i (executed { x with cmps := cs })) i = _
      rw [tfind_tset, if_pos rfl]
    generalize setHte (modCa n fun c => { c with alc := tset c.alc i (executed { x with cmps := cs }) }) h
        { x with cmps := cs, alcIx := none } = q at hgo hset hact hfind
    obtain ⟨e1, e2⟩ := sendEnd_own (x := { x with cmps := cs }) (g := g) hset
    have hlast := hgo _ e2 (.inr (.inr (.inl rfl))) hk
    obtain ⟨cs', hend⟩ := hlast.own _ e2
    refine ⟨acted_trans (acted_served hmn) (acted_trans hact (acted_trans e1 (acted_served hlast))), _, hend, rfl, rfl,
      .inl ⟨rfl, ha, executed { x with cmps := cs }, ?_, rfl⟩⟩
    rw [show (go m h Env.clean).ca = (sendEnd q h { x with cmps := cs } g).ca from hlast.parts .ca (by decide),
      show (sendEnd q h { x with cmps := cs } g).ca = q.ca from sendEnd_only g .ca (by decide)]
    exact hfind
  · have hgo := go_halted_served Env.clean hx (.inl (by rw [ha]; simp)) hk
    obtain ⟨cs, hend⟩ := hgo.own _ hx
    exact ⟨acted_served hgo, _, hend, rfl, rfl, .inr ⟨hd, ha, hi⟩⟩

/-- An atomic goes on after the fill of its entry. -/
theorem go_filled {n : Core} (hx : hte m h = some x) (hoff : alcAllOff m = false) (hg : alcGet m h Env.clean = (true, n))
    (hn : hte n h = some { x with alcIx := some i }) (hact : Acted m n) (hk : x.kind = .active) (hd : x.done = false) (ho : x.msg.op = .atm)
    (hu : x.atUnit = false) (ha : x.awaits = []) : Acted m (go (atmFill m h Env.clean) h Env.clean)
      ∧ ∃ y, hte (go (atmFill m h Env.clean) h Env.clean) h = some y ∧ y.key = x.key
        ∧ y.fin = some { entOf x.msg.line x.epoch .i with homeHeld := true } ∧ fillsEntry (go (atmFill m h Env.clean) h Env.clean) y i x.msg.line := by
  obtain ⟨h1, z, h2, h3⟩ := atmFill_state hx hoff hg hn hact
  generalize atmFill m h Env.clean = q at h1 h2
  rcases h3 with rfl | ⟨d, p, rfl⟩ | ⟨d, c, p, rfl⟩
  · obtain ⟨g1, y, g2, g3, g4, g5⟩ := go_atm (i := i) h2 hk rfl rfl hd ho hu rfl (.inl ha)
    exact ⟨acted_trans h1 g1, y, g2, g3, g4, g5⟩
  · obtain ⟨g1, y, g2, g3, g4, g5⟩ := go_atm (i := i) h2 hk rfl rfl hd ho hu rfl (.inl ha)
    exact ⟨acted_trans h1 g1, y, g2, g3, g4, g5⟩
  · obtain ⟨g1, y, g2, g3, g4, g5⟩ := go_atm (i := i) h2 hk rfl rfl hd ho hu rfl
      (.inr (by show x.awaits ++ [.mem] = _; rw [ha, List.nil_append]))
    exact ⟨acted_trans h1 g1, y, g2, g3, g4, g5⟩

theorem serveI_atm (hx : hte m h = some x) (ho : x.msg.op = .atm) : serveI m h Env.clean = atmFill m h Env.clean := by
  unfold serveI
  rw [hx]
  dsimp only
  rw [ho]

/-- An atomic that has taken its ALC entry and made its decision. -/
def taken (x : Hte) (i : Nat) : Hte := { x with alcIx := some i, counted := true }

/-- An atomic placed at the home takes its ALC entry and its way in one decision. -/
theorem decideNone_atm (hx : hte m h = some x) (ho : x.msg.op = .atm) (hp : (regionOf m x.epoch x.msg.line).placement = 0)
    (ha : x.alcIx = none) (he : entryFree m i) (hw : (pickWay m h true (dirSet x.msg.line) false).1 = .free k) :
    ∃ n, decideNone m h Env.clean = atmFill n h Env.clean ∧ Acted m n ∧ alcAllOff n = false
      ∧ hte n h = some (inWay (taken x i) k) := by
  obtain ⟨-, hoff, -, -⟩ := id he
  obtain ⟨t1, t2⟩ := alcTaken_state (m := m) (h := h) (x := x) i
  obtain ⟨d1, d2, hd⟩ := atmDecided_state t2 .i
  have d3 : hte (atmDecided (alcTaken m h i x) h .i) h = some (taken x i) := hd
  have hmem : atmMemory m x = false := by simp [atmMemory, hp]
  have hfree : (pickWay (alcTaken m h i x) h true (dirSet x.msg.line) false).1 = .free k := by
    have hca : (pickWay (modCa m fun c => { c with alcPtr := (i + 1) % 48 }) h true (dirSet x.msg.line) false).1 = .free k := by
      rw [freeWay_inner (modCa_only m fun c => { c with alcPtr := (i + 1) % 48 }) (by decide) (by decide) (acted_modCa _ _) hw]
    exact freeWay_setHte (y := { x with alcIx := some i }) (show hte (modCa m fun c => { c with alcPtr := (i + 1) % 48 }) h = some x from hx)
      ⟨rfl, rfl, rfl, rfl⟩ hca
  have hway := freeWay_atmDecided (set := dirSet x.msg.line) t2 .i hfree
  have hstep : decideNone m h Env.clean = takeWay (atmDecided (alcTaken m h i x) h .i) h Env.clean := by
    unfold decideNone
    rw [hx]
    dsimp only
    rw [ho]
    dsimp only
    unfold decideAtmNone
    rw [hx]
    dsimp only
    rw [hmem, hoff, if_neg (by decide), hw, if_neg (by simp), alcGet_free hx ha he]
  rw [takeWay_free d3 hway, serveI_atm (x := inWay (taken x i) k) (hte_setHte_same _ _ _) ho] at hstep
  have hca : (setHte (atmDecided (alcTaken m h i x) h .i) h (inWay (taken x i) k)).ca = (alcTaken m h i x).ca :=
    d1 .ca (by decide)
  refine ⟨_, hstep, acted_trans (acted_of_inner t1 (by decide)) (acted_trans d2 (acted_setHte _ _ _)), ?_, hte_setHte_same _ _ _⟩
  rw [alcAllOff, hca]
  exact hoff

end

/-! ### The bytes of a write -/

theorem fullMask_getLsbD {i : Nat} (hi : i < 64) : fullMask.getLsbD i = true := by
  rw [fullMask, BitVec.getLsbD_allOnes]
  exact decide_eq_true hi

/-- The buffer holds the bytes that a write's mask selects. -/
theorem merged_bytes {m : Core} {l : LineAddr} {d : LineData} {k : ByteMask} (h : Merged m l d k) :
    ∃ e ∈ m.ca.mb, e.2.line = l ∧ ∀ i < 64, k.getLsbD i = true → e.2.mask.getLsbD i = true ∧ lineByte e.2.data i = lineByte d i := by
  obtain ⟨e, he, hl, o, ko, hd, hk⟩ := h
  refine ⟨e, he, hl, fun i hi hki => ⟨?_, ?_⟩⟩
  · rw [hk, BitVec.getLsbD_or, hki, Bool.or_true]
  · rw [hd]
    exact lineByte_mergeBytes _ _ hi hki

/-! ### The statement -/

/-- WAY_RETRY runs the decision of a request that waits for a way. -/
theorem exec_wayRetry {s : State} {h : HteIx} {x : Hte} {op : Op} (hr : running s.m = true) (ha : atDecision s.m h.val x op .way)
    (hc : clsOf op ≠ .wbk) :
    exec (.wayRetry h Env.clean) s = .next { s with m := go (decideState (atState s.m h.val x) h.val Env.clean) h.val Env.clean } := by
  obtain ⟨hx, hk, hw, -⟩ := id ha
  refine clocked_next (f := fun m => match hte m h.val with
    | some x => if x.kind = .active && x.wait = .way then decideHte m h.val Env.clean else m
    | none => m) hr ?_
  rw [hx]
  exact (if_pos (by simp [hk, hw])).trans (decideHte_atDecision ha hc)

/-- Settles O41: the reads by `serveI_read` and `go_read`, the answers by `decideNone_answered`, the push by `serveI_push`, the
atomics by `go_filled`. -/
theorem unlistedLinesAreServed : Obligations.UnlistedLinesAreServed := by
  refine ⟨fun s h x op w c k own hr ha hfind hslot hway hc => ?_,
    fun s h x op c p hr ha hfind hmw hmb hfls hwst hsrc hroute hc => ?_,
    fun s h x k hr ha hfind hlive hway => ?_, fun s h x k i hr ha hfind hplace halc hunit hfree hway => ?_,
    fun s h x k i hr hx hk hw hop hkey haw hdone halc hunit hfree => ?_⟩
  · obtain ⟨hx, hk, -, -, hop, haw, -, hdone, -⟩ := id ha
    have hops : op ∈ [Op.rds, .rdo, .upg] ∧ exec c s = .next { s with m := go (decideState (atState s.m h.val x) h.val Env.clean) h.val Env.clean } := by
      simp only [List.mem_cons, List.not_mem_nil, or_false, Prod.mk.injEq] at hc
      rcases hc with ⟨rfl, rfl, rfl⟩ | ⟨rfl, rfl, rfl⟩ | ⟨rfl, rfl, rfl⟩ | ⟨rfl, rfl, rfl⟩ | ⟨rfl, rfl, rfl⟩ | ⟨rfl, rfl, rfl⟩
      · exact ⟨by simp, exec_request hr ha (by simp [requests])⟩
      · exact ⟨by simp, exec_request hr ha (by simp [requests])⟩
      · exact ⟨by simp, exec_request hr ha (by simp [requests])⟩
      · exact ⟨by simp, exec_wayRetry hr ha (by decide)⟩
      · exact ⟨by simp, exec_wayRetry hr ha (by decide)⟩
      · exact ⟨by simp, exec_wayRetry hr ha (by decide)⟩
    obtain ⟨hmem, hstep⟩ := hops
    rw [← hop] at hmem
    have hact := atState_acted (m := s.m) (h := h.val) (x := x)
    have hdeck : (atState s.m h.val x).deck = s.m.deck := atState_only .deck (by decide)
    have hxn := hte_atState (m := s.m) (h := h.val) (x := x)
    have hwayn := freeWay_atState hx hway
    generalize atState s.m h.val x = m at hstep hact hdeck hxn hwayn
    have hread := serveI_read (m := setHte m h.val (inWay (deciding x) k)) (x := inWay (deciding x) k) (hte_setHte_same _ _ _) rfl hslot hmem
    rw [decideState_none hxn ((acted_dirFind hact hdeck _ _).trans hfind), decideNone_read hxn hmem, takeWay_free hxn hwayn, hread,
      setHte_setHte] at hstep
    obtain ⟨g1, y, g2, g3, g4, g5⟩ := go_read (h := h.val) (m := setHte m h.val (chosen (inWay (deciding x) k) k
      (readFin (setHte m h.val (inWay (deciding x) k)) (inWay (deciding x) k) own))) (hte_setHte_same _ _ _) haw hdone hk
      (by
        show x.msg.op ∈ _
        simp only [List.mem_cons, List.not_mem_nil, or_false] at hmem ⊢
        tauto) x.msg.line (classOf (setHte m h.val (inWay (deciding x) k)) x.epoch x.msg.line x.slot)
    refine ⟨_, y, hstep, g2, g3, g4.trans ?_, g5, only_next (acted_trans hact (acted_trans (acted_setHte _ _ _) g1)).parts⟩
    show some (readFin (setHte m h.val (inWay (deciding x) k)) (inWay (deciding x) k) own) = _
    have hreg : regionOf (setHte m h.val (inWay (deciding x) k)) x.epoch x.msg.line = regionOf s.m x.epoch x.msg.line := acted_regionOf hact _ _
    unfold readFin
    rw [show (inWay (deciding x) k).msg = x.msg from rfl, show (inWay (deciding x) k).epoch = x.epoch from rfl, hreg, hop]
    split <;> rfl
  · obtain ⟨hx, hk, -, -, hop, haw, -, hdone, -⟩ := id ha
    have hops : (c, op) ∈ requests h ∧ op ∈ [Op.wrl, .wrp, .wst, .fls] := by
      simp only [List.mem_cons, List.not_mem_nil, or_false, Prod.mk.injEq, requests] at hc ⊢
      rcases hc with ⟨h1, h2⟩ | ⟨h1, h2⟩ | ⟨h1, h2⟩ | ⟨h1, h2⟩ <;> simp [h1, h2]
    obtain ⟨hreq, hmem⟩ := hops
    rw [← hop] at hmem
    have hstep := exec_request hr ha hreq
    have hact := atState_acted (m := s.m) (h := h.val) (x := x)
    have hdeck : (atState s.m h.val x).deck = s.m.deck := atState_only .deck (by decide)
    have hca : (atState s.m h.val x).ca = s.m.ca := atState_only .ca (by decide)
    have hxn := hte_atState (m := s.m) (h := h.val) (x := x)
    generalize atState s.m h.val x = m at hstep hact hdeck hca hxn
    obtain ⟨⟨g1, g2⟩, g3⟩ := decideNone_answered hxn hmem (by rw [hca]; exact hmw) (by rw [hca]; exact hmb)
      (fun ho => by
        rw [mbUnissued, hca]
        exact hfls (hop.symm.trans ho))
      (fun ho => by
        show (slotEnt m x.epoch (fld x.msg.aux 15 8)).status ≠ .live
        rw [acted_slotEnt hact]
        exact hwst (hop.symm.trans ho))
    rw [decideState_none hxn ((acted_dirFind hact hdeck _ _).trans hfind)] at hstep
    generalize decideNone m h.val Env.clean = q at hstep g1 g2 g3
    have hq := acted_trans hact g1
    obtain ⟨⟨cs, e1⟩, e2, e3, e4⟩ := go_sends_served (e := Env.clean) (p := p) (g := toReq x h.val .cmp) g2 haw rfl hdone (by simp) hk
      (fun n cs hn => (runCont_answer rfl).trans (homeAnswer_bare hn hmem))
      (by rw [acted_node hq]; exact hsrc) ((acted_routes hq _ _).trans hroute)
    have hend : (go q h.val Env.clean).ca = q.ca := e2 .ca (by decide)
    have hall : s.m.onlyParts decisionParts (go q h.val Env.clean) := onlyParts_trans hq.parts (onlyParts_mono e2 (by decide))
    generalize go q h.val Env.clean = t at hstep e1 e4 hend hall
    refine ⟨_, _, hstep, e1, rfl, haw, hteSends_mono e4 fun r hr => ?_, fun hne => ?_, only_next hall⟩
    · obtain ⟨d, rfl⟩ := hr
      exact ⟨rfl, rfl, rfl, rfl, rfl, rfl⟩
    · obtain ⟨y, hy, hline, hbytes⟩ := merged_bytes (g3 (by rw [show (deciding x).msg.op = op from hop]; exact hne))
      refine ⟨y, by rw [hend]; exact hy, hline, fun i hi hm => hbytes i hi ?_⟩
      rw [show (deciding x).msg.op = op from hop]
      split
      · next hwrp => exact hm.resolve_left (fun hn => hn hwrp)
      · exact fullMask_getLsbD hi
  · obtain ⟨hx, hk, -, -, hop, haw, -, hdone, -⟩ := id ha
    have hstep := exec_request (c := .wst h Env.clean) hr ha (by simp [requests])
    have hact := atState_acted (m := s.m) (h := h.val) (x := x)
    have hdeck : (atState s.m h.val x).deck = s.m.deck := atState_only .deck (by decide)
    have hxn := hte_atState (m := s.m) (h := h.val) (x := x)
    have hwayn := freeWay_atState hx hway
    generalize atState s.m h.val x = m at hstep hact hdeck hxn hwayn
    have hl (n : Core) (hn : Acted s.m n) : (slotEnt n x.epoch (fld x.msg.aux 15 8)).status = .live := by
      rw [acted_slotEnt hn]
      exact hlive
    have hnone : decideNone m h.val Env.clean = takeWay m h.val Env.clean := by
      unfold decideNone
      rw [hxn]
      dsimp only
      rw [show (deciding x).msg.op = .wst from hop]
      exact if_pos (hl m hact)
    have hset := acted_trans hact (acted_setHte m h.val (inWay (deciding x) k))
    have hpush := serveI_push (m := setHte m h.val (inWay (deciding x) k)) (x := inWay (deciding x) k) (hte_setHte_same _ _ _) hop (hl _ hset)
    rw [decideState_none hxn ((acted_dirFind hact hdeck _ _).trans hfind), hnone, takeWay_free hxn hwayn, hpush] at hstep
    generalize setHte m h.val (inWay (deciding x) k) = n at hstep hset
    have hnode : nodeOf n x.epoch (fld x.msg.aux 15 8) = nodeOf s.m x.epoch (fld x.msg.aux 15 8) := acted_nodeOf hset _ _
    have hsends : ∀ p, nodeOf s.m x.epoch (fld x.msg.aux 15 8) ≠ nodeId s.m →
        routeOf s.m x.epoch (nodeOf s.m x.epoch (fld x.msg.aux 15 8)) = some p →
        hteSends (sendH n h.val (inWay (deciding x) k) (pushMsg n h.val (inWay (deciding x) k))) p h.val
          (AsSent n { pushMsg n h.val (inWay (deciding x) k) with epoch := x.epoch }) := by
      intro p hp hroute
      refine sendH_sends (x := inWay (deciding x) k) ?_ ?_
      · show nodeOf n x.epoch (fld x.msg.aux 15 8) ≠ nodeId n
        rw [hnode, acted_node hset]
        exact hp
      · show routeOf n x.epoch (nodeOf n x.epoch (fld x.msg.aux 15 8)) = some p
        rw [acted_routes hset, hnode]
        exact hroute
    have hsent : Acted s.m (sendH n h.val (inWay (deciding x) k) (pushMsg n h.val (inWay (deciding x) k))) :=
      acted_trans hset (acted_sendH _)
    generalize sendH n h.val (inWay (deciding x) k) (pushMsg n h.val (inWay (deciding x) k)) = u at hstep hsends hsent
    have hawaits : (inWay (deciding x) k).awaits ++ [Await.acc (fld (inWay (deciding x) k).msg.aux 15 8)] = [.acc (fld x.msg.aux 15 8)] :=
      congrArg (· ++ [_]) haw
    rw [hawaits] at hstep
    have hy := hte_setHte_same u h.val { inWay (deciding x) k with awaits := [.acc (fld x.msg.aux 15 8)], wait := .none, cont := .answer }
    have hgo := go_halted_served Env.clean hy (.inl (by simp)) hk
    obtain ⟨cs, hcs⟩ := hgo.own _ hy
    have hall := acted_trans hsent (acted_trans (acted_setHte u h.val
      { inWay (deciding x) k with awaits := [.acc (fld x.msg.aux 15 8)], wait := .none, cont := .answer }) (acted_served hgo))
    refine ⟨_, _, hstep, hcs, rfl, hdone, rfl, fun p hp hroute => ?_, only_next hall.parts⟩
    refine hteSends_mono (acted_sends (acted_served hgo) (acted_sends (acted_setHte _ _ _) (hsends p hp hroute))) fun g hg => ?_
    obtain ⟨d, rfl⟩ := hg
    exact ⟨rfl, hnode, rfl, rfl, rfl⟩
  · obtain ⟨hx, hk, -, -, hop, haw, -, hdone, -⟩ := id ha
    have hstep := exec_request (c := .atm h Env.clean) hr ha (by simp [requests])
    have hact := atState_acted (m := s.m) (h := h.val) (x := x)
    have hdeck : (atState s.m h.val x).deck = s.m.deck := atState_only .deck (by decide)
    have hxn := hte_atState (m := s.m) (h := h.val) (x := x)
    have hwayn := freeWay_atState hx hway
    have hfreen := entryFree_atState hx hfree
    generalize atState s.m h.val x = m at hstep hact hdeck hxn hwayn hfreen
    obtain ⟨n, hn, hna, hoff, hnx⟩ := decideNone_atm (i := i) hxn hop
      (by rw [show regionOf m (deciding x).epoch (deciding x).msg.line = regionOf s.m x.epoch x.msg.line from acted_regionOf hact _ _]; exact hplace)
      halc hfreen (congrArg Prod.fst hwayn)
    have hget : alcGet n h.val Env.clean = (true, n) := by
      unfold alcGet
      rw [hnx]
      rfl
    rw [decideState_none hxn ((acted_dirFind hact hdeck _ _).trans hfind), hn] at hstep
    obtain ⟨g1, y, g2, g3, g4, g5⟩ := go_filled (i := i) hnx hoff hget hnx (acted_refl n) hk hdone hop hunit haw
    generalize go (atmFill n h.val Env.clean) h.val Env.clean = t at hstep g1 g2 g5
    exact ⟨_, y, hstep, g2, g3, g4, g5, only_next (acted_trans hact (acted_trans hna g1)).parts⟩
  · have hset : hte (setHte s.m h.val (deciding x)) h.val = some (deciding x) := hte_setHte_same _ _ _
    have hfree' := entryFree_setHte (y := deciding x) hx ⟨rfl, rfl, rfl, rfl⟩ rfl hfree
    have hrun : (if x.kind = .active && (x.wait = .alcEntry || (x.wait = .heldOrder && !heldPending s.m)) then
          if x.key.isSome then go (serveI (waitFor s.m h.val .none) h.val Env.clean) h.val Env.clean else decideHte s.m h.val Env.clean
        else s.m) = go (atmFill (setHte s.m h.val (deciding x)) h.val Env.clean) h.val Env.clean := by
      rw [if_pos (by simp [hk, hw]), if_pos (by simp [hkey]), waitFor_eq hx, ← serveI_atm (x := deciding x) hset hop]
      rfl
    have hstep : exec (.alcRetry h Env.clean) s
        = .next { s with m := go (atmFill (setHte s.m h.val (deciding x)) h.val Env.clean) h.val Env.clean } := by
      refine clocked_next (f := fun m => match hte m h.val with
        | some x =>
          if x.kind = .active && (x.wait = .alcEntry || (x.wait = .heldOrder && !heldPending m)) then
            if x.key.isSome then go (serveI (waitFor m h.val .none) h.val Env.clean) h.val Env.clean else decideHte m h.val Env.clean
          else m
        | none => m) hr ?_
      rw [hx]
      exact hrun
    obtain ⟨t1, t2⟩ := alcTaken_state (m := setHte s.m h.val (deciding x)) (h := h.val) (x := deciding x) i
    obtain ⟨g1, y, g2, g3, g4, g5⟩ := go_filled (i := i) hset hfree'.2.1 (alcGet_free hset halc hfree') t2 (acted_of_inner t1 (by decide))
      hk hdone hop hunit haw
    generalize go (atmFill (setHte s.m h.val (deciding x)) h.val Env.clean) h.val Env.clean = t at hstep g1 g2 g5
    exact ⟨_, y, hstep, g2, g3.trans hkey, g4, g5, only_next (acted_trans (acted_setHte _ _ _) g1).parts⟩

end Sys2Proof.UnlistedLines
end

section
/-! PROOFS. The junction's upstream requests (Machine/Junction.lean, R480, R481, R486, R489, R512), with the statement about
member requests, their replies and member writebacks. -/

namespace Sys2Proof.JunctionRelays

open Sys2Proof.Machine Sys2Proof.Laws Sys2Proof.Windows Sys2Proof.Sending Sys2Proof.Engine Sys2Proof.Flits Sys2Proof.Channels
  Sys2Proof.Transactions Sys2Proof.Units Sys2Proof.Lookups Sys2Proof.CfgMessages Sys2Proof.TrackerRuns Sys2Proof.GoingOn
  Sys2Proof.Replies Sys2Proof.Decisions

/-! ### Messages upstream (R480, R481) -/

theorem homeOf_congr {m n : Core} (hc : n.cfg = m.cfg) (e : Bool) (l : LineAddr) : homeOf n e l = homeOf m e l := by
  simp only [homeOf, rangeOf, Machine.setOf, hc]

theorem isJunction_congr {as : List Nat} {m n : Core} (hr : m.onlyRegs as n) (h : 0x1C ∉ as) : isJunction n = isJunction m := by
  rw [isJunction, isJunction, role, role, rfld, rfld, hr _ h]

/-- What the junction sends upstream for HTE `h`. -/
def upMsg (m : Core) (h : Nat) (n : NodeId) (g : Msg) : Msg :=
  { g with dest := n, tag := BitVec.ofNat 12 h, htag := 0, fnode := 0, ftag := 0, staff := false, epoch := upEpochOf m }

/-- An HTE that awaits the reply to what it has sent upstream. -/
def awaitsUp (m : Core) (x : Hte) (n : NodeId) (g : Msg) (c : Cont) : Hte :=
  { x with up := some g, upEpoch := upEpochOf m, reply := none, awaits := x.awaits ++ [.up n], wait := .none, cont := c }

section
variable {m : Core} {h p : Nat} {n : NodeId} {x : Hte} {g : Msg}

theorem sendUp_state (hx : hte m h = some x) (c : Cont) (hh : homeOf m (upEpochOf m) g.line = some n) (hd : n ≠ nodeId m)
    (hr : routeOf m (upEpochOf m) n = some p) : Acted m (andThen (sendUp m h g) h c)
      ∧ hte (andThen (sendUp m h g) h c) h = some (awaitsUp m x n g c)
      ∧ hteSends (andThen (sendUp m h g) h c) p h (AsSent m (upMsg m h n g)) := by
  have hsent := (send_routed_state (h := h) (g := upMsg m h n g) hd hr).2.2
  have hact := acted_send m 16 (some h) (upEpochOf m) (upMsg m h n g)
  have hxs : hte (send m 16 (some h) (upEpochOf m) (upMsg m h n g)) h = some x :=
    (hte_of_only (send_only _ _ _ _ _) (by decide) h).trans hx
  have heq : sendUp m h g = modHte (send m 16 (some h) (upEpochOf m) (upMsg m h n g)) h fun x =>
      { x with up := some g, upEpoch := upEpochOf m, reply := none, awaits := x.awaits ++ [.up n] } := by
    unfold sendUp
    dsimp only
    rw [hh]
    rfl
  rw [heq, modHte_eq hxs, andThen_eq (hte_setHte_same _ _ _), setHte_setHte]
  have hset := acted_setHte (send m 16 (some h) (upEpochOf m) (upMsg m h n g)) h (awaitsUp m x n g c)
  exact ⟨acted_trans hact hset, hte_setHte_same _ _ _, acted_sends hset hsent⟩

/-- An HTE that has sent something upstream awaits its reply. -/
theorem go_sentUp {m' : Core} {c : Cont} (e : Env) (hk : x.kind = .active)
    (hs : Acted m m' ∧ hte m' h = some (awaitsUp m x n g c) ∧ hteSends m' p h (AsSent m (upMsg m h n g))) :
    Acted m (go m' h e) ∧ (∃ cs, hte (go m' h e) h = some { awaitsUp m x n g c with cmps := cs })
      ∧ hteSends (go m' h e) p h (AsSent m (upMsg m h n g)) := by
  obtain ⟨h1, h2, h3⟩ := hs
  have hgo := go_halted_served e h2 (.inl (by simp [awaitsUp])) hk
  exact ⟨acted_trans h1 (acted_served hgo), hgo.own _ h2, acted_sends (acted_served hgo) h3⟩

end

/-! ### Member requests (R486, Table JCT-2) -/

/-- The opcode of the upstream request that a member's request becomes. -/
def upOp (op : Op) : Op := if op = .wst then .wrl else op

section
variable {m : Core} {h p : Nat} {n : NodeId} {x : Hte}

theorem jctNone_relays (hx : hte m h = some x) (ho : x.msg.op ∈ [Op.rdc, .wrl, .wrp, .wst, .atm, .fls]) :
    jctNone m h Env.clean = andThen (sendUp m h (upReq x (upOp x.msg.op))) h .jctRelay := by
  have hI : jctServeI m h = andThen (sendUp m h (upReq x (upOp x.msg.op))) h .jctRelay := by
    unfold jctServeI
    rw [hx]
    dsimp only
    simp only [List.mem_cons, List.not_mem_nil, or_false] at ho
    rcases ho with ho | ho | ho | ho | ho | ho <;> rw [ho] <;> rfl
  rw [← hI]
  unfold jctNone
  rw [hx]
  dsimp only
  simp only [List.mem_cons, List.not_mem_nil, or_false] at ho
  rcases ho with ho | ho | ho | ho | ho | ho <;> rw [ho]

/-- A member's request to a line that the junction does not hold. -/
theorem jctDecide_none (hx : hte m h = some x) (hl : reqLost m x = false) (hhome : (homeOf m x.epoch x.msg.line).isSome = true)
    (hu : uncoupled m = false) (hc : m.fab.cplState = 2) (hmem : memberSlot m x.epoch x.slot = true)
    (hret : retired m (dirSet x.msg.line) = false) (hf : dirFind m false x.msg.line = none) :
    jctDecide m h Env.clean = jctNone (tally .dir 1 1 m) h Env.clean := by
  have hdeck : (tally .dir 1 1 m).deck = m.deck := tally_only _ _ _ _ .deck (by decide)
  have hret' : retired (tally .dir 1 1 m) (dirSet x.msg.line) = false := (retired_congr hdeck _).trans hret
  have hf' : dirFind (tally .dir 1 1 m) false x.msg.line = none := (acted_dirFind (acted_tally _ _ _ _) hdeck _ _).trans hf
  unfold jctDecide
  rw [hx]
  dsimp only
  rw [hl, if_neg Bool.false_ne_true, if_neg (by simp [Option.isSome_iff_ne_none.1 hhome]), hu, if_neg Bool.false_ne_true,
    if_neg (by simp [hc]), hmem, if_neg (by simp), hret, if_neg Bool.false_ne_true, lookupRead_clean, hret',
    if_neg Bool.false_ne_true, lookupRecover_clean]
  dsimp only
  rw [hf']

end

/-! ### Replies from upstream (R481, R483, R486, R512) -/

/-- The entry that a member's request writes once its upstream reply `op` is relayed. -/
def relayFin (x : Hte) (op : Op) : Option DirEnt :=
  if op = .err then none else if x.msg.op = .rds ∧ op = .dex
    then some { entOf x.msg.line x.epoch .x with owner := BitVec.ofNat 8 (x.slot.getD 0) } else x.fin

/-- A member's request whose reply of opcode `op` is relayed. -/
def relaying (x : Hte) (op : Op) : Hte := { x with fin := relayFin x op }

/-- The relay of an upstream reply. -/
def relayMsg (h : Nat) (x : Hte) (r : Msg) : Msg := { toReq x h r.op with data := r.data, poison := r.poison, status := r.status }

section
variable {m : Core} {h p : Nat} {n : NodeId} {x : Hte} {g : Msg}

theorem jctRelay_shape (hx : hte m h = some x) (hr : x.reply = some g) :
    ∃ q, m.onlyParts [.trk] q ∧ hte q h = some (relaying x g.op) ∧ jctRelay m h = sendEnd q h x (relayMsg h x g) := by
  have hset (f : Option DirEnt) (hf : relayFin x g.op = f) : m.onlyParts [.trk] (modHte m h fun y => { y with fin := f })
      ∧ hte (modHte m h fun y => { y with fin := f }) h = some (relaying x g.op) := by
    rw [modHte_eq hx, relaying, hf]
    exact ⟨setHte_only _ _ _, hte_setHte_same _ _ _⟩
  unfold jctRelay
  rw [hx]
  dsimp only
  rw [hr]
  dsimp only
  split
  · next he =>
    obtain ⟨h1, h2⟩ := hset none (if_pos he)
    exact ⟨_, h1, h2, rfl⟩
  · next he =>
    split
    · next h1 h2 =>
      obtain ⟨k1, k2⟩ := hset (some { entOf x.msg.line x.epoch .x with owner := BitVec.ofNat 8 (x.slot.getD 0) })
        ((if_neg he).trans (if_pos ⟨h1, h2⟩))
      exact ⟨_, k1, k2, rfl⟩
    · next hne =>
      have hfin : relayFin x g.op = x.fin := (if_neg he).trans (if_neg fun hb => hne hb.1 hb.2)
      refine ⟨m, onlyParts_refl _ _, ?_, rfl⟩
      rw [relaying, hfin]
      exact hx

/-- An HTE whose upstream reply has come. -/
def replied (x : Hte) (n : NodeId) (g : Msg) : Hte := { x with awaits := x.awaits.erase (.up n), reply := some g }

theorem cohReply_up (e : Env) (hj : isJunction m = true) (hop : g.op ≠ .cmp) (ht : g.tag.toNat = h) (hx : hte m h = some x)
    (hk : x.kind = .active) (ha : x.awaits = [.up n]) (hl : legalUp x g = true) (hs : g.src = n) (he : g.epoch = x.upEpoch) :
    cohReply m g e = go (setHte m h (replied x n g)) h e := by
  have hr : replyHte m g = h := by rw [replyHte, hj, if_neg (by simp), if_neg hop, ht]
  have hu : upHome x = some n := by rw [upHome, ha]; rfl
  unfold cohReply
  dsimp only
  rw [hr, hx]
  dsimp only
  rw [if_neg (by simp [hk]), hu]
  dsimp only
  rw [hl, if_pos (by simp [hs]), if_neg (by simp [he])]
  unfold upReply
  dsimp only
  rw [if_neg (by simp [hs]), unawait_eq hx, modHte_eq (hte_setHte_same _ _ _), setHte_setHte]
  rfl

/-- A member's request ends with the relay of its upstream reply. -/
theorem go_relays (e : Env) (hx : hte m h = some x) (hr : x.reply = some g) (hcs : x.cmps = []) (ha : x.awaits = []) (hw : x.wait = .none)
    (hd : x.done = false) (hc : x.cont = .jctRelay) (hk : x.kind = .active) (hn : x.msg.src ≠ nodeId m)
    (hroute : routeOf m x.epoch x.msg.src = some p) : m.onlyParts (.trk :: .ports :: Part.report) (go m h e)
      ∧ hte (go m h e) h = some { relaying x g.op with ended := true, done := true, wait := .none, cont := .idle }
      ∧ hteSends (go m h e) p h (AsSent m { relayMsg h x g with epoch := x.epoch }) := by
  obtain ⟨q, hq, hgo⟩ := go_once e hx hcs ha hw hd (by rw [hc]; decide) hk
  have hxq := (sameHtes_hte hq h).trans hx
  obtain ⟨r, h1, h2, h3⟩ := jctRelay_shape hxq hr
  have hmr : m.onlyParts [.trk] r := onlyParts_trans (sameHtes_only hq) h1
  have hregs : m.onlyRegs [] r := onlyRegs_of_eq (hmr .regs (by decide))
  have hroutes := route_kept hmr (by decide) (by decide) hregs (by decide)
  obtain ⟨s1, -, s3, s4⟩ := sendEnd_state (x := x) (g := relayMsg h x g) h2
    (by rw [hroutes.1]; exact hn) ((hroutes.2 _ _).trans hroute)
  rw [show runCont q h x e = jctRelay q h by rw [runCont, hc], h3] at hgo
  have hlast := hgo _ s3 hcs (.inr (.inr (.inl rfl))) hk
  refine ⟨onlyParts_trans (onlyParts_mono hmr (by decide)) (onlyParts_trans s1 (onlyParts_mono (sameHtes_only hlast) (by decide))),
    (sameHtes_hte hlast h).trans s3, hteSends_mono (hteSends_of_only s4 (sameHtes_only hlast) (by decide)) fun y hy => ?_⟩
  exact asSent_congr hregs (by decide) (by decide) hy

end

/-! ### Member writebacks (R489, Table JCT-3) -/

section
variable {m : Core} {h k own : Nat} {x : Hte}

/-- A writeback that frees the entry in way `k`. -/
def freeing (x : Hte) (k : Nat) : Hte := { x with key := some k, fin := some {} }

/-- A member's writeback as it goes upstream. -/
def upWb (x : Hte) : Msg := { op := x.msg.op, line := x.msg.line, data := x.msg.data, poison := x.msg.poison }

theorem jctWb_owner (hx : hte m h = some x) (he : x.ended = false) (hu : uncoupled m = false)
    (hhome : (homeOf m x.epoch x.msg.line).isSome = true) (hret : retired m (dirSet x.msg.line) = false)
    (hf : dirFind m false x.msg.line = some k) (hst : (dirEnt m k).st = .x) (hslot : x.slot = some own)
    (hown : (dirEnt m k).owner.toNat = own) (ho : x.msg.op ≠ .wbs) :
    jctWb m h Env.clean = andThen (sendUp (setHte m h (freeing x k)) h (upWb x)) h .wbDone := by
  unfold jctWb
  rw [hx]
  dsimp only
  rw [if_neg (by simp [he]), hu, if_neg Bool.false_ne_true, if_neg (by simp [Option.isSome_iff_ne_none.1 hhome]), lookupRead_clean, hret,
    if_neg Bool.false_ne_true, lookupRecover_clean]
  dsimp only
  rw [hf, if_pos (by simp [hst, hown, hslot, ho]), setFin_eq hx]
  rfl

end

/-! ### The commands -/

section
variable {s : State} {h : HteIx} {x : Hte} {n : NodeId} {p : Nat}

theorem jctMemberRequest_relays (hr : running s.m = true) (hx : hte s.m h.val = some x) (hk : x.kind = .active) (hw : x.wait = .decision)
    (hj : x.job = .external) (ho : x.msg.op ∈ [Op.rdc, .wrl, .wrp, .wst, .atm, .fls])
    (hs : homeServes s.m x.epoch x.msg.line x.slot = false) (hl : reqLost s.m x = false) (hu : uncoupled s.m = false)
    (hc : s.m.fab.cplState = 2) (hmem : memberSlot s.m x.epoch x.slot = true) (hhome : (homeOf s.m x.epoch x.msg.line).isSome = true)
    (hup : homeOf s.m (upEpochOf s.m) x.msg.line = some n) (hret : retired s.m (dirSet x.msg.line) = false)
    (hf : dirFind s.m false x.msg.line = none) (hn : n ≠ nodeId s.m) (hp : routeOf s.m (upEpochOf s.m) n = some p) :
    ∃ t, exec (.jctMemberRequest h Env.clean) s = .next { s with m := t } ∧ Acted s.m t
      ∧ (∃ cs, hte t h.val = some { awaitsUp s.m (deciding x) n (upReq (deciding x) (upOp x.msg.op)) .jctRelay with cmps := cs })
      ∧ hteSends t p h.val (AsSent s.m (upMsg s.m h.val n (upReq (deciding x) (upOp x.msg.op)))) := by
  have hreq : clsOf x.msg.op = .req := by
    simp only [List.mem_cons, List.not_mem_nil, or_false] at ho
    rcases ho with ho | ho | ho | ho | ho | ho <;> rw [ho] <;> rfl
  have hdec := hte_setHte_same s.m h.val (deciding x)
  have hrun := (decideIf_eq (p := fun m x => decide (x.job = .external) && decide (clsOf x.msg.op = .req)
    && !homeServes m x.epoch x.msg.line x.slot) Env.clean hx hk hw (by simp [hj, hreq, hs])).trans
    (decideHte_jct Env.clean hx hj hs (by rw [hreq]; decide))
  rw [jctDecide_none (m := setHte s.m h.val (deciding x)) hdec hl hhome hu hc hmem hret hf] at hrun
  have hpre : Acted s.m (tally .dir 1 1 (setHte s.m h.val (deciding x))) := acted_trans (acted_setHte _ _ _) (acted_tally _ _ _ _)
  have hxt : hte (tally .dir 1 1 (setHte s.m h.val (deciding x))) h.val = some (deciding x) :=
    (hte_of_only (tally_only _ _ _ _) (by decide) _).trans hdec
  generalize tally .dir 1 1 (setHte s.m h.val (deciding x)) = q at hrun hpre hxt
  rw [jctNone_relays (m := q) hxt ho] at hrun
  have hcfg := acted_cfg hpre
  have hep : upEpochOf q = upEpochOf s.m := by rw [upEpochOf, upEpochOf, hcfg]
  have hsent := sendUp_state (g := upReq (deciding x) (upOp x.msg.op)) (n := n) (p := p) hxt .jctRelay
    (by rw [hep, homeOf_congr hcfg]; exact hup) (by rw [acted_node hpre]; exact hn) (by rw [hep, acted_routes hpre]; exact hp)
  obtain ⟨g1, g2, g3⟩ := go_sentUp (x := deciding x) Env.clean hk hsent
  have hmsg (g : Msg) : upMsg q h.val n g = upMsg s.m h.val n g := by rw [upMsg, upMsg, hep]
  have hhte (g : Msg) : awaitsUp q (deciding x) n g .jctRelay = awaitsUp s.m (deciding x) n g .jctRelay := by rw [awaitsUp, awaitsUp, hep]
  rw [hhte] at g2
  exact ⟨_, clocked_next (f := decideIf (fun m x => decide (x.job = .external) && decide (clsOf x.msg.op = .req)
    && !homeServes m x.epoch x.msg.line x.slot) h.val Env.clean) hr hrun, acted_trans hpre g1, g2,
    hteSends_mono g3 fun r hr => acted_asSent hpre (hmsg _ ▸ hr)⟩

theorem jctMemberWriteback_owner {k own : Nat} (hr : running s.m = true) (hx : hte s.m h.val = some x) (hk : x.kind = .active)
    (hw : x.wait = .decision) (hj : x.job = .external) (he : x.ended = false) (ho : x.msg.op = .wbd ∨ x.msg.op = .wbe)
    (hs : homeServes s.m x.epoch x.msg.line x.slot = false) (hu : uncoupled s.m = false)
    (hhome : (homeOf s.m x.epoch x.msg.line).isSome = true) (hup : homeOf s.m (upEpochOf s.m) x.msg.line = some n)
    (hret : retired s.m (dirSet x.msg.line) = false) (hf : dirFind s.m false x.msg.line = some k) (hst : (dirEnt s.m k).st = .x)
    (hslot : x.slot = some own) (hown : (dirEnt s.m k).owner.toNat = own) (hn : n ≠ nodeId s.m)
    (hp : routeOf s.m (upEpochOf s.m) n = some p) :
    ∃ t, exec (.jctMemberWriteback (.hte h) Env.clean) s = .next { s with m := t } ∧ Acted s.m t
      ∧ (∃ cs, hte t h.val = some { awaitsUp s.m (freeing (deciding x) k) n (upWb x) .wbDone with cmps := cs })
      ∧ hteSends t p h.val (AsSent s.m (upMsg s.m h.val n (upWb x))) := by
  have hwbk : clsOf x.msg.op = .wbk := by rcases ho with ho | ho <;> rw [ho] <;> rfl
  have hne : x.msg.op ≠ .wbs := by rcases ho with ho | ho <;> rw [ho] <;> decide
  have hdec := hte_setHte_same s.m h.val (deciding x)
  have hrun := (decideIf_eq (p := fun m x => decide (x.job = .external) && decide (clsOf x.msg.op = .wbk)
    && !homeServes m x.epoch x.msg.line x.slot) Env.clean hx hk hw (by simp [hj, hwbk, hs])).trans
    (decideHte_jctWb Env.clean hx hj hs hwbk)
  rw [jctWb_owner (m := setHte s.m h.val (deciding x)) (x := deciding x) hdec he hu hhome hret hf hst hslot hown hne, setHte_setHte] at hrun
  have hsent := sendUp_state (m := setHte s.m h.val (freeing (deciding x) k)) (g := upWb x) (n := n) (p := p) (hte_setHte_same _ _ _)
    .wbDone hup hn hp
  obtain ⟨g1, g2, g3⟩ := go_sentUp (x := freeing (deciding x) k) Env.clean hk hsent
  exact ⟨_, clocked_next (f := fun m => decideIf (fun m x => decide (x.job = .external) && decide (clsOf x.msg.op = .wbk)
    && !homeServes m x.epoch x.msg.line x.slot) h.val Env.clean m) hr hrun, acted_trans (acted_setHte _ _ _) g1, g2, g3⟩

/-- The replies from upstream that are relayed, with the commands that take them. -/
def relays : List (Instr × Op) := [(.gnt, .gnt), (.dsh, .dsh), (.dex, .dex), (.dmo, .dmo), (.err, .err)]

theorem exec_relays {i : InMsg} {c : Instr} {op : Op} (hr : running s.m = true) (hi : s.m.inbox = [i]) (ho : i.msg.op = op)
    (hl : i.msg.line ≠ 0) (hd : s.m.pmc.dump = none) (hat : s.m.pmc.abandonedTags = []) (hc : (c, op) ∈ relays) :
    exec c s = .next { s with m := cohReply (emptied s.m) i.msg Env.clean } := by
  have hmgt : mgtAnswer (emptied s.m) i.msg = none := by
    unfold mgtAnswer
    dsimp only
    exact if_pos (by simpa using .inr hl)
  have hdump : dumpAnswer (emptied s.m) i.msg = none := by
    unfold dumpAnswer
    rw [show (emptied s.m).pmc.dump = none from hd, show (emptied s.m).pmc.abandonedTags = [] from hat]
    exact if_neg (by simp)
  simp only [relays, List.mem_cons, List.not_mem_nil, or_false, Prod.mk.injEq] at hc
  rcases hc with ⟨rfl, rfl⟩ | ⟨rfl, rfl⟩ | ⟨rfl, rfl⟩ | ⟨rfl, rfl⟩ | ⟨rfl, rfl⟩
  · exact clocked_next (f := takeCoh .gnt Env.clean) hr (takeCoh_single Env.clean hi ho (.inl rfl))
  · exact clocked_next (f := takeCoh .dsh Env.clean) hr (takeCoh_single Env.clean hi ho (.inr rfl))
  · exact clocked_next (f := takeCoh .dex Env.clean) hr (takeCoh_single Env.clean hi ho (.inr rfl))
  · exact clocked_next (f := takeCoh .dmo Env.clean) hr (takeCoh_single Env.clean hi ho (.inr rfl))
  · exact clocked_next (f := takeAnswer .err Env.clean) hr (takeAnswer_single Env.clean hi ho rfl hmgt hdump)

end

/-- Settles O44: a message upstream is awaited by its HTE; its reply ends the member's request with what it brought. -/
theorem junctionRelaysItsMembers : Obligations.JunctionRelaysItsMembers := by
  unfold Obligations.JunctionRelaysItsMembers
  refine ⟨?_, ?_, ?_⟩
  · intro s h x n p hr hx hk hw hj ha hd ho hs hl hu hc hmem hhome hup hret hf hn hp
    obtain ⟨t, hexec, hact, ⟨cs, hte⟩, hsent⟩ := jctMemberRequest_relays hr hx hk hw hj (by simpa using ho) hs hl hu hc hmem hhome hup
      hret hf hn hp
    refine ⟨_, _, hexec, hte, ?_, rfl, hd, rfl, hteSends_mono hsent fun r hr => ?_, hact.parts, rfl, rfl⟩
    · show x.awaits ++ [.up n] = _
      rw [ha, List.nil_append]
    · obtain ⟨d, rfl⟩ := hr
      exact ⟨rfl, rfl, rfl, rfl, rfl, rfl, rfl, rfl, rfl, rfl⟩
  · intro s h x n g op c p hr hin hj ho ht hl hdump hat hx hk ha hlegal hsrc hep hcont hw hd hcs hn hroute hc
    obtain ⟨i, hi, rfl⟩ := List.map_eq_singleton_iff.1 hin
    have hexec := exec_relays hr hi ho hl hdump hat hc
    have hne : i.msg.op ≠ .cmp := by
      have hops : ∀ z ∈ relays, z.2 ≠ .cmp := by simp [relays]
      rw [ho]
      exact hops _ hc
    rw [cohReply_up (m := emptied s.m) Env.clean hj hne ht hx hk ha hlegal hsrc hep] at hexec
    have haw : (replied x n i.msg).awaits = [] := by
      show x.awaits.erase (.up n) = []
      rw [ha]
      simp
    obtain ⟨g1, g2, g3⟩ := go_relays (x := replied x n i.msg) (p := p) (m := setHte (emptied s.m) h.val (replied x n i.msg)) (g := i.msg)
      Env.clean (hte_setHte_same _ _ _) rfl hcs haw hw hd hcont hk hn hroute
    have honly : s.m.onlyParts (.inbox :: .trk :: .ports :: Part.report) (go (setHte (emptied s.m) h.val (replied x n i.msg)) h.val Env.clean) :=
      onlyParts_trans (onlyParts_mono (emptied_only s.m) (by decide)) (onlyParts_trans (onlyParts_mono (setHte_only _ _ _) (by decide))
        (onlyParts_mono g1 (by decide)))
    have hinbox : (go (setHte (emptied s.m) h.val (replied x n i.msg)) h.val Env.clean).inbox = [] := g1 .inbox (by decide)
    generalize go (setHte (emptied s.m) h.val (replied x n i.msg)) h.val Env.clean = t at hexec g1 g2 g3 honly hinbox
    refine ⟨_, _, hexec, hinbox, g2, haw, rfl, ?_, hteSends_mono g3 fun r hr => ?_, honly, rfl, rfl⟩
    · show relayFin (replied x n i.msg) i.msg.op = _
      rw [ho]
      rfl
    · obtain ⟨d, rfl⟩ := hr
      exact ⟨ho, rfl, rfl, rfl, rfl, rfl, rfl, rfl⟩
  · intro s h x k own p d n hr hx hk hw hj ha he ho hs hu hhome hup hret hf hent hst hslot hown hn hp
    subst hent
    obtain ⟨t, hexec, hact, ⟨cs, hte⟩, hsent⟩ := jctMemberWriteback_owner hr hx hk hw hj he ho hs hu hhome hup hret hf hst hslot hown hn hp
    refine ⟨_, _, hexec, hte, ?_, rfl, rfl, rfl, hteSends_mono hsent fun r hr => ?_, hact.parts, rfl, rfl⟩
    · show x.awaits ++ [.up n] = _
      rw [ha, List.nil_append]
    · obtain ⟨d, rfl⟩ := hr
      exact ⟨rfl, rfl, rfl, rfl, rfl, rfl⟩

end Sys2Proof.JunctionRelays
end

section
/-! PROOFS. Upstream snoops at the junction (Machine/Junction.lean, R73, R491 to R493, R511, Table JCT-4), with the statement
about them. -/

namespace Sys2Proof.JunctionSnoops

open Sys2Proof.Machine Sys2Proof.Laws Sys2Proof.Windows Sys2Proof.Sending Sys2Proof.Engine Sys2Proof.Flits Sys2Proof.Channels
  Sys2Proof.Transactions Sys2Proof.Units Sys2Proof.Lookups Sys2Proof.CfgMessages Sys2Proof.Merging Sys2Proof.TrackerRuns
  Sys2Proof.GoingOn Sys2Proof.Replies Sys2Proof.Decisions Sys2Proof.SharedLines Sys2Proof.JunctionRelays

/-! ### Who else uses the line (R492, Table JCT-4) -/

/-- What an HTE adds to the readers of a line. -/
def reading (l : LineAddr) (x : Hte) : BitVec 256 :=
  if (decide (x.kind = .active) || decide (x.kind = .queued)) && decide (x.msg.line = l) && !x.done
      && (decide (x.msg.op = .rds) || decide (x.msg.op = .rdo) || decide (x.msg.op = .upg)) then
    match x.slot with
    | some s => vecOf s
    | none => 0
  else 0

theorem foldl_or_eq_zero {α : Type} (f : α → BitVec 256) (t : List α) (v : BitVec 256) :
    t.foldl (fun v x => v ||| f x) v = 0 ↔ v = 0 ∧ ∀ x ∈ t, f x = 0 := by
  induction t generalizing v with
  | nil => simp
  | cons a t ih =>
    rw [List.foldl_cons, ih, List.forall_mem_cons, ← and_assoc]
    exact and_congr_left fun _ => BitVec.or_eq_zero_iff

/-- Nobody reads a line where no HTE is that of a reader. -/
theorem readers_zero_iff (m : Core) (l : LineAddr) : readers m l = 0 ↔ ∀ x ∈ m.trk.htes, reading l x.2 = 0 := by
  have heq : readers m l = m.trk.htes.foldl (fun v x => v ||| reading l x.2) 0 := by
    unfold readers
    congr 1
    funext v x
    unfold reading
    split
    · cases x.2.slot with
      | some s => rfl
      | none => exact (BitVec.or_zero).symm
    · exact (BitVec.or_zero).symm
  rw [heq, foldl_or_eq_zero]
  exact and_iff_right rfl

theorem readers_setHte {m : Core} {h : Nat} {l : LineAddr} {x y : Hte} (hx : hte m h = some x) (hr : readers m l = 0)
    (hy : reading l y = reading l x) : readers (setHte m h y) l = 0 := by
  rw [readers_zero_iff] at hr ⊢
  intro z hz
  rcases mem_of_mem_tset hz with rfl | hz
  · exact hy.trans (hr _ (mem_of_tfind hx))
  · exact hr z hz

theorem snoopCase_act {m : Core} {h : Nat} {l : LineAddr} (op : Op) (hb : ∀ y ∈ m.trk.htes, y.1 ≠ h → keepsBusy y.2 l = false) :
    snoopCase m h op l = .act := by
  have hnone : m.trk.htes.find? (fun x => decide (x.1 ≠ h) && keepsBusy x.2 l) = none := by
    rw [List.find?_eq_none]
    intro y hy
    by_cases he : y.1 = h
    · simp [he]
    · simp [hb y hy he]
  rw [snoopCase, hnone]

/-- How a snoop meets its line does not depend on its own HTE. -/
theorem snoopCase_setHte {m : Core} {h : Nat} {x y : Hte} (hx : hte m h = some x) (op : Op) (l : LineAddr) :
    snoopCase (setHte m h y) h op l = snoopCase m h op l := by
  have hfind : (setHte m h y).trk.htes.find? (fun x => decide (x.1 ≠ h) && keepsBusy x.2 l)
      = m.trk.htes.find? (fun x => decide (x.1 ≠ h) && keepsBusy x.2 l) := find?_tset _ hx (by simp) (by simp)
  rw [snoopCase, snoopCase, hfind]

/-! ### A line that the junction does not hold (Table JCT-4, R511) -/

theorem slotsIn_zero : slotsIn 0 = [] := by simp [slotsIn]

theorem slotsIn_vecOf {o : Nat} (ho : o < 256) : slotsIn (vecOf o) = [o] := by
  have hbit : ∀ i ∈ List.range 256, (vecOf o).getLsbD i = decide (i = o) := by
    intro i hi
    rw [vecOf, BitVec.getLsbD_shiftLeft, BitVec.getLsbD_one, decide_eq_true (List.mem_range.1 hi)]
    by_cases he : i = o
    · simp [he]
    · by_cases hlt : i < o
      · simp [hlt, he]
      · simp [he, show i - o ≠ 0 by omega]
  rw [slotsIn, List.filter_congr hbit, List.filter_eq, List.count_range, if_pos ho, List.replicate_one]

theorem sinRound_zero {m : Core} {h : Nat} {x : Hte} (l : LineAddr) (hx : hte m h = some x) : sinRound m h l 0 = m := by
  rw [sinRound, hx]
  dsimp only
  rw [slotsIn_zero, List.foldl_nil]

/-- An upstream snoop that nobody needs to answer first. -/
def unheld (x : Hte) : Hte :=
  { x with got := none, wait := .none, cont := if forwards x.msg.op then .snoopData else .snoopAnswer }

section
variable {m : Core} {h k p : Nat} {x : Hte}

theorem snoopAct_unheld (hx : hte m h = some x) (hcase : snoopCase m h x.msg.op x.msg.line = .act)
    (hret : retired m (dirSet x.msg.line) = false) (hf : dirFind m false x.msg.line = none) (hr : readers m x.msg.line = 0) :
    snoopAct m h Env.clean = setHte m h (unheld x) := by
  have hset := hte_setHte_same m h { x with got := none }
  have hret' : retired (setHte m h { x with got := none }) (dirSet x.msg.line) = false := hret
  have hf' : dirFind (setHte m h { x with got := none }) false x.msg.line = none := hf
  have hr' : readers (setHte m h { x with got := none }) x.msg.line = 0 := readers_setHte hx hr rfl
  have hv : (if (none : Option Nat).isSome then (dirEnt (setHte m h { x with got := none }) 0).vec else 0)
      ||| readers (setHte m h { x with got := none }) x.msg.line = 0 := by
    rw [hr', if_neg (by simp)]
    exact BitVec.or_self
  unfold snoopAct
  rw [hx]
  dsimp only
  rw [hcase]
  dsimp only
  rw [lookupRead_clean, modHte_eq hx, hret', if_neg Bool.false_ne_true, lookupRecover_clean]
  dsimp only
  rw [hf', if_neg (by simp)]
  refine (congrArg (fun v => andThen (sinRound (setHte m h { x with got := none }) h x.msg.line v) h
    (if forwards x.msg.op then .snoopData else .snoopAnswer)) hv).trans ?_
  rw [sinRound_zero _ hset, andThen_eq hset, setHte_setHte]
  rfl

/-! ### Answers upstream (R78, R493) -/

/-- An HTE whose snoop is answered. -/
def answered (x : Hte) : Hte := { x with ended := true, done := true, wait := .none, cont := .idle }

/-- The answer `g` to the snoop of an HTE. -/
def answerMsg (x : Hte) (g : Msg) : Msg := { snoopReply x g.op with status := g.status, data := g.data, poison := g.poison }

theorem snoopAnswer_state {g : Msg} (hx : hte m h = some x) (hd : x.msg.src ≠ nodeId m) (hr : routeOf m x.epoch x.msg.src = some p) :
    Acted m (snoopAnswer m h g) ∧ m.onlyParts (.trk :: .ports :: Part.report) (snoopAnswer m h g)
      ∧ hte (snoopAnswer m h g) h = some (answered x) ∧ hteSends (snoopAnswer m h g) p h (AsSent m (answerMsg x g)) := by
  obtain ⟨h1, -, h3⟩ := send_routed_state (h := h) (g := answerMsg x g) hd hr
  have hxs : hte (sendSnoop m h x (answerMsg x g)) h = some x := (hte_of_only h1 (by decide) h).trans hx
  have heq : snoopAnswer m h g = setHte (sendSnoop m h x (answerMsg x g)) h (answered x) := by
    rw [snoopAnswer, hx]
    exact modHte_eq hxs _
  have hset := acted_setHte (sendSnoop m h x (answerMsg x g)) h (answered x)
  rw [heq]
  exact ⟨acted_trans (acted_send _ _ _ _ _) hset, onlyParts_trans (onlyParts_mono h1 (by decide)) (onlyParts_mono (setHte_only _ _ _) (by decide)),
    hte_setHte_same _ _ _, acted_sends hset h3⟩

theorem acted_same {m n : Core} (hs : SameHtes m n) : Acted m n := acted_of_inner (sameHtes_only hs) (by decide)

/-- A snoop to which no member has brought an answer is answered `RIA`. -/
theorem go_answers (e : Env) (hx : hte m h = some x) (hg : x.got = none) (hcs : x.cmps = []) (ha : x.awaits = []) (hw : x.wait = .none)
    (hdn : x.done = false) (hc : x.cont = .snoopAnswer) (hk : x.kind = .active) (hd : x.msg.src ≠ nodeId m)
    (hr : routeOf m x.epoch x.msg.src = some p) : m.onlyParts (.trk :: .ports :: Part.report) (go m h e)
      ∧ hte (go m h e) h = some (answered x) ∧ hteSends (go m h e) p h (AsSent m (answerMsg x { op := .ria })) := by
  obtain ⟨n, hmn, hgo⟩ := go_once e hx hcs ha hw hdn (by rw [hc]; decide) hk
  have hxn := (sameHtes_hte hmn h).trans hx
  have hact := acted_same hmn
  have hrun : runCont n h x e = snoopAnswer n h { op := .ria } := by
    rw [runCont, hc]
    dsimp only
    rw [snoopFinish, hxn]
    dsimp only
    rw [hg]
  obtain ⟨-, s2, s3, s4⟩ := snoopAnswer_state (p := p) (g := { op := .ria }) hxn (by rw [acted_node hact]; exact hd)
    ((acted_routes hact _ _).trans hr)
  rw [hrun] at hgo
  have hlast := hgo _ s3 hcs (.inr (.inr (.inl rfl))) hk
  exact ⟨onlyParts_trans (onlyParts_mono (sameHtes_only hmn) (by decide))
      (onlyParts_trans s2 (onlyParts_mono (sameHtes_only hlast) (by decide))),
    (sameHtes_hte hlast h).trans s3,
    hteSends_mono (hteSends_of_only s4 (sameHtes_only hlast) (by decide)) fun r hr => acted_asSent hact hr⟩

/-- The reply of Table OLF-8 to a forward that has brought no data, and the data that its requester gets. -/
def forwardOps (op : Op) : Op × Op := if op = .sfo then (.ria, .dex) else (.rsa, .dsh)

/-- The poisoned data that a forward's requester gets. -/
def poisonMsg (x : Hte) (d : LineData) : Msg :=
  { op := (forwardOps x.msg.op).2, dest := x.msg.fnode, tag := x.msg.ftag, htag := x.msg.htag, line := x.msg.line, data := d, poison := true
    epoch := x.msg.epoch }

theorem snoopData_none (e : Env) (hx : hte m h = some x) (hg : x.got = none) (ho : x.msg.op ∈ [Op.sfs, .sfo, .sfc]) :
    snoopData m h e = snoopAnswer (send (freeLine m).2 16 (some h) x.epoch (poisonMsg x (freeLine m).1)) h
      { op := (forwardOps x.msg.op).1 } := by
  have hfwd : forwards x.msg.op = true := by
    simp only [List.mem_cons, List.not_mem_nil, or_false] at ho
    rcases ho with ho | ho | ho <;> rw [ho] <;> rfl
  unfold snoopData
  rw [hx]
  dsimp only
  rw [hg, hfwd]
  unfold poisonMsg
  simp only [List.mem_cons, List.not_mem_nil, or_false] at ho
  rcases ho with ho | ho | ho <;> rw [ho] <;> rfl

/-- A forward of a line that nobody holds: its requester gets poisoned data, and the forward its reply. -/
theorem go_answersForward {q : Nat} (e : Env) (hx : hte m h = some x) (hg : x.got = none) (hcs : x.cmps = []) (ha : x.awaits = [])
    (hw : x.wait = .none) (hdn : x.done = false) (hc : x.cont = .snoopData) (hk : x.kind = .active) (ho : x.msg.op ∈ [Op.sfs, .sfo, .sfc])
    (hd : x.msg.src ≠ nodeId m) (hf : x.msg.fnode ≠ nodeId m) (hr : routeOf m x.epoch x.msg.src = some p)
    (hq : routeOf m x.epoch x.msg.fnode = some q) : m.onlyParts (.trk :: .ports :: .free :: Part.report) (go m h e)
      ∧ hte (go m h e) h = some (answered x)
      ∧ hteSends (go m h e) p h (AsSent m (answerMsg x { op := (forwardOps x.msg.op).1 }))
      ∧ hteSends (go m h e) q h (fun r => ∃ d, AsSent m (poisonMsg x d) r) := by
  obtain ⟨n, hmn, hgo⟩ := go_once e hx hcs ha hw hdn (by rw [hc]; decide) hk
  have hxn := (sameHtes_hte hmn h).trans hx
  have hfree : n.onlyParts [.free] (freeLine n).2 := onlyParts_free n _ (by decide)
  have hact : Acted m (freeLine n).2 := acted_trans (acted_same hmn) (acted_of_inner hfree (by decide))
  have hrun : runCont n h x e = snoopAnswer (send (freeLine n).2 16 (some h) x.epoch (poisonMsg x (freeLine n).1)) h
      { op := (forwardOps x.msg.op).1 } := by
    rw [runCont, hc]
    exact snoopData_none e hxn hg ho
  have hparts : m.onlyParts (.trk :: .ports :: .free :: Part.report) (freeLine n).2 :=
    onlyParts_trans (onlyParts_mono (sameHtes_only hmn) (by decide)) (onlyParts_mono hfree (by decide))
  have hxf : hte (freeLine n).2 h = some x := (hte_of_only hfree (by decide) h).trans hxn
  generalize (freeLine n).2 = u, (freeLine n).1 = d at hact hrun hparts hxf
  obtain ⟨d1, -, d3⟩ := send_routed_state (m := u) (h := h) (e := x.epoch) (g := poisonMsg x d) (p := q)
    (by rw [acted_node hact]; exact hf) ((acted_routes hact _ _).trans hq)
  have hsent : Acted m (send u 16 (some h) x.epoch (poisonMsg x d)) := acted_trans hact (acted_send _ _ _ _ _)
  have hxs : hte (send u 16 (some h) x.epoch (poisonMsg x d)) h = some x := (hte_of_only d1 (by decide) h).trans hxf
  obtain ⟨s1, s2, s3, s4⟩ := snoopAnswer_state (p := p) (g := { op := (forwardOps x.msg.op).1 }) hxs (by rw [acted_node hsent]; exact hd)
    ((acted_routes hsent _ _).trans hr)
  rw [hrun] at hgo
  have hlast := hgo _ s3 hcs (.inr (.inr (.inl rfl))) hk
  refine ⟨onlyParts_trans hparts (onlyParts_trans (onlyParts_mono d1 (by decide)) (onlyParts_trans (onlyParts_mono s2 (by decide))
      (onlyParts_mono (sameHtes_only hlast) (by decide)))), (sameHtes_hte hlast h).trans s3, ?_, ?_⟩
  · exact hteSends_mono (hteSends_of_only s4 (sameHtes_only hlast) (by decide)) fun r hr => acted_asSent hsent hr
  · exact hteSends_mono (hteSends_of_only (acted_sends s1 d3) (sameHtes_only hlast) (by decide)) fun r hr => ⟨d, acted_asSent hact hr⟩

/-! ### A line that a member owns (Table JCT-4, R493) -/

/-- What the entry becomes once the owner has answered. -/
def ownedFin (op : Op) (l : LineAddr) (e : Bool) (f : Option DirEnt) (o : Nat) : Option DirEnt :=
  match op with
  | .sfs => some { entOf l e .s with vec := vecOf o }
  | .sfc => f
  | _ => some {}

/-- A snoop that asks the owner `o` of the entry in way `k`. -/
def asking (x : Hte) (k o : Nat) : Hte := { x with got := none, key := some k, fin := ownedFin x.msg.op x.msg.line x.epoch x.fin o }

/-- The answer that it awaits. -/
def ownerAwait (op : Op) (o : Nat) : Await :=
  match op with
  | .sin => .ria o
  | .sfs | .sfo | .sfc => .owner o op
  | _ => .owner o .src

/-- What goes to the owner. -/
def PassedOn (m : Core) (x : Hte) (o : Nat) (r : Msg) : Prop :=
  r.line = x.msg.line ∧ r.dest = nodeOf m x.epoch o
    ∧ match x.msg.op with
      | .sin => r.op = .sin
      | .sfs | .sfo | .sfc => r.op = x.msg.op ∧ r.fnode = x.msg.fnode ∧ r.ftag = x.msg.ftag ∧ r.htag = x.msg.htag
      | _ => r.op = .src

/-- The forward that goes on to the owner. -/
def passMsg (m : Core) (h : Nat) (x : Hte) (o : Nat) : Msg :=
  { op := x.msg.op, dest := nodeOf m x.epoch o, tag := BitVec.ofNat 12 h, htag := x.msg.htag, line := x.msg.line, fnode := x.msg.fnode
    ftag := x.msg.ftag }

theorem snoop_parts {o : Nat} {l : LineAddr} {op : Op} (hx : hte m h = some x) (hd : nodeOf m x.epoch o ≠ nodeId m)
    (hr : routeOf m x.epoch (nodeOf m x.epoch o) = some p) : m.onlyParts (.ports :: Part.report) (snoop m h l op o) := by
  have hstep : ∃ n, m.onlyParts Part.report n ∧ Acted m n ∧ snoop m h l op o = sendH n h x (snoopMsg n h x l op o) := by
    unfold snoop
    rw [hx]
    dsimp only
    split
    · exact ⟨m, onlyParts_refl _ _, acted_refl m, rfl⟩
    · exact ⟨_, tally_only _ _ _ _, acted_tally _ _ _ _, rfl⟩
  obtain ⟨n, hn, ha, he⟩ := hstep
  have hnode : nodeOf n x.epoch o = nodeOf m x.epoch o := acted_nodeOf ha _ _
  rw [he]
  refine onlyParts_trans (onlyParts_mono hn (by decide)) (sendH_state (p := p) ?_ ?_).1
  · show nodeOf n x.epoch o ≠ nodeId n
    rw [hnode, acted_node ha]
    exact hd
  · show routeOf n x.epoch (nodeOf n x.epoch o) = some p
    rw [hnode, acted_routes ha]
    exact hr

end

/-- An HTE has asked an owner: its message waits at a port, and nothing else is new. -/
structure Asked (m n : Core) (h p : Nat) (x y : Hte) (o : Nat) : Prop where
  parts : m.onlyParts (.trk :: .ports :: Part.report) n
  own : hte n h = some y
  sent : hteSends n p h (PassedOn m x o)

section
variable {m : Core} {h k o p : Nat} {x y : Hte}

theorem asked_snoop {op : Op} (he : y.epoch = x.epoch) (hp : ∀ r : Msg, r.op = op → r.dest = nodeOf m x.epoch o → r.line = x.msg.line →
    PassedOn m x o r) (hd : nodeOf m x.epoch o ≠ nodeId m) (hr : routeOf m x.epoch (nodeOf m x.epoch o) = some p) :
    Asked m (snoop (setHte m h y) h x.msg.line op o) h p x y o := by
  have hy := hte_setHte_same m h y
  rw [← he] at hd hr
  obtain ⟨-, h2, -, h4⟩ := snoop_state hy x.msg.line op o
  refine ⟨onlyParts_trans (onlyParts_mono (setHte_only _ _ _) (by decide)) (onlyParts_mono (snoop_parts hy hd hr) (by decide)), (h2 h).trans hy,
    hteSends_mono (h4 p hd hr) fun r hr => ?_⟩
  obtain ⟨r1, r2, -, -, -, r6, -⟩ := hr
  exact hp r r1 (he ▸ r2) r6

theorem asked_forward (ho : x.msg.op ∈ [Op.sfs, .sfo, .sfc]) (hd : nodeOf m x.epoch o ≠ nodeId m)
    (hr : routeOf m x.epoch (nodeOf m x.epoch o) = some p) :
    Asked m (sendH (tally .dir 9 1 (setHte m h y)) h x (passMsg (setHte m h y) h x o)) h p x y o := by
  have ht := tally_only .dir 9 1 (setHte m h y)
  have ha : Acted m (tally .dir 9 1 (setHte m h y)) := acted_trans (acted_setHte _ _ _) (acted_tally _ _ _ _)
  obtain ⟨h1, -, h3⟩ := sendH_state (m := tally .dir 9 1 (setHte m h y)) (h := h) (x := x) (g := passMsg (setHte m h y) h x o) (p := p)
    (by rw [acted_node ha]; exact hd) ((acted_routes ha _ _).trans hr)
  refine ⟨onlyParts_trans (onlyParts_mono (setHte_only _ _ _) (by decide)) (onlyParts_trans (onlyParts_mono ht (by decide))
      (onlyParts_mono h1 (by decide))), (hte_of_only h1 (by decide) h).trans ((hte_of_only ht (by decide) h).trans (hte_setHte_same _ _ _)),
    hteSends_mono h3 fun r hr => ?_⟩
  obtain ⟨d, rfl⟩ := hr
  refine ⟨rfl, rfl, ?_⟩
  simp only [List.mem_cons, List.not_mem_nil, or_false] at ho
  rcases ho with ho | ho | ho
  · rw [ho]
    exact ⟨ho, rfl, rfl, rfl⟩
  · rw [ho]
    exact ⟨ho, rfl, rfl, rfl⟩
  · rw [ho]
    exact ⟨ho, rfl, rfl, rfl⟩

/-- The snoops that home nodes send. -/
def snoopOps : List Op := [.sin, .sfs, .sfo, .sfc, .src, .swp]

theorem snoopAct_owned (hx : hte m h = some x) (ho : x.msg.op ∈ snoopOps) (hcase : snoopCase m h x.msg.op x.msg.line = .act)
    (hret : retired m (dirSet x.msg.line) = false) (hf : dirFind m false x.msg.line = some k) (hst : (dirEnt m k).st = .x)
    (hown : (dirEnt m k).owner.toNat = o) (hlive : snoopable m x.epoch o = true) (hd : nodeOf m x.epoch o ≠ nodeId m)
    (hr : routeOf m x.epoch (nodeOf m x.epoch o) = some p) :
    ∃ n, Asked m n h p x (asking x k o) o ∧ snoopAct m h Env.clean = andThen (await n h (ownerAwait x.msg.op o)) h .snoopAnswer := by
  have hset := hte_setHte_same m h { x with got := none }
  have hkey := hte_setHte_same m h { x with got := none, key := some k }
  have hret' : retired (setHte m h { x with got := none }) (dirSet x.msg.line) = false := hret
  have hf' : dirFind (setHte m h { x with got := none }) false x.msg.line = some k := hf
  have hst' : (dirEnt (setHte m h { x with got := none }) k).st = .x := hst
  have hown' : (dirEnt (setHte m h { x with got := none }) k).owner.toNat = o := hown
  have hlive' : snoopable (setHte m h { x with got := none, key := some k }) x.epoch o = true := hlive
  have hfin (f : DirEnt) (he : ownedFin x.msg.op x.msg.line x.epoch x.fin o = some f) : setFin (setHte m h { x with got := none, key := some k }) h (some k) f
      = setHte m h (asking x k o) := by
    rw [setFin_eq hkey, setHte_setHte, asking, he]
  have holt : o < 256 := hown ▸ (dirEnt m k).owner.isLt
  unfold snoopAct
  rw [hx]
  dsimp only
  rw [hcase]
  dsimp only
  rw [lookupRead_clean, modHte_eq hx, hret', if_neg Bool.false_ne_true, lookupRecover_clean]
  dsimp only
  rw [hf', Option.getD_some, if_pos (by simp [hst']), modHte_eq hset, setHte_setHte, hown', hlive', if_neg (by simp)]
  simp only [snoopOps, List.mem_cons, List.not_mem_nil, or_false] at ho
  rcases ho with ho | ho | ho | ho | ho | ho
  · have hpass : ∀ r : Msg, r.op = .sin → r.dest = nodeOf m x.epoch o → r.line = x.msg.line → PassedOn m x o r :=
      fun r h1 h2 h3 => ⟨h3, h2, by rw [ho]; exact h1⟩
    have hround : sinRound (setHte m h (asking x k o)) h x.msg.line (vecOf o)
        = await (snoop (setHte m h (asking x k o)) h x.msg.line .sin o) h (.ria o) := by
      rw [sinRound, hte_setHte_same]
      dsimp only
      rw [slotsIn_vecOf holt, List.foldl_cons, List.foldl_nil]
      exact if_pos hlive
    refine ⟨_, asked_snoop (y := asking x k o) rfl hpass hd hr, ?_⟩
    rw [ho]
    dsimp only
    rw [hfin _ (by rw [ho]; rfl), hround]
    rfl
  · refine ⟨_, asked_forward (y := asking x k o) (by rw [ho]; decide) hd hr, ?_⟩
    rw [passMsg, ho]
    dsimp only
    rw [hfin _ (by rw [ho]; rfl)]
    rfl
  · refine ⟨_, asked_forward (y := asking x k o) (by rw [ho]; decide) hd hr, ?_⟩
    rw [passMsg, ho]
    dsimp only
    rw [hfin _ (by rw [ho]; rfl)]
    rfl
  · have hask : asking x k o = { x with got := none, key := some k } := by rw [asking, ho]; rfl
    refine ⟨_, asked_forward (y := asking x k o) (by rw [ho]; decide) hd hr, ?_⟩
    rw [passMsg, hask, ho]
    rfl
  · have hpass : ∀ r : Msg, r.op = .src → r.dest = nodeOf m x.epoch o → r.line = x.msg.line → PassedOn m x o r :=
      fun r h1 h2 h3 => ⟨h3, h2, by rw [ho]; exact h1⟩
    refine ⟨_, asked_snoop (y := asking x k o) rfl hpass hd hr, ?_⟩
    rw [ho]
    dsimp only
    rw [hfin _ (by rw [ho]; rfl)]
    rfl
  · have hpass : ∀ r : Msg, r.op = .src → r.dest = nodeOf m x.epoch o → r.line = x.msg.line → PassedOn m x o r :=
      fun r h1 h2 h3 => ⟨h3, h2, by rw [ho]; exact h1⟩
    refine ⟨_, asked_snoop (y := asking x k o) rfl hpass hd hr, ?_⟩
    rw [ho]
    dsimp only
    rw [hfin _ (by rw [ho]; rfl)]
    rfl

/-- An HTE that awaits an owner's answer to a snoop. -/
def asked (y : Hte) (a : Await) : Hte := { y with awaits := y.awaits ++ [a], wait := .none, cont := .snoopAnswer }

theorem go_asked {n : Core} {a : Await} (e : Env) (hs : Asked m n h p x y o) (hcs : y.cmps = []) (hk : y.kind = .active) :
    Asked m (go (andThen (await n h a) h .snoopAnswer) h e) h p x (asked y a) o := by
  obtain ⟨h1, h2, h3⟩ := hs
  rw [await_eq h2, andThen_eq (hte_setHte_same _ _ _), setHte_setHte]
  have hgo := go_halted (x := asked y a) e (hte_setHte_same n h (asked y a)) hcs (.inl (by simp [asked])) hk
  exact ⟨onlyParts_trans h1 (onlyParts_trans (onlyParts_mono (setHte_only _ _ _) (by decide)) (onlyParts_mono (sameHtes_only hgo) (by decide))),
    (sameHtes_hte hgo h).trans (hte_setHte_same _ _ _), hteSends_of_only (hteSends_of_only h3 (setHte_only _ _ _) (by decide))
      (sameHtes_only hgo) (by decide)⟩

end

/-! ### An upstream snoop takes its HTE (R491) -/

/-- The HTE of an upstream snoop. -/
def snoopHte (m : Core) (i : InMsg) : Hte :=
  { kind := .active, msg := i.msg, port := i.port, job := .snoop, epoch := epochFor m i.msg.epoch
    adm := m.stmp, seq := m.trk.seq, pool := snoopPool, wait := .none }

/-- The machine in which the snoop has its HTE. -/
def entered (m : Core) (i : InMsg) : Core :=
  { m with trk := { m.trk with
    htes := tset m.trk.htes (tfree m.trk.htes 0) (snoopHte m i), seq := m.trk.seq + 1, hteUse := hteTaken m snoopPool } }

theorem released_acted (m : Core) (i : InMsg) : Acted m (released m i) := by
  have hempty : m.onlyParts [.inbox] (emptied m) := emptied_only m
  refine ⟨onlyParts_mono (released_only m i) (by decide), onlyRegs_of_only (released_only m i) (by decide), ?_⟩
  unfold released
  dsimp only
  split
  · exact grown_of_only hempty (by decide)
  · exact grown_trans (n := emptied m) (grown_of_only hempty (by decide)) (freeSlots_grown _ _ _ _)

section
variable {m : Core} {i : InMsg}

theorem released_trk (m : Core) (i : InMsg) : (released m i).trk = m.trk := released_only m i .trk (by decide)

theorem entered_only (m : Core) (i : InMsg) : m.onlyParts [.inbox, .trk, .ports] (entered (released m i) i) :=
  onlyParts_trans (onlyParts_mono (released_only m i) (by decide)) (onlyParts_trk _ _ (by decide))

theorem entered_inbox (m : Core) (i : InMsg) : (entered (released m i) i).inbox = [] := released_inbox m i

theorem entered_acted (m : Core) (i : InMsg) : Acted m (entered (released m i) i) :=
  acted_trans (released_acted m i)
    (acted_of_inner (ps := [.trk]) (onlyParts_trk (released m i) _ (by decide) : (released m i).onlyParts [.trk] (entered (released m i) i))
      (by decide))

theorem entered_hte (m : Core) (i : InMsg) :
    hte (entered (released m i) i) (tfree m.trk.htes 0) = some (snoopHte (released m i) i) := by
  rw [hte, entered]
  dsimp only
  rw [tfind_tset, released_trk, if_pos rfl]

theorem mem_entered {y : Nat × Hte} (hy : y ∈ (entered (released m i) i).trk.htes) :
    y = (tfree m.trk.htes 0, snoopHte (released m i) i) ∨ y ∈ m.trk.htes := by
  unfold entered at hy
  dsimp only at hy
  rw [released_trk] at hy
  exact mem_of_mem_tset hy

theorem snoopHte_epoch (m : Core) (i : InMsg) : (snoopHte (released m i) i).epoch = epochFor m i.msg.epoch :=
  epochFor_congr (acted_cfg (released_acted m i)) _

theorem entered_case {l : LineAddr} (op : Op) (hb : ∀ y ∈ m.trk.htes, keepsBusy y.2 l = false) :
    snoopCase (entered (released m i) i) (tfree m.trk.htes 0) op l = .act := by
  refine snoopCase_act op fun y hy hne => ?_
  rcases mem_entered hy with rfl | hy
  · exact absurd rfl hne
  · exact hb y hy

theorem entered_readers {l : LineAddr} (ho : i.msg.op ∈ snoopOps) (hr : readers m l = 0) : readers (entered (released m i) i) l = 0 := by
  rw [readers_zero_iff] at hr ⊢
  intro y hy
  rcases mem_entered hy with rfl | hy
  · refine if_neg ?_
    simp only [snoopOps, List.mem_cons, List.not_mem_nil, or_false] at ho
    rcases ho with ho | ho | ho | ho | ho | ho <;> simp [snoopHte, ho]
  · exact hr y hy

theorem takeSnoop_single {f : Msg → Bool} (e : Env) (hi : m.inbox = [i]) (hj : isJunction m = true) (hr : snoopRoom m = true)
    (ho : i.msg.op ∈ snoopOps) (hf : f i.msg = true) : takeSnoop f e m
      = go (snoopAct (entered (released m i) i) (tfree m.trk.htes 0) e) (tfree m.trk.htes 0) e := by
  have hpick : (decide (clsOf i.msg.op = .snp) && decide (i.msg.op ≠ .spu) && f i.msg) = true ∧ i.msg.op ≠ .ssu := by
    simp only [snoopOps, List.mem_cons, List.not_mem_nil, or_false] at ho
    rcases ho with ho | ho | ho | ho | ho | ho <;> rw [ho, hf] <;> exact ⟨rfl, by decide⟩
  have hj' : isJunction (released m i) = true := by
    have hregs : m.onlyRegs [] (released m i) := onlyRegs_of_only (released_only m i) (by decide)
    exact (isJunction_congr hregs (by decide)).trans hj
  have hstart : snoopStart (released m i) i e = go (snoopAct (entered (released m i) i) (tfree (released m i).trk.htes 0) e)
      (tfree (released m i).trk.htes 0) e := rfl
  unfold takeSnoop
  rw [hj, hr, if_neg (by simp), takeInbox_single (f := fun g => decide (clsOf g.op = .snp) && decide (g.op ≠ .spu) && f g) hi hpick.1]
  dsimp only
  rw [hj', if_neg (by simp), if_neg hpick.2, hstart, released_trk]

end

/-- The commands that take upstream snoops, with the opcodes that they take. -/
def takers : List (Instr × Op) :=
  [(.sin Env.clean, .sin), (.sfs Env.clean, .sfs), (.sfo Env.clean, .sfo), (.sfc Env.clean, .sfc), (.src Env.clean, .src),
    (.swp Env.clean, .swp), (.jctSnoopHteGrant, .sin), (.jctSnoopHteGrant, .src), (.jctSnoopHteGrant, .swp)]

theorem takers_ops {c : Instr} {op : Op} (hc : (c, op) ∈ takers) : op ∈ snoopOps := by
  have hall : ∀ z ∈ takers, z.2 ∈ snoopOps := by simp [takers, snoopOps]
  exact hall _ hc

section
variable {s : State} {i : InMsg} {c : Instr} {op : Op} {p : Nat}

theorem exec_takers (hr : running s.m = true) (hi : s.m.inbox = [i]) (hj : isJunction s.m = true) (hroom : snoopRoom s.m = true)
    (ho : i.msg.op = op) (hc : (c, op) ∈ takers) : exec c s = .next { s with
      m := go (snoopAct (entered (released s.m i) i) (tfree s.m.trk.htes 0) Env.clean) (tfree s.m.trk.htes 0) Env.clean } := by
  have htake (f : Msg → Bool) (hf : f i.msg = true) := takeSnoop_single Env.clean hi hj hroom (ho ▸ takers_ops hc) hf
  simp only [takers, List.mem_cons, List.not_mem_nil, or_false, Prod.mk.injEq] at hc
  rcases hc with ⟨rfl, rfl⟩ | ⟨rfl, rfl⟩ | ⟨rfl, rfl⟩ | ⟨rfl, rfl⟩ | ⟨rfl, rfl⟩ | ⟨rfl, rfl⟩ | ⟨rfl, -⟩ | ⟨rfl, -⟩ | ⟨rfl, -⟩
  · exact clocked_next (f := takeSnoop (fun g => decide (g.op = .sin)) Env.clean) hr (htake _ (decide_eq_true ho))
  · exact clocked_next (f := takeSnoop (fun g => decide (g.op = .sfs)) Env.clean) hr (htake _ (decide_eq_true ho))
  · exact clocked_next (f := takeSnoop (fun g => decide (g.op = .sfo)) Env.clean) hr (htake _ (decide_eq_true ho))
  · exact clocked_next (f := takeSnoop (fun g => decide (g.op = .sfc)) Env.clean) hr (htake _ (decide_eq_true ho))
  · exact clocked_next (f := takeSnoop (fun g => decide (g.op = .src)) Env.clean) hr (htake _ (decide_eq_true ho))
  · exact clocked_next (f := takeSnoop (fun g => decide (g.op = .swp)) Env.clean) hr (htake _ (decide_eq_true ho))
  · exact clocked_next (f := takeSnoop (fun _ => true) Env.clean) hr (htake _ rfl)
  · exact clocked_next (f := takeSnoop (fun _ => true) Env.clean) hr (htake _ rfl)
  · exact clocked_next (f := takeSnoop (fun _ => true) Env.clean) hr (htake _ rfl)

/-- A snoop of a line that the junction does not hold, in its HTE. -/
theorem exec_unheld (hr : running s.m = true) (hi : s.m.inbox = [i]) (hj : isJunction s.m = true) (hroom : snoopRoom s.m = true)
    (ho : i.msg.op = op) (hc : (c, op) ∈ takers) (hb : ∀ y ∈ s.m.trk.htes, keepsBusy y.2 i.msg.line = false)
    (hret : retired s.m (dirSet i.msg.line) = false) (hf : dirFind s.m false i.msg.line = none) (hn : readers s.m i.msg.line = 0) :
    ∃ q, exec c s = .next { s with m := go q (tfree s.m.trk.htes 0) Env.clean } ∧ Acted s.m q ∧ s.m.onlyParts [.inbox, .trk, .ports] q
      ∧ q.inbox = [] ∧ hte q (tfree s.m.trk.htes 0) = some (unheld (snoopHte (released s.m i) i)) := by
  have hexec := exec_takers hr hi hj hroom ho hc
  have hact := entered_acted s.m i
  have hdeck : (entered (released s.m i) i).deck = s.m.deck := entered_only s.m i .deck (by decide)
  rw [snoopAct_unheld (entered_hte s.m i) (entered_case _ hb) ((retired_congr hdeck _).trans hret) ((acted_dirFind hact hdeck _ _).trans hf)
    (entered_readers (ho ▸ takers_ops hc) hn)] at hexec
  refine ⟨_, hexec, acted_trans hact (acted_setHte _ _ _), onlyParts_trans (entered_only s.m i) (onlyParts_mono (setHte_only _ _ _) (by decide)),
    entered_inbox s.m i, hte_setHte_same _ _ _⟩

theorem exec_unheld_ria (hr : running s.m = true) (hi : s.m.inbox = [i]) (hj : isJunction s.m = true) (hroom : snoopRoom s.m = true)
    (ho : i.msg.op = op) (hc : (c, op) ∈ takers) (hfwd : forwards op = false) (hb : ∀ y ∈ s.m.trk.htes, keepsBusy y.2 i.msg.line = false)
    (hret : retired s.m (dirSet i.msg.line) = false) (hf : dirFind s.m false i.msg.line = none) (hn : readers s.m i.msg.line = 0)
    (hd : i.msg.src ≠ nodeId s.m) (hp : routeOf s.m (epochFor s.m i.msg.epoch) i.msg.src = some p) :
    ∃ t, exec c s = .next { s with m := t } ∧ s.m.onlyParts (.inbox :: .trk :: .ports :: Part.report) t ∧ t.inbox = []
      ∧ hte t (tfree s.m.trk.htes 0) = some (answered (unheld (snoopHte (released s.m i) i)))
      ∧ hteSends t p (tfree s.m.trk.htes 0) (AsSent s.m (answerMsg (unheld (snoopHte (released s.m i) i)) { op := .ria })) := by
  obtain ⟨q, hexec, hact, hparts, hinbox, hx⟩ := exec_unheld hr hi hj hroom ho hc hb hret hf hn
  obtain ⟨g1, g2, g3⟩ := go_answers (p := p) Env.clean hx rfl rfl rfl rfl rfl
    (by show (if forwards i.msg.op then Cont.snoopData else .snoopAnswer) = _; rw [ho, hfwd, if_neg Bool.false_ne_true]) rfl
    (by rw [acted_node hact]; exact hd)
    (by rw [acted_routes hact]; exact (congrArg (fun e => routeOf s.m e i.msg.src) (snoopHte_epoch s.m i)).trans hp)
  exact ⟨_, hexec, onlyParts_trans (onlyParts_mono hparts (by decide)) (onlyParts_mono g1 (by decide)), (g1 .inbox (by decide)).trans hinbox, g2,
    hteSends_mono g3 fun r hr => acted_asSent hact hr⟩

theorem exec_unheld_forward {q : Nat} (hr : running s.m = true) (hi : s.m.inbox = [i]) (hj : isJunction s.m = true)
    (hroom : snoopRoom s.m = true) (ho : i.msg.op = op) (hc : (c, op) ∈ takers) (hfwd : op ∈ [Op.sfs, .sfo, .sfc])
    (hb : ∀ y ∈ s.m.trk.htes, keepsBusy y.2 i.msg.line = false) (hret : retired s.m (dirSet i.msg.line) = false)
    (hf : dirFind s.m false i.msg.line = none) (hn : readers s.m i.msg.line = 0) (hd : i.msg.src ≠ nodeId s.m) (hfn : i.msg.fnode ≠ nodeId s.m)
    (hp : routeOf s.m (epochFor s.m i.msg.epoch) i.msg.src = some p) (hq : routeOf s.m (epochFor s.m i.msg.epoch) i.msg.fnode = some q) :
    ∃ t, exec c s = .next { s with m := t } ∧ s.m.onlyParts (.inbox :: .trk :: .ports :: .free :: Part.report) t ∧ t.inbox = []
      ∧ hte t (tfree s.m.trk.htes 0) = some (answered (unheld (snoopHte (released s.m i) i)))
      ∧ hteSends t p (tfree s.m.trk.htes 0)
          (AsSent s.m (answerMsg (unheld (snoopHte (released s.m i) i)) { op := (forwardOps i.msg.op).1 }))
      ∧ hteSends t q (tfree s.m.trk.htes 0) (fun r => ∃ d, AsSent s.m (poisonMsg (unheld (snoopHte (released s.m i) i)) d) r) := by
  obtain ⟨u, hexec, hact, hparts, hinbox, hx⟩ := exec_unheld hr hi hj hroom ho hc hb hret hf hn
  have hcont : (unheld (snoopHte (released s.m i) i)).cont = .snoopData := by
    show (if forwards i.msg.op then Cont.snoopData else .snoopAnswer) = _
    rw [ho]
    simp only [List.mem_cons, List.not_mem_nil, or_false] at hfwd
    rcases hfwd with rfl | rfl | rfl <;> rfl
  have hroute (d : NodeId) : routeOf u (unheld (snoopHte (released s.m i) i)).epoch d = routeOf s.m (epochFor s.m i.msg.epoch) d :=
    (acted_routes hact _ _).trans (congrArg (fun e => routeOf s.m e d) (snoopHte_epoch s.m i))
  obtain ⟨g1, g2, g3, g4⟩ := go_answersForward Env.clean hx rfl rfl rfl rfl rfl hcont rfl (ho ▸ hfwd)
    (by rw [acted_node hact]; exact hd) (by rw [acted_node hact]; exact hfn) ((hroute _).trans hp) ((hroute _).trans hq)
  exact ⟨_, hexec, onlyParts_trans (onlyParts_mono hparts (by decide)) (onlyParts_mono g1 (by decide)), (g1 .inbox (by decide)).trans hinbox, g2,
    hteSends_mono g3 fun r hr => acted_asSent hact hr,
    hteSends_mono g4 fun r hr => hr.elim fun d hd => ⟨d, acted_asSent hact hd⟩⟩

theorem exec_owned {k o : Nat} (hr : running s.m = true) (hi : s.m.inbox = [i]) (hj : isJunction s.m = true) (hroom : snoopRoom s.m = true)
    (ho : i.msg.op = op) (hc : (c, op) ∈ takers) (hb : ∀ y ∈ s.m.trk.htes, keepsBusy y.2 i.msg.line = false)
    (hret : retired s.m (dirSet i.msg.line) = false) (hf : dirFind s.m false i.msg.line = some k) (hst : (dirEnt s.m k).st = .x)
    (hown : (dirEnt s.m k).owner.toNat = o) (hlive : snoopable s.m (epochFor s.m i.msg.epoch) o = true)
    (hd : nodeOf s.m (epochFor s.m i.msg.epoch) o ≠ nodeId s.m)
    (hp : routeOf s.m (epochFor s.m i.msg.epoch) (nodeOf s.m (epochFor s.m i.msg.epoch) o) = some p) :
    ∃ t, exec c s = .next { s with m := t } ∧ t.inbox = [] ∧ s.m.onlyParts (.inbox :: .trk :: .ports :: Part.report) t
      ∧ hte t (tfree s.m.trk.htes 0) = some (asked (asking (snoopHte (released s.m i) i) k o) (ownerAwait op o))
      ∧ hteSends t p (tfree s.m.trk.htes 0) (PassedOn s.m (snoopHte (released s.m i) i) o) := by
  have hexec := exec_takers hr hi hj hroom ho hc
  have hact := entered_acted s.m i
  have hdeck : (entered (released s.m i) i).deck = s.m.deck := entered_only s.m i .deck (by decide)
  have hx := entered_hte s.m i
  have hparts := entered_only s.m i
  have hinbox := entered_inbox s.m i
  have hcase := entered_case (i := i) i.msg.op hb
  have hent := dirEnt_congr hdeck k
  have hep := snoopHte_epoch s.m i
  have hmsg : (snoopHte (released s.m i) i).msg = i.msg := rfl
  generalize entered (released s.m i) i = q at hexec hact hdeck hx hparts hinbox hcase hent
  have hnode : nodeOf q (snoopHte (released s.m i) i).epoch o = nodeOf s.m (epochFor s.m i.msg.epoch) o := by rw [acted_nodeOf hact, hep]
  obtain ⟨n, hn, heq⟩ := snoopAct_owned (k := k) (o := o) (p := p) hx (by rw [hmsg, ho]; exact takers_ops hc) hcase
    ((retired_congr hdeck _).trans hret) ((acted_dirFind hact hdeck _ _).trans hf) (by rw [hent]; exact hst) (by rw [hent]; exact hown)
    (by rw [acted_snoopable hact, hep]; exact hlive) (by rw [hnode, acted_node hact]; exact hd)
    (by rw [hnode, acted_routes hact, hep]; exact hp)
  rw [heq, hmsg, ho] at hexec
  obtain ⟨g1, g2, g3⟩ := go_asked (a := ownerAwait op o) Env.clean hn rfl rfl
  refine ⟨_, hexec, (g1 .inbox (by decide)).trans hinbox, onlyParts_trans (onlyParts_mono hparts (by decide)) (onlyParts_mono g1 (by decide)), g2,
    hteSends_mono g3 fun r hr => ?_⟩
  obtain ⟨r1, r2, r3⟩ := hr
  exact ⟨r1, r2.trans (acted_nodeOf hact _ _), r3⟩

end

/-! ### A deferred snoop (R492) -/

theorem exec_deferred {s : State} {h : HteIx} {x : Hte} {p : Nat} (hr : running s.m = true) (hx : hte s.m h.val = some x) (hk : x.kind = .active)
    (hj : x.job = .snoop) (hw : x.wait = .deferred) (ha : x.awaits = []) (hdn : x.done = false) (hcs : x.cmps = [])
    (hfwd : forwards x.msg.op = false) (hcase : snoopCase s.m h.val x.msg.op x.msg.line = .act)
    (hret : retired s.m (dirSet x.msg.line) = false) (hf : dirFind s.m false x.msg.line = none) (hn : readers s.m x.msg.line = 0)
    (hd : x.msg.src ≠ nodeId s.m) (hp : routeOf s.m x.epoch x.msg.src = some p) :
    ∃ t, exec (.jctSnoopDeferred h Env.clean) s = .next { s with m := t } ∧ s.m.onlyParts (.trk :: .ports :: Part.report) t
      ∧ hte t h.val = some (answered (unheld (deciding x)))
      ∧ hteSends t p h.val (AsSent s.m (answerMsg (unheld (deciding x)) { op := .ria })) := by
  have hset := hte_setHte_same s.m h.val (deciding x)
  have hunheld := snoopAct_unheld (m := setHte s.m h.val (deciding x)) hset ((snoopCase_setHte hx _ _).trans hcase) hret hf
    (readers_setHte hx hn rfl)
  rw [setHte_setHte] at hunheld
  have hrun : (match hte s.m h.val with
      | some x => if x.job = .snoop && x.wait = .deferred then go (snoopAct (waitFor s.m h.val .none) h.val Env.clean) h.val Env.clean else s.m
      | none => s.m) = go (setHte s.m h.val (unheld (deciding x))) h.val Env.clean := by
    rw [hx]
    dsimp only
    rw [if_pos (by simp [hj, hw]), waitFor_eq hx, ← hunheld]
    rfl
  obtain ⟨g1, g2, g3⟩ := go_answers (m := setHte s.m h.val (unheld (deciding x))) (p := p) Env.clean (hte_setHte_same _ _ _) rfl hcs ha rfl hdn
    (by show (if forwards x.msg.op then Cont.snoopData else .snoopAnswer) = _; rw [hfwd, if_neg Bool.false_ne_true]) hk hd hp
  exact ⟨_, clocked_next (f := fun m => match hte m h.val with
      | some x => if x.job = .snoop && x.wait = .deferred then go (snoopAct (waitFor m h.val .none) h.val Env.clean) h.val Env.clean else m
      | none => m) hr hrun, onlyParts_trans (onlyParts_mono (setHte_only _ _ _) (by decide)) g1, g2, g3⟩

/-! ### Pushes (R135) -/

/-- The junction's answer to a push. -/
def declineMsg (g : Msg) : Msg := { op := .dec, dest := g.src, tag := g.tag, htag := g.htag, line := g.line, epoch := g.epoch }

theorem exec_spu {s : State} {i : InMsg} {p : Nat} (hr : running s.m = true) (hi : s.m.inbox = [i]) (ho : i.msg.op = .spu)
    (hj : isJunction s.m = true) (hd : i.msg.src ≠ nodeId s.m) (hp : routeOf s.m (epochFor s.m i.msg.epoch) i.msg.src = some p) :
    ∃ t, exec (.spu Env.clean) s = .next { s with m := t } ∧ t.inbox = [] ∧ s.m.onlyParts (.inbox :: .ports :: Part.report) t
      ∧ ∃ y ∈ (port t p).txq, AsSent s.m (declineMsg i.msg) y.msg := by
  have hact := released_acted s.m i
  have hparts := released_only s.m i
  have hinbox := released_inbox s.m i
  have hrun : execSpu Env.clean s = .next { s with m := send (released s.m i) 16 none (epochFor s.m i.msg.epoch) (declineMsg i.msg) } := by
    refine clocked_next hr ?_
    rw [takeInbox_single (f := fun g => decide (g.op = .spu)) hi (decide_eq_true ho)]
    dsimp only
    rw [isJunction_congr (onlyRegs_of_only (as := []) hparts (by decide)) (by decide), hj, if_neg (by simp),
      epochFor_congr (acted_cfg hact)]
    rfl
  generalize released s.m i = q at hact hparts hinbox hrun
  have hd' : (declineMsg i.msg).dest ≠ nodeId q := by
    rw [acted_node hact]
    exact hd
  have hp' : routeOf q (epochFor s.m i.msg.epoch) (declineMsg i.msg).dest = some p := (acted_routes hact _ _).trans hp
  have hsend : q.onlyParts (.ports :: Part.report) (send q 16 none (epochFor s.m i.msg.epoch) (declineMsg i.msg)) := by
    rw [send_routed hd' hp']
    exact onlyParts_trans (onlyParts_mono (tally_only _ _ _ _) (by decide)) (onlyParts_mono (enqueue_only _ _ _ _ _) (by decide))
  obtain ⟨y, hy, -, -, hm⟩ := send_mem (src := 16) (o := none) hd' hp'
  exact ⟨_, hrun, (hsend .inbox (by decide)).trans hinbox, onlyParts_trans (onlyParts_mono hparts (by decide)) (onlyParts_mono hsend (by decide)),
    y, hy, acted_asSent hact hm⟩

/-- Settles O45: a snoop acts by the junction's entry for its line, and without one it is answered as by a member in I. -/
theorem junctionAnswersSnoops : Obligations.JunctionAnswersSnoops := by
  unfold Obligations.JunctionAnswersSnoops
  refine ⟨?_, ?_, ?_, ?_, ?_⟩
  · intro s g op c p hr hin hj ho hroom hb hret hf hn hd hp hc
    obtain ⟨i, hi, rfl⟩ := List.map_eq_singleton_iff.1 hin
    have hsub : (c, op) ∈ takers := List.subset_def.1 (by simp [takers]) hc
    have hfwd : forwards op = false := by
      have hall : ∀ z ∈ ([(.sin Env.clean, .sin), (.src Env.clean, .src), (.swp Env.clean, .swp), (.jctSnoopHteGrant, .sin),
        (.jctSnoopHteGrant, .src), (.jctSnoopHteGrant, .swp)] : List (Instr × Op)), forwards z.2 = false := by simp [forwards]
      exact hall _ hc
    obtain ⟨t, hexec, hparts, hinbox, hte, hsent⟩ := exec_unheld_ria hr hi hj hroom ho hsub hfwd hb hret hf hn hd hp
    refine ⟨_, _, hexec, hinbox, hte, rfl, rfl, hteSends_mono hsent fun r hr => ?_, hparts, rfl, rfl⟩
    obtain ⟨d, rfl⟩ := hr
    exact ⟨rfl, rfl, rfl, rfl, rfl, rfl⟩
  · intro s g op rop dop c p q hr hin hj ho hroom hb hret hf hn hd hfn hp hq hc
    obtain ⟨i, hi, rfl⟩ := List.map_eq_singleton_iff.1 hin
    have hkind : (c, op) ∈ takers ∧ op ∈ [Op.sfs, .sfo, .sfc] ∧ forwardOps op = (rop, dop) := by
      simp only [List.mem_cons, List.not_mem_nil, or_false, Prod.mk.injEq] at hc
      rcases hc with ⟨rfl, rfl, rfl, rfl⟩ | ⟨rfl, rfl, rfl, rfl⟩ | ⟨rfl, rfl, rfl, rfl⟩
      · exact ⟨by simp [takers], by simp, rfl⟩
      · exact ⟨by simp [takers], by simp, rfl⟩
      · exact ⟨by simp [takers], by simp, rfl⟩
    obtain ⟨hsub, hfwd, hops⟩ := hkind
    obtain ⟨t, hexec, hparts, hinbox, hte, hreply, hdata⟩ := exec_unheld_forward hr hi hj hroom ho hsub hfwd hb hret hf hn hd hfn hp hq
    refine ⟨_, _, hexec, hinbox, hte, rfl, rfl, hteSends_mono hreply fun r hr => ?_, hteSends_mono hdata fun r hr => ?_, hparts, rfl, rfl⟩
    · obtain ⟨d, rfl⟩ := hr
      refine ⟨?_, rfl, rfl, rfl, rfl, rfl⟩
      show (forwardOps i.msg.op).1 = rop
      rw [ho, hops]
    · obtain ⟨d, e, rfl⟩ := hr
      refine ⟨?_, rfl, rfl, rfl, rfl, rfl⟩
      show (forwardOps i.msg.op).2 = dop
      rw [ho, hops]
  · intro s g op c k p d hr hin hj ho hroom hb hret hf hent hst hlive hd hp hc
    subst hent
    obtain ⟨i, hi, rfl⟩ := List.map_eq_singleton_iff.1 hin
    have hsub : (c, op) ∈ takers := List.subset_def.1 (by simp [takers]) hc
    obtain ⟨t, hexec, hinbox, hparts, hte, hsent⟩ := exec_owned hr hi hj hroom ho hsub hb hret hf hst rfl hlive hd hp
    have hep := snoopHte_epoch s.m i
    refine ⟨_, _, hexec, hinbox, hte, rfl, rfl, rfl, ?_, ?_, hteSends_mono hsent fun r hr => ?_, hparts, rfl, rfl⟩
    · show [] ++ [ownerAwait op (dirEnt s.m k).owner.toNat] = _
      rw [List.nil_append]
      rfl
    · show ownedFin i.msg.op i.msg.line (snoopHte (released s.m i) i).epoch none (dirEnt s.m k).owner.toNat = _
      rw [ho, hep]
      rfl
    · obtain ⟨r1, r2, r3⟩ := hr
      have hx : (snoopHte (released s.m i) i).msg.op = op := ho
      rw [hx] at r3
      rw [hep] at r2
      exact ⟨r1, r2, r3⟩
  · intro s h x p hr hx hk hj hw ha hdn hcs hfwd hcase hret hf hn hd hp
    obtain ⟨t, hexec, hparts, hte, hsent⟩ := exec_deferred hr hx hk hj hw ha hdn hcs hfwd hcase hret hf hn hd hp
    refine ⟨_, _, hexec, hte, rfl, hteSends_mono hsent fun r hr => ?_, hparts, rfl, rfl⟩
    obtain ⟨d, rfl⟩ := hr
    exact ⟨rfl, rfl, rfl, rfl⟩
  · intro s g p hr hin ho hj hd hp
    obtain ⟨i, hi, rfl⟩ := List.map_eq_singleton_iff.1 hin
    obtain ⟨t, hexec, hinbox, hparts, y, hy, hm⟩ := exec_spu hr hi ho hj hd hp
    refine ⟨_, hexec, hinbox, ⟨y, hy, ?_⟩, hparts, rfl, rfl⟩
    obtain ⟨d, hm⟩ := hm
    rw [hm]
    exact ⟨rfl, rfl, rfl, rfl, rfl⟩

end Sys2Proof.JunctionSnoops
end
